-- ==== Sys2Proof/Word.lean ====
section
/-! DEFINITION. The word types of the block and nothing else: a byte and the 64-bit word of Zalug, of the
descriptors and of the registers. Their bit fields are read in Machine/Bits.lean. -/

namespace Sys2Proof

/-- A byte of device memory, of the mailbox buffers or of a frame's payload. -/
abbrev Byte := BitVec 8

/-- The 64-bit word of instruction words, general registers, descriptors and records (R101, R103). -/
abbrev Word := BitVec 64

end Sys2Proof
end

