-- ==== Sys2Proof/Syntax.lean ====
section
/-! DEFINITION. The commands of the block: one constructor per row of spec/opcode_table.json, and the types of
their operands. The table gives no row any bits, so the operands are the model's: the unit a step acts on
(a channel, a hive, a queue, a link, a peer chip), and what reaches the block from outside in that step. -/

namespace Sys2Proof

/-- A frame as R284 lays it out: the fields of W0 to W5 and the payload, decrypted. Whether its tag
verifies under the link's key is an operand of its arrival. -/
structure Frame where
  dst : Nat
  src : Nat
  ftype : Nat
  hops : Nat
  level : Nat
  path : Nat
  kph : Nat
  plen : Nat
  /-- some reserved (RZ) bit of the header, or of a field the type leaves RZ, is 1 -/
  rz : Bool
  lctr : Nat
  clevel : Nat
  credit : Nat
  seq : Nat
  ack : Nat
  landed : Nat
  epoch : Nat
  /-- W4 whole: an address, a fence number, or `rseq` and `status` -/
  w4 : Nat
  srcHive : Nat
  colony : Nat
  /-- W5 [31:0] -/
  opf : Nat
  payload : List Byte
  deriving DecidableEq, Repr

/-- A waggle frame (R399): the header's fields and the payload. -/
structure WFrame where
  dst : Nat
  src : Nat
  wtype : Nat
  whops : Nat
  wseq : Nat
  wbcast : Bool
  wnoid : Bool
  payload : List Byte
  deriving DecidableEq, Repr

/-- What a PMBus device answers to a Read Word (R397): nothing, too late, or two bytes, the lower first, and the PEC byte. -/
inductive PmbAnswer
  | nack
  | late
  | bytes (lo hi pec : Byte)
  deriving DecidableEq, Repr

/-- A scan of the TAP segment that is no access of its own (R458): the instruction shifted in, and for HX_TRACE the hive of
the scope. -/
structure TapScan where
  ir : Nat
  hive : Nat
  deriving DecidableEq, Repr

/-- An array that the scrubber of SRAM reads (R407, R419). -/
inductive SramArray
  /-- an SRAM instance; its entries are rows -/
  | instance_ (inst : Nat)
  /-- a set of a second-level bank; its entries are ways -/
  | level2 (bank set : Nat)
  /-- the ATS cache -/
  | ats
  deriving DecidableEq, Repr

/-- The AtomicOps of PCIe (R432). -/
inductive HostAtomic | fetchAdd | swap | cas
  deriving DecidableEq, Repr

/-- What an inbound request of R434 is that no other row serves. -/
inductive InboundKind
  /-- a memory read of `len` bytes at an offset of a BAR -/
  | memRead (bar off len : Nat)
  /-- a memory write at an offset of a BAR -/
  | memWrite (bar off len : Nat)
  /-- an I/O request: a read, or a write -/
  | ioRequest (read : Bool)
  | message
  deriving DecidableEq, Repr

/-- The answer to an ATS Translation Request (R232): a translation with its rights, or an error completion. -/
inductive AtsAnswer
  | translation (sizeLog2 : Nat) (frame : Nat) (r w : Bool)
  | error
  deriving DecidableEq, Repr

/-- The codes of a Page Request Group Response (R233). -/
inductive PrgCode | success | invalidRequest | responseFailure
  deriving DecidableEq, Repr

/-- What comes back with a read on a stream port (R447): the metadata of the line and its data. -/
structure RsData where
  rsMeta : Nat
  data : List Byte
  deriving DecidableEq, Repr

/-- Who sent a line request to a propolis unit; the number is the sender's own (a channel, a walk, a request). -/
inductive Origin
  | channel (c : Nat)
  | walker (w : Nat)
  | hostPort (k : Nat)
  | swarm (src seq : Nat)
  | scrubber
  /-- the block's own table traffic and records (R210, R319) -/
  | table
  /-- the completion record of a queue's index (R73) -/
  | record (q idx : Nat)
  deriving DecidableEq, Repr

/-- A line request as R25 has it travel: the issuing hive, the key selector, the label and its level. -/
structure LineReq where
  origin : Origin
  hive : Nat
  keySel : Nat
  label : Nat
  level : Nat
  /-- local address of the line, 128-byte aligned -/
  addr : Nat
  deriving DecidableEq, Repr

/-- One operation of an atomic at home (R146). -/
inductive AtomOp | add | max | min | xchg | cas
  deriving DecidableEq, Repr

/-- The three combining operations of R140. -/
inductive RedOp | sum | max | min
  deriving DecidableEq, Repr

/-- One contribution to an element of a line (R142): where the destination element starts in the line, the
source element's bits in format `sfmt`, and its stochastic draw. -/
structure Contribution where
  off : Nat
  bits : Nat
  draw : Nat
  deriving DecidableEq, Repr

/-- A write-kind request to a line (R312): a whole line, a merged write, a reduce or an atomic. -/
inductive WriteKind
  | whole (data : List Byte)
  | partialWrite (bytes : List (Nat × Byte))
  | reduce (op : RedOp) (sfmt acc dfmt rnd : Nat) (cs : List Contribution)
  | atomic (op : AtomOp) (is64 signed : Bool) (off operand compare : Nat)
  deriving DecidableEq, Repr

/-- What waits in a fault record (R241): a channel, a command at pre-translation or at its slot read, or a record. -/
inductive Requester
  | chan (c : Nat)
  | pre (q idx : Nat)
  /-- the completion record of a queue's index, at a host page (R231, R234) -/
  | record (q idx : Nat)
  deriving DecidableEq, Repr

/-- The request whose 16 µs stream request timeout expires (R132, R225, R253, R301). -/
inductive TimedOut
  /-- a read (`write` false) or write tag of a stream port -/
  | portTag (p : Nat) (write : Bool) (tag : Nat)
  /-- a remote transaction -/
  | remote (txn : Nat)
  /-- a flush read of host memory -/
  | hostFlush (id : Nat)
  /-- a table read of a walk -/
  | tableRead (walk : Nat)
  /-- a table read of a walk that the pre-translation of a command makes -/
  | preRead (q idx : Nat)
  /-- a table read of a walk that the `QUEUE_BIND` of a channel makes -/
  | bindRead (c : Nat)
  /-- a line of the channel's own instruction, at a stream port -/
  | line (c : Nat)
  /-- a request of an origin that waits at its unit for an opening slice, a line lock or the port -/
  | waiting (o : Origin) (addr : Nat)
  /-- the slot read of a queue's index -/
  | slotRead (q idx : Nat)
  /-- a table read of the walk that the slot read of a queue's index makes -/
  | slotWalk (q idx : Nat)
  /-- a read of host memory -/
  | hostRead (id : Nat)
  deriving DecidableEq, Repr

/-- The operation that has overrun twice its bound (R345). -/
inductive Overrun
  | commandAbort (c : Nat)
  | queueReset (q : Nat)
  | contextKill (ctx : Nat)
  | hiveReset (h : Nat)
  | warmReset
  deriving DecidableEq, Repr

/-- The two fast clock domains that the keeper starts and stops (R15). -/
inductive Dom | control | stream
  deriving DecidableEq, Repr

/-- A unit that R354 gates on its own. -/
inductive GUnit | mover (m : Nat) | propolis (p : Nat) | link (l : Nat)
  deriving DecidableEq, Repr

/-- The unit an error report of R412 names. -/
inductive ErrUnit
  | mover (m : Nat)
  | way (bank set way : Nat)
  | keyRow (slot : Nat)
  | sram (inst row : Nat)
  | lane (link lane : Nat)
  /-- a propolis unit's fresh-cell bitmap word: 64 slices from cell `cell` on (R314) -/
  | bitmapWord (port cell : Nat)
  | fenceCacheLine (f : Nat)
  /-- a row of context (`queue` false) or queue storage, with the hive the brood attributes it to, if it can (R418) -/
  | ctxOrQueueStorage (queue : Bool) (row : Nat) (hive : Option Nat)
  | routeCopy (chip : Nat)
  | flowRow (peer : Nat)
  /-- a row of the owner map, the label table or the pin table, or scheduler and sequencer state (R418) -/
  | blockStorage (inst row : Nat)
  | firstLevel (mover entry : Nat)
  | directory (entry : Nat)
  /-- a line of a cluster's scratchpad: a parity error is the target's poison (R447) -/
  | spadLine (n off : Nat)
  /-- an entry of the ATS cache (R224) -/
  | atsEntry (entry : Nat)
  /-- the path of the key loads: the next one fails its unwrap (R367) -/
  | keyPath
  | keeper
  deriving DecidableEq, Repr

/-- The three severities that R412 and R413 count apart. -/
inductive ErrKind | corrected | uncorrectable | parity
  deriving DecidableEq, Repr

/-- The shared points of R326. -/
inductive SharedPoint | port (p : Nat) | linkSender (l : Nat) | hostOut
  deriving DecidableEq, Repr

/-- The commands. The names are the table's mnemonics in lower camel case. -/
inductive Instr
  -- tenant instructions, each run by the channel `c` whose current word it is
  | ret (c : Nat)
  | moveSpan (c : Nat)
  | moveGset (c : Nat)
  | moveTset (c : Nat)
  | moveT (c : Nat)
  | gather (c : Nat)
  | scatter (c : Nat)
  | fill (c : Nat)
  | reduce (c : Nat)
  | convert (c : Nat)
  | reduceCvt (c : Nat)
  | atomAdd (c : Nat)
  | atomMax (c : Nat)
  | atomMin (c : Nat)
  | atomXchg (c : Nat)
  | atomCas (c : Nat)
  | signal (c : Nat)
  | wait (c : Nat)
  | flush (c : Nat)
  | cap (c : Nat)
  | loop (c : Nat)
  | br (c : Nat)
  | setp (c : Nat)
  | ldG (c : Nat)
  | stG (c : Nat)
  | call (c : Nat)
  | launch (c : Nat)
  | launchQuery (c : Nat)
  | launchReservation (h : Nat)
  -- manager instructions, run by a channel that holds a command of queue 0
  | hiveCreate (c : Nat)
  | hiveResize (c : Nat)
  | hiveReset (c : Nat)
  | hiveDestroy (c : Nat)
  | colonyJoin (c : Nat)
  | combGrantAttach (c : Nat)
  | combGrantRights (c : Nat)
  | combGrantDetach (c : Nat)
  | keyDeriveLink (c : Nat)
  | keyDeriveFingerprint (c : Nat)
  | ctxCreate (c : Nat)
  | ctxKill (c : Nat)
  | queueBind (c : Nat)
  | queueReset (c : Nat)
  | queueUnbind (c : Nat)
  | labelSet (c : Nat)
  | invalidatePages (c : Nat)
  | invalidateContext (c : Nat)
  | invalidateObject (c : Nat)
  | invalidateFence (c : Nat)
  | resume (c : Nat)
  | migrate (c : Nat)
  | migrateRoundDone (h : Nat)
  | migrateDrainDone (h : Nat)
  | migrateFreezeTimeout (h : Nat)
  | queryCtx (c : Nat)
  | queryHive (c : Nat)
  | spareSwap (c : Nat)
  | spareSwapTimeout (uclass unit sub : Nat)
  | spareRetryTimer (m : Nat)
  | moverQuietPoint (m : Nat)
  | homeSideSwitch (m : Nat)
  -- mailbox commands, run from `mb_cmd` and the argument buffer; a Bool is the verdict of the P-384 engine
  | lcQuery
  | provBegin
  | provInject (sigOk sealOk keyOk : Bool)
  | lcAdvance
  | ownerEnrol (sigOk : Bool)
  | ownerRevoke (sigOk : Bool)
  | dbgChallenge
  | dbgUnlock (sigOk : Bool)
  | dbgRelock
  | attest
  | arbCommit (otherSigOk : Bool)
  | scrap (sigOk : Bool)
  | warmReset
  | reboot
  | pwrCap
  | pwrQuery
  | imgStage
  | imgCheck (sigOk : Bool)
  | setApply (sigA sigB : Bool)
  | logRead
  | waggleQuery
  | waggleSend
  -- host port
  | registerWrite (bar off : Nat) (data : List Byte)
  | doorbellWrite (page off : Nat) (be : Nat) (data : List Byte)
  | faultAnswer (w : Word)
  | eventConsumed (w : Word)
  | faultConsumed (w : Word)
  | routeReload (w : Word)
  | windowEntryWrite (i : Nat) (w : Word)
  | apertureRead (off len : Nat)
  | apertureWrite (off : Nat) (data : List Byte)
  | apertureAtomicop (bar off : Nat) (op : HostAtomic) (size operand compare : Nat)
  | fenceWindowRead (off size : Nat)
  | inboundUnsupportedRequest (k : InboundKind)
  | msixMessageSend (v : Nat)
  | atsTranslationCompletion (id : Nat) (a : AtsAnswer)
  | atsRequestTimeout (id : Nat)
  | atsInvalidationRequest (itag : Nat) (pasid : Option Nat) (va sizeLog2 : Nat)
  | prgResponse (pasid group : Nat) (code : PrgCode)
  | hostFlushReadCompletion (id : Nat)
  | pcieConventionalReset
  | functionLevelReset
  -- the path of one command
  | slotFetch (q : Nat)
  | slotReadDone (q idx : Nat)
  | preTranslate (q idx : Nat)
  | preTranslationTimeout (q idx : Nat)
  | dispatch (c : Nat)
  | commandComplete (c : Nat)
  | abortSettleDone (c : Nat)
  -- stream ports
  | streamResponse (p : Nat) (write : Bool) (tag : Nat) (corr err poison : Bool) (m : RsData)
  | streamRequestTimeout (t : TimedOut)
  | creditReturn (p req wd : Nat)
  | initialCreditTimeout (p : Nat)
  -- translation, watchdogs and fences
  | tableWalkDone (w : Nat)
  | pageFaultServiceTimeout (r : Requester)
  | queueWatchdogExpiry (c : Nat)
  | waitTimeout (c : Nat)
  | fenceCacheFillDone (f : Nat)
  | fenceCacheWriteback (f : Nat)
  | fenceTableSweepDone
  | resetEscalation (o : Overrun)
  -- clusters
  | clusterFault (n : Nat)
  | clusterPowerGood (n : Nat)
  | clusterClearDone (n spadLog2 : Nat)
  | clusterClearTimeout (n : Nat)
  | kernelEnd (n exit : Nat) (writes : List (Nat × Byte))
  | clusterInterrupt (n : Nat)
  | resizeTimeout (h : Nat)
  -- regulator
  | labelWindowBoundary (l : Nat)
  | meterRefresh
  | arbiterAgeExpiry (p : SharedPoint) (k : Nat)
  | powerCapSample (readings : List PmbAnswer)
  -- propolis
  | propolisRead (r : LineReq)
  | propolisWrite (r : LineReq) (k : WriteKind)
  | sliceOpeningDone (cell port : Nat)
  | memoryScrub (addr : Nat) (corr err poison : Bool) (m : Option RsData)
  | sramScrub (a : SramArray) (entry : Nat) (corr uncorr : Bool)
  -- errors and wear
  | errorReport (u : ErrUnit) (k : ErrKind)
  | wearBucketRoll
  | wearCountSave
  | logPersist
  -- swarm frames: the arrival, then the performance of each accepted frame by its type
  | swarmFrameReceive (link : Nat) (f : Frame) (tagOk : Bool)
  | probe (link : Nat)
  | ack (src : Nat)
  | opn (src : Nat)
  | close (src : Nat)
  | hello (link : Nat) (verified : Bool)
  | keyx (link : Nat)
  | write (src seq : Nat)
  | writep (src seq : Nat)
  | reduceFrame (src seq : Nat)
  | atom (src seq : Nat)
  | read (src seq : Nat)
  | waitFrame (src seq : Nat)
  | rdata (src seq : Nat)
  | resp (src seq : Nat)
  -- swarm links and flows
  | pcsLock (link : Nat)
  | pcsLockLoss (link : Nat)
  | linkSilenceTimeout (link : Nat)
  | holdDownEnd (link : Nat)
  | helloRepeat (link : Nat)
  | keyxRepeat (link : Nat)
  | openRepeat (peer : Nat)
  | probeInterval (link : Nat)
  | ackDelay (peer : Nat)
  | retransmitTimeout (peer seq : Nat)
  | oldKeyRetire (link : Nat)
  | sprayEnter (peer : Nat)
  | orderedReturn (peer : Nat)
  | flowIdleClose (peer : Nat)
  | flowUnreachableTimeout (peer : Nat)
  | forwardQueueTimeout (k : Nat)
  -- clocks, power and resets
  | refclkLoss
  | refclkRestore
  | clockStartDemand (d : Dom)
  | clockLock (d : Dom)
  | clockStartTimeout (d : Dom)
  | clockIdleStop (d : Dom)
  | unitGate (u : GUnit)
  | unitWake (u : GUnit)
  | blockWarmReset
  | coldReset
  | coldBoot (fwA fwB setA setB : Bool)
  | brownOut
  | keeperWatchdogExpiry
  -- vault events
  | drbgReseed
  | drbgHealthFail
  | challengeExpiry
  | fuseVppTimeout
  -- waggle ring
  | presence
  | wake
  | capFrame
  | out
  | echo
  | echoReply
  | waggleFrameReceive (wire : List Byte)
  | presenceTimer
  | censusAgeOut (k : Nat)
  | waggleCapExpiry
  | outWaitTimeout
  -- debug port, host completions, fuses and PCIe state
  | dbgWinAccess (op space hive addr : Nat) (data : Word)
  | tapMboxAccess (off : Nat) (isWrite : Bool) (data : Word)
  | tapTraceRead (x : TapScan)
  | hostReadCompletion (id : Nat) (ok : Bool) (data : List Byte)
  | fusePulseEnd (blown : Bool)
  | fuseVppOk
  | priEnableChange (ats : Bool) (pri : Option Nat)
  | pciePowerStateChange (d3hot : Bool)
  deriving DecidableEq, Repr

end Sys2Proof
end

