-- ==== Sys2Proof/Decode.lean ====
section
/-! DEFINITION. The command that a word spells by the bits of spec/opcode_table.json. No row of the table has any
bits, so no word spells a command. Zalug's own words (R103 to R108), which a channel decodes, are read in
Machine/Operands.lean. -/

namespace Sys2Proof

/-- The table gives its rows no bits: no word of any length spells a command. -/
def decodeTableWord (_nbits _w : Nat) : Option Instr := none

end Sys2Proof
end

