-- ==== Sys2Proof/Config.lean ====
section
/-! DEFINITION. What one part fixes: the counts of R3 and R27 as the part ships, the fixed codes of R34, R358
and R365, and the values the spec leaves open, each an opaque constant that no proof can evaluate. -/

namespace Sys2Proof.Config

/-! ## Counts of the shipped part (R3, R27) -/

def hives : Nat := 255
def noHive : Nat := 255
def contexts : Nat := 16384
def queues : Nat := 4096
def vectors : Nat := 2048
def labels : Nat := 4096
/-- R319: the label of a request that has none. -/
def noLabel : Nat := 4096
def moversInService : Nat := 64
def moversBuilt : Nat := 80
def channelsPerMover : Nat := 8
def channels : Nat := 512
def memPorts : Nat := 64
def corePorts : Nat := 32
def fences : Nat := 1048576
def fenceCacheSize : Nat := 8192
def objects : Nat := 65536
def links : Nat := 16
def maxFlows : Nat := 4096
def maxTxns : Nat := 32768
/-- R302: the retransmit buffer, in bytes. -/
def retxBytes : Nat := 16 * 2 ^ 20
/-- The link number that the model writes for a frame of the chip's own that waits for credit. -/
def ownLink : Nat := 16
def commandPins : Nat := 8192
def clustersMax : Nat := 256
def combsPerHive : Nat := 16
def ringRecords : Nat := 4096
def fetchedPerQueue : Nat := 16
def fetchedInBlock : Nat := 16384
def dispatchedPerQueue : Nat := 16
def logRecords : Nat := 1024
def flashLogRecords : Nat := 2048
def l1Entries : Nat := 32
def dirEntries : Nat := 512
def atsEntries : Nat := 4096
def migrations : Nat := 4
def dirtySets : Nat := 512
def dirtyWays : Nat := 16
def keySlotsInService : Nat := 288
def tweakEntries : Nat := 64
def lineLocks : Nat := 64
def openings : Nat := 8
def flowWindow : Nat := 1024
def blockElems : Nat := 32

/-- R27 word 9: `fmt_io`, the formats a tile may carry. -/
def fmtIo : Nat := 0x7FFF
/-- R27 word 9: `fmt_accum`. -/
def fmtAccum : Nat := 0x4001
/-- R27 word 9: `rounding`. -/
def rounding : Nat := 0x07

/-- R34: the manager colony, which no other hive may hold. -/
def managerColony : Nat := 0xFFFFFF

/-- R358: the lifecycle codes. -/
def lcTest : Nat := 0x0000A5C3
def lcProduction : Nat := 0x96E1A5C3
def lcEndOfLife : Nat := 0xFFFFFFFF

/-- R386: `img_magic`. -/
def imgMagic : Nat := 0x57484B31

/-- R366: the order of the P-384 group (FIPS 186). -/
def p384Order : Nat :=
  0xFFFFFFFFFFFFFFFFFFFFFFFFFFFFFFFFFFFFFFFFFFFFFFFFC7634D81F4372DDF581A0DB248B0A77AECEC196ACCC52973

/-- R172: the seed that stands in for a zero `g[gseed]`. -/
def zeroSeed : Nat := 0x9E3779B97F4A7C15

/-! ## Values the spec leaves open

Each is opaque: nothing in Lean can evaluate it. They are applied to State's counter `free`, which a step
that draws one advances, or to the operands they depend on. -/

/-- A number the spec leaves open: a count of clock cycles charged (R79, R126), a draw of the DRBG's order. -/
opaque freeNat : Nat → Nat

/-- R16, R277: control-clock cycles between a keeper tick and the next: the domains are asynchronous. -/
opaque controlCycles : (tick : Nat) → Nat

/-- R256: ID-Based Ordering of bulk writes to host memory, and both ordering attributes of reads, which the spec leaves open. -/
opaque bulkIdOrdered : Bool
opaque readRelaxed : Bool
opaque readIdOrdered : Bool

/-- A 64-bit value the spec leaves open: data that is undefined when an answer carries an error (R300, R432). -/
opaque freeWord : Nat → Word

/-- Bytes the spec leaves open, `n` of them: draws of the DRBG and of the entropy source, ephemeral keys and
signatures made with them (R365, R372). -/
opaque freeBytes : (draw n : Nat) → List Byte

/-- A byte of a scratchpad whose contents are undefined since draw `draw` (R121). -/
opaque freeSpad : (draw off : Nat) → Byte

/-- R136, R177: whether the element that a tile instruction writes takes an overlapping source as it stood before the
instruction, or as an earlier write of the instruction left it. -/
opaque overlapOld : (draw elem : Nat) → Bool

/-- R221: the set of the ATS cache that holds a translation of a context, page and size; the spec gives no placement. -/
opaque atsSet : (ctx va sizeLog2 : Nat) → Nat

/-- R90: the binding of a fence whose table line has failed: the word that held it could not be read. -/
opaque fenceBinding : (draw : Nat) → Word

/-- SHA-384, which R362, R366, R373 and R376 name by its standard. -/
opaque sha384 : List Byte → List Byte

/-- HKDF-Extract with SHA-384 (R288, R366): salt and input keying material. -/
opaque hkdfExtract : (salt ikm : List Byte) → List Byte

/-- HKDF-Expand with SHA-384 (R288, R366): pseudorandom key, info and length. -/
opaque hkdfExpand : (prk info : List Byte) → Nat → List Byte

/-- HKDF (R366): both in a row. -/
def hkdf (salt ikm info : List Byte) (n : Nat) : List Byte := hkdfExpand (hkdfExtract salt ikm) info n

/-- AES-256 on one 16-byte block (R305, R308): encryption and decryption under a key. -/
opaque aes256Enc : (key block : List Byte) → List Byte
opaque aes256Dec : (key block : List Byte) → List Byte

/-- AES-256-GCM (R284): key, IV, additional data and plaintext to ciphertext followed by the 16-byte tag. -/
opaque gcmSeal : (key iv aad plain : List Byte) → List Byte

/-- AES-256-GCM opened (R369): key, IV, ciphertext and tag to plaintext, and whether the tag verifies. -/
opaque gcmOpen : (key iv sealed : List Byte) → List Byte
opaque gcmVerifies : (key iv sealed : List Byte) → Bool

/-- AES key wrap (R367): key encryption key and material. -/
opaque keyWrap : (kek material : List Byte) → List Byte

/-- HMAC with SHA-384 (R368): key and message. -/
opaque hmac384 : (key msg : List Byte) → List Byte

/-- The ECDH shared secret of two ephemeral keys (R288, R369). -/
opaque ecdh : (own peer : List Byte) → List Byte

/-- The P-384 public key of a private scalar (R366, R369). -/
opaque p384Public : (scalar : List Byte) → List Byte

/-- Whether 96 bytes are a point of P-384, so that there is a shared secret with them (R369). -/
opaque p384Point : List Byte → Bool

/-- The ECDSA P-384 signature of a digest by a private scalar (R287, R376). -/
opaque ecdsaSign : (scalar digest : List Byte) → List Byte

/-- Whether a P-384 signature verifies over a digest (R369, R373, R387), under the public key that hashes to `keyHash`. -/
opaque ecdsaVerifies : (keyHash digest signature : List Byte) → Bool

/-- The vendor test root held in the vault ROM (R364), whose bytes the spec does not print. -/
opaque vendorTestRoot : List Byte

/-- SHA-384 hashes of the vendor keys held in ROM (R369, R387): 0 provisioning, 1 firmware, 2 development,
3 vendor test root's public key. -/
opaque vendorKeyHash : Nat → List Byte

/-- R405, R407: the rows of an SRAM instance for which the spec gives no count. -/
opaque openRows : (inst : Nat) → Nat

/-- R407: the rows of 64 bytes of an SRAM instance: 16,384 where it holds 1 MiB. -/
def sramRows (inst : Nat) : Nat := if 0x210 ≤ inst ∧ inst ≤ 0x223 then 16384 else openRows inst

/-- R376, R406: how the fused map (its four rows) and the map in force (class, group, logical and physical unit) are laid
out for the hash, which the spec does not say. -/
opaque spareMap : (mover keyrow lane row : List Nat) → (map : List (Nat × Nat × Nat × Nat)) → List Byte

/-- R384: what the attached flash answers to a read of its SFDP, whether its parameter tables advertise a mode of R384's order
(0 the slowest, 3 the fastest), and its size in bytes. -/
opaque flashSfdp : List Byte
opaque flashAdvertises : (sfdp : List Byte) → (mode : Nat) → Bool
opaque flashSize : Nat

/-- R398: the VOUT_MODE that a device answers in a boot; none where its read fails. -/
opaque voutMode : (boot addr page : Nat) → Option Nat

/-- R396, R397: the 8 bytes in which `PWR_QUERY` gives a reading, which the spec does not lay out. -/
opaque powerReading : Option Int → List Byte

/-- R396, R401: the bytes in which `WAGGLE_QUERY` gives a census entry, which the spec does not lay out. -/
opaque censusEntry : (byserial : Bool) → (key : Nat) → (out : Bool) → (presence echo : List Byte) → List Byte

/-- R458: what a vendor test instruction returns; the vendor defines it. -/
opaque vendorTest : (ir draw : Nat) → Word

/-- R373: the trace word that one update of HX_TRACE returns; the spec lays out no trace word. -/
opaque traceWord : Nat → Word

/-- R459: the word of object state at an offset; the spec lays out no object offsets. -/
opaque objectWord : (hive offset draw : Nat) → Word

end Sys2Proof.Config
end

