-- ==== Sys2Proof/Machine/Bits.lean ====
section
/-! DEFINITION. Bit fields, sign extension, little-endian byte order (R4, R6), and the three containers of the state:
finite tables, byte memories in canonical form, and lists used as vectors. -/

namespace Sys2Proof.Machine

/-! ## Fields of a word -/

/-- The `n` bits of `w` from bit `lo` up. -/
def fld (w lo n : Nat) : Nat := (w >>> lo) % 2 ^ n

/-- Bit `i` of `w`. -/
def bit (w i : Nat) : Bool := fld w i 1 == 1

/-- 1 for true. -/
def b2n (b : Bool) : Nat := if b then 1 else 0

/-- The value of an `n`-bit two's-complement field. -/
def sext (n v : Nat) : Int := if v < 2 ^ (n - 1) then (v : Int) else (v : Int) - 2 ^ n

/-- An integer as the 64-bit word it wraps to. -/
def word (i : Int) : Word := BitVec.ofInt 64 i

/-- `a` plus a signed displacement, modulo 2^57: the space of device virtual addresses (R206). -/
def addVa (a : Nat) (d : Int) : Nat := ((a : Int) + d).emod (2 ^ 57) |>.toNat

/-- The 128-byte line of an address (R25). -/
def lineOf (a : Nat) : Nat := a / 128 * 128

/-- The bits of a bitmap among its first `n`, rising. -/
def bitsOf (bm n : Nat) : List Nat := (List.range n).filter (fun i => bit bm i)

/-- The bitmap that a list of bit numbers names. -/
def bitmapOf (l : List Nat) : Nat := l.foldl (fun a i => a ||| (1 <<< i)) 0

/-! ## Little-endian bytes -/

/-- The `n` bytes of a number, least significant first. -/
def leBytes : (n v : Nat) → List Byte
  | 0, _ => []
  | n + 1, v => BitVec.ofNat 8 v :: leBytes n (v >>> 8)

/-- The number that bytes spell, least significant first. -/
def leNat : List Byte → Nat
  | [] => 0
  | b :: r => b.toNat + 256 * leNat r

/-- Bytes as 64-bit words; a short tail is filled with zeros. -/
def wordsOf (n : Nat) (l : List Byte) : List Word :=
  (List.range n).map (fun i => BitVec.ofNat 64 (leNat ((l.drop (8 * i)).take 8)))

/-- Words as bytes. -/
def bytesOf (ws : List Nat) : List Byte := ws.flatMap (leBytes 8)

/-! ## Vectors held as lists -/

/-- Element `i`, or `d` past the end. -/
def nth {α : Type} (l : List α) (i : Nat) (d : α) : α := (l[i]?).getD d

/-- The list with element `i` replaced, when it has one. -/
def setNth {α : Type} (l : List α) (i : Nat) (v : α) : List α := l.set i v

/-! ## Finite tables -/

/-- A finite table: key and value pairs in rising key order. An absent key has the default of its reader. -/
abbrev Tab (α : Type) := List (Nat × α)

def Tab.look {α : Type} : Tab α → Nat → Option α
  | [], _ => none
  | (k', v) :: r, k => if k = k' then some v else Tab.look r k

def Tab.put {α : Type} : Tab α → Nat → α → Tab α
  | [], k, v => [(k, v)]
  | (k', v') :: r, k, v =>
    if k < k' then (k, v) :: (k', v') :: r
    else if k = k' then (k, v) :: r
    else (k', v') :: Tab.put r k v

def Tab.del {α : Type} (t : Tab α) (k : Nat) : Tab α := t.filter (fun e => e.1 ≠ k)

/-- The value of a key, changed by `f`; an absent key stays absent. -/
def Tab.mod {α : Type} (t : Tab α) (k : Nat) (f : α → α) : Tab α :=
  match Tab.look t k with
  | none => t
  | some v => Tab.put t k (f v)

/-- Every value changed by `f`. -/
def Tab.mapv {α : Type} (t : Tab α) (f : Nat → α → α) : Tab α := t.map (fun e => (e.1, f e.1 e.2))

/-! ## Byte memories

A list of address and byte pairs with rising addresses and no entry equal to `d`, the byte an unlisted address
reads as. -/

def cellRead (d : Byte) : List Host.Cell → Nat → Byte
  | [], _ => d
  | (a, b) :: r, x => if x = a then b else if x < a then d else cellRead d r x

def cellWrite (d : Byte) : List Host.Cell → Nat → Byte → List Host.Cell
  | [], x, v => if v = d then [] else [(x, v)]
  | (a, b) :: r, x, v =>
    if x < a then (if v = d then (a, b) :: r else (x, v) :: (a, b) :: r)
    else if x = a then (if v = d then r else (x, v) :: r)
    else (a, b) :: cellWrite d r x v

/-- Consecutive bytes from `x`. -/
def cellReadN (d : Byte) (m : List Host.Cell) (x n : Nat) : List Byte :=
  (List.range n).map (fun i => cellRead d m (x + i))

def cellWriteN (d : Byte) : List Host.Cell → Nat → List Byte → List Host.Cell
  | m, _, [] => m
  | m, x, b :: r => cellWriteN d (cellWrite d m x b) (x + 1) r

/-- Scattered bytes, in list order. -/
def cellWriteAll (d : Byte) : List Host.Cell → List (Nat × Byte) → List Host.Cell
  | m, [] => m
  | m, (x, b) :: r => cellWriteAll d (cellWrite d m x b) r

/-- The canonical form from `lo` up: rising addresses, no entry equal to `d`. -/
def cellsFrom (d : Byte) : Nat → List Host.Cell → Bool
  | _, [] => true
  | lo, (a, b) :: r => decide (lo ≤ a) && decide (b ≠ d) && cellsFrom d (a + 1) r

/-- The canonical form of a byte memory. -/
def cellsWf (d : Byte) (m : List Host.Cell) : Bool := cellsFrom d 0 m

/-! ## Check codes -/

/-- IEEE 802.3's CRC-32, low bit first (R399, log 82): one bit, one byte, a message. -/
def crc32Bit (c : Nat) : Nat := if c % 2 = 1 then (c / 2) ^^^ 0xEDB88320 else c / 2
def crc32Byte (c : Nat) (b : Byte) : Nat := (List.range 8).foldl (fun x _ => crc32Bit x) (c ^^^ b.toNat)
def crc32 (l : List Byte) : Nat := l.foldl crc32Byte 0xFFFFFFFF ^^^ 0xFFFFFFFF

/-- The Packet Error Code of SMBus (R397, log 82): a CRC-8 over x^8 + x^2 + x + 1, high bit first. -/
def pecBit (c : Nat) : Nat := if 128 ≤ c then (2 * c) ^^^ 0x107 else 2 * c
def pecByte (c : Nat) (b : Byte) : Nat := (List.range 8).foldl (fun x _ => pecBit x) (c ^^^ b.toNat)
def pec (l : List Byte) : Nat := l.foldl pecByte 0

end Sys2Proof.Machine
end

