-- ==== Sys2Proof/Machine/Crypt.lean ====
section
/-! DEFINITION. The encryption and the tag of a line in memory (R308, R310): AES-256-XTS and GHASH over the block cipher,
which the spec names by its standard and which Config leaves open. -/

namespace Sys2Proof.Machine

/-- A payload of a fixed length. -/
def sized (n : Nat) (l : List Byte) : List Byte := (l ++ List.replicate n 0).take n

/-- The 16-byte blocks of a line. -/
def blocks (l : List Byte) : List (List Byte) := (List.range 8).map (fun j => sized 16 (l.drop (16 * j)))

def xorBytes (a b : List Byte) : List Byte := List.zipWith (fun x y => x ^^^ y) a b

/-! ## The tweak (R308) -/

/-- Multiplication by α in the field of IEEE Std 1619, on 16 bytes read in little-endian order. -/
def timesAlpha (n : Nat) : Nat := (2 * n % 2 ^ 128) ^^^ (if 2 ^ 127 ≤ n then 0x87 else 0)

/-- T ⊗ α^k. -/
def alphaPow (t : Nat) : (k : Nat) → Nat
  | 0 => t
  | k + 1 => timesAlpha (alphaPow t k)

/-- R308: T of a data unit under a tweak key. -/
def unitTweak (key : List Byte) (unit : Nat) : Nat := leNat (sized 16 (Config.aes256Enc key (leBytes 16 unit)))

/-- R308: the blocks 8ℓ to 8ℓ + 7 of a data unit, through one direction of the cipher. -/
def xtsLine (cipher : List Byte → List Byte) (t l : Nat) (line : List Byte) : List Byte :=
  ((blocks line).zipIdx.map (fun e =>
    let w := leBytes 16 (alphaPow t (8 * l + e.2))
    xorBytes (sized 16 (cipher (xorBytes e.1 w))) w)).flatten

/-- Line ℓ of its data unit. -/
def lineIndex (a : Nat) : Nat := a / 128 % 32

/-- R308: a line encrypted, and decrypted, under the material of a slot: data key, tweak key, tag key. -/
def encryptLine (material : List Byte) (a : Nat) (plain : List Byte) : List Byte :=
  xtsLine (Config.aes256Enc (material.take 32)) (unitTweak ((material.drop 32).take 32) (a / 4096)) (lineIndex a) plain

def decryptLine (material : List Byte) (a : Nat) (cipher : List Byte) : List Byte :=
  xtsLine (Config.aes256Dec (material.take 32)) (unitTweak ((material.drop 32).take 32) (a / 4096)) (lineIndex a) cipher

/-! ## The tag (R310) -/

/-- GHASH's bit order: a block is the number whose most significant bit is bit 0. -/
def beNat (l : List Byte) : Nat := leNat l.reverse
def beBytes (n v : Nat) : List Byte := (leBytes n v).reverse

/-- NIST SP 800-38D: the product of two blocks: `n` more bits of `x`, with the accumulator and the shifted `v`. -/
def ghashMul (x : Nat) : (n : Nat) → (z v : Nat) → Nat
  | 0, z, _ => z
  | n + 1, z, v =>
    ghashMul x n (if x.testBit n then z ^^^ v else z) (if v % 2 = 1 then (v / 2) ^^^ (0xE1 <<< 120) else v / 2)

/-- GHASH of blocks under H. -/
def ghash (h : Nat) (bs : List (List Byte)) : Nat := bs.foldl (fun y b => ghashMul (y ^^^ beNat b) 128 0 h) 0

/-- R305: H of a tag key. -/
def hashKeyOf (material : List Byte) : List Byte := sized 16 (Config.aes256Enc ((material.drop 64).take 32) (List.replicate 16 0))

/-- R310: the tag of a line's ciphertext, in the DATA or the POISON domain. -/
def lineTag (material hashKey : List Byte) (a : Nat) (poison : Bool) (cipher : List Byte) : Nat :=
  let d : List Byte := (if poison then 0x5A else 0x00) :: BitVec.ofNat 8 (lineIndex a) :: List.replicate 14 0
  let s := beBytes 16 (ghash (beNat hashKey) (blocks cipher ++ [d]))
  let m := leBytes 16 (alphaPow (unitTweak ((material.drop 32).take 32) (a / 4096)) (256 + lineIndex a))
  leNat ((xorBytes s m).take 4)

end Sys2Proof.Machine
end

