-- ==== Sys2Proof/Machine/Arith.lean ====
section
/-! DEFINITION. The combine unit's arithmetic ("Arithmetic on the move", R163 to R180). Every value is exact: a sign
and a magnitude that is a quotient of two naturals; one function rounds. -/

namespace Sys2Proof.Machine

/-! ## Values -/

/-- The exact value of an element (R170). A finite value is a sign and `num / den`, `den` positive; the sign of a
zero is kept. -/
inductive Val
  | nan
  | inf (neg : Bool)
  | fin (neg : Bool) (num den : Nat)
  deriving DecidableEq, Repr

/-- `m × 2^e` as a quotient. -/
def pow2 (m : Nat) (e : Int) : Nat × Nat := if 0 ≤ e then (m <<< e.toNat, 1) else (m, 1 <<< (-e).toNat)

/-- The signed value `m × 2^e`. -/
def Val.dyadic (neg : Bool) (m : Nat) (e : Int) : Val := .fin neg (pow2 m e).1 (pow2 m e).2

def Val.ofInt (i : Int) : Val := .fin (decide (i < 0)) i.natAbs 1

/-- Whether the value is zero, of either sign. -/
def Val.isZero : Val → Bool
  | .fin _ n _ => n == 0
  | _ => false

/-- `x × 2^e`, exactly. -/
def Val.scale (x : Val) (e : Int) : Val :=
  match x with
  | .fin s n d => .fin s (n * (pow2 1 e).1) (d * (pow2 1 e).2)
  | v => v

/-- R175 SUM: the exact sum. Infinities of opposite sign give NaN; an exact zero sum of operands that are not both
−0 is +0, also of zeros of unlike sign (log 61). -/
def Val.add : Val → Val → Val
  | .nan, _ => .nan
  | _, .nan => .nan
  | .inf a, .inf b => if a = b then .inf a else .nan
  | .inf a, _ => .inf a
  | _, .inf b => .inf b
  | .fin s n d, .fin s' n' d' =>
    let i : Int := (if s then -((n * d' : Nat) : Int) else ((n * d' : Nat) : Int)) +
      (if s' then -((n' * d : Nat) : Int) else ((n' * d : Nat) : Int))
    .fin (if i = 0 then s && s' && n == 0 && n' == 0 else decide (i < 0)) i.natAbs (d * d')

def Val.neg : Val → Val
  | .nan => .nan
  | .inf a => .inf (!a)
  | .fin s n d => .fin (!s) n d

/-- The order of R175 on values that are not NaN, −0 below +0. -/
def Val.lt : Val → Val → Bool
  | .inf true, .inf true => false
  | .inf true, _ => true
  | _, .inf true => false
  | .inf false, _ => false
  | _, .inf false => true
  | .fin s n d, .fin s' n' d' =>
    match s, s' with
    | true, false => true
    | false, true => false
    | false, false => decide (n * d' < n' * d)
    | true, true => decide (n' * d < n * d')
  | _, _ => false

def Val.max (a b : Val) : Val :=
  match a, b with
  | .nan, _ => .nan
  | _, .nan => .nan
  | _, _ => if Val.lt a b then b else a

def Val.min (a b : Val) : Val :=
  match a, b with
  | .nan, _ => .nan
  | _, .nan => .nan
  | _, _ => if Val.lt b a then b else a

/-- R140, R175: `op` of two widened values. -/
def Val.combine (op : RedOp) (a b : Val) : Val :=
  match op with
  | .sum => Val.add a b
  | .max => Val.max a b
  | .min => Val.min a b

/-! ## Formats -/

/-- R163: the formats, numbered as the capability block's bits. -/
inductive Fmt
  | fp32 | bf16 | fp16 | e4m3 | e5m2 | mxfp8e4m3 | mxfp8e5m2 | mxfp6e3m2 | mxfp6e2m3 | mxfp4 | mxint8 | hb6
  | int8 | int32 | fp32x2
  deriving DecidableEq, Repr

/-- R163: the format of a bit number; 15 and up are out of range (R102). -/
def Fmt.ofNat? : Nat → Option Fmt
  | 0 => some .fp32
  | 1 => some .bf16
  | 2 => some .fp16
  | 3 => some .e4m3
  | 4 => some .e5m2
  | 5 => some .mxfp8e4m3
  | 6 => some .mxfp8e5m2
  | 7 => some .mxfp6e3m2
  | 8 => some .mxfp6e2m3
  | 9 => some .mxfp4
  | 10 => some .mxint8
  | 11 => some .hb6
  | 12 => some .int8
  | 13 => some .int32
  | 14 => some .fp32x2
  | _ => none

/-- R163: the block formats. -/
def Fmt.block : Fmt → Bool
  | .mxfp8e4m3 => true
  | .mxfp8e5m2 => true
  | .mxfp6e3m2 => true
  | .mxfp6e2m3 => true
  | .mxfp4 => true
  | .mxint8 => true
  | .hb6 => true
  | _ => false

/-- R163: bytes of an element, or of a block of a block format. -/
def Fmt.size : Fmt → Nat
  | .fp32 => 4
  | .bf16 => 2
  | .fp16 => 2
  | .e4m3 => 1
  | .e5m2 => 1
  | .mxfp8e4m3 => 33
  | .mxfp8e5m2 => 33
  | .mxfp6e3m2 => 25
  | .mxfp6e2m3 => 25
  | .mxfp4 => 17
  | .mxint8 => 33
  | .hb6 => 26
  | .int8 => 1
  | .int32 => 4
  | .fp32x2 => 8

/-- R163: the alignment of a base and of its strides (R164). -/
def Fmt.align : Fmt → Nat
  | .fp32 => 4
  | .bf16 => 2
  | .fp16 => 2
  | .hb6 => 2
  | .int32 => 4
  | .fp32x2 => 8
  | _ => 1

/-- R165: the layout of a floating-point encoding: fraction bits, bias, code of the largest finite value, whether an
infinity follows it, the canonical NaN where there is one (R166), and the width. -/
structure FloatFmt where
  fbits : Nat
  bias : Nat
  maxCode : Nat
  hasInf : Bool
  canNan : Option Nat
  width : Nat
  deriving DecidableEq, Repr

def FloatFmt.fp32 : FloatFmt :=
  { fbits := 23, bias := 127, maxCode := 0x7F7FFFFF, hasInf := true, canNan := some 0x7FC00000, width := 32 }
def FloatFmt.bf16 : FloatFmt :=
  { fbits := 7, bias := 127, maxCode := 0x7F7F, hasInf := true, canNan := some 0x7FC0, width := 16 }
def FloatFmt.fp16 : FloatFmt :=
  { fbits := 10, bias := 15, maxCode := 0x7BFF, hasInf := true, canNan := some 0x7E00, width := 16 }
def FloatFmt.e4m3 : FloatFmt :=
  { fbits := 3, bias := 7, maxCode := 0x7E, hasInf := false, canNan := some 0x7F, width := 8 }
def FloatFmt.e5m2 : FloatFmt :=
  { fbits := 2, bias := 15, maxCode := 0x7B, hasInf := true, canNan := some 0x7E, width := 8 }
def FloatFmt.e3m2 : FloatFmt :=
  { fbits := 2, bias := 3, maxCode := 0x1F, hasInf := false, canNan := none, width := 6 }
def FloatFmt.e2m3 : FloatFmt :=
  { fbits := 3, bias := 1, maxCode := 0x1F, hasInf := false, canNan := none, width := 6 }
def FloatFmt.e2m1 : FloatFmt :=
  { fbits := 1, bias := 1, maxCode := 0x7, hasInf := false, canNan := none, width := 4 }

/-- R165: the value of an encoding. The magnitude code is read with its exponent and fraction; a code above the
largest finite is the infinity, where there is one and it is the next code, or a NaN. -/
def FloatFmt.decode (f : FloatFmt) (bits : Nat) : Val :=
  let s := bit bits (f.width - 1)
  let c := bits % 2 ^ (f.width - 1)
  if f.maxCode < c then (if f.hasInf && c == f.maxCode + 1 then .inf s else .nan)
  else
    let e := c >>> f.fbits
    let fr := c % 2 ^ f.fbits
    if e = 0 then .dyadic s fr (1 - (f.bias : Int) - f.fbits)
    else .dyadic s (fr + 2 ^ f.fbits) ((e : Int) - f.bias - f.fbits)

/-! ## Rounding -/

/-- R171: the rounding modes. -/
inductive Rnd | nearest | zero | stochastic
  deriving DecidableEq, Repr

/-- R140 `rnd`; 3 is out of range. -/
def Rnd.ofNat? : Nat → Option Rnd
  | 0 => some .nearest
  | 1 => some .zero
  | 2 => some .stochastic
  | _ => none

/-- R171: whether `num / den`, between the consecutive codes `lo` and `lo + 1` with remainder `rem / den` of the way,
goes to the upper one under draw `r`. -/
def roundUp (m : Rnd) (r lo rem den : Nat) : Bool :=
  match m with
  | .nearest => decide (den < 2 * rem) || (decide (2 * rem = den) && lo % 2 == 1)
  | .zero => false
  | .stochastic => decide (65536 ≤ r + 65536 * rem / den)

/-- The quotient `num / den` rounded to an integer (R171, integer destinations). -/
def roundNat (m : Rnd) (r num den : Nat) : Nat :=
  num / den + b2n (roundUp m r (num / den) (num % den) den)

/-- floor(log2(num / den)) of a positive quotient. -/
def ilog2 (num den : Nat) : Int :=
  let e : Int := (num.log2 : Int) - den.log2
  let ge := if 0 ≤ e then decide (den <<< e.toNat ≤ num) else decide (den ≤ num <<< (-e).toNat)
  if ge then e else e - 1

/-- R171, R173: the magnitude code of `num / den` in a floating-point format. -/
def FloatFmt.roundMag (f : FloatFmt) (m : Rnd) (r num den : Nat) : Nat :=
  if num = 0 then 0
  else
    let emin : Int := 1 - (f.bias : Int)
    let e := if ilog2 num den < emin then emin else ilog2 num den
    let ulp := e - f.fbits
    let n' := if ulp < 0 then num <<< (-ulp).toNat else num
    let d' := if ulp < 0 then den else den <<< ulp.toNat
    let base := (e - emin).toNat <<< f.fbits
    let lower := base + n' / d'
    let top := if f.hasInf then f.maxCode + 1 else f.maxCode
    if f.maxCode < lower then (if m = .zero then f.maxCode else top)
    else Nat.min top (if roundUp m r lower (n' % d') d' then lower + 1 else lower)

/-- R173: a value rounded to a floating-point format that has a NaN. -/
def FloatFmt.encode (f : FloatFmt) (m : Rnd) (r : Nat) (x : Val) : Nat :=
  let sgn (s : Bool) := if s then 1 <<< (f.width - 1) else 0
  match x with
  | .nan => f.canNan.getD 0
  | .inf s => if f.hasInf then sgn s + (f.maxCode + 1) else f.canNan.getD 0
  | .fin s n d => sgn s + f.roundMag m r n d

/-- R173: a value rounded to a two's-complement integer of `w` bits, saturated. -/
def encodeInt (w : Nat) (m : Rnd) (r : Nat) (x : Val) : Nat :=
  let hi := 2 ^ (w - 1) - 1
  let clamp (s : Bool) (q : Nat) : Nat :=
    if s then (2 ^ w - Nat.min q (hi + 1)) % 2 ^ w else Nat.min q hi
  match x with
  | .nan => 0
  | .inf s => clamp s (hi + 1)
  | .fin s n d => clamp s (roundNat m r n d)

/-! ## Scalar elements -/

/-- R169: the value of a pair. -/
def pairVal (bits : Nat) : Val :=
  Val.add (FloatFmt.fp32.decode (fld bits 0 32)) (FloatFmt.fp32.decode (fld bits 32 32))

/-- The value of a scalar element. Block formats have none here; they are read by `blockVals`. -/
def Fmt.decode (f : Fmt) (bits : Nat) : Val :=
  match f with
  | .fp32 => FloatFmt.fp32.decode bits
  | .bf16 => FloatFmt.bf16.decode bits
  | .fp16 => FloatFmt.fp16.decode bits
  | .e4m3 => FloatFmt.e4m3.decode bits
  | .e5m2 => FloatFmt.e5m2.decode bits
  | .int8 => Val.ofInt (sext 8 (fld bits 0 8))
  | .int32 => Val.ofInt (sext 32 (fld bits 0 32))
  | .fp32x2 => pairVal bits
  | _ => .nan

/-- R175: the exact result as a pair: `hi` under nearest-even, `lo` the rest under `rnd`, also where R169 would have another
`hi` (log 60). -/
def encodePair (m : Rnd) (r : Nat) (x : Val) : Nat :=
  let hi := FloatFmt.fp32.encode .nearest 0 x
  let lo := match FloatFmt.fp32.decode hi with
    | .fin s n d =>
      if x.isZero then (if s then 0x80000000 else 0)
      else
        let rest := Val.add x (Val.neg (.fin s n d))
        if rest.isZero then 0
        else
          let l := FloatFmt.fp32.encode m r rest
          if l % 2 ^ 31 = 0 then 0 else l
    | _ => 0
  hi + lo <<< 32

/-- R170, R173: a value rounded once to a scalar format. -/
def Fmt.encode (f : Fmt) (m : Rnd) (r : Nat) (x : Val) : Nat :=
  match f with
  | .fp32 => FloatFmt.fp32.encode m r x
  | .bf16 => FloatFmt.bf16.encode m r x
  | .fp16 => FloatFmt.fp16.encode m r x
  | .e4m3 => FloatFmt.e4m3.encode m r x
  | .e5m2 => FloatFmt.e5m2.encode m r x
  | .int8 => encodeInt 8 m r x
  | .int32 => encodeInt 32 m r x
  | .fp32x2 => encodePair m r x
  | _ => 0

/-- R170: `widen(x, acc)`, under nearest-even whatever `rnd` is. -/
def widen (acc : Fmt) (x : Val) : Val := acc.decode (acc.encode .nearest 0 x)

/-! ## Block formats -/

/-- The element type of an MX format: its encoding, bits and `emax` (R165, R178). MXINT8 has none. -/
def Fmt.elem? : Fmt → Option (FloatFmt × Int)
  | .mxfp8e4m3 => some (.e4m3, 8)
  | .mxfp8e5m2 => some (.e5m2, 15)
  | .mxfp6e3m2 => some (.e3m2, 4)
  | .mxfp6e2m3 => some (.e2m3, 2)
  | .mxfp4 => some (.e2m1, 2)
  | _ => none

/-- Bits of a packed element (R167, R168). -/
def Fmt.elemBits : Fmt → Nat
  | .mxfp6e3m2 => 6
  | .mxfp6e2m3 => 6
  | .mxfp4 => 4
  | .hb6 => 6
  | _ => 8

/-- R167, R168: the 32 exact values of a block whose bytes are the little-endian number `b`. An E8M0 scale of 0xFF
or an `hb_exp` of 0xFF gives NaN for every element (R180). -/
def blockVals (f : Fmt) (b : Nat) : List Val :=
  let w := f.elemBits
  match f with
  | .hb6 =>
    let m := fld b 0 8
    let e := fld b 8 8
    (List.range 32).map (fun j =>
      if e = 255 then .nan
      else
        let q := sext 6 (fld b (16 + 6 * j) 6)
        .dyadic (decide (q < 0)) (q.natAbs * (256 + m)) ((e : Int) - 127 - 8))
  | _ =>
    let sc := fld b 0 8
    (List.range 32).map (fun j =>
      if sc = 255 then .nan
      else
        let c := fld b (8 + w * j) w
        let v := match f.elem? with
          | some (ff, _) => ff.decode c
          | none => (Val.ofInt (sext 8 c)).scale (-6)
        v.scale ((sc : Int) - 127))

/-- R178: whether a value makes its block a NaN block. -/
def Val.special : Val → Bool
  | .fin _ _ _ => false
  | _ => true

/-- The largest magnitude of a list of finite values, as a quotient. -/
def amax : List Val → Nat × Nat
  | [] => (0, 1)
  | .fin _ n d :: r => if (amax r).1 * d < n * (amax r).2 then (n, d) else amax r
  | _ :: r => amax r

/-- The sign of a value. -/
def Val.sign : Val → Bool
  | .fin s _ _ => s
  | .inf s => s
  | .nan => false

/-- R178: the scale exponent of an MX block whose largest magnitude is `num / den`, not zero. -/
def mxScale (emax : Int) (num den : Nat) : Int :=
  let se := ilog2 num den - emax
  if se < -127 then -127 else if 127 < se then 127 else se

/-- R178: element `x` of an MX block at scale `2^se`, saturated to the largest element. -/
def mxElem (f : Fmt) (m : Rnd) (r : Nat) (se : Int) (x : Val) : Nat :=
  match f.elem?, x.scale (-se) with
  | some (ff, _), .fin s n d =>
    (if s then 1 <<< (ff.width - 1) else 0) + Nat.min ff.maxCode (ff.roundMag m r n d)
  | none, .fin s n d =>
    let q := Nat.min 127 (roundNat m r (n * 64) d)
    if s then (256 - q) % 256 else q
  | _, _ => 0

/-- R179: the HB6 header of a block whose largest magnitude is `num / den`, not zero: the smallest scale
(256 + m) × 2^(E − 135) whose 31-fold reaches it, or the largest scale of all. -/
def hbHeader (num den : Nat) : Nat × Nat :=
  let fits (e m : Nat) : Bool :=
    let p := pow2 (31 * (256 + m)) ((e : Int) - 135)
    decide (num * p.2 ≤ p.1 * den)
  match (List.range 255).find? (fun e => fits e 255) with
  | none => (254, 255)
  | some e => (e, ((List.range 256).find? (fun m => fits e m)).getD 255)

/-- R179: the q of `x` at scale `(256 + m) × 2^(e − 135)`, saturated to ±31. -/
def hbElem (rm : Rnd) (r e m : Nat) (x : Val) : Nat :=
  match x with
  | .fin s n d =>
    let p := pow2 (256 + m) ((e : Int) - 135)
    let q := Nat.min 31 (roundNat rm r (n * p.2) (d * p.1))
    if s then (64 - q) % 64 else q
  | _ => 0

/-- Packed elements above a header of `h` bits. -/
def packElems (h w : Nat) (cs : List Nat) : Nat :=
  (cs.zipIdx).foldl (fun a c => a + c.1 <<< (h + w * c.2)) 0

/-- R178, R179: a block of 32 values with their draws, as the little-endian number of its bytes. -/
def encodeBlock (f : Fmt) (m : Rnd) (xs : List (Val × Nat)) : Nat :=
  let vs := xs.map (·.1)
  let am := amax vs
  let w := f.elemBits
  match f with
  | .hb6 =>
    if vs.any Val.special then 0xFFFF
    else if am.1 = 0 then 0
    else
      let h := hbHeader am.1 am.2
      h.2 + h.1 <<< 8 + packElems 16 6 (xs.map (fun x => hbElem m x.2 h.1 h.2 x.1))
  | _ =>
    if vs.any Val.special then 0xFF
    else if am.1 = 0 then
      match f.elem? with
      | some (ff, _) => packElems 8 w (vs.map (fun v => if v.sign then 1 <<< (ff.width - 1) else 0))
      | none => 0
    else
      let se := mxScale (match f.elem? with | some (_, e) => e | none => 0) am.1 am.2
      (se + 127).toNat + packElems 8 w (xs.map (fun x => mxElem f m x.2 se x.1))

/-! ## Stochastic draws -/

/-- R172: one step of a channel's generator. -/
def xorshift (s : Word) : Word :=
  let a := s ^^^ (s <<< 13)
  let b := a ^^^ (a >>> 7)
  b ^^^ (b <<< 17)

/-- R172: the first `n` draws, in element order. -/
def drawsFrom : Nat → Word → List Nat
  | 0, _ => []
  | n + 1, s => (xorshift s).toNat >>> 48 :: drawsFrom n (xorshift s)

/-- R172: the draws of an instruction seeded with `seed`; a zero seed is replaced. -/
def draws (n : Nat) (seed : Word) : List Nat :=
  drawsFrom n (if seed = 0 then BitVec.ofNat 64 Config.zeroSeed else seed)

/-! ## Combining -/

/-- R142, R175: the new bits of a destination element of format `d` with accumulation format `acc`, given the bits it
holds and the widened source value. -/
def combineElem (op : RedOp) (acc d : Fmt) (m : Rnd) (r old : Nat) (b : Val) : Nat :=
  d.encode m r (Val.combine op (widen acc (d.decode old)) (widen acc b))

/-! ## Atomics -/

/-- R146: what an atomic of `w` bits leaves in its word. -/
def atomResult (op : AtomOp) (signed : Bool) (w old v c : Nat) : Nat :=
  let lt (a b : Nat) : Bool := if signed then decide (sext w a < sext w b) else decide (a < b)
  match op with
  | .add => (old + v) % 2 ^ w
  | .max => if lt old v then v else old
  | .min => if lt v old then v else old
  | .xchg => v
  | .cas => if old = c then v else old

end Sys2Proof.Machine
end

