-- ==== Sys2Proof/Machine/State.lean ====
section
/-! DEFINITION. The state of the block as plain data, subsystem by subsystem in the order of R13, the two ways a
step can stop, and the state right after a cold reset. -/

namespace Sys2Proof.Machine

/-! ## How a step stops -/

/-- A step that reaches something the spec says does not exist. -/
inductive Fault
  /-- Raised by the home operations of Machine/Home.lean when a line lies at or above S × C, where R209 attaches no
  memory. No comb covers such a line (R45), so no checked request reaches it. Safe. -/
  | noMemory (addr : Nat)
  deriving DecidableEq, Repr

/-- A step that the block does not take. -/
inductive Refusal
  /-- A row of the table without a meaning yet. -/
  | notModelled (mnemonic : String)
  deriving DecidableEq, Repr

/-! ## Shared types -/

/-- R7: the status codes. -/
inductive Status
  | ok | state | range | rights | fault | timeout | poison | contextKilled | tagFail | decode | aborted
  | resource | link | hwError
  deriving DecidableEq, Repr

/-- R54: the states of a hive. -/
inductive HiveState | free | creating | active | resizing | migrating | frozen | resetting | destroying
  deriving DecidableEq, Repr

/-- R38: the states of a cluster. -/
inductive ClusterState | free | joining | assigned | leaving | clearing | failed
  deriving DecidableEq, Repr

/-- R66: the states of a context. -/
inductive CtxState | free | active | killing
  deriving DecidableEq, Repr

/-- R70: the states of a queue. -/
inductive QueueState | unbound | running | stopped | resetting
  deriving DecidableEq, Repr

/-- R124: the states of a channel. -/
inductive ChanState | free | running | waiting | faulted | ending
  deriving DecidableEq, Repr

/-- R87: the states of a fence. -/
inductive FenceState | free | opened | closed | poisoned
  deriving DecidableEq, Repr

/-- R286: the states of a link. -/
inductive LinkState | down | training | auth | up | rekey
  deriving DecidableEq, Repr

/-- R312: the states of a slice. -/
inductive SliceState | fresh | opening | opened
  deriving DecidableEq, Repr

/-- R358: the lifecycle states. -/
inductive LcState | blank | test | production | endOfLife | locked
  deriving DecidableEq, Repr

/-- The condition of a stored line as its next read finds it (R310, R315). -/
inductive LineCond | good | poisoned | tagFail | uncorrectable
  deriving DecidableEq, Repr

/-- R203: the phases of a migration. -/
inductive MigPhase | precopy | freezing | final | handover
  deriving DecidableEq, Repr

/-- R237: the kinds of fault. -/
inductive FaultKind
  | notPresent | pteRights | grant | table | frame | hostPage | hostDenied | malformed | readError
  deriving DecidableEq, Repr

/-- R240 `access`: what kind of access met the fault. -/
inductive Access | read | write | atomic | object
  deriving DecidableEq, Repr

/-- R216: what an access needs. -/
inductive Need | rd | wr | atom
  deriving DecidableEq, Repr

/-- R250: the scopes. -/
inductive Scope | engine | hive | colony
  deriving DecidableEq, Repr

/-- R256: the attributes of a request to host memory. -/
structure Attr where
  noSnoop : Bool
  relaxed : Bool
  idOrdered : Bool
  deriving DecidableEq, Repr

/-- R456: one word of a link's PCS interface: the bytes of the eight slices of 16, slice 0 first, and whether a frame starts or
ends with it. -/
structure PcsBeat where
  slices : List (List Byte)
  sop : Bool
  eop : Bool
  deriving DecidableEq, Repr

/-- R237, R73: what the block puts on its ports, oldest first in State's `sent` (the model's own log of outputs). -/
inductive Output
  /-- an MSI-X message (R433) -/
  | msix (vector addr data : Nat) (attr : Attr)
  /-- a completion of an inbound read: Successful with data, and, for each of its lines in order, whether the data is
  Poisoned (R430); none for data that no line holds -/
  | readDone (data : List Byte) (ep : List Bool)
  /-- a completion with Unsupported Request, data of all ones (R434) -/
  | unsupported
  /-- a logged error of the host port, reported as AER requires (R421) -/
  | aerReport
  /-- the completion of an inbound AtomicOp with the old value (R432) -/
  | atomicDone (old : Nat) (ep : Bool)
  /-- an outbound read of host memory (R235) -/
  | hostRead (id pasid addr len : Nat) (translated : Bool) (attr : Attr)
  /-- an outbound posted write to host memory, and whether its address is a translated one (R231, R422) -/
  | hostWrite (pasid addr : Nat) (data : List Byte) (translated : Bool) (attr : Attr)
  /-- a zero-length flush read (R253) -/
  | hostFlush (id pasid : Nat) (attr : Attr)
  /-- an ATS Translation Request for `count` translations (R232) -/
  | atsRequest (id pasid va count : Nat)
  | atsInvalidationDone (itag : Nat)
  | pageRequest (pasid group va : Nat) (r w : Bool)
  | stopMarker (pasid : Nat)
  /-- a request on a stream port with its tag (R445) -/
  | portRequest (p : Nat) (write : Bool) (tag addr level : Nat)
  /-- a write beat: the tag of its request, metadata, byte enables and data (R446) -/
  | writeBeat (p tag wdMeta be : Nat) (data : List Byte)
  /-- R313: the writes that open a slice, at a level: each line's port-local offset, DATA tag and encrypted zeros -/
  | sliceFill (p cell level : Nat) (lines : List (Nat × Nat × List Byte))
  /-- the answer to a line request, given to its origin (R315) -/
  | lineAnswer (o : Origin) (st : Status) (data : List Byte)
  /-- a kernel start on a cluster control port (R451) -/
  | kernelStart (n entry arg rank count seq : Nat)
  /-- `cc_rst_n` of a cluster, asserted and released after 64 control-clock cycles (R451, R452) -/
  | clusterReset (n : Nat)
  /-- the one-cycle pulse of a cluster's `cc_clear` (R452) -/
  | clusterClear (n : Nat)
  /-- a frame handed to a link's PCS (R284), and its beats: 128-byte words over the eight lane slices (R456) -/
  | frame (link : Nat) (f : Frame) (beats : List PcsBeat)
  /-- the bytes of a frame sent on the waggle output (R399) -/
  | waggle (wire : List Byte)
  /-- the read of the flash's SFDP: its command and dummy cycles, in 1-1-1 mode (R384) -/
  | sfdpRead (cmd dummy : Nat)
  /-- R397: the write of PAGE before the read of a paged device, and the Read Word of a command -/
  | pmbPage (addr page : Nat)
  | pmbRead (addr cmd : Nat)
  /-- the data a TAP capture returns (R458, R459) -/
  | tap (w : Word) (st : Status)
  | clockRequest (d : Dom) (on : Bool)
  /-- 16 KiB or less written to flash at an offset, after its sectors are erased (R392) -/
  | flashWrite (off len : Nat)
  | portReset (p : Nat)
  deriving DecidableEq, Repr

/-! ## Keeper: clocks, mailbox, settings, flash, power samples, waggle ring -/

/-- One fast clock (R353): requested, on its second attempt, running with its domain ready. -/
structure ClockSt where
  req : Bool
  second : Bool
  ready : Bool
  deriving DecidableEq, Repr

/-- Clocks and the reset pins (R15, R17, R351, R440). -/
structure Clocks where
  /-- keeper-clock ticks since the last block warm reset (R340 `stamp`) -/
  ticks : Nat
  /-- keeper-clock ticks since the last cold reset (R416 `stamp`) -/
  coldTicks : Nat
  /-- R277: control-clock cycles since the last cold reset, as far as keeper ticks have passed -/
  controlCycles : Nat
  /-- R17, `osc`: the keeper runs on its internal oscillator -/
  osc : Bool
  control : ClockSt
  stream : ClockSt
  /-- R448: the stream clock is locked, and its domain waits for the first credits of its ports -/
  portsDue : Bool
  /-- `hx_down` (R443) -/
  hxDown : Bool
  /-- `wg_hold` (R402): 1 holds the bypass switch open -/
  wgHold : Bool
  /-- the block is in cold reset: asserted, or not booted yet -/
  cold : Bool
  deriving DecidableEq, Repr

/-- R43: a comb entry. -/
structure Comb where
  valid : Bool
  placement : Nat
  stack : Nat
  base : Nat
  count : Nat
  keySel : Nat
  colAtom : Bool
  colWr : Bool
  colRd : Bool
  locAtom : Bool
  locWr : Bool
  locRd : Bool
  deriving DecidableEq, Repr

/-- R197, R321: a label setting. -/
structure LabelSetting where
  label : Nat
  guar : Nat
  ceil : Nat
  prio : Nat
  win : Nat
  missEv : Bool
  stat : Bool
  irqMax : Nat
  deriving DecidableEq, Repr

/-- R398: a PMBus entry. -/
structure PmbEntry where
  addr : Nat
  page : Nat
  cmd : Nat
  role : Nat
  fmt : Nat
  deriving DecidableEq, Repr

/-- R390: the settings body in force. Words whose layout another rule gives are kept whole. -/
structure Settings where
  chipId : Nat
  chipIdValid : Bool
  pCapW : Nat
  /-- capability word 11 -/
  integ : Nat
  bandGib : Nat
  streamIdleUs : Nat
  controlIdleUs : Nat
  /-- hive 0's header words 2, 3 and 4 -/
  h0w2 : Nat
  h0w3 : Nat
  h0w4 : Nat
  objBase : Nat
  fenceBase : Nat
  faultBase : Nat
  eventBase : Nat
  routeBase : Nat
  lstatBase : Nat
  lab0Count : Nat
  pmbCount : Nat
  q0Index : Nat
  combs : List Comb
  /-- words 0 to 7 of the context 0 image and of the queue 0 image -/
  ctx0 : List Nat
  queue0 : List Nat
  labels : List LabelSetting
  pmb : List PmbEntry
  endorseRoot : Nat
  endorseKey : List Byte
  endorsement : List Byte
  deriving DecidableEq, Repr

/-- R394: the fields of the mailbox registers, and the two buffers. -/
structure Mailbox where
  bootStage : Nat
  fwCopy : Bool
  setCopy : Bool
  vecShort : Bool
  setFail : Bool
  fwFallback : Bool
  isOut : Bool
  pmbFail : Bool
  clkFail : Bool
  drbgFail : Bool
  fwSecver : Nat
  setSecver : Nat
  op : Nat
  argLen : Nat
  tag : Nat
  busy : Bool
  replyStatus : Nat
  replyLen : Nat
  replyTag : Nat
  refused : Nat
  /-- R404: the tag of a `REBOOT` that waits for a vault command to end -/
  rebootTag : Option Nat
  /-- the command in progress waits for the block warm reset that it asked for (R392, R396) -/
  resetAsked : Bool
  /-- the argument buffer: offset and byte pairs, unlisted bytes zero -/
  args : List Host.Cell
  reply : List Byte
  deriving DecidableEq, Repr

/-- R401: a census entry of the waggle ring, keyed by chip ID, or by serial where `wnoid` is 1. -/
structure Census where
  byserial : Bool
  key : Nat
  out : Bool
  /-- the last PRESENCE payload -/
  presence : List Byte
  /-- the last ECHO_REPLY payload -/
  echo : List Byte
  deriving DecidableEq, Repr

/-- The waggle ring's state in one HX1 (R399 to R403). -/
structure Waggle where
  census : List Census
  /-- the forward buffer, at most 4 frames -/
  fwd : List WFrame
  /-- accepted frames whose effect is due -/
  rx : List WFrame
  wseq : Nat
  discarded : Nat
  /-- R400 CAP: the waggle cap in force, in W, and its duration in ms -/
  cap : Option (Nat × Nat)
  /-- R400 WAKE: when the last one was accepted, in keeper ticks since the cold reset -/
  wakeAt : Option Nat
  /-- R403: an OUT declaration waits for its frame to return -/
  outWait : Bool
  /-- R403: out has been declared; no frame is accepted for forwarding -/
  outDeclared : Bool
  deriving DecidableEq, Repr

/-- R330 to R332, R397: power sampling and capping. -/
structure Power where
  /-- the cap level c -/
  level : Nat
  /-- the last good readings of P, newest first, in units of 2^-17 W, at most three -/
  good : List Nat
  fails : Nat
  /-- consecutive samples with c at 15 and Pf above P_cap -/
  overCount : Nat
  overRaised : Bool
  readRaised : Bool
  mailboxCap : Nat
  /-- the last reading of each PMBus entry, in units of 2^-17 W; none where it failed or has not been read -/
  readings : List (Option Int)
  /-- the role-1 entry to be read next -/
  nextMonitor : Nat
  /-- R398: the VOUT_MODE of each PMBus entry of format LINEAR16; none where it has none, or its read failed -/
  voutModes : List (Option Nat)
  deriving DecidableEq, Repr

/-- A block warm reset in progress (R348, R349). -/
structure WarmJob where
  keepPcie : Bool
  /-- steps 1 to 5 are done; step 6 waits for the clusters that clear (R39) -/
  clearing : Bool
  /-- steps 1 to 7 are done; step 8 waits (R382) -/
  stepsDone : Bool
  deriving DecidableEq, Repr

/-- R384: how the ROM reads the flash: by command 0x03 where it has no SFDP, or in a mode that it advertises. -/
inductive FlashMode | plain | m111 | m144 | m888 | m8d8d8d
  deriving DecidableEq, Repr

/-- The keeper's own state. -/
structure Keeper where
  mbox : Mailbox
  settings : Settings
  /-- a settings copy is in force -/
  haveSettings : Bool
  /-- the flash the keeper drives (R385): offset and byte pairs, unlisted bytes 0xFF -/
  flash : List Host.Cell
  /-- R384: the mode that the ROM has selected, and whether it uses 4-byte opcodes -/
  flashMode : FlashMode
  flashWide : Bool
  /-- R388: the boot has sensed the fuses and discovered the flash -/
  sensed : Bool
  waggle : Waggle
  power : Power
  warm : Option WarmJob
  /-- R403: the firmware watchdog has stopped being served (R345) -/
  watchdogStarved : Bool
  /-- R27: the capability block, words 0 to 11 -/
  capability : List Word
  deriving DecidableEq, Repr

/-! ## Vault -/

/-- R375: a token in force. -/
structure Token where
  slot : Nat
  device : Bool
  hive : Nat
  root : Nat
  perms : Nat
  deriving DecidableEq, Repr

/-- What a fuse blow is for; the command that started it ends when its last copy reads blown (R360, R369 to R379). -/
inductive BlowKind
  | lifecycle | provision | enrol | revoke (root : Nat) | arb | scrapLock | scrapRoots | scrapRest
  /-- R359: the missing copies of the code that a fuse-blowing command has left, or that the boot finds -/
  | repair
  | bootRepair
  deriving DecidableEq, Repr

/-- One fuse copy to be pulsed: a row of R362 and a bit of it. -/
inductive FuseBit
  | lc (copy bit : Nat)
  | drk (bit : Nat)
  | drkChk (bit : Nat)
  | owner (root bit : Nat)
  | enrolled (copy root : Nat)
  | revoked (copy root : Nat)
  | arbFw (bit : Nat)
  | arbSet (bit : Nat)
  | trim (bit : Nat)
  deriving DecidableEq, Repr

/-- A blow in progress: the copies still to be pulsed, pulses given to the first of them, VPP present. -/
structure Blow where
  kind : BlowKind
  todo : List FuseBit
  pulses : Nat
  vpp : Bool
  deriving DecidableEq, Repr

/-- The fuse rows of R362, as Nat of their bits. -/
structure Fuses where
  lc : List Nat
  serial : Nat
  drk : Nat
  drkChk : Nat
  owner : List Nat
  enrolled : List Nat
  revoked : List Nat
  arbFw : Nat
  arbSet : Nat
  trim : Nat
  /-- R407: bad physical units -/
  badMover : List Nat
  badKeyrow : List Nat
  badLane : List Nat
  /-- the 64 entries of SP_SRAM -/
  badRow : List Nat
  deriving DecidableEq, Repr

structure Vault where
  fuses : Fuses
  /-- the state last decoded (R359) -/
  lc : LcState
  lcWord : Nat
  /-- the ephemeral private key of `PROV_BEGIN` (R369) -/
  provKey : Option (List Byte)
  challenge : Option (List Byte)
  tokens : List Token
  drbgOn : Bool
  drbgRequests : Nat
  /-- block warm resets in a row at which instantiation failed -/
  drbgFails : Nat
  wrapKey : List Byte
  /-- R367: an error of the key path has been reported, so the next load fails its unwrap -/
  wrapBad : Bool
  /-- what the P-384 engine was last given to verify: the SHA-384 of the public key, the digest and the signature (R369,
  R373) -/
  verify : Option (List Byte × List Byte × List Byte)
  /-- the identity public key published at 0x0600 (R366) -/
  identity : List Byte
  mgrGen : Nat
  commonsGen : Tab Nat
  /-- R288: LS of each link whose keys are derived from it -/
  linkSecrets : Tab (List Byte)
  blow : Option Blow
  deriving DecidableEq, Repr

/-! ## Host port unit -/

/-- R429: an aperture window entry. -/
structure Window where
  valid : Bool
  whive : Nat
  granule : Nat
  deriving DecidableEq, Repr

/-- An MSI-X table entry. -/
structure MsixEntry where
  addr : Nat
  data : Nat
  masked : Bool
  deriving DecidableEq, Repr

/-- R435: the counters of page 0. -/
structure Counters where
  sunkDb : Nat
  sunkWr : Nat
  urReads : Nat
  urAtomic : Nat
  dupResp : Nat
  staleInv : Nat
  faultLost : Nat
  badConsumed : Nat
  deriving DecidableEq, Repr

/-- R257: a host access that waits in the host port unit, with those received after it behind it. -/
inductive HostOp
  | read (off len : Nat)
  | write (off : Nat) (data : List Byte)
  | atomic (off : Nat) (op : HostAtomic) (size operand compare : Nat)
  | doorbell (page off be : Nat) (data : List Byte)
  deriving DecidableEq, Repr

/-- An outbound read of host memory waiting for its completion (R235), and for whom. -/
structure HostRead where
  id : Nat
  who : Requester
  va : Nat
  len : Nat
  access : Access
  deriving DecidableEq, Repr

structure HostPort where
  windows : Tab Window
  msix : Tab MsixEntry
  /-- the Function Mask of MSI-X -/
  msixFunctionMask : Bool
  pba : List Nat
  counters : Counters
  /-- R436: the PASID map -/
  pasids : Tab Nat
  atsOn : Bool
  priOn : Bool
  /-- R233: the page requests that the host's allocation lets be outstanding -/
  priAlloc : Nat
  /-- R233: a Response Failure has ended page requests -/
  priFailed : Bool
  /-- D3hot (R421) -/
  d3hot : Bool
  reads : List HostRead
  /-- R257, R267: aperture accesses and doorbells that wait, in order of arrival -/
  queue : List HostOp
  /-- flush reads outstanding: id and channel (R253) -/
  flushes : List (Nat × Nat)
  nextId : Nat
  deriving DecidableEq, Repr

/-! ## Hive engine -/

/-- A launch that waits for its clusters (R157). -/
structure LaunchReq where
  chan : Nat
  /-- ANY with its count, or LIST with its clusters -/
  any : Option Nat
  list : List Nat
  deriving DecidableEq, Repr

structure Hive where
  state : HiveState
  incoming : Bool
  elastic : Bool
  colony : Nat
  clusterMin : Nat
  clusterMax : Nat
  chCeiling : Nat
  chGuarantee : Nat
  labelFirst : Nat
  labelCount : Nat
  vecFirst : Nat
  vecCount : Nat
  ctxQuota : Nat
  queueQuota : Nat
  peerLo : Nat
  peerHi : Nat
  keyGen : Nat
  resizeCount : Nat
  combs : Tab Comb
  launchSeq : Nat
  launchQ : List LaunchReq
  /-- R337: the hive mask on its vectors -/
  masked : Bool
  /-- R329: messages sent in the present window of `label_first` -/
  irqSent : Nat
  /-- R53: refusals since creation, in the window, and the window's first address -/
  refusals : Nat
  refusalsWin : Nat
  firstRefusal : Nat
  /-- R317: tag failures counted against the hive -/
  alarms : Nat
  /-- R53, R317, R328: the event has been raised in this window -/
  refusedRaised : Bool
  alarmRaised : Bool
  missRaised : Bool
  /-- R203: the state of queues when frozen is kept by the queues; ticks at the freeze -/
  freezeTick : Nat
  deriving DecidableEq, Repr

/-- What a clearing cluster becomes at clear done (R38). -/
inductive ClearTo | free | assigned
  deriving DecidableEq, Repr

structure Cluster where
  state : ClusterState
  /-- the hive in whose bitmap it stands; 255 for none -/
  hive : Nat
  clearTo : ClearTo
  /-- the channel whose kernel runs, or whose launch reserves it -/
  kernel : Option Nat
  /-- R60: left LEAVING past the resize bound, so out of the bitmap and announced when FREE -/
  late : Bool
  spadLog2 : Nat
  pwrEn : Bool
  pwrGood : Bool
  iso : Bool
  rstN : Bool
  deriving DecidableEq, Repr

/-- A hive reset or teardown in progress (R62). -/
structure HiveJob where
  hive : Nat
  teardown : Bool
  /-- the channel whose instruction asked for it -/
  chan : Option Nat
  /-- R346: cause and detail of a hardware reset -/
  cause : Nat
  detail : Nat
  /-- the step of R62 that is under way -/
  step : Nat
  startTick : Nat
  /-- R203: handover, so no records for unfetched indices -/
  noRecords : Bool
  deriving DecidableEq, Repr

/-- A creation waiting for its clusters (R57). -/
structure CreateJob where
  hive : Nat
  chan : Nat
  deriving DecidableEq, Repr

/-- A resize in progress (R58, R60). -/
structure ResizeJob where
  hive : Nat
  chan : Nat
  added : List Nat
  /-- the removed clusters that have become neither FREE nor FAILED since -/
  removed : List Nat
  labels : List Nat
  deriving DecidableEq, Repr

/-- A migration in progress (R200 to R203). -/
structure MigJob where
  hive : Nat
  chan : Nat
  phase : MigPhase
  dstChip : Nat
  dstHive : Nat
  maxRounds : Nat
  stopCells : Nat
  freezeMs : Nat
  pkgAddr : Nat
  label : Nat
  /-- the carried fence numbers -/
  fences : List Nat
  /-- pairs: comb index and `dst_base` -/
  pairs : Tab Nat
  round : Nat
  /-- the set of the round under way -/
  cells : List Nat
  cellsFinal : Nat
  cellsTotal : Nat
  freezeTick : Nat
  deriving DecidableEq, Repr

structure HiveEngine where
  hives : Tab Hive
  clusters : Tab Cluster
  resets : List HiveJob
  creates : List CreateJob
  resizes : List ResizeJob
  migrations : List MigJob
  deriving DecidableEq, Repr

/-! ## Queue and object manager -/

/-- R83: a loaded grant entry. -/
structure Grant where
  obj : Nat
  atom : Bool
  wr : Bool
  rd : Bool
  deriving DecidableEq, Repr

structure Ctx where
  state : CtxState
  hive : Nat
  pasid : Nat
  acctSat : Bool
  ptRoot : Nat
  grantBase : Nat
  grantCount : Nat
  moverCycles : Nat
  clusterCycles : Nat
  grants : List Grant
  /-- R219: the invalidation sequence number -/
  invSeq : Nat
  deriving DecidableEq, Repr

structure Queue where
  state : QueueState
  acctSat : Bool
  wdFired : Bool
  ctx : Nat
  stopOnErr : Bool
  wdAbort : Bool
  ringLog2 : Nat
  weight : Nat
  ringBase : Nat
  cplBase : Nat
  label : Nat
  wdMs : Nat
  vector : Nat
  irqEn : Bool
  tail : Nat
  done : Nat
  fetch : Nat
  staleDb : Nat
  overrunDb : Nat
  moverCycles : Nat
  clusterCycles : Nat
  /-- R78: the virtual time -/
  vt : Nat
  /-- indices above `done` whose record is written (R73) -/
  ended : List Nat
  deriving DecidableEq, Repr

/-- R20: the stages a command is in before it holds a channel. -/
inductive Stage | reading | fetched | parked | preTranslated
  deriving DecidableEq, Repr

/-- A fetched command that holds no channel yet (R20, R464). -/
structure Cmd where
  q : Nat
  idx : Nat
  ctx : Nat
  stage : Stage
  /-- the slot buffer -/
  words : List Word
  /-- R108: owed fences, each with the slot word of its `SIGNAL` -/
  owed : List (Nat × Nat)
  /-- R226: the host pages of its spans that pre-translation has passed -/
  hostDone : Nat
  deriving DecidableEq, Repr

/-- R73: a completion record on its way to its home: a remote one, or one at a host page that is being translated. -/
structure PendRec where
  q : Nat
  idx : Nat
  bytes : List Byte
  /-- the channel that waits for it -/
  chan : Option Nat
  deriving DecidableEq, Repr

/-- R24, R227: a pin: the 32 MiB pages of a span of a context; held by a command, or by a bound queue. -/
structure Pin where
  ctx : Nat
  pages : List Nat
  /-- what the span's accesses were checked for, and its parts: address and length -/
  need : Need
  parts : List (Nat × Nat)
  /-- the holder: queue and index of a command, or the queue of a bind -/
  q : Nat
  idx : Option Nat
  deriving DecidableEq, Repr

/-- A wait held at a fence (R91, R92). -/
inductive Waiter
  | here (c target : Nat)
  | remote (src seq srcHive target level : Nat)
  deriving DecidableEq, Repr

/-- R87, R271: a fence as the cache holds it. -/
structure Fence where
  value : Nat
  err : Nat
  state : FenceState
  dropSat : Bool
  dropped : Nat
  sigMode : Bool
  colWait : Bool
  sigCtx : Nat
  hive : Nat
  waitHive : Nat
  /-- the table line that held the binding has failed, so that no binding is known (R90) -/
  unbound : Bool
  dirty : Bool
  /-- scope and HOST bit of the signal that last raised the value, and the command that made it -/
  scope : Scope
  host : Bool
  byQ : Nat
  byIdx : Nat
  waits : List Waiter
  deriving DecidableEq, Repr

/-- A fence operation held while its fence is read from the table (R93). -/
inductive FenceOp
  | signal (c value : Nat) (close : Bool) (scope : Scope) (host : Bool)
  | wait (c target : Nat)
  | rwait (src seq srcHive colony target level : Nat)
  /-- the poison of a fence that a command of a context owed (R74) -/
  | poison (ctx hive err : Nat)
  /-- the closing of a fence by a migration's handover (R203) -/
  | close
  deriving DecidableEq, Repr

/-- A context kill in progress (R95). -/
structure KillJob where
  ctx : Nat
  /-- the channel of the `CTX_KILL`; none for a kill of a hive sequence -/
  chan : Option Nat
  /-- step 2 to 8; a kill of a hive sequence waits at step 4 for the shared sweep -/
  step : Nat
  /-- fences owed by the commands discarded or aborted at step 2 -/
  owed : List Nat
  noRecords : Bool
  deriving DecidableEq, Repr

/-- A manager instruction that waits for its operation to end (R188). -/
inductive JobKind
  /-- labels whose setting of this `LABEL_SET` is pending (R197) -/
  | labels (hive : Nat) (left : List Nat)
  /-- `INVALIDATE` waiting for the pins of a context over a range (R219) -/
  | pins (ctx va len : Nat)
  /-- `COMB_GRANT` waiting for the pins in an entry's comb (R48, R194); the comb where it is detached -/
  | comb (hive entry : Nat) (detached : Option Comb) (pins : List Pin)
  /-- `KEY_DERIVE` LINK waiting for its links (R196) -/
  | links (left : List Nat)
  | swap (uclass unit sub : Nat)
  deriving DecidableEq, Repr

structure Job where
  chan : Nat
  kind : JobKind
  deriving DecidableEq, Repr

structure QueueMgr where
  ctxs : Tab Ctx
  queues : Tab Queue
  cmds : List Cmd
  pins : List Pin
  fences : Tab Fence
  fills : Tab (List FenceOp)
  kills : List KillJob
  jobs : List Job
  records : List PendRec
  /-- R469: a sweep of the fence table is in progress -/
  sweeping : Bool
  /-- R77: the hive last served -/
  lastHive : Nat
  /-- queue resets in progress: queue, channel of the `QUEUE_BIND`, and whether it unbinds (R76, R195) -/
  resets : List (Nat × Option Nat × Bool)
  deriving DecidableEq, Repr

/-! ## Movers -/

/-- What holds a channel WAITING (R124). -/
inductive Hold
  | none
  | fence (chip fence target : Nat)
  | launchQueued
  | kernel
  | job
  | walk
  | remote
  | hostRead
  | hostFlush
  /-- a line of local memory that its unit has not served yet (R312, R316) -/
  | line (a : Nat)
  /-- the completion record is on its way (R73) -/
  | record
  deriving DecidableEq, Repr

/-- Where a `CALL` returns to (R106): the words of its caller and the word after the `CALL`. -/
structure Frame4 where
  code : List Word
  base : Nat
  pc : Nat
  deriving DecidableEq, Repr

/-- R299: consecutive whole lines, or lines with every element present, on their way into one WRITE or REDUCE frame. -/
structure Pack where
  pa : Nat
  lines : Nat
  reduce : Bool
  opf : Nat
  elems : List Byte
  draws : List Byte
  deriving DecidableEq, Repr

structure Channel where
  state : ChanState
  q : Nat
  idx : Nat
  ctx : Nat
  hive : Nat
  label : Nat
  g : List Word
  p : List Bool
  t : List (List Word)
  st : Status
  stack : List Frame4
  /-- the words of the slot, or of the program object being run, and its address -/
  code : List Word
  base : Nat
  pc : Nat
  /-- R107: objects fetched in this command -/
  objects : List (Nat × List Word)
  /-- R117: the pieces of the current instruction already performed -/
  prog : Nat
  /-- the reorder buffer (R112, R117, R130): lines read for the current instruction that its lines ahead still need -/
  rob : List (Nat × List Byte)
  /-- R136, R177: source lines that the current instruction has written since, as they stood before -/
  before : List (Nat × List Byte)
  /-- R136, R177: the draw that says which source each overlapping element of the current instruction takes -/
  pickDraw : Option Nat
  /-- R177: elements of the current instruction that go on in a line ahead, with the bytes made of them -/
  parts : List (Nat × List Byte)
  /-- R299: whole lines of the current instruction that its next request frame gathers -/
  pack : Option Pack
  /-- R299: elements of the current line's REDUCE that earlier frames have carried -/
  sent : Nat
  /-- a status that a line of the current instruction has ended with (R132) -/
  lineStatus : Option Status
  hold : Hold
  /-- reservations and kernels: clusters that still run, exit words so far, register for the result -/
  kernels : List Nat
  exits : Nat
  /-- R159: the launch sequence number that the launch record carries -/
  launchSeq : Nat
  /-- R114: the command's last instruction has retired -/
  retired : Bool
  /-- ending status; R73's depth and word -/
  endStatus : Status
  endDepth : Nat
  endWord : Nat
  owed : List (Nat × Nat)
  scope : Nat
  host : Bool
  irq : Bool
  /-- the command has written host lines since its last flush read (R253) -/
  hostWritten : Bool
  /-- chips the command has written since (R114, R152): every remote write is acknowledged when none is in flight -/
  clusterCycles : Nat
  /-- the abort is part of a kill: owed fences are poisoned at step 4 of R95 -/
  inKill : Bool
  deriving DecidableEq, Repr

/-- A logical mover (R405, R409). -/
structure Mover where
  physical : Nat
  /-- the physical mover whose combine unit serves the home side -/
  homePhysical : Nat
  inService : Bool
  draining : Bool
  gated : Bool
  homeWaits : Bool
  spareAwake : Bool
  deriving DecidableEq, Repr

structure Movers where
  chans : Tab Channel
  movers : Tab Mover
  /-- scratchpads (R453): cluster × 2^24 + offset and byte pairs, unlisted bytes zero -/
  spads : List Host.Cell
  /-- R121: clusters whose scratchpad became undefined, with the draw of that moment; such a scratchpad's bytes are
  kept as their difference from the open bytes -/
  spadUndef : Tab Nat
  /-- R447: scratchpad lines that their target reports poisoned or uncorrectable: by cluster × 2^17 + line -/
  spadConds : Tab LineCond
  deriving DecidableEq, Repr

/-! ## Translation unit -/

/-- R221: an entry of the translation buffers. -/
structure Tlb where
  ctx : Nat
  va : Nat
  sizeLog2 : Nat
  frame : Nat
  host : Bool
  /-- a host page whose `frame` is the address that ATS gave (R231), else the device virtual address itself (R235) -/
  translated : Bool
  rd : Bool
  wr : Bool
  atom : Bool
  nopf : Bool
  hive : Nat
  deriving DecidableEq, Repr

/-- A set of the second level: its ways in service (none for invalid) and its pseudo-LRU bits. -/
structure TlbSet where
  ways : List (Option Tlb)
  plru : Nat
  deriving DecidableEq, Repr

/-- R221: an entry of the directory cache. -/
structure DirEntry where
  ctx : Nat
  level : Nat
  va : Nat
  next : Nat
  deriving DecidableEq, Repr

/-- One requester of a walk or of a translation request: its access and its address. -/
structure Want where
  r : Requester
  access : Access
  va : Nat
  deriving DecidableEq, Repr

/-- A walk in progress for a run-time miss (R116, R225), or for the forager of some channels (R229). -/
structure Walk where
  id : Nat
  ctx : Nat
  va : Nat
  seq : Nat
  wants : List Want
  /-- the forager's part: channel and address of each lookup -/
  forager : List (Nat × Nat)
  deriving DecidableEq, Repr

/-- R240, R241: an unanswered resolvable record. -/
structure FaultRec where
  index : Nat
  kind : FaultKind
  ctx : Nat
  page : Nat
  access : Access
  va : Nat
  reqs : List Requester
  repeats : Nat
  level : Nat
  deriving DecidableEq, Repr

/-- R240, R243: a fault answered RETRY, with its records so far and the requesters it may recur for. -/
structure Repeat where
  ctx : Nat
  page : Nat
  access : Access
  count : Nat
  reqs : List Requester
  deriving DecidableEq, Repr

/-- An outstanding ATS Translation Request (R232), under the HOST leaf that called for it. -/
structure AtsReq where
  id : Nat
  /-- the context's invalidation sequence number when its leaf was read (R219) -/
  seq : Nat
  ctx : Nat
  pasid : Nat
  va : Nat
  leaf : Tlb
  wants : List Want
  forager : List Nat
  deriving DecidableEq, Repr

/-- R233: a page request: outstanding under its group, or waiting for one. `answered`: the manager has answered its
record, so its response acts on nothing (R244). -/
structure PriReq where
  group : Option Nat
  pasid : Nat
  ctx : Nat
  /-- the 4 KiB page's number -/
  page : Nat
  answered : Bool
  deriving DecidableEq, Repr

/-- R229: a pending lookup of the forager. -/
structure Hint where
  chan : Nat
  ctx : Nat
  va : Nat
  deriving DecidableEq, Repr

/-- R246, R247: a dirty-cell log. -/
structure DirtyLog where
  hive : Nat
  cells : List Nat
  allDirty : Bool
  deriving DecidableEq, Repr

structure Translation where
  l1 : Tab (List Tlb)
  l2 : Tab TlbSet
  dir : List DirEntry
  ats : List Tlb
  walks : List Walk
  /-- translation requests outstanding -/
  atsReqs : List AtsReq
  /-- ATS invalidations whose completion waits: request tag, and the host reads issued under what was removed -/
  atsInvs : List (Nat × List Nat)
  nextId : Nat
  faults : List FaultRec
  faultNext : Nat
  faultConsumed : Nat
  /-- permanent records that wait for a ring slot, at most 64 (R239) -/
  permWait : List (List Word)
  /-- resolvable faults that wait for a ring slot -/
  resWait : List FaultRec
  /-- faults that may recur (R243) -/
  repeats : List Repeat
  /-- R243: requesters whose page-fault service timeout runs, each with the 32 MiB page of its fault -/
  timers : List (Requester × Nat)
  logs : List DirtyLog
  priGroup : Nat
  pri : List PriReq
  /-- R236: ATS completions discarded -/
  atsLost : Nat
  /-- the forager's pending lookups, at most 1,024 (R229) -/
  forager : List Hint
  deriving DecidableEq, Repr

/-! ## Propolis -/

/-- R306: a loaded key slot: the generation and the 96 bytes of material, and its worn-out mark (R410). -/
structure KeySlot where
  loaded : Bool
  gen : Nat
  material : List Byte
  /-- R305: H, computed at the load -/
  hashKey : List Byte
  /-- R367, R408: the wrapped copy that the vault keeps with a LOADED slot -/
  wrapped : List Byte
  retired : Bool
  deriving DecidableEq, Repr

/-- R314: what one unit's bitmap says of a slice. -/
structure Slice where
  state : SliceState
  /-- R313: its fill is under way; an OPENING slice may still wait for one of the unit's 8 fills -/
  filling : Bool
  uncertain : Bool
  /-- the slice was not OPEN when its word was lost, so a line not written since fails its tag -/
  stale : Bool
  /-- mark fresh waits for OPEN (R312) -/
  markFresh : Bool
  /-- R313, R319: the key and the level of the request that caused the opening -/
  keySel : Nat := 0
  level : Nat := 0
  deriving DecidableEq, Repr

/-- A request at a propolis unit: what it is, and its kind where it writes. -/
structure HomeReq where
  req : LineReq
  kind : Option WriteKind
  /-- the write that follows its read: OK for the merged line, else the status owed once the line is poisoned (R315) -/
  second : Option Status
  /-- the ciphertext as it was read, which goes back under a POISON tag (R315) -/
  raw : List Byte
  /-- it stands for a line of one of the block's own rows, which is performed by that row once its turn has come (log 67) -/
  ticket : Bool := false
  deriving DecidableEq, Repr

/-- R316: a line that requests wait for: behind a read-modify-write's lock, or behind what they may not meet at the port
(R450); in arrival order. -/
structure LineLock where
  addr : Nat
  rmw : Bool
  waiting : List HomeReq
  deriving DecidableEq, Repr

structure Propolis where
  /-- plaintext of local memory under the present keys: address and byte pairs, unlisted bytes zero -/
  mem : List Host.Cell
  /-- lines whose condition differs from the default of their slice -/
  conds : Tab LineCond
  /-- by cell × 64 + port -/
  slices : Tab Slice
  slots : Tab KeySlot
  /-- requests waiting for an opening slice: slice key and request, in arrival order -/
  waiting : List (Nat × HomeReq)
  locks : List LineLock
  /-- R316: requests that wait for one of the 64 line locks of their unit, in arrival order -/
  lockWait : List HomeReq
  /-- R313: the OPENING slices whose fill has not begun, by key, in order -/
  fillQ : List Nat
  /-- R316, R326: the lines of the block's own rows whose turn has come -/
  granted : List HomeReq
  /-- R309: the tweak cache of each unit: slot and data unit, most recently used first -/
  tweaks : Tab (List (Nat × Nat))
  gated : List Nat
  deriving DecidableEq, Repr

/-- A request that holds a tag of a stream port (R449). -/
structure PortReq where
  tag : Nat
  home : HomeReq
  /-- the plaintext that a write leaves in the line, and the old value of its atomic -/
  line : List Byte
  old : Nat
  deriving DecidableEq, Repr

/-- A stream port (R448, R449): memory-side 0 to 63, core-side 64 to 95. -/
structure Port where
  creditReq : Nat
  creditWd : Nat
  initial : Bool
  leftOut : Bool
  reads : List PortReq
  writes : List PortReq
  quarReads : List Nat
  quarWrites : List Nat
  /-- requests that wait for credit or for the arbiter, in arrival order -/
  arb : List HomeReq
  /-- R326: of them, those that were passed over for their bound, to be served next -/
  aged : List HomeReq
  /-- R326: by level, the requester that the arbiter served last -/
  turns : Tab Nat
  deriving DecidableEq, Repr

/-! ## Swarm controller -/

/-- R281: a route entry. -/
structure Route where
  valid : Bool
  hops : Nat
  rto : Nat
  nextChip : Nat
  spray : Nat
  primary : Nat
  deriving DecidableEq, Repr

structure Link where
  state : LinkState
  holdDown : Bool
  locked : Bool
  neighbour : Nat
  /-- present generation for sending and for receiving -/
  genTx : Nat
  genRx : Nat
  /-- R290: an older receive generation still kept, and a rekey this end began -/
  oldRx : Bool
  initiated : Bool
  replied : Bool
  lctrTx : Nat
  /-- one above the last counter accepted under the present receive key, and under the older one -/
  lctrRx : Nat
  lctrOld : Nat
  /-- R288, R290: the link key slots: for sending, for receiving, the older one for receiving, and the next one for sending
  until it is in use -/
  txKey : List Byte
  rxKey : List Byte
  oldKey : List Byte
  nextKey : List Byte
  /-- R367: the wrapped loads that last filled a slot for sending and one for receiving -/
  txWrapped : List Byte
  rxWrapped : List Byte
  /-- R289: when the frames discarded in the last 1 ms arrived, in control-clock cycles (R277) -/
  discards : List Nat
  /-- handshake of R287: own and peer's phase-1 payload -/
  ownHello : List Byte
  peerHello : List Byte
  /-- credit held at the far end, in KiB: what is reserved for each level, and what the levels share (R302); and credit owed to
  it by level -/
  credit : List Nat
  shared : Nat
  owed : List Nat
  /-- R410: no spare lane path is left -/
  broken : Bool
  gated : Bool
  deriving DecidableEq, Repr

/-- A sent frame that is not yet acknowledged (R293), and the link it was last sent on. -/
structure SentFrame where
  seq : Nat
  frame : Frame
  link : Option Nat
  deriving DecidableEq, Repr

structure Flow where
  /-- it holds one of the 4,096 entries of the flow table -/
  entry : Bool
  /-- R295: this end has sent a CLOSE and given its entry up; a frame of the flow shows that the peer ignored it -/
  closing : Bool
  /-- R295: control-clock cycles for which the flow has been idle -/
  idleFor : Nat
  opened : Bool
  epoch : Nat
  /-- R291: the peer's epoch that did not stand when OPENs crossed -/
  crossed : Option Nat
  nextSeq : Nat
  acked : Nat
  retx : List SentFrame
  /-- requests that wait for the flow to open or for its window -/
  held : List Frame
  spray : Bool
  cum : Nat
  bitmap : List Nat
  /-- seqs above the watermark that count as performed (R297), and the watermark -/
  performed : List Nat
  landed : Nat
  /-- failures told by a RESP: seq of the request and seq of the RESP (R297) -/
  failed : List (Nat × Nat)
  peerLanded : Nat
  sinceAck : Nat
  dup : Nat
  winErr : Nat
  deriving DecidableEq, Repr

/-- What a remote transaction was for (R299). `record`: the completion record of a queue's index (R73). -/
inductive TxnKind
  /-- line `va` of the instruction of the channel is written -/
  | write (va : Nat)
  | read (va len : Nat)
  | atomic
  | wait
  | record (q idx : Nat)
  deriving DecidableEq, Repr

/-- An open remote transaction (R301). -/
structure Txn where
  id : Nat
  peer : Nat
  seq : Nat
  chan : Nat
  kind : TxnKind
  addr : Nat
  /-- the lines of its frame (R299) -/
  lines : Nat
  deriving DecidableEq, Repr

/-- An accepted frame that is not yet performed. -/
structure RxFrame where
  link : Nat
  frame : Frame
  deriving DecidableEq, Repr

/-- A data frame that waits for credit at the sender of a link: the link it came in on (`Config.ownLink` for the chip's
own) and the one that R282 chose for it. -/
structure FwdFrame where
  link : Nat
  out : Nat
  frame : Frame
  deriving DecidableEq, Repr

structure Swarm where
  routes : Tab Route
  links : Tab Link
  flows : Tab Flow
  txns : List Txn
  nextTxn : Nat
  epoch : Nat
  rx : List RxFrame
  /-- frames that wait for credit at the link senders, in arrival order -/
  fwd : List FwdFrame
  /-- R326: by link × 4 + level, the link of origin that its sender served last -/
  turns : Tab Nat
  /-- frames discarded and counted (R283, R285, R292) -/
  discarded : Nat
  responsesLost : Nat
  deriving DecidableEq, Repr

/-! ## Regulator -/

structure Label where
  hive : Nat
  guar : Nat
  ceil : Nat
  prio : Nat
  win : Nat
  missEv : Bool
  stat : Bool
  irqMax : Nat
  /-- the setting that the next boundary applies -/
  pendingSet : Option LabelSetting
  meter : Nat
  /-- R334: charging stops at the next boundary, and has stopped -/
  stopping : Bool
  stopped : Bool
  /-- the cap level applied at the last boundary -/
  cap : Nat
  wseq : Nat
  linesPrio : Nat
  linesBulk : Nat
  linesScav : Nat
  held : Nat
  misses : Nat
  irqHeld : Nat
  sat : Bool
  deriving DecidableEq, Repr

structure Regulator where
  labels : Tab Label
  /-- R325: the local copies of the meters, refreshed at least every 128 control-clock cycles -/
  copies : Tab Nat
  deriving DecidableEq, Repr

/-! ## Sequencer -/

/-- A pending message of a vector (R337). -/
structure PendMsg where
  vector : Nat
  /-- the hive it is charged to -/
  hive : Nat
  /-- it has passed the hive mask and been held by the budget -/
  held : Bool
  /-- it has passed the budget and been charged -/
  charged : Bool
  deriving DecidableEq, Repr

structure Sequencer where
  eventNext : Nat
  eventConsumed : Nat
  eventLost : Nat
  msgs : List PendMsg
  /-- R343: open RETARGETED records: vector, record index, count, hive -/
  retargets : List (Nat × Nat × Nat × Nat)
  deriving DecidableEq, Repr

/-! ## Brood -/

/-- R416: an error-log record. R17 asks for a clock-source flag in each record, and the layout of R416 gives it no bit:
`osc` holds it, beside the words that R393 reads (log 54). -/
structure LogRec where
  /-- R17: the keeper ran on its oscillator when the record was made -/
  osc : Bool
  index : Nat
  cls : Nat
  status : Nat
  hive : Nat
  ugroup : Nat
  unit : Nat
  sub : Nat
  cause : Nat
  ctx : Nat
  keySel : Nat
  keyGen : Nat
  paddr : Nat
  count : Nat
  stamp : Nat
  boots : Nat
  warms : Nat
  deriving DecidableEq, Repr

/-- R412: the wear counts of a physical unit: its class (5 a propolis unit, 6 what is not spared), its group within the
class, its number, totals, 24 hourly buckets, newest first, and when the corrected errors of the last second came. -/
structure Wear where
  uclass : Nat
  group : Nat
  unit : Nat
  corr : Nat
  unc : Nat
  corrHours : List Nat
  uncHours : List Nat
  recent : List Nat
  deriving DecidableEq, Repr

/-- A substitution under way (R408, R409). -/
structure Subst where
  uclass : Nat
  unit : Nat
  sub : Nat
  /-- the channel of the `SPARE_SWAP`; none for a keeper request -/
  chan : Option Nat
  spare : Nat
  retries : Nat
  /-- cancelled; the keeper tries again after 10 s -/
  sleeping : Bool
  deriving DecidableEq, Repr

structure Brood where
  log : List LogRec
  logNext : Nat
  flashLog : List LogRec
  /-- records not yet copied to flash -/
  unsaved : List Nat
  boots : Nat
  warms : Nat
  wear : List Wear
  savedWear : List Wear
  substs : List Subst
  /-- R406, R409: physical units that the keeper state marks bad: class, group and number; and those of the last boot -/
  bad : List (Nat × Nat × Nat)
  bootBad : List (Nat × Nat × Nat)
  /-- substitutions since the last boot: class, group, logical and physical unit -/
  map : List (Nat × Nat × Nat × Nat)
  /-- R420: inputs refused -/
  refused : Nat
  /-- R415: the record index that the keeper state in flash holds -/
  keptNext : Nat
  /-- R379: step 5 of `SCRAP` is done -/
  scrapped : Bool
  deriving DecidableEq, Repr

/-! ## The TAP segment -/

/-- The instruction register of the segment (R458) and the fields of HX_DBG_WIN (R459). -/
structure Tap where
  ir : Nat
  dwData : Word
  dwStatus : Nat
  dwOp : Nat
  dwSpace : Nat
  dwHive : Nat
  dwAddr : Nat
  deriving DecidableEq, Repr

/-! ## The whole -/

structure State where
  /-- the commands that wait, first in, first out -/
  pending : List Instr
  /-- the model's own counter: how many open values have been drawn (applied to Config's opaque constants) -/
  free : Nat
  /-- the model's own log: what the block has put on its ports, oldest first -/
  sent : List Output
  clk : Clocks
  kp : Keeper
  vault : Vault
  hp : HostPort
  he : HiveEngine
  qm : QueueMgr
  mv : Movers
  xl : Translation
  pr : Propolis
  ports : Tab Port
  sw : Swarm
  rg : Regulator
  sq : Sequencer
  br : Brood
  tap : Tap
  deriving DecidableEq, Repr

/-! ## Reset -/

def ClockSt.reset : ClockSt := { req := false, second := false, ready := false }

/-- R442, R443, R402: at cold reset `hx_down` is high, `wg_hold` released and no fast clock runs. -/
def Clocks.reset : Clocks :=
  { ticks := 0, coldTicks := 0, controlCycles := 0, osc := false, control := .reset, stream := .reset, portsDue := false,
    hxDown := true, wgHold := false, cold := true }

def Settings.reset : Settings :=
  { chipId := 0, chipIdValid := false, pCapW := 0, integ := 0, bandGib := 0, streamIdleUs := 100,
    controlIdleUs := 1000, h0w2 := 0, h0w3 := 0, h0w4 := 0, objBase := 0, fenceBase := 0, faultBase := 0,
    eventBase := 0, routeBase := 0, lstatBase := 0, lab0Count := 0, pmbCount := 0, q0Index := 0, combs := [],
    ctx0 := [], queue0 := [], labels := [], pmb := [], endorseRoot := 0, endorseKey := [], endorsement := [] }

/-- R394: every field of the mailbox registers resets to 0. -/
def Mailbox.reset : Mailbox :=
  { bootStage := 0, fwCopy := false, setCopy := false, vecShort := false, setFail := false,
    fwFallback := false, isOut := false, pmbFail := false, clkFail := false, drbgFail := false, fwSecver := 0,
    setSecver := 0, op := 0, argLen := 0, tag := 0, busy := false, replyStatus := 0, replyLen := 0,
    replyTag := 0, refused := 0, rebootTag := none, resetAsked := false, args := [], reply := [] }

def Waggle.reset : Waggle :=
  { census := [], fwd := [], rx := [], wseq := 0, discarded := 0, cap := none, wakeAt := none,
    outWait := false, outDeclared := false }

/-- R330: c is 0 at block warm reset. -/
def Power.reset : Power :=
  { level := 0, good := [], fails := 0, overCount := 0, overRaised := false, readRaised := false, mailboxCap := 0,
    readings := [], nextMonitor := 0, voutModes := [] }

def Keeper.reset : Keeper :=
  { mbox := .reset, settings := .reset, haveSettings := false, flash := [], flashMode := .plain, flashWide := false, sensed := false,
    waggle := .reset, power := .reset, warm := none, watchdogStarved := false, capability := [] }

/-- R362, R407: an unblown fuse reads 0; an entry of SP_SRAM that does names row 0 of instance 0. -/
def Fuses.reset : Fuses :=
  { lc := [0, 0, 0], serial := 0, drk := 0, drkChk := 0, owner := [0, 0, 0, 0], enrolled := [0, 0, 0],
    revoked := [0, 0, 0], arbFw := 0, arbSet := 0, trim := 0, badMover := [], badKeyrow := [], badLane := [],
    badRow := List.replicate 64 0 }

def Vault.reset : Vault :=
  { fuses := .reset, lc := .blank, lcWord := 0, provKey := none, challenge := none, tokens := [],
    drbgOn := false, drbgRequests := 0, drbgFails := 0, wrapKey := [], wrapBad := false, verify := none, identity := [], mgrGen := 0,
    commonsGen := [], linkSecrets := [], blow := none }

def Counters.reset : Counters :=
  { sunkDb := 0, sunkWr := 0, urReads := 0, urAtomic := 0, dupResp := 0, staleInv := 0, faultLost := 0,
    badConsumed := 0 }

def HostPort.reset : HostPort :=
  { windows := [], msix := [], msixFunctionMask := false, pba := [], counters := .reset, pasids := [],
    atsOn := false, priOn := false, priAlloc := 0, priFailed := false, d3hot := false, reads := [], queue := [], flushes := [],
    nextId := 0 }

def HiveEngine.reset : HiveEngine :=
  { hives := [], clusters := [], resets := [], creates := [], resizes := [], migrations := [] }

def QueueMgr.reset : QueueMgr :=
  { ctxs := [], queues := [], cmds := [], pins := [], fences := [], fills := [], kills := [], jobs := [], records := [],
    sweeping := false, lastHive := 0, resets := [] }

def Movers.reset : Movers := { chans := [], movers := [], spads := [], spadUndef := [], spadConds := [] }

def Translation.reset : Translation :=
  { l1 := [], l2 := [], dir := [], ats := [], walks := [], atsReqs := [], atsInvs := [], nextId := 0,
    faults := [], faultNext := 0, faultConsumed := 0, permWait := [], resWait := [], repeats := [], timers := [], logs := [],
    priGroup := 0, pri := [], atsLost := 0, forager := [] }

def Propolis.reset : Propolis :=
  { mem := [], conds := [], slices := [], slots := [], waiting := [], locks := [], lockWait := [], fillQ := [], granted := [],
    tweaks := [], gated := [] }

def Swarm.reset : Swarm :=
  { routes := [], links := [], flows := [], txns := [], nextTxn := 0, epoch := 0, rx := [], fwd := [], turns := [],
    discarded := 0, responsesLost := 0 }

def Regulator.reset : Regulator := { labels := [], copies := [] }

def Sequencer.reset : Sequencer :=
  { eventNext := 0, eventConsumed := 0, eventLost := 0, msgs := [], retargets := [] }

def Brood.reset : Brood :=
  { log := [], logNext := 0, flashLog := [], unsaved := [], boots := 0, warms := 0, wear := [],
    savedWear := [], substs := [], bad := [], bootBad := [], map := [], refused := 0, keptNext := 0, scrapped := false }

/-- R459: every field of HX_DBG_WIN resets to 0; the instruction register holds HX_IDCODE (log 79). -/
def Tap.reset : Tap := { ir := 1, dwData := 0, dwStatus := 0, dwOp := 0, dwSpace := 0, dwHive := 0, dwAddr := 0 }

/-- The machine right after a cold reset, before it boots (R350, R388): every state cleared except the fuses,
which are unblown (R362), and the flash, which the keeper has not read. `COLD_BOOT` is the step that boots it. -/
def State.reset : State :=
  { pending := [], free := 0, sent := [], clk := .reset, kp := .reset, vault := .reset, hp := .reset,
    he := .reset, qm := .reset, mv := .reset, xl := .reset, pr := .reset, ports := [], sw := .reset,
    rg := .reset, sq := .reset, br := .reset, tap := .reset }

end Sys2Proof.Machine
end

