-- ==== Sys2Proof/Machine/Ops.lean ====
section
/-! DEFINITION. Named operations that every unit of the block shares: free values, the outputs, the geometry of local
memory (R41, R42), combs and hives, the error log (R414 to R417). -/

namespace Sys2Proof.Machine

/-- A step whose event changes the state to `t` where it can reach its unit; where it cannot, a "—" of the state tables
(R38, R124, R286) or the end of an operation that is not in progress, it changes nothing (log 6). -/
def taken (can : Bool) (s t : State) : Host.Outcome State Fault Refusal := .next (if can then t else s)

/-! ## Parts of the state -/

def State.onClk (s : State) (f : Clocks → Clocks) : State := { s with clk := f s.clk }
def State.onKp (s : State) (f : Keeper → Keeper) : State := { s with kp := f s.kp }
def State.onVault (s : State) (f : Vault → Vault) : State := { s with vault := f s.vault }
def State.onHp (s : State) (f : HostPort → HostPort) : State := { s with hp := f s.hp }
def State.onHe (s : State) (f : HiveEngine → HiveEngine) : State := { s with he := f s.he }
def State.onQm (s : State) (f : QueueMgr → QueueMgr) : State := { s with qm := f s.qm }
def State.onMv (s : State) (f : Movers → Movers) : State := { s with mv := f s.mv }
def State.onXl (s : State) (f : Translation → Translation) : State := { s with xl := f s.xl }
def State.onPr (s : State) (f : Propolis → Propolis) : State := { s with pr := f s.pr }
def State.onSw (s : State) (f : Swarm → Swarm) : State := { s with sw := f s.sw }
def State.onRg (s : State) (f : Regulator → Regulator) : State := { s with rg := f s.rg }
def State.onSq (s : State) (f : Sequencer → Sequencer) : State := { s with sq := f s.sq }
def State.onBr (s : State) (f : Brood → Brood) : State := { s with br := f s.br }

/-! ## Free values and outputs -/

/-- The next open number (Config.freeNat) and the state that has drawn it. -/
def drawNat (s : State) : Nat × State := (Config.freeNat s.free, { s with free := s.free + 1 })

/-- `n` open bytes. -/
def drawBytes (s : State) (n : Nat) : List Byte × State :=
  (((Config.freeBytes s.free n) ++ List.replicate n 0).take n, { s with free := s.free + 1 })

/-- `n` bytes of the DRBG, whose generate requests are counted (R365). -/
def drawDrbg (s : State) (n : Nat) : List Byte × State :=
  let d := drawBytes s n
  (d.1, d.2.onVault (fun v => { v with drbgRequests := if 65535 ≤ v.drbgRequests then 0 else v.drbgRequests + 1 }))

/-- SHA-384, 48 bytes. -/
def digest (l : List Byte) : List Byte := (Config.sha384 l ++ List.replicate 48 0).take 48

/-- What the block puts on a port. -/
def emit (s : State) (o : Output) : State := { s with sent := s.sent ++ [o] }

/-- R256: the attributes of a completion or launch record, of a `CAP` or `ST.G` write and of an MSI-X message. -/
def Attr.ordered : Attr := { noSnoop := false, relaxed := false, idOrdered := false }

/-- R256: the attributes of bulk data (log 57). -/
def Attr.bulk : Attr := { noSnoop := false, relaxed := true, idOrdered := Config.bulkIdOrdered }

/-- R256: the attributes of a read (log 57). -/
def Attr.read : Attr := { noSnoop := false, relaxed := Config.readRelaxed, idOrdered := Config.readIdOrdered }

/-! ## Demands for a fast clock (R18) -/

def clockOf (s : State) : Dom → ClockSt
  | .control => s.clk.control
  | .stream => s.clk.stream

def setClock (s : State) (d : Dom) (f : ClockSt → ClockSt) : State :=
  match d with
  | .control => s.onClk (fun c => { c with control := f c.control })
  | .stream => s.onClk (fun c => { c with stream := f c.stream })

/-- R353 step 1: a clock that neither runs nor starts is requested. -/
def requestClock (s : State) (d : Dom) : State :=
  if (clockOf s d).req then s
  else emit (setClock s d (fun _ => { req := true, second := false, ready := false })) (.clockRequest d true)

/-- R18: a demand; one for the stream clock also starts the control clock. After a failed start none is served (R353). -/
def demand (s : State) (d : Dom) : State :=
  if s.kp.mbox.clkFail then s
  else
    match d with
    | .control => requestClock s .control
    | .stream => requestClock (requestClock s .control) .stream

/-- R18: memory is needed: a demand for the stream clock where it does not run. -/
def wakeStream (s : State) : State := if s.clk.stream.ready then s else demand s .stream

/-- R18: work of the stream domain waits until its clock runs. -/
def inStream (s t : State) : State := if s.clk.stream.ready then t else demand s .stream

/-- R18: work of the control domain waits until its clock runs. -/
def inControl (s t : State) : State := if s.clk.control.ready then t else demand s .control

/-- R18, R434, R443: a host access reaches the block. -/
def hostOpen (s : State) : Bool := !s.clk.hxDown && s.clk.control.ready

/-- R18, R274, R443: a host access that does not reach the block: the integrator's controller answers it while `hx_down` is
high; else it waits there for the control clock, which it demands, and comes again. -/
def hostWaits (s : State) : State := if s.clk.hxDown then s else demand s .control

def hostAccess (s t : State) : Host.Outcome State Fault Refusal := .next (if hostOpen s then t else hostWaits s)

/-! ## Status codes and counts -/

/-- R7: the numbers of the status codes. -/
def Status.code : Status → Nat
  | .ok => 0
  | .state => 1
  | .range => 2
  | .rights => 3
  | .fault => 4
  | .timeout => 5
  | .poison => 6
  | .contextKilled => 7
  | .tagFail => 8
  | .decode => 9
  | .aborted => 10
  | .resource => 11
  | .link => 12
  | .hwError => 13

/-- Saturating count. -/
def satInc (bits n : Nat) : Nat := Nat.min (2 ^ bits - 1) (n + 1)

/-- R326: of the requesters in `l`, the one that round-robin among `n` serves after `last`. -/
def nextTurn (n last : Nat) (l : List Nat) : Option Nat :=
  ((List.range n).map (fun i => (last + 1 + i) % n)).find? (fun x => l.contains x)

/-- Addition that saturates at all ones. -/
def satAdd (bits n k : Nat) : Nat := Nat.min (2 ^ bits - 1) (n + k)

/-! ## Integration and geometry -/

/-- R66, R211: the local chip's ID; 0 when `chip_id_valid` is 0. -/
def chipId (s : State) : Nat := if s.kp.settings.chipIdValid then s.kp.settings.chipId else 0

def linksConnected (s : State) : Nat := fld s.kp.settings.integ 48 16
def clustersAttached (s : State) : Nat := fld s.kp.settings.integ 32 16

/-- R41: the stacks in use, the largest power of two not above `mem_stacks`; 0 without memory. -/
def stackCount (s : State) : Nat :=
  let n := fld s.kp.settings.integ 24 8
  if n = 0 then 0 else 2 ^ n.log2

/-- C: the capacity of one stack. -/
def stackBytes (s : State) : Nat := 2 ^ fld s.kp.settings.integ 8 8

/-- B: the band of one stack. -/
def bandBytes (s : State) : Nat := s.kp.settings.bandGib * 2 ^ 30

/-- S × C: local addresses from here up to 2^40 have no memory. -/
def memBytes (s : State) : Nat := stackCount s * stackBytes s

/-- S × (C − B): the end of the striped region. -/
def stripedEnd (s : State) : Nat := stackCount s * (stackBytes s - bandBytes s)

/-- R42: the XOR of the `k`-bit fields of X from bit 12 up to bit 40. -/
def foldPort (x k : Nat) : Nat :=
  if k = 0 then 0
  else (List.range ((28 + k - 1) / k)).foldl (fun a j => a ^^^ fld x (12 + j * k) k) 0

/-- The base, log2 of the ports and first port of the region that holds a local address. -/
def region (s : State) (a : Nat) : Nat × Nat × Nat :=
  if a < stripedEnd s then (0, (8 * stackCount s).log2, 0)
  else
    let b := (a - stripedEnd s) / bandBytes s
    (stripedEnd s + b * bandBytes s, 3, 8 * b)

/-- R42: the memory-side port that is home to a local address. -/
def homePort (s : State) (a : Nat) : Nat :=
  let r := region s a
  r.2.2 + foldPort (a - r.1) r.2.1

/-- R42: the port-local offset of a local address. -/
def portOffset (s : State) (a : Nat) : Nat :=
  let r := region s a
  let x := a - r.1
  let o := ((x >>> (12 + r.2.1)) <<< 12) ||| (x % 4096)
  if a < stripedEnd s then o else o + (stackBytes s - bandBytes s) / 8

/-- R246: the cell of a local address. -/
def cellOf (a : Nat) : Nat := a / 2 ^ 21

/-- The key of a slice: its cell and the port that holds it (R312). -/
def sliceKey (s : State) (a : Nat) : Nat := cellOf a * 64 + homePort s a

/-- R209: the chip of a physical address, and its local part. -/
def paChip (pa : Nat) : Nat := fld pa 41 16
def paLocal (pa : Nat) : Nat := pa % 2 ^ 41
def paOf (chip a : Nat) : Nat := chip * 2 ^ 41 + a

/-! ## Hives and combs -/

/-- R36, R54: a hive that holds nothing; `key_gen` keeps its count. -/
def Hive.empty (keyGen : Nat) : Hive :=
  { state := .free, incoming := false, elastic := false, colony := 0, clusterMin := 0, clusterMax := 0,
    chCeiling := 0, chGuarantee := 0, labelFirst := 0, labelCount := 0, vecFirst := 0, vecCount := 0,
    ctxQuota := 0, queueQuota := 0, peerLo := 0, peerHi := 0, keyGen := keyGen, resizeCount := 0, combs := [],
    launchSeq := 0, launchQ := [], masked := false, irqSent := 0, refusals := 0, refusalsWin := 0,
    firstRefusal := 0, alarms := 0, refusedRaised := false, alarmRaised := false, missRaised := false,
    freezeTick := 0 }

def hiveAt (s : State) (h : Nat) : Hive := (Tab.look s.he.hives h).getD (Hive.empty 0)

def setHive (s : State) (h : Nat) (f : Hive → Hive) : State :=
  s.onHe (fun e => { e with hives := Tab.put e.hives h (f (hiveAt s h)) })

/-- R38: a cluster that nothing holds. -/
def Cluster.empty : Cluster :=
  { state := .free, hive := 255, clearTo := .free, kernel := none, late := false, spadLog2 := 0, pwrEn := false,
    pwrGood := false, iso := true, rstN := false }

def clusterAt (s : State) (n : Nat) : Cluster := (Tab.look s.he.clusters n).getD Cluster.empty

def setCluster (s : State) (n : Nat) (f : Cluster → Cluster) : State :=
  s.onHe (fun e => { e with clusters := Tab.put e.clusters n (f (clusterAt s n)) })

/-- The attached clusters of a hive in a state that `p` accepts, rising. -/
def clustersOf (s : State) (h : Nat) (p : ClusterState → Bool) : List Nat :=
  (List.range (clustersAttached s)).filter (fun n => (clusterAt s n).hive == h && p (clusterAt s n).state)

/-- R44: whether a comb is a commons comb. -/
def Comb.commons (c : Comb) : Bool := decide (0x100 ≤ c.keySel)

/-- Whether a local address lies in a comb. -/
def Comb.holds (c : Comb) (a : Nat) : Bool :=
  c.valid && decide (c.base * 2 ^ 30 ≤ a) && decide (a < (c.base + c.count) * 2 ^ 30)

/-- The valid comb of a hive that holds a local address. -/
def combFor (s : State) (h a : Nat) : Option Comb :=
  ((hiveAt s h).combs.map (·.2)).find? (fun c => c.holds a)

/-- R210, R187: whether a local address lies in a private comb of hive 0. -/
def inHive0Private (s : State) (a : Nat) : Bool :=
  match combFor s 0 a with
  | some c => !c.commons
  | none => false

/-- The hives whose private comb holds a local address. -/
def privateOwner (s : State) (a : Nat) : Option Nat :=
  (s.he.hives.find? (fun e => e.2.combs.any (fun c => !c.2.commons && c.2.holds a))).map (·.1)

/-- R43, R51: the local right of a comb. -/
def Comb.permits (c : Comb) : Need → Bool
  | .rd => c.locRd
  | .wr => c.locWr
  | .atom => c.locAtom

/-- R43, R49: the colony right of a comb. -/
def Comb.colonyPermits (c : Comb) : Need → Bool
  | .rd => c.colRd
  | .wr => c.colWr
  | .atom => c.colAtom

/-! ## The error log -/

/-- R415: whether a class merges with a like record of the last second (25,000,000 keeper ticks). -/
def mergeable (cls : Nat) : Bool := cls == 1 || cls == 4

/-- What an error-log record says, before the log stamps it. -/
structure LogIn where
  cls : Nat
  status : Nat := 0
  hive : Nat := 255
  ugroup : Nat := 0
  unit : Nat := 0
  sub : Nat := 0
  cause : Nat
  ctx : Nat := 0
  keySel : Nat := 0
  keyGen : Nat := 0
  paddr : Nat := 0

/-- R415, R416: a record is written, or raises the count of the record it merges with. -/
def logErr (s : State) (l : LogIn) : State :=
  let same (r : LogRec) : Bool :=
    r.cls == l.cls && r.ugroup == l.ugroup && r.unit == l.unit && r.sub == l.sub && r.cause == l.cause &&
      decide (s.clk.coldTicks < r.stamp + 25000000)
  if mergeable l.cls && s.br.log.any same then
    s.onBr (fun b => { b with log := b.log.map (fun r => if same r then { r with count := satInc 32 r.count } else r) })
  else
    let r : LogRec :=
      { osc := s.clk.osc, index := s.br.logNext, cls := l.cls, status := l.status, hive := l.hive, ugroup := l.ugroup,
        unit := l.unit, sub := l.sub, cause := l.cause, ctx := l.ctx, keySel := l.keySel, keyGen := l.keyGen,
        paddr := l.paddr, count := 1, stamp := s.clk.coldTicks, boots := s.br.boots, warms := s.br.warms }
    s.onBr (fun b =>
      { b with
        log := (b.log ++ [r]).drop (b.log.length + 1 - Config.logRecords)
        logNext := (b.logNext + 1) % 2 ^ 32
        keptNext := (b.logNext + 1) % 2 ^ 32
        unsaved := if mergeable l.cls then b.unsaved else b.unsaved ++ [s.br.logNext] })

/-- R420: a refused input is counted, and logged where the table says so. -/
def refuseInput (s : State) (logged : Bool) (ugroup unit : Nat) : State :=
  let t := s.onBr (fun b => { b with refused := b.refused + 1 })
  if logged then logErr t { cls := 4, ugroup := ugroup, unit := unit, cause := 6 } else t

/-! ## Queues, contexts, labels, channels -/

/-- R66: a FREE context. -/
def Ctx.empty : Ctx :=
  { state := .free, hive := 255, pasid := 0, acctSat := false, ptRoot := 0, grantBase := 0, grantCount := 0,
    moverCycles := 0, clusterCycles := 0, grants := [], invSeq := 0 }

/-- R70: an UNBOUND queue. -/
def Queue.empty : Queue :=
  { state := .unbound, acctSat := false, wdFired := false, ctx := 0, stopOnErr := false, wdAbort := false,
    ringLog2 := 0, weight := 0, ringBase := 0, cplBase := 0, label := 0, wdMs := 50, vector := 0, irqEn := false,
    tail := 0, done := 0, fetch := 0, staleDb := 0, overrunDb := 0, moverCycles := 0, clusterCycles := 0, vt := 0,
    ended := [] }

/-- R321: a label with the Reset values, bound to no hive (255). -/
def Label.empty : Label :=
  { hive := 255, guar := 0, ceil := 0, prio := 1, win := 7, missEv := false, stat := false, irqMax := 0,
    pendingSet := none, meter := 0, stopping := false, stopped := false, cap := 0, wseq := 0, linesPrio := 0,
    linesBulk := 0, linesScav := 0, held := 0, misses := 0, irqHeld := 0, sat := false }

/-- R100, R124: a FREE channel. -/
def Channel.empty : Channel :=
  { state := .free, q := 0, idx := 0, ctx := 0, hive := 255, label := 0, g := List.replicate 16 0,
    p := List.replicate 8 false, t := List.replicate 8 [0, 0, 0, 0], st := .ok, stack := [], code := [], base := 0,
    pc := 0, objects := [], prog := 0, rob := [], before := [], pickDraw := none, parts := [], pack := none, sent := 0,
    lineStatus := none, hold := .none, kernels := [], exits := 0, launchSeq := 0, retired := false, endStatus := .ok,
    endDepth := 0, endWord := 0, owed := [], scope := 0, host := false, irq := false, hostWritten := false,
    clusterCycles := 0, inKill := false }

def ctxAt (s : State) (c : Nat) : Ctx := (Tab.look s.qm.ctxs c).getD Ctx.empty
def setCtx (s : State) (c : Nat) (f : Ctx → Ctx) : State :=
  s.onQm (fun m => { m with ctxs := Tab.put m.ctxs c (f (ctxAt s c)) })

def queueAt (s : State) (q : Nat) : Queue := (Tab.look s.qm.queues q).getD Queue.empty
def setQueue (s : State) (q : Nat) (f : Queue → Queue) : State :=
  s.onQm (fun m => { m with queues := Tab.put m.queues q (f (queueAt s q)) })

def labelAt (s : State) (l : Nat) : Label := (Tab.look s.rg.labels l).getD Label.empty
def setLabel (s : State) (l : Nat) (f : Label → Label) : State :=
  s.onRg (fun r => { r with labels := Tab.put r.labels l (f (labelAt s l)) })

def chanAt (s : State) (c : Nat) : Channel := (Tab.look s.mv.chans c).getD Channel.empty
def setChan (s : State) (c : Nat) (f : Channel → Channel) : State :=
  s.onMv (fun m => { m with chans := Tab.put m.chans c (f (chanAt s c)) })

/-- The channels that hold a command that `p` accepts, rising. -/
def chansWhere (s : State) (p : Channel → Bool) : List Nat :=
  (s.mv.chans.filter (fun e => e.2.state != .free && p e.2)).map (·.1)

/-- R405: a logical mover as it stands at boot on its own physical mover. -/
def Mover.initial (m : Nat) : Mover :=
  { physical := m, homePhysical := m, inService := true, draining := false, gated := false, homeWaits := false,
    spareAwake := false }

def moverAt (s : State) (m : Nat) : Mover := (Tab.look s.mv.movers m).getD (Mover.initial m)
def setMover (s : State) (m : Nat) (f : Mover → Mover) : State :=
  s.onMv (fun v => { v with movers := Tab.put v.movers m (f (moverAt s m)) })

/-- R27, R29: a count that the capability block reports: `n` bits of word `w` from bit `off`; before the boot has assembled it,
the count of the shipped part. -/
def reported (s : State) (w off n shipped : Nat) : Nat :=
  match s.kp.capability[w]? with
  | some x => fld x.toNat off n
  | none => shipped

/-- R27 word 3: `movers_in_service`. -/
def reportedMovers (s : State) : Nat := reported s 3 48 8 Config.moversInService

/-- R27 word 7: the memory key slots in service. -/
def reportedSlots (s : State) : Nat := reported s 7 32 16 Config.keySlotsInService

/-- The movers in service (R26, R405). -/
def moversInService (s : State) : List Nat :=
  (List.range Config.moversInService).filter (fun m => (moverAt s m).inService)

end Sys2Proof.Machine
end

