-- ==== Sys2Proof/Machine/Store.lean ====
section
/-! DEFINITION. What the propolis units hold (R305 to R314): key slots, slices, the content and condition of lines, the dirty
logs that writes enter (R246), and what a write kind makes of a line (R133, R142, R146). -/

namespace Sys2Proof.Machine

/-! ## Keys, slices, lines -/

/-- R312: a slice as it stands after block warm reset. -/
def Slice.fresh : Slice :=
  { state := .fresh, filling := false, uncertain := false, stale := false, markFresh := false, keySel := 0, level := 0 }

def sliceAt (s : State) (a : Nat) : Slice := (Tab.look s.pr.slices (sliceKey s a)).getD Slice.fresh

def setSlice (s : State) (a : Nat) (f : Slice → Slice) : State :=
  s.onPr (fun p => { p with slices := Tab.put p.slices (sliceKey s a) (f (sliceAt s a)) })

/-- R309: the tweak of a line's data unit under a slot is the most recently used of its unit. -/
def useTweak (s : State) (keySel line : Nat) : State :=
  let p := homePort s line
  let e := (keySel, line / 4096)
  let l := ((Tab.look s.pr.tweaks p).getD []).filter (fun x => x != e)
  s.onPr (fun x => { x with tweaks := Tab.put x.tweaks p ((e :: l).take Config.tweakEntries) })

/-- R306: an EMPTY key slot. -/
def KeySlot.empty : KeySlot := { loaded := false, gen := 0, material := [], hashKey := [], wrapped := [], retired := false }

def slotAt (s : State) (k : Nat) : KeySlot := (Tab.look s.pr.slots k).getD KeySlot.empty

def setSlot (s : State) (k : Nat) (f : KeySlot → KeySlot) : State :=
  s.onPr (fun p => { p with slots := Tab.put p.slots k (f (slotAt s k)) })

/-- The condition of a line in a slice that is not FRESH: as listed, else a failed tag in a slice whose content was
never written under the present key (R314), else good. -/
def condOf (s : State) (line : Nat) : LineCond :=
  match Tab.look s.pr.conds line with
  | some c => c
  | none => if (sliceAt s line).stale then .tagFail else .good

def setCond (s : State) (line : Nat) (c : LineCond) : State :=
  s.onPr (fun p => { p with conds := Tab.put p.conds line c })

/-- Bytes of local memory, decrypted; an unlisted byte is zero (R312). -/
def memBytesAt (s : State) (a n : Nat) : List Byte := cellReadN 0 s.pr.mem a n

/-! ## Dirty cells -/

/-- R247: a cell enters a log, or switches it to ALL_DIRTY. -/
def DirtyLog.enter (l : DirtyLog) (cell : Nat) : DirtyLog :=
  if l.allDirty || l.cells.contains cell then l
  else if Config.dirtyWays ≤ (l.cells.filter (fun c => c % Config.dirtySets == cell % Config.dirtySets)).length then
    { l with allDirty := true }
  else { l with cells := l.cells ++ [cell] }

/-- R246: a write performed at a home port enters every log bound to a hive whose private comb holds the cell. -/
def logDirty (s : State) (a : Nat) : State :=
  s.onXl (fun x =>
    { x with logs := x.logs.map (fun l =>
        if (hiveAt s l.hive).combs.any (fun c => !c.2.commons && c.2.holds a) then l.enter (cellOf a) else l) })

/-! ## What a write makes of a line -/

/-- R142: the contributions of a reduce, one after the other in the order they stand. -/
def applyReduce (op : RedOp) (sf acc df : Fmt) (rnd : Rnd) : List Contribution → List Byte → List Byte
  | [], b => b
  | c :: r, b =>
    let n := df.size
    let old := leNat ((b.drop c.off).take n)
    let new := combineElem op acc df rnd c.draw old (sf.decode c.bits)
    applyReduce op sf acc df rnd r (b.take c.off ++ leBytes n new ++ b.drop (c.off + n))

/-- What a write kind makes of a line's bytes, and the old value that an atomic returns. -/
def writeApply (k : WriteKind) (old : List Byte) : List Byte × Nat :=
  match k with
  | .whole d => ((d ++ List.replicate 128 0).take 128, 0)
  | .partialWrite bs =>
    ((List.range 128).map (fun i =>
      match (bs.reverse.find? (fun e => e.1 == i)) with
      | some e => e.2
      | none => nth old i 0), 0)
  | .reduce op sf acc df rnd cs =>
    match Fmt.ofNat? sf, Fmt.ofNat? acc, Fmt.ofNat? df, Rnd.ofNat? rnd with
    | some sf, some acc, some df, some rnd => (applyReduce op sf acc df rnd cs old, 0)
    | _, _, _, _ => (old, 0)
  | .atomic op is64 sg off v c =>
    let n := if is64 then 8 else 4
    let o := leNat ((old.drop off).take n)
    (old.take off ++ leBytes n (atomResult op sg (8 * n) o (v % 2 ^ (8 * n)) (c % 2 ^ (8 * n))) ++ old.drop (off + n),
      o)

/-- Whether a write kind reads the line first (R315). -/
def writeReads : WriteKind → Bool
  | .whole _ => false
  | _ => true

/-- The line's new content, with a new DATA tag (R315), its slice OPEN, its cell logged (R246). -/
def storeLine (s : State) (line : Nat) (bytes : List Byte) : State :=
  let t := setSlice s line (fun sl => { sl with state := .opened, filling := false })
  logDirty (t.onPr (fun p => { p with mem := cellWriteN 0 p.mem line bytes, conds := Tab.put p.conds line .good })) line

/-- R314: the slices of a comb are marked fresh; an OPENING slice waits until it is OPEN (R312). -/
def markFresh (s : State) (c : Comb) : State :=
  s.onPr (fun p =>
    let inC (a : Nat) : Bool := decide (c.base * 2 ^ 30 ≤ a) && decide (a < (c.base + c.count) * 2 ^ 30)
    { p with
      mem := p.mem.filter (fun e => !inC e.1)
      conds := p.conds.filter (fun e => !inC e.1)
      slices := p.slices.filterMap (fun e =>
        if inC (e.1 / 64 * 2 ^ 21) then
          (if e.2.state = .opening then some (e.1, { e.2 with markFresh := true }) else none)
        else some e) })

/-! ## Keys -/

/-- R306, R309: a slot is zeroised in every unit, with its tweaks. -/
def zeroSlot (s : State) (k : Nat) : State :=
  (setSlot s k (fun o => { o with loaded := false, gen := 0, material := [], hashKey := [], wrapped := [] })).onPr (fun p =>
    { p with tweaks := Tab.mapv p.tweaks (fun _ l => l.filter (fun e => e.1 != k)) })

/-- R305, R306, R367: the vault loads a slot with material of a generation, wrapped under the wrap key; the unit computes H.
A load whose unwrap fails (log 64) leaves the slot EMPTY, with an error-log entry. -/
def loadSlot (s : State) (k gen : Nat) (material : List Byte) : State :=
  if s.vault.wrapBad then
    logErr (zeroSlot (s.onVault (fun v => { v with wrapBad := false })) k)
      { cls := 2, status := Status.hwError.code, ugroup := 3, unit := k, cause := 0x10 }
  else
    setSlot s k (fun o =>
      { o with loaded := true, gen := gen, material := material, hashKey := hashKeyOf material,
               wrapped := Config.keyWrap s.vault.wrapKey material })

end Sys2Proof.Machine
end

