-- ==== Sys2Proof/Machine/Units.lean ====
section
/-! DEFINITION. The propolis units as requests reach them through the stream ports (R312, R313, R316, R326, R445 to R450):
arbiters, credits and tags, what leaves on a port, the slices being opened, line locks, and the requests that wait. -/

namespace Sys2Proof.Machine

/-! ## Ports -/

/-- R448: a port after its reset. -/
def Port.reset : Port :=
  { creditReq := 0, creditWd := 0, initial := false, leftOut := false, reads := [], writes := [], quarReads := [],
    quarWrites := [], arb := [], aged := [], turns := [] }

def portAt (s : State) (p : Nat) : Port := (Tab.look s.ports p).getD Port.reset
def setPort (s : State) (p : Nat) (f : Port → Port) : State := { s with ports := Tab.put s.ports p (f (portAt s p)) }

/-- The home port of a request. -/
def portOf (s : State) (h : HomeReq) : Nat := homePort s h.req.addr

/-- Whether the request that goes out now is a write. -/
def HomeReq.writes (h : HomeReq) : Bool :=
  h.second.isSome || (match h.kind with | some (.whole _) => true | _ => false)

/-- R316, R419: whether a request holds its line from its read to its write: a read-modify-write, or a scrub. -/
def HomeReq.locks (h : HomeReq) : Bool := h.req.origin == .scrubber || (h.kind.isSome && !h.writes)

/-- R315, R450: whether the request writes its line, or owes it a POISON tag. -/
def HomeReq.stores (h : HomeReq) : Bool := h.kind.isSome || h.second.isSome

/-- R449: a tag of a space that is neither outstanding nor quarantined. -/
def freeTag (used : List PortReq) (quar : List Nat) : Option Nat :=
  (List.range 4096).find? (fun t => !used.any (fun r => r.tag == t) && !quar.contains t)

/-- R315, R447: the answer to a line request, given to its origin. -/
def answerReq (s : State) (h : HomeReq) (st : Status) (data : List Byte) : State := emit s (.lineAnswer h.req.origin st data)

/-- R326: the requesters among which a port's arbiter goes round (log 28). -/
def requesterOf : Origin → Nat
  | .channel c => c / 8 % 64
  | .walker w => 64 + w % 32
  | .hostPort _ => 96
  | .swarm _ _ => 97
  | .scrubber => 98
  | .table => 99
  | .record _ _ => 100

/-- R326: the request that a port's arbiter serves next: one passed over for its bound; else of the lowest level, in turn by
requester. -/
def nextReq (x : Port) : Option HomeReq :=
  match x.aged with
  | h :: _ => some h
  | [] =>
    (List.range 4).findSome? (fun lv =>
      let l := x.arb.filter (fun h => h.req.level == lv)
      (nextTurn 101 ((Tab.look x.turns lv).getD 100) (l.map (fun h => requesterOf h.req.origin))).bind (fun o =>
        l.find? (fun h => requesterOf h.req.origin == o)))

/-- A request has been served by the arbiter. -/
def Port.served (x : Port) (h : HomeReq) : Port :=
  { x with arb := x.arb.erase h, aged := x.aged.erase h, turns := Tab.put x.turns h.req.level (requesterOf h.req.origin) }

/-- What the write of a request carries: the line's plaintext, and the old value of its atomic. -/
def HomeReq.result (h : HomeReq) (s : State) : List Byte × Nat :=
  writeApply (h.kind.getD (.partialWrite [])) (memBytesAt s h.req.addr 128)

/-- R310, R315, R446: the beat of a request's write: the line encrypted under its DATA tag, or the ciphertext as it was read
under its POISON tag. -/
def beatOf (s : State) (h : HomeReq) (p tag : Nat) : Output :=
  let k := slotAt s h.req.keySel
  let poison : Bool := h.second.isSome && h.second != some .ok
  let data := if poison then h.raw else encryptLine k.material h.req.addr (h.result s).1
  .writeBeat p tag (lineTag k.material k.hashKey h.req.addr poison data) (2 ^ 128 - 1) data

/-- R448, R449: whether a port lacks a credit or a tag for a read, or for a write. -/
def Port.lacks (x : Port) (reads writes : Bool) : Bool :=
  x.creditReq == 0 || (writes && x.creditWd == 0) || (reads && (freeTag x.reads x.quarReads).isNone) ||
    (writes && (freeTag x.writes x.quarWrites).isNone)

/-- Whether a port lacks what a line of a row needs: a read, a whole-line write, or a read-modify-write. -/
def lineLacks (s : State) (line : Nat) (k : Option WriteKind) : Bool :=
  (portAt s (homePort s line)).lacks ((k.map writeReads).getD true) k.isSome

/-- R312, R316: the instructions that wait for a line are tried again. -/
def wakeLines (s : State) : State :=
  s.onMv (fun m => { m with chans := Tab.mapv m.chans (fun _ c =>
    { c with hold := match c.hold with | .line _ => .none | h => h }) })

/-- R445, R446, R448, R449: a request leaves on its port, a write with its beat, if credits and a tag are there. The turn of
a line of the block's own rows has come. -/
def trySend (s : State) (h : HomeReq) : Option State :=
  let p := portOf s h
  let x := portAt s p
  if h.ticket then
    if lineLacks s h.req.addr h.kind then none else some (wakeLines (s.onPr (fun y => { y with granted := y.granted ++ [h] })))
  else if x.creditReq = 0 then none
  else if h.writes then
    if x.creditWd = 0 then none
    else
      (freeTag x.writes x.quarWrites).map (fun t =>
        emit (emit (setPort s p (fun y =>
          { y with creditReq := y.creditReq - 1, creditWd := y.creditWd - 1
                   writes := y.writes ++ [{ tag := t, home := h, line := (h.result s).1, old := (h.result s).2 }] }))
          (.portRequest p true t (portOffset s h.req.addr) h.req.level)) (beatOf s h p t))
  else
    (freeTag x.reads x.quarReads).map (fun t =>
      emit (setPort s p (fun y =>
        { y with creditReq := y.creditReq - 1, reads := y.reads ++ [{ tag := t, home := h, line := [], old := 0 }] }))
        (.portRequest p false t (portOffset s h.req.addr) h.req.level))

/-- R328: what a shared point serves passes over the labels of what goes on waiting: one held cycle more for each, or none
where another shared point has held it in the same cycle; never more than the window has. -/
def passOver (s : State) (served : Option Nat) (waiting : List Nat) : State :=
  (waiting.eraseDups.filter (fun l => some l != served && decide (l < Config.labels))).foldl (fun t l =>
    let d := drawNat t
    setLabel d.2 l (fun x =>
      { x with held := Nat.min ((x.win + 1) * 1000) (if x.held = 0 ∨ d.1 % 2 = 0 then x.held + 1 else x.held) })) s

/-- R326: the requests that wait at a port leave as far as they can; `fuel` bounds the run. -/
def drainPort (s : State) (p : Nat) : (fuel : Nat) → State
  | 0 => s
  | n + 1 =>
    match nextReq (portAt s p) with
    | none => s
    | some h =>
      match trySend s h with
      | some t =>
        let u := setPort t p (fun y => y.served h)
        drainPort (passOver u (some h.req.label) ((portAt u p).arb.map (·.req.label))) p n
      | none => s

/-- R309, R326: a request to memory waits at the arbiter of its port until its turn. -/
def sendOut (s : State) (h : HomeReq) : State :=
  let p := portOf s h
  let t := setPort (useTweak s h.req.keySel h.req.addr) p (fun y => { y with arb := y.arb ++ [h] })
  drainPort t p ((portAt s p).arb.length + 1)

/-! ## Line requests at a unit -/

/-- The requests on a line that the port has not answered, and the lines of rows whose turn has come. -/
def onLine (s : State) (a : Nat) : List HomeReq :=
  let x := portAt s (homePort s a)
  (x.reads.map (·.home) ++ x.writes.map (·.home) ++ x.arb ++ s.pr.granted).filter (fun h => h.req.addr == a)

/-- R162, R410: the logical mover whose combine unit is the home side of a port; for a mover retired since the block warm
reset, the one 32 further on. -/
def homeMover (s : State) (p : Nat) : Nat :=
  let m := p % Nat.max 1 (reportedMovers s)
  if (moverAt s m).inService then m else (m + 32) % 64

/-- R162: whether a write kind is work of a combine unit: a reduce or an atomic. -/
def WriteKind.combines : WriteKind → Bool
  | .reduce _ _ _ _ _ _ => true
  | .atomic _ _ _ _ _ _ => true
  | _ => false

/-- R409: home-side work at a line waits while its combine unit is being exchanged. -/
def homeWaits (s : State) (line : Nat) (k : Option WriteKind) : Bool :=
  (k.map WriteKind.combines).getD false && (moverAt s (homeMover s (homePort s line))).homeWaits

/-- R162, R354: a reduce or an atomic at its home wakes the mover whose combine unit serves its port. -/
def wakeHome (s : State) (line : Nat) (k : Option WriteKind) : State :=
  let m := homeMover s (homePort s line)
  if (k.map WriteKind.combines).getD false && (moverAt s m).gated then setMover s m (fun x => { x with gated := false }) else s

/-- R316: the line locks of a unit. -/
def locksOf (s : State) (p : Nat) : Nat := (s.pr.locks.filter (fun e => e.rmw && homePort s e.addr == p)).length

def addLock (s : State) (a : Nat) (rmw : Bool) (waiting : List HomeReq) : State :=
  s.onPr (fun p => { p with locks := p.locks ++ [{ addr := a, rmw := rmw, waiting := waiting }] })

/-- R315, R316, R409, R450: a request to a line of an OPEN slice: behind the line's lock, behind one that waits for a lock, or
behind what it may not meet at the port; a read-modify-write takes the lock, or waits while the unit holds 64 or its combine
unit is being exchanged. -/
def lineRequest (s : State) (h : HomeReq) : State :=
  let a := h.req.addr
  let busy := onLine s a
  let meets : Bool := if h.stores || h.locks then busy != [] else busy.any HomeReq.stores
  if s.pr.locks.any (fun e => e.addr == a) then
    s.onPr (fun p => { p with locks := p.locks.map (fun e => if e.addr == a then { e with waiting := e.waiting ++ [h] } else e) })
  else if s.pr.lockWait.any (fun x => x.req.addr == a) || homeWaits s a h.kind then
    s.onPr (fun p => { p with lockWait := p.lockWait ++ [h] })
  else if meets then addLock s a false [h]
  else if h.locks then
    if Config.lineLocks ≤ locksOf s (homePort s a) then s.onPr (fun p => { p with lockWait := p.lockWait ++ [h] })
    else sendOut (addLock s a true []) h
  else sendOut s h

/-- R313: the slices that a unit is filling. -/
def fillsOf (s : State) (p : Nat) : Nat := (s.pr.slices.filter (fun e => e.1 % 64 == p && e.2.filling)).length

def putSlice (s : State) (k : Nat) (v : Slice) : State := s.onPr (fun p => { p with slices := Tab.put p.slices k v })

/-- R312: the data units of a slice: those of its cell at its port. -/
def sliceUnits (s : State) (k : Nat) : List Nat :=
  ((List.range 512).map (fun i => k / 64 * 512 + i)).filter (fun u => homePort s (u * 4096) == k % 64)

/-- R310, R313: the lines that open a slice: each one's port-local offset, DATA tag and encrypted zeros. -/
def fillLines (s : State) (k keySel : Nat) : List (Nat × Nat × List Byte) :=
  let x := slotAt s keySel
  (sliceUnits s k).flatMap (fun u => (List.range 32).map (fun i =>
    let a := u * 4096 + 128 * i
    let c := encryptLine x.material a (List.replicate 128 0)
    (portOffset s a, lineTag x.material x.hashKey a false c, c)))

/-- R309, R313, R319: the fill of an OPENING slice, by its key, begins under the key and at the level of the request that
caused it, where the unit fills fewer than 8; else it waits to begin. -/
def beginFill (s : State) (k : Nat) : State :=
  if Config.openings ≤ fillsOf s (k % 64) then s
  else
    let sl := (Tab.look s.pr.slices k).getD Slice.fresh
    let t := (putSlice s k { sl with filling := true }).onPr (fun p => { p with fillQ := p.fillQ.filter (· != k) })
    emit ((sliceUnits s k).foldl (fun t u => useTweak t sl.keySel (u * 4096)) t)
      (.sliceFill (k % 64) (k / 64) sl.level (fillLines s k sl.keySel))

/-- R312, R313: a write-kind request to a FRESH slice opens it. -/
def openSlice (s : State) (h : HomeReq) : State :=
  let k := sliceKey s h.req.addr
  beginFill ((setSlice s h.req.addr (fun sl =>
    { sl with state := .opening, keySel := h.req.keySel, level := h.req.level })).onPr (fun p => { p with fillQ := p.fillQ ++ [k] })) k

/-- A request waits for its slice. -/
def awaitSlice (s : State) (h : HomeReq) : State :=
  s.onPr (fun x => { x with waiting := x.waiting ++ [(sliceKey s h.req.addr, h)] })

/-- R306, R416: a request to an EMPTY slot is not performed; it is logged. -/
def emptySlot (s : State) (hive line : Nat) : State :=
  logErr s { cls := 2, status := Status.hwError.code, hive := hive, ugroup := 7, unit := homePort s line,
             cause := 0xF, paddr := paOf (chipId s) line }

/-- R354: a request wakes the unit at its port. -/
def wakeUnit (s : State) (p : Nat) : State :=
  if s.pr.gated.contains p then s.onPr (fun x => { x with gated := x.gated.filter (· != p) }) else s

/-- R306, R312, R354, R448: a line request at its unit, by the state of its slice. One that owes its line a POISON tag has
nothing left to poison in a slice marked fresh meanwhile. -/
def arrive (s : State) (h : HomeReq) : State :=
  let a := h.req.addr
  let s := wakeHome (wakeUnit s (homePort s a)) a h.kind
  if !(slotAt s h.req.keySel).loaded then answerReq (emptySlot s h.req.hive a) h .hwError []
  else
    match (sliceAt s a).state with
    | .fresh =>
      if h.second.isSome then answerReq s h (h.second.getD .ok) []
      else if h.kind.isNone then answerReq s h .ok (List.replicate 128 0)
      else if (portAt s (homePort s a)).leftOut then answerReq s h .timeout []
      else openSlice (awaitSlice s h) h
    | .opening => awaitSlice s h
    | .opened => if (portAt s (homePort s a)).leftOut then answerReq s h .timeout [] else lineRequest s h

/-- R316: nothing of a line is out any more: those that waited behind it, then those that waited for a lock, arrive again. -/
def releaseLine (s : State) (a : Nat) : State :=
  if onLine s a ≠ [] then s
  else
    let behind := ((s.pr.locks.find? (fun e => e.addr == a)).map (·.waiting)).getD []
    let t := behind.foldl arrive (s.onPr (fun p => { p with locks := p.locks.filter (fun x => x.addr != a) }))
    wakeLines (t.pr.lockWait.foldl arrive (t.onPr (fun p => { p with lockWait := [] })))

/-- A request is answered, and the port goes on. -/
def settle (s : State) (h : HomeReq) (st : Status) (data : List Byte) : State :=
  let t := releaseLine (answerReq s h st data) h.req.addr
  drainPort t (portOf t h) ((portAt t (portOf t h)).arb.length + 1)

/-- R312 to R314: a slice, by its key, is OPEN, or FRESH where a mark fresh waited: no request that arrived before the mark is
left (log 68). The requests that waited go on in arrival order, and the next slice of the port that waits to be filled begins. -/
def openingDone (s : State) (k : Nat) : State :=
  let sl := (Tab.look s.pr.slices k).getD Slice.fresh
  let mine := (s.pr.waiting.filter (fun w => w.1 == k)).map (·.2)
  let t := putSlice s k (if sl.markFresh then Slice.fresh else { sl with state := .opened, filling := false, stale := false })
  let t := mine.foldl arrive (t.onPr (fun p =>
    { p with waiting := p.waiting.filter (fun w => w.1 != k), fillQ := p.fillQ.filter (· != k) }))
  match t.pr.fillQ.find? (fun n => n % 64 == k % 64) with
  | some n => wakeLines (beginFill t n)
  | none => wakeLines t

/-- Every request at a unit or at a port. -/
def atUnits (s : State) : List HomeReq :=
  s.ports.flatMap (fun p => p.2.reads.map (·.home) ++ p.2.writes.map (·.home) ++ p.2.arb) ++ s.pr.waiting.map (·.2) ++
    s.pr.locks.flatMap (·.waiting) ++ s.pr.lockWait ++ s.pr.granted

/-- R248: no write of a hive is at a unit or at a port any more. -/
def writesQuiet (s : State) (h : Nat) : Bool := (atUnits s).all (fun r => r.req.hive != h || !r.stores)

/-- R62, R314: no request under a key is at a unit or at a port any more. -/
def unitsQuiet (s : State) (keySel : Nat) : Bool :=
  (atUnits s).all (fun h => h.req.keySel != keySel)

/-! ## Lines of the block's own rows

A row of an instruction, of a frame, of a host access or of the block's tables performs its line at once where nothing holds
it back; else a ticket takes the line's place at its unit, and the row performs it once its turn has come (log 67). -/

/-- R312, R313, R316, R326, R409, R448: whether a line of a row must wait: its slice is not OPEN for it, its line is locked or
busy at the port, the unit has no lock for it, its combine unit is being exchanged, or the port has no credit or tag. -/
def mustWait (s : State) (keySel line : Nat) (k : Option WriteKind) : Bool :=
  (slotAt s keySel).loaded && !(portAt s (homePort s line)).leftOut &&
    match (sliceAt s line).state with
    | .opening => true
    | .fresh => k.isSome
    | .opened =>
      s.pr.locks.any (fun e => e.addr == line) || s.pr.lockWait.any (fun h => h.req.addr == line) ||
        (onLine s line).any (fun h => k.isSome || h.stores) || homeWaits s line k || lineLacks s line k ||
        ((k.map writeReads).getD false && decide (Config.lineLocks ≤ locksOf s (homePort s line)))

/-- Whether a request is the ticket of an origin for a line. -/
def HomeReq.isTicket (h : HomeReq) (o : Origin) (a : Nat) : Bool := h.ticket && h.req.origin == o && h.req.addr == a

/-- Whether the turn of an origin at a line has come. -/
def holdsTurn (s : State) (o : Origin) (a : Nat) : Bool := s.pr.granted.any (fun h => h.isTicket o a)

/-- Whether a line of a row is performed now. -/
def lineGoes (s : State) (h : HomeReq) : Bool :=
  (holdsTurn s h.req.origin h.req.addr && !lineLacks s h.req.addr h.kind) || !mustWait s h.req.keySel h.req.addr h.kind

/-- A line that must wait takes its place, once. -/
def takePlace (s : State) (h : HomeReq) : State :=
  if (atUnits s).any (fun x => x.isTicket h.req.origin h.req.addr) then s else arrive s { h with ticket := true }

/-- A line whose turn had come has been performed: those behind it go on. -/
def redeem (s : State) (o : Origin) (a : Nat) : State :=
  if holdsTurn s o a then releaseLine (s.onPr (fun p => { p with granted := p.granted.filter (fun h => !h.isTicket o a) })) a else s

/-- The tickets that `p` accepts are withdrawn. -/
def dropWhere (s : State) (p : HomeReq → Bool) : State :=
  let mine (h : HomeReq) : Bool := h.ticket && p h
  let lines := ((atUnits s).filter mine).map (·.req.addr)
  if lines = [] then s
  else
    let t := { s with ports := Tab.mapv s.ports (fun _ p =>
      { p with arb := p.arb.filter (fun h => !mine h), aged := p.aged.filter (fun h => !mine h) }) }
    lines.foldl releaseLine (t.onPr (fun p =>
      { p with
        waiting := p.waiting.filter (fun w => !mine w.2)
        locks := p.locks.map (fun e => { e with waiting := e.waiting.filter (fun h => !mine h) })
        lockWait := p.lockWait.filter (fun h => !mine h)
        granted := p.granted.filter (fun h => !mine h) }))

/-- The tickets of an origin are withdrawn. -/
def dropTickets (s : State) (o : Origin) : State := dropWhere s (fun h => h.req.origin == o)

/-! ## What a row shows on a port

A request of a row is answered within the row: its tag and its credits are free again, and its response is not shown (log
67). -/

/-- R445, R449: the read of a line. -/
def showRead (s : State) (line level : Nat) : State :=
  let p := homePort s line
  let x := portAt s p
  emit s (.portRequest p false ((freeTag x.reads x.quarReads).getD 0) (portOffset s line) level)

/-- R310, R445, R446: the write of a line's ciphertext with its tag, DATA or POISON. -/
def showCipher (s : State) (keySel line level : Nat) (poison : Bool) (cipher : List Byte) : State :=
  let p := homePort s line
  let x := portAt s p
  let t := (freeTag x.writes x.quarWrites).getD 0
  let k := slotAt s keySel
  emit (emit s (.portRequest p true t (portOffset s line) level))
    (.writeBeat p t (lineTag k.material k.hashKey line poison cipher) (2 ^ 128 - 1) cipher)

/-- R310, R446: the write of a line's plaintext under its DATA tag. -/
def showWrite (s : State) (keySel line level : Nat) (plain : List Byte) : State :=
  showCipher s keySel line level false (encryptLine (slotAt s keySel).material line plain)

/-- R315, R319: a line is poisoned: its ciphertext, which the row does not hold, goes back under a POISON tag. -/
def poisonLine (s : State) (keySel line level : Nat) : State :=
  let d := drawBytes s 128
  showCipher (setCond d.2 line .poisoned) keySel line level true d.1

end Sys2Proof.Machine
end

