-- ==== Sys2Proof/Machine/Home.lean ====
section
/-! DEFINITION. What a line request does at its home propolis unit within a step (R133, R142, R146, R306, R310 to R317): the
read and the four write kinds, under the slice state and the condition of the line. -/

namespace Sys2Proof.Machine

/-- R315: what a read finds in an OPEN slice, apart from the data: the status, and the line poisoned where it is. A tag
failure in an uncertain slice is HW_ERROR without an alarm (R314). An uncorrectable error is logged, and whether the
controller accepts the write that poisons the line is open. -/
def meetLine (s : State) (hive keySel line level : Nat) : State × Status :=
  let hw : LogIn := { cls := 2, status := Status.hwError.code, hive := hive, ugroup := 10, unit := homePort s line, cause := 5,
                      paddr := paOf (chipId s) line }
  match condOf s line with
  | .good => (s, .ok)
  | .poisoned => (s, .poison)
  | .tagFail =>
    if (sliceAt s line).uncertain then (logErr (poisonLine s keySel line level) hw, .hwError)
    else (poisonLine s keySel line level, .tagFail)
  | .uncorrectable =>
    let d := drawNat (logErr s hw)
    (if d.1 % 2 = 0 then poisonLine d.2 keySel line level else d.2, .hwError)

/-- R315, R354, R448: a line read, without the alarm of R317. A slice that is being opened reads as zero. -/
def coreRead (s : State) (hive keySel line level : Nat) : State × Status × List Byte :=
  let s := wakeUnit s (homePort s line)
  if !(slotAt s keySel).loaded then (emptySlot s hive line, .hwError, [])
  else if (sliceAt s line).state ≠ .opened then (s, .ok, List.replicate 128 0)
  else if (portAt s (homePort s line)).leftOut then (s, .timeout, [])
  else
    let m := meetLine (useTweak (showRead s line level) keySel line) hive keySel line level
    (m.1, m.2, if m.2 = .ok then memBytesAt s line 128 else [])

/-- R312 to R315, R354, R448: a write-kind request to a line, without the alarm: state, status and an atomic's old value. The
rows that call it wait for the line's turn first, so that its slice is OPEN. -/
def coreWrite (s : State) (hive keySel line : Nat) (k : WriteKind) (level : Nat) : State × Status × Nat :=
  let s := wakeHome (wakeUnit s (homePort s line)) line (some k)
  if !(slotAt s keySel).loaded then (emptySlot s hive line, .hwError, 0)
  else if (portAt s (homePort s line)).leftOut then (s, .timeout, 0)
  else
    let r := writeApply k (memBytesAt s line 128)
    if (sliceAt s line).state ≠ .opened || !writeReads k then
      (storeLine (showWrite (useTweak s keySel line) keySel line level r.1) line r.1, .ok, r.2)
    else
      let m := meetLine (useTweak (showRead s line level) keySel line) hive keySel line level
      if m.2 = .ok then (storeLine (showWrite m.1 keySel line level r.1) line r.1, .ok, r.2) else (m.1, m.2, 0)

end Sys2Proof.Machine
end

