-- ==== Sys2Proof/Machine/Keys.lean ====
section
/-! DEFINITION. The keys that the vault derives (R305, R366, R368) and the loading of their slots (R306). -/

namespace Sys2Proof.Machine

/-- An ASCII string without a terminator. -/
def ascii (t : String) : List Byte := t.toList.map (fun c => BitVec.ofNat 8 c.toNat)

/-- R366: the bytes of the device root. -/
def drkBytes (s : State) : List Byte := leBytes 48 s.vault.fuses.drk

/-- R366: the root that PRK_T (TEST) or PRK_D is extracted from. -/
def rootBytes (s : State) : List Byte := if s.vault.lc = .test then Config.vendorTestRoot else drkBytes s

/-- R366: an expansion of the root under an info string. -/
def expand (s : State) (info : List Byte) (n : Nat) : List Byte :=
  Config.hkdf (leBytes 8 s.vault.fuses.serial) (rootBytes s) info n

/-- R366: 96 bytes of line key, with a fresh draw. -/
def lineKey (s : State) (name : String) (tail : List Byte) : List Byte × State :=
  let d := drawDrbg s 48
  (expand s (ascii name ++ d.1 ++ tail) 96, d.2)

/-- R364: whether the lifecycle state has hive and commons keys, and the DRBG runs that R365 draws from. -/
def keysToBeHad (s : State) : Bool := s.vault.drbgOn && (s.vault.lc == .test || s.vault.lc == .production)

/-- R62 step 6, R57: the next key of a hive is derived and loaded; `key_gen` rises. -/
def deriveHiveKey (s : State) (h : Nat) : State :=
  let g := Nat.min (2 ^ 32 - 1) ((hiveAt s h).keyGen + 1)
  let k := lineKey s "HX1 hive" (leBytes 1 h ++ leBytes 4 g)
  loadSlot (setHive k.2 h (fun x => { x with keyGen := g })) h g k.1

/-- R46: the key of a commons comb, in its next generation. -/
def deriveCommonsKey (s : State) (sel : Nat) : State :=
  let g := ((Tab.look s.vault.commonsGen sel).getD 0) + 1
  let k := lineKey s "HX1 comm" (leBytes 1 (sel - 0x100) ++ leBytes 4 g)
  loadSlot (k.2.onVault (fun v => { v with commonsGen := Tab.put v.commonsGen sel g })) sel g k.1

/-- R307, R366: the manager key of a block warm reset, drawn whole in the states without a root. -/
def deriveManagerKey (s : State) : State :=
  let g := s.vault.mgrGen + 1
  let k := if s.vault.lc = .test ∨ s.vault.lc = .production then lineKey s "HX1 mgr" (leBytes 4 g)
    else drawDrbg s 96
  loadSlot (k.2.onVault (fun v => { v with mgrGen := g })) 0xFF g k.1

/-- R368: the slot of a hive's key and its fingerprint. -/
def keySlotOf (h : Nat) : Nat := if h = 0 then 0xFF else h
def fingerprint (s : State) (slot : Nat) : List Byte :=
  let k := slotAt s slot
  (Config.hmac384 k.material (ascii "HX1 fingerprint" ++ leBytes 2 slot ++ leBytes 4 k.gen) ++
    List.replicate 32 0).take 32

/-- R48: the combs that a `COMB_GRANT` DETACH waits to let go, with their hives: no other hive can take their granules. -/
def detaching (s : State) : List (Nat × Comb) :=
  s.qm.jobs.filterMap (fun j => match j.kind with | .comb h _ (some c) _ => some (h, c) | _ => none)

/-- Every comb that a hive holds, with its hive. -/
def allCombs (s : State) : List (Nat × Comb) :=
  s.he.hives.flatMap (fun h => h.2.combs.map (fun c => (h.1, c.2))) ++ detaching s

/-- R46: the entries that hold a comb under a commons selector. -/
def holders (s : State) (sel : Nat) : Nat := ((allCombs s).filter (fun c => c.2.keySel == sel)).length

/-- R46: whether any hive holds a comb under a commons selector. -/
def commonsHeld (s : State) (sel : Nat) : Bool := decide (0 < holders s sel)

/-- R46, R314: a holder may let a commons comb go: it is not the last one, or no request under its key is out. -/
def mayRelease (s : State) (c : Comb) : Bool := !c.commons || decide (1 < holders s c.keySel) || unitsQuiet s c.keySel

/-- R46: after a holder has let a commons comb go: with no holder left, its key is destroyed and its cells are marked
fresh. -/
def commonsLeft (s : State) (c : Comb) : State :=
  if commonsHeld s c.keySel then s else markFresh (zeroSlot s c.keySel) c

end Sys2Proof.Machine
end

