-- ==== Sys2Proof/Machine/Operands.lean ====
section
/-! DEFINITION. Zalug words: the header of R103, the operand fields of R134 to R156 and R190, R191, and the decode
checks of R128 in the order of R8. A channel's current instruction is read here. -/

namespace Sys2Proof.Machine

/-- An operand that is an extension word or a general register. -/
inductive Src
  | imm (v : Nat)
  | reg (r : Nat)
  deriving DecidableEq, Repr

/-- A decoded instruction with its operands, named as the spec names the fields. -/
inductive Zop
  | ret
  | span (d s l : Src)
  | gset (rop gd ga gb : Nat) (imm : Int) (ext : Option Nat)
  | tset (tmode td ts gs word : Nat) (w3g : Bool) (exts : List Nat)
  | moveT (td ts : Nat) (tr : Bool)
  | gather (gi gb gn gl go : Nat) (iw8 : Bool) (pitch row : Nat)
  | scatter (gi gb gn gl go : Nat) (iw8 : Bool) (op pitch row : Nat)
  | fillTile (td gs : Nat)
  | fillSpan (gs ga gl : Nat)
  | reduce (td ts op acc rnd gseed : Nat)
  | convert (td ts rnd gseed : Nat)
  | reduceCvt (td ts op acc rnd gseed : Nat)
  | atom (op : AtomOp) (is64 sgn rv : Bool) (gd ga gb gc : Nat) (off : Int)
  | signal (v : Src) (sscope : Nat) (shost close : Bool) (f : Src)
  | wait (t f : Src) (remote : Bool) (gc tmo : Nat)
  | flush (fscope : Nat) (fhost : Bool)
  | cap (a : Src) (gs : Nat)
  | loop (gc target : Nat)
  | br (target : Nat)
  | setp (pd cmp ga : Nat) (b : Sum Int Nat) (imm : Nat)
  | ldG (dt : Bool) (d ga : Nat) (off : Int)
  | stG (gs ga : Nat) (off : Int)
  | call (t : Src)
  | launchAny (n ge garg gr gx : Nat)
  | launchList (tb ge garg gr gx : Nat)
  | launchQuery (gr : Nat)
  | hiveCreate (hive ga : Nat)
  | hiveResize (hive ga : Nat)
  | hiveReset (hive : Nat)
  | hiveDestroy (hive : Nat)
  | colonyJoin (hive colony lo hi : Nat)
  | combAttach (hive entry ga : Nat)
  | combRights (hive entry : Nat) (evict : Bool) (rights : Nat)
  | combDetach (hive entry : Nat) (evict : Bool)
  | keyLink (links : Nat)
  | keyFingerprint (hive ga : Nat)
  | ctxCreate (ctx ga : Nat)
  | ctxKill (ctx : Nat)
  | queueBind (queue ga : Nat) (gi : Option Nat)
  | queueReset (queue : Nat)
  | queueUnbind (queue : Nat)
  | labelSet (hive ga count : Nat)
  | invPages (ctx ga gl : Nat)
  | invContext (ctx ga gl : Nat)
  | invObject (obj : Nat)
  | invFence (fence : Nat)
  | resume (hive : Nat)
  | migrate (hive ga : Nat)
  | queryCtx (ctx ga qmax : Nat)
  | queryHive (hive ga : Nat)
  | spareSwap (uclass unit sub : Nat)
  deriving DecidableEq, Repr

/-! ## The header -/

def zOpcode (w : Nat) : Nat := fld w 56 8
def zExt (w : Nat) : Nat := fld w 54 2
def zTry (w : Nat) : Bool := bit w 53
def zPneg (w : Nat) : Bool := bit w 52
def zPred (w : Nat) : Nat := fld w 49 3
def zOrd (w : Nat) : Bool := bit w 48
def zScope (w : Nat) : Nat := fld w 46 2
def zHost (w : Nat) : Bool := bit w 45
def zIrq (w : Nat) : Bool := bit w 44

/-- What one opcode makes of a word: RZ fields all zero, extension words called for, every enumerated field and
immediate in range, and the operands. -/
structure Dec where
  rz : Bool
  ext : Nat
  range : Bool
  op : Zop

/-- Whether bits `lo` up, `n` of them, are zero. -/
def rz (w lo n : Nat) : Bool := fld w lo n == 0

/-- R134: `MOVE`, its three forms. -/
def decMove (w : Nat) (x : Nat → Nat) : Dec :=
  match fld w 42 2 with
  | 0 =>
    let d := bit w 41
    let s := bit w 36
    let l := bit w 31
    let ns := b2n (!d)
    let nl := ns + b2n (!s)
    { rz := rz w 0 27, ext := nl + b2n (!l), range := l || decide (x nl ≤ 2 ^ 40),
      op := .span (if d then .reg (fld w 37 4) else .imm (x 0))
        (if s then .reg (fld w 32 4) else .imm (x ns)) (if l then .reg (fld w 27 4) else .imm (x nl)) }
  | 1 =>
    let rop := fld w 39 3
    let li := rop == 0 && zExt w == 1
    let op := .gset rop (fld w 35 4) (fld w 31 4) (fld w 27 4) (sext 27 (fld w 0 27))
      (if li then some (x 0) else none)
    let noGb := rop == 0 || rop == 1 || rop == 4 || rop == 5 || rop == 7
    let noImm := rop == 2 || rop == 3 || rop == 6 || li
    { rz := (!noGb || rz w 27 4) && (!noImm || rz w 0 27) && (!(rop == 4 || rop == 5) || rz w 6 21),
      ext := b2n li, range := true, op := op }
  | 2 =>
    let m := fld w 36 3
    let w3g := bit w 26
    let useTd := m != 3
    let useTs := m == 1 || m == 2 || m == 3
    let useGs := (m == 0 && w3g) || m == 2 || m == 3 || m == 4
    let useWord := m == 3 || m == 4
    if 4 < m then { rz := rz w 0 36 && rz w 39 3, ext := zExt w, range := false, op := .ret }
    else
      { rz := rz w 0 26 && (useTd || rz w 39 3) && (useTs || rz w 33 3) && (useGs || rz w 29 4) &&
          (useWord || rz w 27 2) && (m == 0 || !w3g),
        ext := if m = 0 then 3 else if m = 1 then 1 else 0, range := true,
        op := .tset m (fld w 39 3) (fld w 33 3) (fld w 29 4) (fld w 27 2) w3g [x 0, x 1, x 2] }
  | _ => { rz := true, ext := zExt w, range := false, op := .ret }

/-- R137: `GATHER` and `SCATTER`. -/
def decGather (scatter : Bool) (w : Nat) (x : Nat → Nat) : Dec :=
  let op := fld w 21 2
  let pitch := fld (x 0) 32 32
  let row := fld (x 0) 0 32
  { rz := rz w 0 21, ext := 1,
    range := (if scatter then op != 3 else op == 0) && pitch % 4 == 0 && row % 4 == 0 && decide (4 ≤ row) &&
      decide (row ≤ 65536),
    op := if scatter then
        .scatter (fld w 40 4) (fld w 36 4) (fld w 32 4) (fld w 28 4) (fld w 24 4) (bit w 23) op pitch row
      else .gather (fld w 40 4) (fld w 36 4) (fld w 32 4) (fld w 28 4) (fld w 24 4) (bit w 23) pitch row }

/-- R139: `FILL`. -/
def decFill (w : Nat) : Dec :=
  if bit w 43 then
    { rz := rz w 40 3 && rz w 0 28, ext := 0, range := true, op := .fillSpan (fld w 36 4) (fld w 32 4) (fld w 28 4) }
  else { rz := rz w 0 36, ext := 0, range := true, op := .fillTile (fld w 40 3) (fld w 36 4) }

/-- R140: the combine instructions. -/
def decCombine (opc : Nat) (w : Nat) : Dec :=
  let td := fld w 41 3
  let ts := fld w 38 3
  let op := fld w 36 2
  let acc := fld w 31 5
  let rnd := fld w 29 2
  let g := fld w 25 4
  { rz := rz w 0 25 && (rnd == 2 || g == 0) && (opc != 0x11 || (op == 0 && acc == 0)), ext := 0,
    range := rnd != 3 && (opc == 0x11 || op != 3),
    op := if opc = 0x10 then .reduce td ts op acc rnd g
      else if opc = 0x11 then .convert td ts rnd g else .reduceCvt td ts op acc rnd g }

/-- R127: the atomic of an opcode 0x20 to 0x24. -/
def atomOf : Nat → AtomOp
  | 0x20 => .add
  | 0x21 => .max
  | 0x22 => .min
  | 0x23 => .xchg
  | _ => .cas

/-- R145: the atomics. -/
def decAtom (opc : Nat) (w : Nat) : Dec :=
  let rv := bit w 41
  { rz := (opc == 0x21 || opc == 0x22 || rz w 42 1) && (rv || rz w 37 4) && (opc == 0x24 || rz w 25 4),
    ext := 0, range := true,
    op := .atom (atomOf opc) (bit w 43) (bit w 42) rv (fld w 37 4) (fld w 33 4) (fld w 29 4) (fld w 25 4)
      (sext 25 (fld w 0 25)) }

/-- R147: `SIGNAL`. -/
def decSignal (w : Nat) (x : Nat → Nat) : Dec :=
  let vm := fld w 42 2
  let freg := bit w 37
  { rz := rz w 36 1 && (vm == 0 || rz w 24 12) && (vm == 0 || vm == 2 || rz w 20 4) && (!freg || rz w 4 16),
    ext := b2n (vm == 1), range := vm != 3 && fld w 40 2 != 3 && (vm != 1 || decide (x 0 < 2 ^ 63)),
    op := .signal (if vm = 0 then .imm (fld w 20 16) else if vm = 1 then .imm (x 0) else .reg (fld w 20 4))
      (fld w 40 2) (bit w 39) (bit w 38) (if freg then .reg (fld w 0 4) else .imm (fld w 0 20)) }

/-- R149: `WAIT`. -/
def decWait (w : Nat) (x : Nat → Nat) : Dec :=
  let timm := bit w 39
  let freg := bit w 38
  let remote := bit w 33
  { rz := (if freg then rz w 0 20 else rz w 34 4) && (remote || rz w 29 4), ext := b2n timm,
    range := !timm || decide (x 0 < 2 ^ 63),
    op := .wait (if timm then .imm (x 0) else .reg (fld w 40 4))
      (if freg then .reg (fld w 34 4) else .imm (fld w 0 20)) remote (fld w 29 4) (fld w 20 9) }

/-- R155: `SETP`. The second operand is an immediate or a register. -/
def decSetp (w : Nat) : Dec :=
  let cmp := fld w 38 3
  let st := decide (6 ≤ cmp)
  let bimm := bit w 33
  { rz := (!st || (rz w 34 4 && rz w 8 21)) && (!bimm || rz w 29 4), ext := 0, range := true,
    op := .setp (fld w 41 3) cmp (fld w 34 4) (if bimm then .inl (sext 29 (fld w 0 29)) else .inr (fld w 29 4))
      (fld w 0 8) }

/-- R156: `LAUNCH`. -/
def decLaunch (w : Nat) : Dec :=
  let n := fld w 33 9
  let tb := fld w 30 3
  let ge := fld w 26 4
  let garg := fld w 22 4
  let gr := fld w 18 4
  let gx := fld w 14 4
  match fld w 42 2 with
  | 0 => { rz := rz w 0 14 && tb == 0, ext := 0, range := decide (1 ≤ n) && decide (n ≤ 256),
           op := .launchAny n ge garg gr gx }
  | 1 => { rz := rz w 0 14 && n == 0, ext := 0, range := true, op := .launchList tb ge garg gr gx }
  | 2 => { rz := rz w 0 18 && n == 0 && tb == 0 && ge == 0 && garg == 0, ext := 0, range := true,
           op := .launchQuery gr }
  | _ => { rz := rz w 0 14 && n == 0 && tb == 0, ext := zExt w, range := false, op := .ret }

/-- R127, R153: the tenant instructions; none where the opcode names no instruction. -/
def decTenant (w : Nat) (x : Nat → Nat) : Option Dec :=
  match zOpcode w with
  | 0x01 => some (decMove w x)
  | 0x02 => some { rz := rz w 0 37, ext := 0, range := true, op := .moveT (fld w 41 3) (fld w 38 3) (bit w 37) }
  | 0x03 => some (decGather false w x)
  | 0x04 => some (decGather true w x)
  | 0x05 => some (decFill w)
  | 0x10 => some (decCombine 0x10 w)
  | 0x11 => some (decCombine 0x11 w)
  | 0x12 => some (decCombine 0x12 w)
  | 0x20 => some (decAtom 0x20 w)
  | 0x21 => some (decAtom 0x21 w)
  | 0x22 => some (decAtom 0x22 w)
  | 0x23 => some (decAtom 0x23 w)
  | 0x24 => some (decAtom 0x24 w)
  | 0x30 => some (decSignal w x)
  | 0x31 => some (decWait w x)
  | 0x32 => some { rz := rz w 0 41, ext := 0, range := fld w 42 2 != 3, op := .flush (fld w 42 2) (bit w 41) }
  | 0x33 =>
    let imm := bit w 43
    some { rz := rz w 0 35 && (!imm || rz w 39 4), ext := b2n imm, range := !imm || x 0 % 8 == 0,
           op := .cap (if imm then .imm (x 0) else .reg (fld w 39 4)) (fld w 35 4) }
  | 0x40 => some { rz := rz w 0 35, ext := 0, range := true, op := .loop (fld w 40 4) (fld w 35 5) }
  | 0x41 => some { rz := rz w 0 39, ext := 0, range := true, op := .br (fld w 39 5) }
  | 0x42 => some (decSetp w)
  | 0x43 =>
    let dt := bit w 43
    some { rz := !dt || rz w 42 1, ext := 0, range := true,
           op := .ldG dt (fld w 39 (if dt then 3 else 4)) (fld w 35 4) (sext 35 (fld w 0 35)) }
  | 0x44 => some { rz := rz w 43 1, ext := 0, range := true,
                   op := .stG (fld w 39 4) (fld w 35 4) (sext 35 (fld w 0 35)) }
  | 0x45 =>
    let r := bit w 43
    some { rz := rz w 0 39 && (r || rz w 39 4), ext := b2n (!r), range := r || x 0 % 256 == 0,
           op := .call (if r then .reg (fld w 39 4) else .imm (x 0)) }
  | 0x50 => some (decLaunch w)
  | _ => none

/-- R190: the hive-level instructions that carry a hive and a register. -/
def decHiveGa (w : Nat) (mk : Nat → Nat → Zop) : Dec :=
  { rz := rz w 0 32, ext := 0, range := fld w 36 8 != 255, op := mk (fld w 36 8) (fld w 32 4) }

/-- R190: the hive-level instructions that carry a hive alone. -/
def decHive (w : Nat) (mk : Nat → Zop) : Dec :=
  { rz := rz w 0 36, ext := 0, range := fld w 36 8 != 255, op := mk (fld w 36 8) }

/-- R190: `COMB_GRANT`. -/
def decComb (w : Nat) : Dec :=
  let gop := fld w 34 2
  let h := fld w 36 8
  let e := fld w 30 4
  let ev := bit w 29
  { rz := rz w 0 18 && (gop == 1 || rz w 22 7) && (gop != 1 || rz w 25 1) && (gop == 0 || rz w 18 4) &&
      (gop != 0 || !ev),
    ext := 0, range := h != 255 && gop != 3,
    op := if gop = 0 then .combAttach h e (fld w 18 4)
      else if gop = 1 then .combRights h e ev (fld w 22 7) else .combDetach h e ev }

/-- R191: `INVALIDATE`. -/
def decInvalidate (w : Nat) : Dec :=
  match fld w 41 3 with
  | 0 => { rz := rz w 0 19, ext := 0, range := true, op := .invPages (fld w 27 14) (fld w 23 4) (fld w 19 4) }
  | 1 => { rz := rz w 0 19, ext := 0, range := true, op := .invContext (fld w 27 14) (fld w 23 4) (fld w 19 4) }
  | 2 => { rz := rz w 0 25, ext := 0, range := true, op := .invObject (fld w 25 16) }
  | 3 => { rz := rz w 0 21, ext := 0, range := true, op := .invFence (fld w 21 20) }
  | _ => { rz := rz w 0 41, ext := 0, range := false, op := .ret }

/-- R191: `KEY_DERIVE`. -/
def decKey (w : Nat) : Dec :=
  match fld w 42 2 with
  | 0 => { rz := rz w 0 26, ext := 0, range := true, op := .keyLink (fld w 26 16) }
  | 1 => { rz := rz w 0 30, ext := 0, range := fld w 34 8 != 255, op := .keyFingerprint (fld w 34 8) (fld w 30 4) }
  | _ => { rz := rz w 0 42, ext := 0, range := false, op := .ret }

/-- R191: `QUEUE_BIND`. -/
def decQueue (w : Nat) : Dec :=
  let q := fld w 32 12
  let si := bit w 25
  match fld w 30 2 with
  | 0 => { rz := rz w 0 21 && (si || rz w 21 4), ext := 0, range := true,
           op := .queueBind q (fld w 26 4) (if si then some (fld w 21 4) else none) }
  | 1 => { rz := rz w 0 30, ext := 0, range := true, op := .queueReset q }
  | 2 => { rz := rz w 0 30, ext := 0, range := true, op := .queueUnbind q }
  | _ => { rz := rz w 0 30, ext := 0, range := false, op := .ret }

/-- R189 to R191: the manager instructions; none where the opcode names none. -/
def decManager (w : Nat) (x : Nat → Nat) : Option Dec :=
  match zOpcode w with
  | 0x80 => some (decHiveGa w .hiveCreate)
  | 0x81 => some (decHiveGa w .hiveResize)
  | 0x82 => some (decHive w .hiveReset)
  | 0x83 => some (decHive w .hiveDestroy)
  | 0x84 => some { rz := rz w 0 36 && rz (x 0) 32 8, ext := 1,
                   range := fld w 36 8 != 255 && fld (x 0) 40 24 != Config.managerColony,
                   op := .colonyJoin (fld w 36 8) (fld (x 0) 40 24) (fld (x 0) 16 16) (fld (x 0) 0 16) }
  | 0x85 => some (decComb w)
  | 0x86 => some (decKey w)
  | 0x87 => some { rz := rz w 0 26, ext := 0, range := true, op := .ctxCreate (fld w 30 14) (fld w 26 4) }
  | 0x88 => some { rz := rz w 0 30, ext := 0, range := true, op := .ctxKill (fld w 30 14) }
  | 0x89 => some (decQueue w)
  | 0x8A =>
    let n := fld w 19 13
    some { rz := rz w 0 19, ext := 0, range := fld w 36 8 != 255 && decide (1 ≤ n) && decide (n ≤ 4096),
           op := .labelSet (fld w 36 8) (fld w 32 4) n }
  | 0x8B => some (decInvalidate w)
  | 0x8C => some (decHive w .resume)
  | 0x8D => some (decHiveGa w .migrate)
  | 0x8E => some { rz := rz w 0 13, ext := 0, range := decide (fld w 13 13 ≤ 4096),
                   op := .queryCtx (fld w 30 14) (fld w 26 4) (fld w 13 13) }
  | 0x8F => some (decHiveGa w .queryHive)
  | 0x90 => some { rz := rz w 0 8 && (fld w 40 4 != 0 && fld w 40 4 != 2 || rz w 8 16), ext := 0, range := decide (fld w 40 4 ≤ 4),
                   op := .spareSwap (fld w 40 4) (fld w 24 16) (fld w 8 16) }
  | _ => none

/-- R103, R104, R128: the checks of one word, in the order DECODE, RIGHTS, RANGE. `slot0`: the word is word 0 of a
slot; `mgr`: its command was fetched from hive 0's queue 0; `left`: words after it in the slot or object. -/
def decodeWord (slot0 mgr : Bool) (left w : Nat) (x : Nat → Nat) : Except Status Zop :=
  if w = 0 then .ok .ret
  else
    let opc := zOpcode w
    let d := if opc < 0x80 then decTenant w x else decManager w x
    match d with
    | none => .error .decode
    | some d =>
      if !d.rz || d.ext != zExt w || decide (left < zExt w) || (!slot0 && !rz w 44 5) then .error .decode
      else if decide (0x80 ≤ opc) && !mgr then .error .rights
      else if !d.range || (slot0 && zScope w == 3) then .error .range
      else .ok d.op

/-- The words of a slot or of a program object as they are used below: word `i`, zero past the end. -/
def codeWord (code : List Word) (i : Nat) : Nat := (nth code i 0).toNat

/-- R105, R106: the words at which the instructions of a stream begin, the all-zero word that ends it included. -/
def starts (code : List Word) : Nat → Nat → List Nat
  | 0, _ => []
  | n + 1, i =>
    if code.length ≤ i then []
    else if codeWord code i = 0 then [i]
    else i :: starts code n (i + 1 + zExt (codeWord code i))

/-- The instruction at word `i` of a stream, with the target check of R154. -/
def decodeAt (isSlot mgr : Bool) (code : List Word) (i : Nat) : Except Status Zop :=
  match decodeWord (isSlot && i == 0) mgr (code.length - 1 - i) (codeWord code i)
      (fun k => codeWord code (i + 1 + k)) with
  | .error e => .error e
  | .ok op =>
    let bad (t : Nat) : Bool := !(starts code 33 0).contains t
    match op with
    | .br t => if bad t then .error .range else .ok op
    | .loop _ t => if bad t then .error .range else .ok op
    | _ => .ok op

/-- R128: the first word of a stream that fails to decode, with its status. -/
def firstBad (isSlot mgr : Bool) (code : List Word) : Option (Nat × Status) :=
  (starts code 33 0).findSome? (fun i =>
    match decodeAt isSlot mgr code i with
    | .error e => some (i, e)
    | .ok _ => none)

/-- R108: the fences that a slot's words owe, with the word of each `SIGNAL`: every word that passes the DECODE
checks as a `SIGNAL` with its fence number in the word. -/
def owedOf (code : List Word) : List (Nat × Nat) :=
  (starts code 9 0).filterMap (fun i =>
    let w := codeWord code i
    if zOpcode w = 0x30 then
      let d := decSignal w (fun k => codeWord code (i + 1 + k))
      match d.op with
      | .signal _ _ _ _ (.imm f) =>
        if d.rz && d.ext == zExt w && decide (zExt w ≤ code.length - 1 - i) && (i == 0 || rz w 44 5) then some (f, i)
        else none
      | _ => none
    else none)

/-- R107: whether decoding an object's first line calls for its second: an instruction begins at word 16, or its
extension words pass word 15. A word before that fails its decode does not keep it from being read (log 59). -/
def needsLine2 (line1 : List Word) : Bool :=
  (starts line1 17 0).all (fun i =>
    codeWord line1 i != 0)

end Sys2Proof.Machine
end

