-- ==== Sys2Proof/Machine/Events.lean ====
section
/-! DEFINITION. What the block tells the manager and the host: records in hive 0's memory, hive events (R339 to R343),
pending interrupt messages (R335 to R337), the charge of a request to its label (R320, R324), and the security alarm
(R317) with the home operations that can raise it. -/

namespace Sys2Proof.Machine

/-! ## Charging -/

/-- R323: the byte budgets of a label's window: guarantee and, under cap level `c`, ceiling. -/
def budgetG (l : Label) : Nat := l.guar * 125 * (l.win + 1)
def budgetC (l : Label) : Nat := Nat.max l.guar (l.ceil * (16 - l.cap) / 16) * 125 * (l.win + 1)

/-- R324, R325: the level of a request of a label, from the movers' copy of the meter. -/
def levelOf (s : State) (lab : Nat) : Nat :=
  let l := labelAt s lab
  let m := (Tab.look s.rg.copies lab).getD 0
  if m < budgetG l then l.prio else if m < budgetC l then 2 else 3

/-- R320, R333: `bytes` charged to a label at its level, unless its charging has stopped (R334). -/
def charge (s : State) (lab bytes : Nat) : State :=
  if (labelAt s lab).stopped then s
  else
    let lv := levelOf s lab
    let u := bytes / 128
    setLabel s lab (fun l =>
      let t := { l with meter := l.meter + bytes }
      let sat (n : Nat) : Bool := decide (2 ^ 32 - 1 ≤ n + u)
      if lv = 2 then { t with linesBulk := satAdd 32 l.linesBulk u, sat := l.sat || sat l.linesBulk }
      else if lv = 3 then { t with linesScav := satAdd 32 l.linesScav u, sat := l.sat || sat l.linesScav }
      else { t with linesPrio := satAdd 32 l.linesPrio u, sat := l.sat || sat l.linesPrio })

/-- R319: hive 0's `label_first`, which carries the block's own table traffic. -/
def label0 (s : State) : Nat := (hiveAt s 0).labelFirst

/-! ## Records in hive 0's memory -/

/-- The key selector of a line in a hive's comb; the manager key where none holds it. -/
def keySelAt (s : State) (h a : Nat) : Nat := ((combFor s h a).map (·.keySel)).getD 0xFF

/-! ## Interrupt messages -/

/-- R337: a vector keeps one pending message; further interrupts merge into it. -/
def pendMessage (s : State) (vector hive : Nat) : State :=
  if s.sq.msgs.any (fun m => m.vector == vector) then s
  else s.onSq (fun q => { q with msgs := q.msgs ++ [{ vector := vector, hive := hive, held := false, charged := false }] })

/-- R329: the hive charged for an event that concerns hive `h`. -/
def chargedHive (s : State) (h : Nat) : Nat :=
  match (hiveAt s h).state with
  | .active => h
  | .resizing => h
  | .migrating => h
  | .frozen => h
  | _ => 0

/-- R340: the bytes of a hive-event record. -/
def eventBytes (i code hive a0 a1 stamp : Nat) : List Byte :=
  bytesOf [i <<< 32 + code <<< 24 + hive <<< 16 + 3 <<< 12, a0, a1, stamp]

/-- R339: where record `i` of the hive-event ring lies. -/
def eventAddr (s : State) (i : Nat) : Nat := paLocal s.kp.settings.eventBase + i % Config.ringRecords * 32

/-- R342: whether the ring has room. -/
def eventRoom (s : State) : Bool :=
  decide ((s.sq.eventNext + 2 ^ 32 - s.sq.eventConsumed) % 2 ^ 32 < Config.ringRecords)

/-- R336: hive events and fault records are announced only when hive 0 has two vectors. -/
def hive0Vectors (s : State) : Bool := decide (2 ≤ (hiveAt s 0).vecCount)

/-- R319: the level of the block's own table traffic, and of the records that R319 does not list (log 69). -/
def tableLevel (s : State) : Nat := levelOf s (label0 s)

/-- R210, R316: a write of hive 0's tables or records that must wait at its line. -/
def tableTicket (s : State) (line : Nat) (k : WriteKind) : HomeReq :=
  { req := { origin := .table, hive := 0, keySel := keySelAt s 0 line, label := label0 s, level := tableLevel s, addr := line }
    kind := some k, second := none, raw := [], ticket := true }

/-- The block's own writes that wait at a line, in order. -/
def tableWaits (s : State) (line : Nat) : List HomeReq :=
  (s.pr.granted ++ (portAt s (homePort s line)).arb ++ s.pr.locks.flatMap (·.waiting) ++ s.pr.lockWait ++
    s.pr.waiting.map (·.2)).filter (fun h => h.isTicket .table line)

/-- A write of hive 0's tables inside one line: `go` performs it, or it takes its place behind what its line waits for. -/
def tablePut (s : State) (line : Nat) (k : WriteKind) (go : State → State × Status) : State × Status :=
  if mustWait s (keySelAt s 0 line) line (some k) then (arrive s (tableTicket s line k), .ok) else go s

/-- R317: the hive a tag failure is counted against: the one whose key the line is under; the requester's for a
commons key. -/
def alarmHive (hive keySel : Nat) : Nat := if 0x100 ≤ keySel then hive else if keySel = 0xFF then 0 else keySel

/-- R339 to R342: a hive event is recorded and announced, or counted as lost; `write` writes its record. -/
def eventBy (write : State → Nat → List Byte → State) (s : State) (code hive a0 a1 : Nat) : State :=
  if eventRoom s then
    let i := s.sq.eventNext
    let t := write s (eventAddr s i) (eventBytes i code hive a0 a1 s.clk.ticks)
    let t := t.onSq (fun q => { q with eventNext := (i + 1) % 2 ^ 32 })
    if hive0Vectors t then pendMessage t (hiveAt t 0).vecFirst (chargedHive t hive) else t
  else s.onSq (fun q => { q with eventLost := q.eventLost + 1 })

/-- R317: a tag failure is logged, counted, and raised at most once per window of the hive it counts against. A lost
completion record names its context, and its own address (R466). A controller's error that a scrub meets raises one too
(R419). -/
def alarmBy (event : State → Nat → Nat → Nat → Nat → State) (s : State) (hive keySel line ctx off : Nat)
    (st : Status := .tagFail) : State :=
  let pa := paOf (chipId s) line + off
  let gen := (slotAt s keySel).gen
  let t := logErr s { cls := 3, status := st.code, hive := hive, ugroup := 7, unit := homePort s line,
                      cause := if st = .tagFail then 4 else 5, ctx := ctx, keySel := keySel, keyGen := gen, paddr := pa }
  let k := alarmHive hive keySel
  let raised := (hiveAt t k).alarmRaised
  let t := setHive t k (fun h => { h with alarms := h.alarms + 1, alarmRaised := true })
  if raised then t else event t 0x06 k pa (keySel <<< 32 + gen)

/-- A record of hive 0 inside one line, written in one write under `alarm`, which a tag failure raises (R317); a write that
fails is lost. Memory it needs, so it demands the stream clock (R18). -/
def recordBy (alarm : State → Nat → Nat → Nat → State) (s : State) (a : Nat) (bytes : List Byte) : State × Status :=
  let line := lineOf a
  let k := keySelAt s 0 a
  let w : WriteKind := .partialWrite (bytes.zipIdx.map (fun e => (a - line + e.2, e.1)))
  tablePut (wakeStream s) line w (fun t =>
    let r := coreWrite t 0 k line w (tableLevel t)
    (if r.2.1 = .tagFail then alarm r.1 0 k line else r.1, r.2.1))

/-- The event of an alarm whose own record meets a failed tag: that failure is logged and counted, and its event has been
raised in the window. -/
def alarmEvent (s : State) (code hive a0 a1 : Nat) : State :=
  eventBy (fun t a bs => (recordBy (fun u h k l => alarmBy (fun v _ _ _ _ => v) u h k l 0 0) t a bs).1) s code hive a0 a1

/-- A record inside one line, written in one write; hive 0's first label carries it, as table traffic (log 69). -/
def writeRecord (s : State) (a : Nat) (bytes : List Byte) : State × Status :=
  recordBy (fun u h k l => alarmBy alarmEvent u h k l 0 0) s a bytes

/-- R339 to R342: a hive event. -/
def hiveEvent (s : State) (code hive a0 a1 : Nat) : State := eventBy (fun t a bs => (writeRecord t a bs).1) s code hive a0 a1

/-- R343: an interrupt of a masked hive opens a RETARGETED record, or is counted in the one whose message waits. -/
def retarget (s : State) (hive vector : Nat) : State :=
  let announced : Bool := s.sq.msgs.any (fun m => m.vector == (hiveAt s 0).vecFirst)
  match (if announced then s.sq.retargets.find? (fun r => r.1 == vector && r.2.2.2 == hive) else none) with
  | some r =>
    let n := satInc 32 r.2.2.1
    let t := (writeRecord s (eventAddr s r.2.1 + 16) (leBytes 8 n)).1
    t.onSq (fun q => { q with retargets := q.retargets.map (fun e =>
      if e.1 == vector && e.2.2.2 == hive then (e.1, e.2.1, n, hive) else e) })
  | none =>
    let i := s.sq.eventNext
    let t := hiveEvent s 0x0C hive vector 1
    let keep := s.sq.retargets.filter (fun r => !(r.1 == vector && r.2.2.2 == hive))
    if eventRoom s then t.onSq (fun q => { q with retargets := keep ++ [(vector, i, 1, hive)] }) else t

/-- R335, R337: an interrupt attributed to a hive, on one of its vectors. -/
def raiseIrq (s : State) (hive vector : Nat) : State :=
  if (hiveAt s hive).masked then retarget s hive vector else pendMessage s vector hive

/-! ## Remote requests at their destination -/

/-- R49: the hive accepts requests of a colony from a chip. -/
def colonyTest (s : State) (hive src colony : Nat) : Bool :=
  let h := hiveAt s hive
  (h.state == .active || h.state == .resizing || h.state == .migrating) && h.colony != 0 && h.colony == colony &&
    decide (h.peerLo ≤ src) && decide (src ≤ h.peerHi)

/-- R53: a refusal is counted against the destination hive, and raises its event once in a window. -/
def refuseRemote (s : State) (hive pa : Nat) : State :=
  let raised := (hiveAt s hive).refusedRaised
  let t := setHive s hive (fun h =>
    { h with refusals := h.refusals + 1, refusalsWin := h.refusalsWin + 1, refusedRaised := true,
             firstRefusal := if h.refusalsWin = 0 then pa else h.firstRefusal })
  if raised then t
  else hiveEvent t 0x05 hive ((hiveAt t hive).refusalsWin % 2 ^ 32) (hiveAt t hive).firstRefusal

/-! ## The security alarm -/

/-- R317: the security alarm of a line. -/
def securityAlarm (s : State) (hive keySel line : Nat) (ctx : Nat := 0) (off : Nat := 0) (st : Status := .tagFail) : State :=
  alarmBy hiveEvent s hive keySel line ctx off st

/-- R315: a line read at its home. -/
def homeRead (s : State) (hive keySel line level : Nat) : State × Status × List Byte :=
  let r := coreRead s hive keySel line level
  (if r.2.1 = .tagFail then securityAlarm r.1 hive keySel line else r.1, r.2)

/-- R315: a write-kind request at its home: state, status, old value of an atomic. -/
def homeWrite (s : State) (hive keySel line : Nat) (k : WriteKind) (level : Nat) (ctx : Nat := 0) (off : Nat := 0) :
    State × Status × Nat :=
  let r := coreWrite s hive keySel line k level
  (if r.2.1 = .tagFail then securityAlarm r.1 hive keySel line ctx off else r.1, r.2)

/-- A line of hive 0's tables, read as R210 and R319 have it: as hive 0, charged to its first label. It shows what the block
has written there, and does not wait for others' requests on the line (log 67). -/
def tableLine (s : State) (line : Nat) : State × Status × List Byte :=
  let r := homeRead (charge s (label0 s) 128) 0 (keySelAt s 0 line) line (tableLevel s)
  (r.1, r.2.1, (tableWaits s line).foldl (fun b h => (writeApply (h.kind.getD (.partialWrite [])) b).1) r.2.2)

/-- 8 bytes of hive 0's tables. -/
def tableWord (s : State) (a : Nat) : State × Status × Nat :=
  let r := tableLine s (lineOf a)
  (r.1, r.2.1, leNat ((r.2.2.drop (a - lineOf a)).take 8))

/-- Bytes of hive 0's tables inside one line, written as one merged write. -/
def tableWrite (s : State) (a : Nat) (bytes : List Byte) : State × Status :=
  let line := lineOf a
  let w : WriteKind := .partialWrite (bytes.zipIdx.map (fun e => (a - line + e.2, e.1)))
  tablePut (charge s (label0 s) 256) line w (fun t =>
    let r := homeWrite t 0 (keySelAt t 0 line) line w (tableLevel s)
    (r.1, r.2.1))

end Sys2Proof.Machine
end

