-- ==== Sys2Proof/Machine/Frames.lean ====
section
/-! DEFINITION. Sending on the swarm: routes and link sets (R281, R282), the header each transmission carries
(R283, R284, R293, R297), sequenced frames and the flows they travel in (R291, R292), and the frames of R299. -/

namespace Sys2Proof.Machine

def Route.invalid : Route := { valid := false, hops := 0, rto := 0, nextChip := 0, spray := 0, primary := 0 }

def routeAt (s : State) (chip : Nat) : Route := (Tab.look s.sw.routes chip).getD Route.invalid

/-- R286: a link in DOWN, its hold-down over. Each level starts with its reserved 32 KiB of credit, and the levels share the
other 128 KiB of the far end's receive buffer (R302, log 24). -/
def Link.down : Link :=
  { state := .down, holdDown := false, locked := false, neighbour := 0, genTx := 0, genRx := 0, oldRx := false,
    initiated := false, replied := false, lctrTx := 0, lctrRx := 0, lctrOld := 0, txKey := [], rxKey := [], oldKey := [],
    nextKey := [], txWrapped := [], rxWrapped := [], discards := [], ownHello := [], peerHello := [],
    credit := [32, 32, 32, 32], shared := 128, owed := [0, 0, 0, 0], broken := false, gated := false }

def linkAt (s : State) (l : Nat) : Link := (Tab.look s.sw.links l).getD Link.down
def setLink (s : State) (l : Nat) (f : Link → Link) : State :=
  s.onSw (fun w => { w with links := Tab.put w.links l (f (linkAt s l)) })

/-- A flow just taken (R291), numbering from 1 (R292). -/
def Flow.new (epoch : Nat) : Flow :=
  { entry := true, closing := false, idleFor := 0, opened := false, epoch := epoch, crossed := none, nextSeq := 1,
    acked := 0, retx := [], held := [], spray := false, cum := 0, bitmap := [], performed := [], landed := 0, failed := [],
    peerLanded := 0, sinceAck := 0, dup := 0, winErr := 0 }

def flowAt (s : State) (peer : Nat) : Option Flow := Tab.look s.sw.flows peer
def setFlow (s : State) (peer : Nat) (f : Flow → Flow) : State :=
  s.onSw (fun w => { w with flows := Tab.mod w.flows peer f })

/-- R286: a link carries sequenced frames in UP and REKEY. -/
def Link.carries (l : Link) : Bool := l.state == .up || l.state == .rekey

/-- R282: the primary and the spray set for a destination chip. -/
def primarySet (s : State) (chip : Nat) : List Nat :=
  let r := routeAt s chip
  if r.valid then
    (bitsOf r.primary 16).filter (fun l => (linkAt s l).carries && (linkAt s l).neighbour == r.nextChip)
  else []

def spraySet (s : State) (chip : Nat) : List Nat :=
  let r := routeAt s chip
  if r.valid then (bitsOf r.spray 16).filter (fun l => (linkAt s l).carries) else []

/-- R302: the credit of a link at a level, in KiB: the level's own and the shared. -/
def Link.creditAt (k : Link) (level : Nat) : Nat := nth k.credit level 0 + k.shared

/-- R302: a frame takes credit of its level first, then of the shared part. -/
def Link.spend (k : Link) (level n : Nat) : Link :=
  let own := nth k.credit level 0
  { k with credit := k.credit.set level (own - n), shared := k.shared - (n - own) }

/-- R302: credit that comes back fills the level's own part first, then the shared part. -/
def Link.refund (k : Link) (level n : Nat) : Link :=
  let own := nth k.credit level 0
  { k with credit := k.credit.set level (Nat.min 32 (own + n)), shared := Nat.min 128 (k.shared + (n - (32 - own))) }

/-- R282: the link of a set with the most credit at a level, the lower number on a tie. -/
def bestLink (s : State) (level : Nat) : List Nat → Option Nat
  | [] => none
  | l :: r =>
    match bestLink s level r with
    | none => some l
    | some m => if (linkAt s m).creditAt level ≤ (linkAt s l).creditAt level then some l else some m

/-- R282: the link for a frame of a path; none for one on path 1 whose spray set is empty, whatever its primary set (log 70). -/
def chooseLink (s : State) (chip path level : Nat) : Option Nat :=
  let prim := primarySet s chip
  if path = 0 ∧ prim ≠ [] then bestLink s level prim else bestLink s level (spraySet s chip)

/-- R282: whether a chip can be reached at all. -/
def reachable (s : State) (chip : Nat) : Bool := (primarySet s chip ++ spraySet s chip) != []

/-- KiB of a receive buffer that a frame takes. -/
def frameKib (f : Frame) : Nat := (64 + 16 * f.plen + 1023) / 1024

/-- R285: the sequenced types. -/
def sequenced (t : Nat) : Bool := decide (6 ≤ t) && decide (t ≤ 13)

/-- R293, R297: what every frame of a flow carries back to the peer. -/
def flowFields (s : State) (f : Frame) : Frame :=
  match flowAt s f.dst with
  | some fl => if f.src = chipId s ∧ f.ftype ≠ 4 then { f with epoch := fl.epoch, ack := fl.cum, landed := fl.landed } else f
  | none => f

/-- R285: the words W0 to W5 of a frame. -/
def frameWords (f : Frame) : List Nat :=
  [f.dst <<< 48 + f.src <<< 32 + f.ftype <<< 28 + f.hops <<< 24 + f.level <<< 22 + f.path <<< 21 + f.kph <<< 20 + f.plen <<< 13,
   f.lctr <<< 8 + f.clevel <<< 6 + f.credit, f.seq <<< 32 + f.ack, f.landed <<< 32 + f.epoch <<< 16, f.w4,
   f.srcHive <<< 56 + f.colony <<< 32 + f.opf]

/-- R284, R288: what of a frame follows W0 and W1 on the wire. A HELLO goes in clear under a tag of zeros. -/
def sealFrame (key : List Byte) (f : Frame) : List Byte :=
  let plain := bytesOf ((frameWords f).drop 2) ++ f.payload
  if f.ftype = 4 then plain ++ List.replicate 16 0
  else Config.gcmSeal key (List.replicate 5 0 ++ leBytes 7 f.lctr) (bytesOf ((frameWords f).take 2)) plain

/-- R284: a frame on the wire: W0 and W1 in clear, then the rest. -/
def wireFrame (key : List Byte) (f : Frame) : List Byte := bytesOf ((frameWords f).take 2) ++ sealFrame key f

/-- R456: the beats of a frame: byte 16k + i of a word on slice k. -/
def pcsBeats (wire : List Byte) : List PcsBeat :=
  let n := (wire.length + 127) / 128
  (List.range n).map (fun w =>
    { slices := (List.range 8).map (fun k => (wire.drop (128 * w + 16 * k)).take 16), sop := w == 0, eop := w + 1 == n })

/-- R289: a counter at 2^48 + 2^40 in either direction. -/
def counterSpent (k : Link) : Bool :=
  decide (2 ^ 48 + 2 ^ 40 ≤ k.lctrTx) || decide (2 ^ 48 + 2 ^ 40 < k.lctrRx) || decide (2 ^ 48 + 2 ^ 40 < k.lctrOld)

/-- R302: whether a link has the credit that a frame takes at its level. -/
def hasCredit (s : State) (l : Nat) (f : Frame) : Bool := decide (frameKib f ≤ (linkAt s l).creditAt f.level)

/-- R302: the copies of a frame of the chip's own that still wait for credit: those to a peer with a number. -/
def unwait (s : State) (p : Frame → Bool) : State :=
  s.onSw (fun w => { w with fwd := w.fwd.filter (fun r => !(r.link == Config.ownLink && p r.frame)) })

/-- R302: a sequenced frame leaves the receive buffer of its link; its room is owed to the far end. -/
def oweCredit (s : State) (l : Nat) (f : Frame) : State :=
  if sequenced f.ftype ∧ (linkAt s l).carries then
    setLink s l (fun x => { x with owed := x.owed.set f.level (nth x.owed f.level 0 + frameKib f) })
  else s

/-- R283: a frame discarded and counted on its way. -/
def dropForward (s : State) (link : Nat) (f : Frame) : State :=
  oweCredit (s.onSw (fun w => { w with discarded := w.discarded + 1 })) link f

def enqueue (s : State) (w : FwdFrame) : State := s.onSw (fun x => { x with fwd := x.fwd ++ [w] })

/-- R282, R293, R296, R303: where a frame of the chip's own goes at a transmission: its path by the flow's mode, its hops and
its link by the present route. The retransmit buffer keeps it. -/
def routeOwn (s : State) (peer : Nat) (f : Frame) : State × Option FwdFrame :=
  match flowAt s peer with
  | none => (s, none)
  | some fl =>
    let spray := fl.spray || primarySet s peer == []
    let l := chooseLink s peer (b2n spray) f.level
    let t := setFlow s peer (fun x =>
      { x with spray := spray, retx := x.retx.filter (fun e => e.seq != f.seq) ++ [{ seq := f.seq, frame := f, link := l }] })
    (unwait t (fun h => h.dst == peer && h.seq == f.seq),
      l.map (fun k => { link := Config.ownLink, out := k, frame := { f with path := b2n spray, hops := (routeAt s peer).hops } }))

/-- R282, R303: a frame that waits at a link that has gone DOWN chooses again. -/
def requeue (s : State) (w : FwdFrame) : State :=
  match chooseLink s w.frame.dst w.frame.path w.frame.level with
  | some k => enqueue s { w with out := k }
  | none => dropForward s w.link w.frame

/-- R286, R288, R289, R293: a link goes DOWN into its hold-down: LS and its keys are zeroised, its waiting control frames are gone,
and the frames at its sender and the unacknowledged ones last sent on it go to other senders. -/
def dropLink (s : State) (l : Nat) : State :=
  let t := setLink s l (fun x => { Link.down with holdDown := true, locked := x.locked, broken := x.broken })
  let t := (t.onVault (fun v => { v with linkSecrets := Tab.del v.linkSecrets l })).onSw (fun w =>
    { w with rx := w.rx.filter (fun r => r.link != l || sequenced r.frame.ftype), fwd := w.fwd.filter (fun x => x.out != l) })
  let t := (s.sw.fwd.filter (fun w => w.out == l && w.link != Config.ownLink)).foldl requeue t
  s.sw.flows.foldl (fun t e => (e.2.retx.filter (fun x => x.link == some l)).foldl (fun t x =>
    match routeOwn t e.1 x.frame with
    | (u, some w) => enqueue u w
    | (u, none) => u) t) t

/-- R284, R288, R290: a frame leaves on a link: the link's counter and key phase, and credit for its far end. A counter
that reaches 2^48 starts a rekey; one that reaches 2^48 + 2^40 takes the link DOWN (R289). -/
def putFrame (s : State) (l : Nat) (f : Frame) : State :=
  let k := linkAt s l
  let f := flowFields s f
  let lv := ((List.range 4).find? (fun i => nth k.owed i 0 != 0)).getD 0
  let cr := Nat.min 63 (nth k.owed lv 0)
  let g := { f with lctr := if f.ftype = 4 then 0 else k.lctrTx, kph := if f.ftype = 4 then 0 else k.genTx % 2,
                    clevel := if f.ftype = 4 then 0 else lv, credit := if f.ftype = 4 then 0 else cr }
  let t := setLink s l (fun x =>
    if f.ftype = 4 then x
    else
      let y := if sequenced f.ftype then x.spend f.level (frameKib f) else x
      { y with
        lctrTx := x.lctrTx + 1
        initiated := x.initiated || (x.state == .up && decide (2 ^ 48 ≤ x.lctrTx + 1))
        state := if x.state = .up ∧ 2 ^ 48 ≤ x.lctrTx + 1 then .rekey else x.state
        owed := x.owed.set lv (nth x.owed lv 0 - cr) })
  let t := emit t (.frame l g (pcsBeats (wireFrame k.txKey g)))
  if counterSpent (linkAt t l) then dropLink t l else t

/-- R283, R302: a frame leaves from a link's sender; one of another chip's leaves its receive buffer. -/
def sendFwd (s : State) (w : FwdFrame) : State :=
  if w.link = Config.ownLink then putFrame s w.out w.frame else oweCredit (putFrame s w.out w.frame) w.link w.frame

/-- R302: a frame leaves at once where its link has credit and none of its origin and level waits there, else it waits
(log 24). -/
def sendOrWait (s : State) (w : FwdFrame) : State :=
  if hasCredit s w.out w.frame &&
      !s.sw.fwd.any (fun x => x.out == w.out && x.link == w.link && x.frame.level == w.frame.level) then sendFwd s w
  else enqueue s w

/-- R302, R326: the frame that a link's sender takes next: of the lowest level at which the first frame of some origin has
credit, in turn by origin. -/
def nextFwd (s : State) (l : Nat) : Option (Nat × FwdFrame) :=
  (List.range 4).findSome? (fun lv =>
    let head (o : Nat) : Option (FwdFrame × Nat) :=
      s.sw.fwd.zipIdx.find? (fun e => e.1.out == l && e.1.link == o && e.1.frame.level == lv)
    let can (o : Nat) : Bool := (head o).any (fun e => hasCredit s l e.1.frame)
    ((nextTurn 17 ((Tab.look s.sw.turns (4 * l + lv)).getD 16) ((List.range 17).filter can)).bind head).map (fun e => (e.2, e.1)))

/-- R319, R328: the label of a frame that waits at a sender: its transaction's; none for another chip's frame, or for an answer. -/
def FwdFrame.label (s : State) (w : FwdFrame) : Option Nat :=
  if w.link ≠ Config.ownLink then none
  else
    (s.sw.txns.find? (fun t => t.peer == w.frame.dst && t.seq == w.frame.seq && decide (w.frame.ftype < 0xC))).map (fun t =>
      match t.kind with
      | .record q _ => (queueAt s q).label
      | _ => ((s.he.migrations.find? (fun m => m.chan == t.chan)).map (·.label)).getD (chanAt s t.chan).label)

/-- R302, R326, R328: a link's sender serves what waits there and has credit, and passes over the others' labels; `fuel` bounds
the run. -/
def serveLink (s : State) (l : Nat) : (fuel : Nat) → State
  | 0 => s
  | n + 1 =>
    match nextFwd s l with
    | none => s
    | some (i, w) =>
      let t := sendFwd (s.onSw (fun x =>
        { x with fwd := x.fwd.eraseIdx i, turns := Tab.put x.turns (4 * l + w.frame.level) w.link })) w
      serveLink (passOver t (w.label s) ((t.sw.fwd.filter (fun x => x.out == l)).filterMap (FwdFrame.label t))) l n

/-- R302: every link's sender serves what waits there. -/
def drainForward (s : State) : State :=
  if s.sw.fwd = [] then s else (List.range 16).foldl (fun t l => serveLink t l t.sw.fwd.length) s

/-- A control frame between the two ends of a link or a flow (R285), its fields RZ except those given. -/
def ctlFrame (s : State) (dst ftype opf : Nat) (payload : List Byte) : Frame :=
  { dst := dst, src := chipId s, ftype := ftype, hops := (routeAt s dst).hops, level := 0, path := 0, kph := 0,
    plen := payload.length / 16, rz := false, lctr := 0, clevel := 0, credit := 0, seq := 0, ack := 0, landed := 0,
    epoch := 0, w4 := 0, srcHive := 0, colony := 0, opf := opf, payload := payload }

/-- A control frame of a flow, sent when some link reaches the peer. -/
def sendCtl (s : State) (peer : Nat) (f : Frame) : State :=
  match chooseLink s peer 0 0 with
  | some l => putFrame s l f
  | none => s

/-- R291: the OPEN of a flow. -/
def sendOpen (s : State) (peer : Nat) (reply : Bool) : State :=
  match flowAt s peer with
  | none => s
  | some fl => sendCtl s peer { ctlFrame s peer 2 (if reply then 2 ^ 31 else 0) [] with epoch := fl.epoch }

/-- R292, R293, R296: one transmission of a sequenced frame. -/
def transmit (s : State) (peer : Nat) (f : Frame) : State :=
  match routeOwn s peer f with
  | (t, some w) => sendOrWait t w
  | (t, none) => t

/-- R302: bytes of the frames that the retransmit buffer keeps. -/
def retxHeld (s : State) : Nat :=
  (s.sw.flows.map (fun e => (e.2.retx.map (fun x => 64 + x.frame.payload.length)).foldl (· + ·) 0)).foldl (· + ·) 0

/-- R302: request frames that have been issued and have not ended. -/
def issuedTxns (s : State) : Nat :=
  (s.sw.txns.filter (fun t => !((flowAt s t.peer).any (fun fl => fl.held.any (fun f => f.seq == t.seq))))).length

/-- R299: whether a frame is the request of a transaction; the WAIT that withdraws another is none. -/
def isRequest (f : Frame) : Bool := decide (6 ≤ f.ftype) && decide (f.ftype ≤ 11) && !(f.ftype == 11 && bit f.opf 31)

/-- R302: whether the bounds of the chip admit a frame of its own. -/
def roomFor (s : State) (f : Frame) : Bool :=
  decide (retxHeld s + 64 + f.payload.length ≤ Config.retxBytes) && (!isRequest f || decide (issuedTxns s < Config.maxTxns))

/-- R292: whether the window admits a sequence number. -/
def inWindow (fl : Flow) (seq : Nat) : Bool := decide ((seq + 2 ^ 32 - fl.acked) % 2 ^ 32 ≤ Config.flowWindow)

/-- R291: the next value of the chip's epoch counter. -/
def nextEpoch (s : State) : Nat := (s.sw.epoch + 1) % 2 ^ 16

/-- R295: a flow with nothing unacknowledged, no transaction and no held wait in either direction. -/
def flowIdle (s : State) (peer : Nat) : Bool :=
  match flowAt s peer with
  | none => false
  | some fl =>
    let held (w : Waiter) : Bool := match w with | .remote src _ _ _ _ => src == peer | _ => false
    let op (o : FenceOp) : Bool := match o with | .rwait src _ _ _ _ _ => src == peer | _ => false
    fl.entry && fl.opened && fl.retx == [] && fl.held == [] && !s.sw.txns.any (fun t => t.peer == peer) &&
      !s.sw.rx.any (fun r => r.frame.src == peer && sequenced r.frame.ftype) &&
      !s.qm.fences.any (fun f => f.2.waits.any held) && !s.qm.fills.any (fun f => f.2.any op)

/-- A flow is gone, with its frames that waited for credit. -/
def dropFlow (s : State) (peer : Nat) : State :=
  (unwait s (fun f => f.dst == peer)).onSw (fun w => { w with flows := Tab.del w.flows peer })

/-- R295: a flow is closed with a CLOSE: this end gives its entry up, and keeps the flow's numbers in case the peer ignores
it (log 26). -/
def closeFlow (s : State) (peer : Nat) : State :=
  setFlow (sendCtl s peer (ctlFrame s peer 3 0 [])) peer (fun x => { x with entry := false, closing := true })

/-- R291: whether the flow table has a free entry. -/
def entryFree (s : State) : Bool := decide ((s.sw.flows.filter (fun f => f.2.entry)).length < Config.maxFlows)

/-- R295: in a full table, the flow idle longest, and for at least 10 µs, is closed; among flows idle equally long, which
it is, is an open choice. -/
def freeEntry (s : State) : State :=
  if entryFree s then s
  else
    let idle := s.sw.flows.filter (fun e => flowIdle s e.1 && decide (10000 ≤ e.2.idleFor))
    let most := (idle.map (fun e => e.2.idleFor)).foldl Nat.max 0
    let longest := (idle.filter (fun e => e.2.idleFor == most)).map (·.1)
    let d := drawNat s
    match longest[d.1 % Nat.max 1 longest.length]? with
    | some p => closeFlow d.2 p
    | none => s

/-- R295, R277: `n` control-clock cycles pass for the idle flows. -/
def agedFlows (s : State) (n : Nat) : Tab Flow :=
  Tab.mapv s.sw.flows (fun p x => { x with idleFor := if flowIdle s p then x.idleFor + n else 0 })

/-- R291: a flow that has none takes an entry, if it can, and the next epoch; its OPEN is sent. -/
def enterFlow (s : State) (peer : Nat) : State :=
  let t := freeEntry s
  if entryFree t then
    let e := nextEpoch t
    let u := setFlow (t.onSw (fun w => { w with epoch := e })) peer (fun x => { x with entry := true, closing := false, epoch := e })
    sendOpen u peer false
  else t

/-- R291: the flow with a peer, begun if there is none. -/
def takeFlow (s : State) (peer : Nat) : State :=
  let fresh : State := enterFlow (s.onSw (fun w => { w with flows := Tab.put w.flows peer { Flow.new 0 with entry := false } })) peer
  match flowAt s peer with
  | some fl => if fl.closing then fresh else s
  | none => fresh

/-- R291, R292, R302: a sequenced frame takes the flow's next number and leaves, or waits for the flow to open, for its
window or for the bounds of the chip. The answer is its number. -/
def sendSeq (s : State) (peer : Nat) (f : Frame) : State × Nat :=
  let t := takeFlow s peer
  match flowAt t peer with
  | none => (t, 0)
  | some fl =>
    let n := fl.nextSeq
    let g := { f with seq := n }
    let u := setFlow t peer (fun x => { x with nextSeq := (x.nextSeq + 1) % 2 ^ 32, idleFor := 0 })
    if fl.opened && inWindow fl n && fl.held == [] && roomFor t g then (transmit u peer g, n)
    else (setFlow u peer (fun x => { x with held := x.held ++ [g] }), n)

/-- R292, R302: frames that wait leave as far as the flow is open and the window and the bounds admit them; `fuel` bounds
the run. -/
def releaseHeld (s : State) (peer : Nat) : Nat → State
  | 0 => s
  | n + 1 =>
    match flowAt s peer with
    | none => s
    | some fl =>
      match fl.held with
      | [] => s
      | f :: r =>
        if fl.opened && inWindow fl f.seq && roomFor s f then
          releaseHeld (transmit (setFlow s peer (fun x => { x with held := r })) peer f) peer n
        else s

/-- R302: room has come: the frames that wait in every flow are tried again. -/
def releaseFlows (s : State) : State :=
  s.sw.flows.foldl (fun t e => if e.2.held == [] then t else releaseHeld t e.1 (e.2.held.length + 1)) s

/-- R284: a request frame of a hive. -/
def requestFrame (s : State) (dst ftype hive level w4 opf : Nat) (payload : List Byte) : Frame :=
  { ctlFrame s dst ftype opf payload with
    level := level, w4 := w4, srcHive := hive, colony := (hiveAt s hive).colony }

/-- R299: a request frame is one remote transaction of a channel. -/
def openTxn (s : State) (dst : Nat) (f : Frame) (chan : Nat) (kind : TxnKind) (lines : Nat := 1) : State :=
  let r := sendSeq s dst f
  r.1.onSw (fun w =>
    { w with
      txns := w.txns ++ [{ id := w.nextTxn, peer := dst, seq := r.2, chan := chan, kind := kind, addr := f.w4, lines := lines }]
      nextTxn := w.nextTxn + 1 })

/-- R297, R300: an answer by RESP; a failure's watermark waits for the RESP to be acknowledged. -/
def sendResp (s : State) (peer rseq level : Nat) (st : Status) (word : Nat) : State :=
  let f := { ctlFrame s peer 0xD 0 (leBytes 8 word ++ leBytes 8 0) with
             level := level, w4 := rseq <<< 32 + st.code <<< 24 }
  let r := sendSeq s peer f
  if st = .ok then r.1 else setFlow r.1 peer (fun x => { x with failed := x.failed ++ [(rseq, r.2)] })

/-- R300: the lines of a READ, or an open value where the status is not OK. -/
def sendRdata (s : State) (peer rseq level : Nat) (st : Status) (data : List Byte) : State :=
  let d := if st = .ok then (data, s) else drawBytes s data.length
  let f := { ctlFrame d.2 peer 0xC 0 d.1 with level := level, w4 := rseq <<< 32 + st.code <<< 24 }
  let r := sendSeq d.2 peer f
  if st = .ok then r.1 else setFlow r.1 peer (fun x => { x with failed := x.failed ++ [(rseq, r.2)] })

/-- R297: a seq counts as performed; the watermark moves over every consecutive one. -/
def advanceLanded (landed : Nat) (done : List Nat) : Nat → Nat × List Nat
  | 0 => (landed, done)
  | n + 1 =>
    let k := (landed + 1) % 2 ^ 32
    if done.contains k then advanceLanded k (done.filter (fun x => x != k)) n else (landed, done)

/-- R297: the watermark of a receiving half counts request `seq`. -/
def countPerformed (s : State) (peer seq : Nat) : State :=
  setFlow s peer (fun x =>
    if (x.landed + 2 ^ 32 - seq) % 2 ^ 32 < 2 ^ 31 || x.performed.contains seq then x
    else
      let r := advanceLanded x.landed (x.performed ++ [seq]) (x.performed.length + 1)
      { x with landed := r.1, performed := r.2 })

end Sys2Proof.Machine
end

