-- ==== Sys2Proof/Machine/Records.lean ====
section
/-! DEFINITION. The fault queue (R237 to R243): its records, the requesters they stand for, what happens when the ring
is full (R239), and how a requester leaves the translation unit. -/

namespace Sys2Proof.Machine

def FaultKind.code : FaultKind → Nat
  | .notPresent => 0
  | .pteRights => 1
  | .grant => 2
  | .table => 3
  | .frame => 4
  | .hostPage => 5
  | .hostDenied => 6
  | .malformed => 7
  | .readError => 8

/-- R237: the kinds that wait for an answer. -/
def FaultKind.resolvable (k : FaultKind) : Bool := k == .notPresent || k == .pteRights || k == .hostPage

def Access.code : Access → Nat
  | .read => 0
  | .write => 1
  | .atomic => 2
  | .object => 3

/-- R240: the bytes of a fault record. -/
def faultBytes (i : Nat) (k : FaultKind) (st : Nat) (perm src : Bool) (acc : Access) (level hive ctx pasid q rep va slot
    waiters : Nat) : List Byte :=
  bytesOf [i <<< 32 + k.code <<< 24 + st <<< 16 + b2n perm <<< 15 + b2n src <<< 14 + acc.code <<< 11 + level <<< 8 + hive,
    ctx <<< 50 + pasid <<< 30 + q <<< 18 + Nat.min 1023 rep <<< 8, lineOf va, slot <<< 32 + waiters <<< 16]

/-- R238: where record `i` lies. -/
def faultAddr (s : State) (i : Nat) : Nat := paLocal s.kp.settings.faultBase + i % Config.ringRecords * 32

/-- R239: whether the fault queue has a slot. -/
def faultRoom (s : State) : Bool :=
  decide ((s.xl.faultNext + 2 ^ 32 - s.xl.faultConsumed) % 2 ^ 32 < Config.ringRecords)

/-- R238: a record is written at the next index, and the manager's translation-fault event raised. -/
def putFault (s : State) (bytes : Nat → List Byte) : State :=
  let i := s.xl.faultNext
  let t := (tableWrite s (faultAddr s i) (bytes i)).1
  let t := t.onXl (fun x => { x with faultNext := (i + 1) % 2 ^ 32 })
  if hive0Vectors t then pendMessage t ((hiveAt t 0).vecFirst + 1) 0 else t

/-- Where the requester of a fault stands: queue, slot index, context, hive, and whether at run time. -/
def requesterInfo (s : State) (r : Requester) : Nat × Nat × Nat × Nat × Bool :=
  let at_ (q idx : Nat) (run : Bool) : Nat × Nat × Nat × Nat × Bool :=
    (q, idx, (queueAt s q).ctx, (ctxAt s (queueAt s q).ctx).hive, run)
  match r with
  | .chan c => ((chanAt s c).q, (chanAt s c).idx, (chanAt s c).ctx, (chanAt s c).hive, true)
  | .pre q idx => at_ q idx false
  | .record q idx => at_ q idx true

/-- R240: the earlier records of a fault of some requesters. -/
def repeatOf (s : State) (ctx page : Nat) (acc : Access) (rs : List Requester) : Nat :=
  ((s.xl.repeats.find? (fun r => r.ctx == ctx && r.page == page && r.access == acc && r.reqs.any rs.contains)).map
    (·.count)).getD 0

/-- R240: what a resolvable record holds. -/
def FaultRec.bytes (s : State) (f : FaultRec) (i : Nat) : List Byte :=
  let q := requesterInfo s (f.reqs.headD (.chan 0))
  faultBytes i f.kind 0 false q.2.2.2.2 f.access f.level q.2.2.2.1 f.ctx (ctxAt s f.ctx).pasid q.1 f.repeats f.va q.2.1
    f.reqs.length

/-- R241: the page that a record stands for: 4 KiB of a page request (R233), 1 GiB of a leaf of level 2, 32 MiB else. -/
def faultPage (k : FaultKind) (level va : Nat) : Nat :=
  if k = .hostPage then va / 4096 * 4096 + 1
  else if k = .pteRights ∧ level = 2 then va / 2 ^ 30 * 2 ^ 30
  else va / 2 ^ 25 * 2 ^ 25

/-- R243: the page-fault service timeout of a requester runs from its first record; a record of the same page does not
restart it. -/
def armTimers (s : State) (va : Nat) (rs : List Requester) : State :=
  s.onXl (fun x =>
    { x with timers := x.timers ++ (rs.filter (fun r => !x.timers.contains (r, va / 2 ^ 25))).map (fun r => (r, va / 2 ^ 25)) })

/-- A requester's fault on a page is resolved. -/
def disarm (s : State) (r : Requester) (va : Nat) : State :=
  s.onXl (fun x =>
    { x with
      timers := x.timers.filter (fun t => t != (r, va / 2 ^ 25))
      repeats := (x.repeats.map (fun y =>
        if y.page / 2 ^ 25 == va / 2 ^ 25 || y.page == va / 2 ^ 30 * 2 ^ 30 then { y with reqs := y.reqs.filter (· != r) } else y)).filter
          (fun y => y.reqs != []) })

/-- R241: a requester joins the outstanding record of its context, page and access, or a new record is written, or
waits for a slot (R239). -/
def resolvableFault (s : State) (k : FaultKind) (level : Nat) (acc : Access) (ctx va : Nat) (reqs : List Requester) :
    State :=
  let page := faultPage k level va
  let same (f : FaultRec) : Bool :=
    f.ctx == ctx && f.page == page && f.access == acc && (f.kind == .hostPage) == (k == .hostPage)
  let s := armTimers s va reqs
  if s.xl.faults.any same then
    s.onXl (fun x => { x with faults := x.faults.map (fun f => if same f then { f with reqs := f.reqs ++ reqs } else f) })
  else if s.xl.resWait.any same then
    s.onXl (fun x => { x with resWait := x.resWait.map (fun f => if same f then { f with reqs := f.reqs ++ reqs } else f) })
  else
    let f : FaultRec :=
      { index := s.xl.faultNext, kind := k, ctx := ctx, page := page, access := acc, va := va, reqs := reqs,
        repeats := repeatOf s ctx page acc reqs, level := level }
    if faultRoom s && decide (s.xl.faults.length < Config.ringRecords) then
      (putFault s (fun i => f.bytes s i)).onXl (fun x => { x with faults := x.faults ++ [f] })
    else s.onXl (fun x => { x with resWait := x.resWait ++ [f] })

/-- R239: when ring slots are free, waiting permanent records are written first, then waiting faults; `fuel` bounds the
run. -/
def drainFaults (s : State) : Nat → State
  | 0 => s
  | n + 1 =>
    if !faultRoom s then s
    else
      match s.xl.permWait with
      | ws :: r =>
        drainFaults (putFault (s.onXl (fun x => { x with permWait := r })) (fun i =>
          bytesOf ((ws.map (·.toNat)).set 0 (i <<< 32 + (nth ws 0 0).toNat % 2 ^ 32)))) n
      | [] =>
        match s.xl.resWait with
        | f :: r =>
          if s.xl.faults.length < Config.ringRecords then
            let g := { f with index := s.xl.faultNext }
            drainFaults ((putFault (s.onXl (fun x => { x with resWait := r })) (fun i => g.bytes s i)).onXl
              (fun x => { x with faults := x.faults ++ [g] })) n
          else s
        | [] => s

/-- Waiting records go to the ring as far as it and the bound of R239 allow. -/
def drainAll (s : State) : State := drainFaults s (s.xl.permWait.length + s.xl.resWait.length)

/-- R230: the forager's requests for a channel's instruction are dropped. A translation request that has left stays
outstanding for no one. -/
def dropForager (s : State) (c : Nat) : State :=
  s.onXl (fun x =>
    { x with
      forager := x.forager.filter (fun h => h.chan != c)
      walks := (x.walks.map (fun w => { w with forager := w.forager.filter (fun e => e.1 != c) })).filter
        (fun w => w.wants != [] || w.forager != [])
      atsReqs := x.atsReqs.map (fun a => { a with forager := a.forager.filter (· != c) }) })

/-- R241: a requester leaves its walks, its translation requests and its fault record, which is withdrawn with its last
requester; the place it held goes to what waits (R239). -/
def dropRequester (s : State) (r : Requester) : State :=
  let rec_ (l : List FaultRec) : List FaultRec :=
    (l.map (fun f => { f with reqs := f.reqs.filter (· != r) })).filter (fun f => f.reqs != [])
  drainAll (s.onXl (fun x =>
    { x with
      faults := rec_ x.faults
      resWait := rec_ x.resWait
      repeats := (x.repeats.map (fun f => { f with reqs := f.reqs.filter (· != r) })).filter (fun f => f.reqs != [])
      timers := x.timers.filter (fun t => t.1 != r)
      walks := (x.walks.map (fun w => { w with wants := w.wants.filter (fun y => y.r != r) })).filter
        (fun w => w.wants != [] || w.forager != [])
      atsReqs := x.atsReqs.map (fun a => { a with wants := a.wants.filter (fun y => y.r != r) }) }))

end Sys2Proof.Machine
end

