-- ==== Sys2Proof/Machine/Chan.lean ====
section
/-! DEFINITION. A channel and its instruction: the current word, its predicate, how an instruction ends (R114, R119),
and the command abort (R120, R121). -/

namespace Sys2Proof.Machine

/-! ## Registers -/

def Channel.greg (c : Channel) (i : Nat) : Word := nth c.g i 0
def Channel.setG (c : Channel) (i : Nat) (v : Word) : Channel := { c with g := c.g.set i v }
/-- R100: `p0` reads as 1. -/
def Channel.preg (c : Channel) (i : Nat) : Bool := if i = 0 then true else nth c.p i false
/-- R100: a write to `p0` has no effect. -/
def Channel.setP (c : Channel) (i : Nat) (v : Bool) : Channel := if i = 0 then c else { c with p := c.p.set i v }
def Channel.treg (c : Channel) (i : Nat) : List Word := nth c.t i [0, 0, 0, 0]
def Channel.setT (c : Channel) (i : Nat) (v : List Word) : Channel := { c with t := c.t.set i v }

/-- An operand's value. -/
def Channel.src (c : Channel) : Src → Nat
  | .imm v => v
  | .reg r => (c.greg r).toNat

/-! ## The current instruction -/

/-- Whether the channel runs in a slot, or in a program object (R106). -/
def Channel.inSlot (c : Channel) : Bool := c.stack == []

/-- The channel's current word; the end of a slot or object reads as `RET` (R105, R106). -/
def Channel.word (c : Channel) : Nat := codeWord c.code c.pc

/-- The current instruction; a word that does not decode was refused at FETCHED or by its `CALL` (R128). -/
def Channel.op (c : Channel) : Zop :=
  match decodeAt c.inSlot (c.q == 0) c.code c.pc with
  | .ok op => op
  | .error _ => .ret

/-- R103: whether the current instruction's predicate holds. -/
def Channel.holds (c : Channel) : Bool := c.preg (zPred c.word) != zPneg c.word

/-- The word after the current instruction. -/
def Channel.nextPc (c : Channel) : Nat := c.pc + 1 + zExt c.word

/-- Whether a channel runs an instruction that `p` accepts. -/
def running (s : State) (c : Nat) (p : Zop → Bool) : Bool :=
  (chanAt s c).state == .running && !(chanAt s c).retired && (chanAt s c).hold == .none && p (chanAt s c).op

/-- The instruction's progress as it stands when the next one begins. -/
def Channel.fresh (c : Channel) : Channel :=
  { c with
    prog := 0, rob := [], before := [], pickDraw := none, parts := [], pack := none, sent := 0, lineStatus := none, hold := .none, kernels := [],
    exits := 0, launchSeq := 0 }

/-- The channel goes on at a word of its current slot or object. -/
def Channel.goto (c : Channel) (pc : Nat) : Channel := { c.fresh with pc := pc, state := .running }

/-! ## Ends -/

/-- R121 step 3, R119: the waits that a channel holds at fences leave them untouched. -/
def dropWaits (s : State) (c : Nat) : State :=
  let mine (w : Waiter) : Bool := match w with | .here c' _ => c' == c | _ => false
  let op (o : FenceOp) : Bool := match o with | .wait c' _ => c' == c | .signal c' _ _ _ _ => c' == c | _ => false
  s.onQm (fun m =>
    { m with
      fences := Tab.mapv m.fences (fun _ f => { f with waits := f.waits.filter (fun w => !mine w) })
      fills := Tab.mapv m.fills (fun _ l => l.filter (fun o => !op o)) })

/-- R301: a remote wait that ends early is cancelled at its home by a WAIT frame with `cancel`. -/
def cancelRemoteWaits (s : State) (c : Nat) : State :=
  let ws := s.sw.txns.filter (fun t => t.chan == c && t.kind == .wait)
  let t := s.onSw (fun w => { w with txns := w.txns.filter (fun t => !(t.chan == c && t.kind == .wait)) })
  let target := match (chanAt s c).hold with | .fence _ _ v => v | _ => 0
  ws.foldl (fun t x =>
    (sendSeq t x.peer (requestFrame t x.peer 0xB (chanAt s c).hive (levelOf s (chanAt s c).label) x.addr (2 ^ 31)
      (leBytes 8 target ++ leBytes 8 0))).1) t

/-- R132, R447: what the target of a scratchpad line reports of it. -/
def spadMeets (s : State) (n off : Nat) : Option Status :=
  match Tab.look s.mv.spadConds (n * 2 ^ 17 + off / 128) with
  | some .poisoned => some .poison
  | some .uncorrectable => some .hwError
  | _ => none

/-- A cluster's part of the scratchpad space. -/
def spadKey (n off : Nat) : Nat := n * 2 ^ 24 + off

/-- R121: the contents of a cluster's scratchpad become undefined. -/
def spadLose (s : State) (n : Nat) : State :=
  let t := s.onMv (fun m =>
    { m with
      spads := m.spads.filter (fun e => e.1 / 2 ^ 24 != n)
      spadUndef := Tab.put m.spadUndef n s.free
      spadConds := m.spadConds.filter (fun e => e.1 / 2 ^ 17 != n) })
  { t with free := s.free + 1 }

/-- R39: a cleared scratchpad is zero. -/
def spadClear (s : State) (n : Nat) : State :=
  s.onMv (fun m =>
    { m with spads := m.spads.filter (fun e => e.1 / 2 ^ 24 != n), spadUndef := Tab.del m.spadUndef n
             spadConds := m.spadConds.filter (fun e => e.1 / 2 ^ 17 != n) })

/-- The open byte that stands under a scratchpad's kept byte. -/
def spadBase (s : State) (n off : Nat) : Byte :=
  match Tab.look s.mv.spadUndef n with
  | some d => Config.freeSpad d off
  | none => 0

def spadRead (s : State) (n off len : Nat) : List Byte :=
  (List.range len).map (fun i => cellRead 0 s.mv.spads (spadKey n (off + i)) ^^^ spadBase s n (off + i))

def spadWrite (s : State) (n : Nat) (bs : List (Nat × Byte)) : State :=
  s.onMv (fun m =>
    { m with spads := cellWriteAll 0 m.spads (bs.map (fun e => (spadKey n e.1, e.2 ^^^ spadBase s n e.1))) })

/-- R452: a powered cluster is reset, then cleared; one whose supply is not in tolerance yet stays isolated, and its reset and
clearing follow when it is (`CLUSTER_POWER_GOOD`). -/
def clearPins (s : State) (n : Nat) : State :=
  if (clusterAt s n).pwrGood then emit (emit s (.clusterReset n)) (.clusterClear n) else s

/-- R38, R452: a cluster is reset and cleared; what it held is gone. -/
def clearCluster (s : State) (n : Nat) (dest : ClearTo) : State :=
  spadLose (clearPins (setCluster s n (fun k => { k with state := .clearing, clearTo := dest, kernel := none })) n) n

/-- R38: a cluster is no longer reserved and runs no kernel; one that is LEAVING is cleared. -/
def freeKernel (s : State) (n : Nat) : State :=
  if (clusterAt s n).state = .leaving then clearCluster s n .free else setCluster s n (fun x => { x with kernel := none })

/-- The reservation of a channel is released. -/
def releaseClusters (s : State) (c : Nat) : State :=
  setChan ((chanAt s c).kernels.foldl freeKernel s) c (fun x => { x with kernels := [] })

/-- R79: the cluster-cycles of a kernel run, an open count, are charged to the command. -/
def chargeKernel (s : State) (c : Nat) : State :=
  let d := drawNat s
  setChan d.2 c (fun x => { x with clusterCycles := x.clusterCycles + d.1 })

/-- R79, R121 step 4: the kernels of a channel end by a reset of their clusters, which stay in their states (R38), and are
charged up to that end; clusters that it only reserved are released. -/
def endKernels (s : State) (c : Nat) : State :=
  let ch := chanAt s c
  let t := s.onHe (fun e => { e with
    hives := Tab.mapv e.hives (fun _ h => { h with launchQ := h.launchQ.filter (fun l => l.chan != c) }) })
  let t := if ch.hold = .kernel then
      (ch.kernels.filter (fun n => (clusterAt t n).state == .assigned)).foldl (fun t n => spadLose (emit t (.clusterReset n)) n)
        (ch.kernels.foldl (fun t _ => chargeKernel t c) t)
    else t
  releaseClusters t c

/-- What a channel holds outside itself is let go: waits, fault records, kernels and its place in a launch queue. -/
def letGo (s : State) (c : Nat) : State :=
  endKernels (dropTickets (dropForager (dropRequester (cancelRemoteWaits (dropWaits s c) c) (.chan c)) c) (.channel c)) c

/-- R120, R121, R123: a command abort. A channel that is ending, or whose last instruction has retired, is not
aborted; `inKill` marks an abort within a context kill, whose owed fences step 4 of R95 poisons. -/
def abortChan (s : State) (c : Nat) (st : Status) (inKill : Bool) : State :=
  let ch := chanAt s c
  if ch.state = .free ∨ ch.state = .ending ∨ ch.retired then s
  else
    setChan (letGo s c) c (fun x =>
      { x with state := .ending, endStatus := st, endDepth := ch.stack.length, endWord := ch.pc, hold := .none,
               kernels := [], inKill := inKill })

/-- R119: whether a status ends the command even under `try`. -/
def Status.fatal (st : Status) : Bool := st == .decode || st == .aborted || st == .hwError

/-- R114, R119, R120: the current instruction of a channel ends with a status. A channel that is ending runs none. -/
def retire (s : State) (c : Nat) (st : Status) : State :=
  let ch := chanAt s c
  let tr := zTry ch.word
  if ch.state = .free ∨ ch.state = .ending then s
  else if st = .ok ∨ (tr ∧ !st.fatal) then
    setChan (if st = .ok then s else letGo s c) c (fun x => { x.goto ch.nextPc with st := if tr then st else x.st })
  else abortChan (setChan s c (fun x => { x with st := if tr then st else x.st })) c st false

/-- R114: an instruction that branches retires OK at another word. -/
def retireTo (s : State) (c : Nat) (pc : Nat) : State :=
  setChan s c (fun x => { x.goto pc with st := if zTry x.word then .ok else x.st })

/-- The current instruction stops where it stands until something outside the channel comes about. -/
def stall (s : State) (c : Nat) (h : Hold) : State := setChan s c (fun x => { x with hold := h })

/-- R124: the channel is WAITING at a `WAIT` or a kernel run. -/
def holdChan (s : State) (c : Nat) (h : Hold) : State := setChan s c (fun x => { x with state := .waiting, hold := h })

/-- The current instruction of a channel whose predicate is false retires with no effect and leaves `st` (R103). -/
def skip (s : State) (c : Nat) : State := setChan s c (fun x => x.goto x.nextPc)

/-- One instruction of a channel: skipped where its predicate is false, else its effect. -/
def runInstr (s : State) (c : Nat) (p : Zop → Bool) (eff : Zop → State) :
    Host.Outcome State Fault Refusal :=
  taken (running s c p) s
    (if (chanAt s c).holds then eff (chanAt s c).op else skip s c)

end Sys2Proof.Machine
end

