-- ==== Sys2Proof/Machine/Fences.lean ====
section
/-! DEFINITION. The fence cache (R87 to R94, R271, R469): fences as their table holds them, signals, waits, poison, the
fill and the write-back. -/

namespace Sys2Proof.Machine

/-- The all-ones value that marks poison (R90). -/
def allOnes : Nat := 2 ^ 64 - 1

def FenceState.code : FenceState → Nat
  | .free => 0
  | .opened => 1
  | .closed => 2
  | .poisoned => 3

def FenceState.ofCode : Nat → FenceState
  | 0 => .free
  | 1 => .opened
  | 2 => .closed
  | _ => .poisoned

def Scope.code : Scope → Nat
  | .engine => 0
  | .hive => 1
  | .colony => 2

def Scope.ofCode : Nat → Scope
  | 0 => .engine
  | 1 => .hive
  | _ => .colony

/-- R87: where a fence's table entry lies. -/
def fenceAddr (s : State) (f : Nat) : Nat := paLocal s.kp.settings.fenceBase + f * 32

/-- R87: a fence from the three words of its entry. Nothing is recorded of the signal that raised it (R271). -/
def Fence.ofWords (w0 w1 w2 : Nat) : Fence :=
  { value := w0, err := fld w1 56 8, state := .ofCode (fld w1 54 2), dropSat := bit w1 53, dropped := fld w1 0 32,
    sigMode := bit w2 63, colWait := bit w2 62, sigCtx := fld w2 48 14, hive := fld w2 40 8,
    waitHive := fld w2 32 8, unbound := false, dirty := false, scope := .colony, host := true, byQ := 0, byIdx := 0,
    waits := [] }

/-- R87: the four words of a fence's entry. -/
def Fence.words (f : Fence) : List Nat :=
  [f.value, f.err <<< 56 + f.state.code <<< 54 + b2n f.dropSat <<< 53 + f.dropped,
   b2n f.sigMode <<< 63 + b2n f.colWait <<< 62 + f.sigCtx <<< 48 + f.hive <<< 40 + f.waitHive <<< 32, 0]

def fenceAt (s : State) (f : Nat) : Option Fence := Tab.look s.qm.fences f
def setFence (s : State) (f : Nat) (g : Fence → Fence) : State :=
  s.onQm (fun m => { m with fences := Tab.mod m.fences f g })

/-! ## Ends of waits -/

/-- R375, R272: whether the scope-mismatch check is enabled for a hive. -/
def smcOn (s : State) (h : Nat) : Bool :=
  s.vault.lc == .test ||
    (s.vault.lc == .production && s.vault.tokens.any (fun t => bit t.perms 3 && (t.device || t.hive == h)))

/-- R271, R341: a satisfied wait whose waiter the recorded scope does not include raises SCOPE_MISMATCH. A WAIT frame carries no
context, so that of a remote waiter is given as 0, and its chip's hive number stands for a hive (log 71). -/
def scopeCheck (s : State) (f : Nat) (fe : Fence) (w : Waiter) : State :=
  let ev (chip hive ctx : Nat) : State :=
    hiveEvent s 0x08 hive (f + fe.scope.code <<< 20 + b2n fe.host <<< 22) (chip <<< 48 + hive <<< 40 + ctx <<< 26)
  match w with
  | .here c _ =>
    let ch := chanAt s c
    if smcOn s ch.hive && fe.scope == .engine && !(ch.q == fe.byQ && ch.idx == fe.byIdx) then
      ev (chipId s) ch.hive ch.ctx
    else s
  | .remote src _ srcHive _ _ =>
    if smcOn s srcHive && fe.scope != .colony then ev src srcHive 0 else s

/-- A wait is answered: its channel's `WAIT` ends, or a RESP leaves. -/
def answerWait (s : State) (w : Waiter) (st : Status) : State :=
  match w with
  | .here c _ => retire s c st
  | .remote src seq _ _ level => sendResp s src seq level st 0

/-- R91: what a wait for target `t` meets: an answer, or none while it is held. -/
def Fence.waitStatus (f : Fence) (t : Nat) : Option Status :=
  match f.state with
  | .free => some .state
  | .opened => if t ≤ f.value then some .ok else none
  | .closed => if t ≤ f.value then some .ok else some .state
  | .poisoned =>
    some (match f.err with
      | 7 => .contextKilled
      | 1 => .state
      | 2 => .range
      | 3 => .rights
      | 4 => .fault
      | 5 => .timeout
      | 6 => .poison
      | 8 => .tagFail
      | 9 => .decode
      | 10 => .aborted
      | 11 => .resource
      | 12 => .link
      | _ => .hwError)

def Waiter.target : Waiter → Nat
  | .here _ t => t
  | .remote _ _ _ t _ => t

/-- R89, R91: after a change of a fence, every held wait it now answers ends, in order. -/
def wakeWaits (s : State) (f : Nat) : State :=
  match fenceAt s f with
  | none => s
  | some fe =>
    let s' := setFence s f (fun x => { x with waits := x.waits.filter (fun w => (fe.waitStatus w.target).isNone) })
    fe.waits.foldl (fun t w =>
      match fe.waitStatus w.target with
      | some st => answerWait (if st = .ok then scopeCheck t f fe w else t) w st
      | none => t) s'

/-- R90: an OPEN fence is poisoned; its held waits end. -/
def poisonCached (s : State) (f err : Nat) : State :=
  match fenceAt s f with
  | some fe =>
    if fe.state = .opened then
      wakeWaits (setFence s f (fun x => { x with state := .poisoned, value := allOnes, err := err, dirty := true })) f
    else s
  | none => s

/-! ## Signals and waits at the cache -/

/-- R92: who may signal. A fence whose binding is lost keeps no one out (log 20). -/
def Fence.maySignal (f : Fence) (ctx hive : Nat) : Bool :=
  if f.unbound then true else if f.sigMode then f.hive == hive else f.sigCtx == ctx

/-- R92: who may wait on this chip. A fence whose binding is lost keeps no one out (log 20). -/
def Fence.mayWait (f : Fence) (hive : Nat) : Bool := f.unbound || f.hive == hive || f.waitHive == hive || hive == 0

/-- R89, R93, R94: a signal to a cached fence: the fence after it, and its status. -/
def Fence.signal (f : Fence) (ctx hive v : Nat) (close : Bool) (sc : Scope) (host : Bool) (q idx : Nat) :
    Fence × Status :=
  let drop (x : Fence) : Fence :=
    { x with dropped := satInc 32 x.dropped, dropSat := x.dropSat || satInc 32 x.dropped == 2 ^ 32 - 1, dirty := true }
  if f.state = .free then (f, .state)
  else if !f.maySignal ctx hive then (f, .rights)
  else if 2 ^ 63 ≤ v then (f, .range)
  else
    match f.state with
    | .free => (f, .state)
    | .closed => (f, .state)
    | .poisoned => (drop f, .poison)
    | .opened =>
      let g := if f.value < v then
          { f with value := v, scope := sc, host := host, byQ := q, byIdx := idx, dirty := true }
        else if v < f.value then drop f else f
      (if close then { g with state := .closed, dirty := true } else g, .ok)

/-- R108: a performed `SIGNAL` of a slot is no longer owed. -/
def signalled (s : State) (c : Nat) : State :=
  setChan s c (fun x => if x.inSlot then { x with owed := x.owed.filter (fun o => o.2 != x.pc) } else x)

/-- A fence operation at a fence that the cache holds. -/
def performOp (s : State) (f : Nat) (fe : Fence) (o : FenceOp) : State :=
  match o with
  | .signal c v close sc host =>
    let ch := chanAt s c
    let r := fe.signal ch.ctx ch.hive v close sc host ch.q ch.idx
    let t := wakeWaits (setFence s f (fun _ => r.1)) f
    retire (if r.2 = .ok then signalled t c else t) c r.2
  | .wait c t =>
    let ch := chanAt s c
    if !fe.mayWait ch.hive then retire s c .rights
    else if 2 ^ 63 ≤ t then retire s c .range
    else
      match fe.waitStatus t with
      | some st => retire (if st = .ok then scopeCheck s f fe (.here c t) else s) c st
      | none => setFence s f (fun x => { x with waits := x.waits ++ [.here c t] })
  | .rwait src seq srcHive colony t level =>
    if !(fe.unbound || fe.colWait && colonyTest s fe.hive src colony) then
      sendResp (refuseRemote s fe.hive (paOf (chipId s) (fenceAddr s f))) src seq level .rights 0
    else if 2 ^ 63 ≤ t then sendResp s src seq level .range 0
    else
      match fe.waitStatus t with
      | some st =>
        if st = .ok then
          countPerformed (sendResp (scopeCheck s f fe (.remote src seq srcHive t level)) src seq level .ok 0) src seq
        else sendResp s src seq level st 0
      | none => countPerformed (setFence s f (fun x => { x with waits := x.waits ++ [.remote src seq srcHive t level] }))
          src seq
  | .poison ctx hive err => if fe.maySignal ctx hive then poisonCached s f err else s
  | .close =>
    if fe.state = .opened then wakeWaits (setFence s f (fun x => { x with state := .closed, dirty := true })) f else s

/-- A fence operation that ends without a fence: FREE entries give STATE (R94), malformed ones DECODE (R6). -/
def failOp (s : State) (o : FenceOp) (st : Status) : State :=
  match o with
  | .signal c _ _ _ _ => retire s c st
  | .wait c _ => retire s c st
  | .rwait src seq _ _ _ level => sendResp s src seq level st 0
  | .poison _ _ _ => s
  | .close => s

/-! ## Fill, write-back, eviction -/

/-- R90, R271: a dirty fence is written back; a line that fails poisons it. -/
def writeBack (s : State) (f : Nat) : State :=
  match fenceAt s f with
  | none => s
  | some fe =>
    let r := tableWrite s (fenceAddr s f) (bytesOf fe.words)
    if r.2 = .ok then setFence r.1 f (fun x => { x with dirty := false }) else poisonCached r.1 f r.2.code

/-- R93: an entry that may leave the cache: one without held waits. -/
def victim (s : State) : Option Nat := (s.qm.fences.find? (fun e => e.2.waits == [])).map (·.1)

/-- R93: whether the cache can take another fence. -/
def cacheRoom (s : State) (f : Nat) : Bool :=
  (fenceAt s f).isSome || decide (s.qm.fences.length < Config.fenceCacheSize) || (victim s).isSome

/-- R93: a full cache lets one of these entries go, written back first if dirty. One whose write-back fails stays, with its
poison (R90), and the next goes. -/
def evictFence : List (Nat × Fence) → State → State
  | [], s => s
  | e :: r, s =>
    if s.qm.fences.length < Config.fenceCacheSize then s
    else if e.2.waits != [] then evictFence r s
    else
      let t := if e.2.dirty then writeBack s e.1 else s
      if ((fenceAt t e.1).map (·.dirty)).getD false then evictFence r t
      else t.onQm (fun m => { m with fences := Tab.del m.fences e.1 })

/-- R93: room for one more entry is made, where an entry may leave. -/
def makeRoom (s : State) : State := evictFence s.qm.fences s

/-- R93: the cache is full, and none of its entries can leave. -/
def cacheFull (s : State) : Bool := decide (Config.fenceCacheSize ≤ s.qm.fences.length)

/-- R469 step 3, R62 step 2: the error code with which a running sweep poisons an OPEN fence. -/
def sweepErr (s : State) (fe : Fence) : Option Nat :=
  if fe.state != .opened || !s.qm.sweeping then none
  else if !fe.sigMode then
    if s.qm.kills.any (fun k => k.ctx == fe.sigCtx && k.step == 4) then some Status.contextKilled.code else none
  else if s.he.resets.any (fun r => r.hive == fe.hive && r.step == 2) then some Status.aborted.code else none

/-- R90: the cache takes a fence as poisoned, since its table line has failed; its binding is lost (log 20). -/
def putFailed (s : State) (f : Nat) (st : Status) : State :=
  let fe := { Fence.ofWords allOnes 0 (Config.fenceBinding s.free).toNat with
    state := .poisoned, err := st.code, unbound := true, dirty := true }
  { s.onQm (fun m => { m with fences := Tab.put m.fences f fe }) with free := s.free + 1 }

/-- R88, R90, R93, R469: the table entry of a fence is read into the cache. The answer says why no entry came: STATE for
a FREE entry, DECODE for a nonzero RZ field. A line that fails gives a poisoned fence. Where no entry can leave a full
cache, none comes and the answer says nothing. -/
def fill (s : State) (f : Nat) : State × Option Status :=
  if (fenceAt s f).isSome then (s, none)
  else if cacheFull (makeRoom s) then (makeRoom s, none)
  else
    let a := fenceAddr s f
    let r := tableLine (makeRoom s) (lineOf a)
    let put (fe : Fence) : State := r.1.onQm (fun m => { m with fences := Tab.put m.fences f fe })
    if r.2.1 ≠ .ok then (putFailed r.1 f r.2.1, none)
    else
      let w (i : Nat) : Nat := leNat ((r.2.2.drop (a - lineOf a + 8 * i)).take 8)
      let fe := Fence.ofWords (w 0) (w 1) (w 2)
      if fld (w 1) 32 21 ≠ 0 ∨ fld (w 2) 0 32 ≠ 0 ∨ w 3 ≠ 0 then (r.1, some .decode)
      else if fe.state = .free then (r.1, some .state)
      else
        match sweepErr r.1 fe with
        | some e => (put { fe with state := .poisoned, value := allOnes, err := e, dirty := true }, none)
        | none => (put fe, none)

/-- The operations that waited for a fill are performed in order. -/
def drainOps (s : State) (f : Nat) : List FenceOp → State
  | [] => s
  | o :: r =>
    match fenceAt s f with
    | some fe => drainOps (performOp s f fe o) f r
    | none => drainOps (failOp s o .state) f r

/-- R93: the cache reads a fence and performs the operations that wait for it, in order; with no room they wait on. The
answer is that of the fill. -/
def settleFill (s : State) (f : Nat) : State × Option Status :=
  let ops := (Tab.look s.qm.fills f).getD []
  let r := fill s f
  let t := r.1.onQm (fun m => { m with fills := Tab.del m.fills f })
  match r.2, fenceAt r.1 f with
  | none, none => r
  | none, some _ => (drainOps t f ops, none)
  | some st, _ => (ops.foldl (fun t o => failOp t o st) t, some st)

/-- R93: a fence's fill is done and its held operations proceed. -/
def fillDone (s : State) (f : Nat) : State := (settleFill s f).1

/-- R93: a fence operation reaches the cache: performed on a hit, behind the fill on a miss. -/
def fenceOp (s : State) (f : Nat) (o : FenceOp) : State :=
  match Tab.look s.qm.fills f, fenceAt s f with
  | none, some fe => performOp s f fe o
  | ops, _ => s.onQm (fun m => { m with fills := Tab.put m.fills f (ops.getD [] ++ [o]) })

/-- R93: an operation of the block itself, after all that waited before it; it waits only where the cache has no room. -/
def fenceNow (s : State) (f : Nat) (o : FenceOp) : State :=
  let r := settleFill s f
  match r.2, fenceAt r.1 f with
  | none, none => fenceOp r.1 f o
  | none, some fe => performOp r.1 f fe o
  | some st, _ => failOp r.1 o st

/-- R74: a fence owed by a command of a context is poisoned if it is OPEN and the context may signal it. -/
def poisonOwed (s : State) (ctx hive err f : Nat) : State := fenceNow s f (.poison ctx hive err)

/-- R74: every fence of a list. -/
def poisonAllOwed (s : State) (ctx hive err : Nat) (fs : List Nat) : State :=
  fs.foldl (fun t f => poisonOwed t ctx hive err f) s

end Sys2Proof.Machine
end

