-- ==== Sys2Proof/Machine/Xlate.lean ====
section
/-! DEFINITION. Address translation (R208 to R236): the two buffers, the directory and ATS caches, the walk, pins, the
translation requests, the forager. -/

namespace Sys2Proof.Machine

/-! ## Buffers -/

def Tlb.covers (e : Tlb) (ctx va : Nat) : Bool := e.ctx == ctx && e.va == va / 2 ^ e.sizeLog2 * 2 ^ e.sizeLog2

/-- Whether two ranges of one context overlap. -/
def Tlb.overlaps (e : Tlb) (ctx va len : Nat) : Bool :=
  e.ctx == ctx && decide (e.va < va + len) && decide (va < e.va + 2 ^ e.sizeLog2)

def Tlb.permits (e : Tlb) : Need → Bool
  | .rd => e.rd
  | .wr => e.wr
  | .atom => e.atom

/-- R222: bank and set of a second-level entry: set × 8 + bank. -/
def l2Index (va sizeLog2 ctx : Nat) : Nat :=
  let v := va >>> sizeLog2
  let x := v ^^^ (v >>> 11) ^^^ (v >>> 22)
  let x := if sizeLog2 = 30 then x ^^^ 0x555 else x
  (x ^^^ ctx ^^^ (ctx >>> 11)) % 2048

/-- R222: a set without entries. -/
def TlbSet.empty : TlbSet := { ways := List.replicate 16 none, plru := 0 }

/-- R222: the way that the tree pseudo-LRU bits choose; node i's children are 2i + 1 and 2i + 2, a 0 bit points left. -/
def plruVictim (bits : Nat) : Nat :=
  let step (n : Nat) : Nat := 2 * n + 1 + b2n (bit bits n)
  step (step (step (step 0))) - 15

/-- R222: the bits after a use of way `w`: every node on its path points away from it. -/
def plruTouch (bits w : Nat) : Nat :=
  (List.range 4).foldl (fun b d =>
    let node := 2 ^ d - 1 + w / 2 ^ (4 - d)
    let right := bit w (3 - d)
    if right then b - (if bit b node then 2 ^ node else 0) else if bit b node then b else b + 2 ^ node) bits

/-- A lookup in the second level, of both page sizes (R222). -/
def l2Find (s : State) (ctx va : Nat) : Option (Nat × Nat × Tlb) :=
  [25, 30].findSome? (fun sz =>
    let i := l2Index va sz ctx
    let set := (Tab.look s.xl.l2 i).getD TlbSet.empty
    (set.ways.zipIdx).findSome? (fun w =>
      match w.1 with
      | some e => if e.sizeLog2 == sz && e.covers ctx va then some (i, w.2, e) else none
      | none => none))

/-- R221: an entry enters a mover's first-level buffer as the most recently used. -/
def l1Put (s : State) (m : Nat) (e : Tlb) : State :=
  s.onXl (fun x =>
    let l := ((Tab.look x.l1 m).getD []).filter (fun o => !o.overlaps e.ctx e.va (2 ^ e.sizeLog2))
    { x with l1 := Tab.put x.l1 m ((e :: l).take Config.l1Entries) })

/-- R222: an entry that overlaps the new one leaves; the fill takes an invalid way first, else the pseudo-LRU's. -/
def l2Put (s : State) (e : Tlb) : State :=
  s.onXl (fun x =>
    let l2 := Tab.mapv x.l2 (fun _ st =>
      { st with ways := st.ways.map (fun w => match w with
          | some o => if o.overlaps e.ctx e.va (2 ^ e.sizeLog2) then none else some o
          | none => none) })
    let i := l2Index e.va e.sizeLog2 e.ctx
    let set := (Tab.look l2 i).getD TlbSet.empty
    let w := match (set.ways.zipIdx).find? (fun w => w.1.isNone) with
      | some w => w.2
      | none => plruVictim set.plru % set.ways.length
    { x with l2 := Tab.put l2 i { set with ways := set.ways.set w (some e), plru := plruTouch set.plru w } })

/-- Whether a request of the forager concerns a range of a context. -/
def hintIn (f : Hint) (ctx va len : Nat) : Bool :=
  f.ctx == ctx && decide (va ≤ f.va + (2 ^ 25 - 1)) && decide (f.va < va + len)

/-- R219 step 2: every translation of a context over a range is removed, with its directory entries and forager
requests. -/
def shootdown (s : State) (ctx va len : Nat) : State :=
  let keep (e : Tlb) : Bool := !e.overlaps ctx va len
  s.onXl (fun x =>
    { x with
      l1 := Tab.mapv x.l1 (fun _ l => l.filter keep)
      l2 := Tab.mapv x.l2 (fun _ st =>
        { st with ways := st.ways.map (fun w => match w with | some o => if keep o then some o else none | none => none) })
      ats := x.ats.filter keep
      dir := x.dir.filter (fun d =>
        !(d.ctx == ctx && decide (d.va < va + len) && decide (va < d.va + 2 ^ (if d.level = 0 then 48 else 39))))
      forager := x.forager.filter (fun f => !hintIn f ctx va len)
      walks := (x.walks.map (fun w =>
        if hintIn { chan := 0, ctx := w.ctx, va := w.va } ctx va len then { w with forager := [] } else w)).filter
          (fun w => w.wants != [] || w.forager != [])
      atsReqs := x.atsReqs.map (fun a =>
        if hintIn { chan := 0, ctx := a.ctx, va := a.va } ctx va len then { a with forager := [] } else a) })

/-- The whole address space of a context. -/
def shootdownAll (s : State) (ctx : Nat) : State := shootdown s ctx 0 (2 ^ 57)

/-- R219 step 1: walks of the context that began earlier walk again. -/
def raiseInv (s : State) (ctx : Nat) : State := setCtx s ctx (fun c => { c with invSeq := c.invSeq + 1 })

/-! ## The walk -/

/-- What a walk ends with: a leaf as it would be installed, with the leaf's own rights and those that it and the grant
give together; or a fault with the level and status. -/
inductive WalkEnd
  | leaf (e : Tlb) (leafRights grantRights : Need → Bool)
  | fault (k : FaultKind) (level : Nat) (st : Status)

/-- R208: the index of a level. -/
def vaIndex (va level : Nat) : Nat :=
  match level with
  | 0 => fld va 48 9
  | 1 => fld va 39 9
  | 2 => fld va 30 9
  | _ => fld va 25 5

/-- R212 to R214: whether a valid entry is malformed at its level. -/
def malformed (e level : Nat) : Bool :=
  match fld e 61 2 with
  | 0 => level == 3 || fld e 57 4 != 0 || fld e 0 8 != 0 || (decide (level ≤ 1) && fld e 8 4 != 0)
  | 1 => decide (level ≤ 1) || fld e 57 3 != 0 || fld e 16 9 != 0 || fld e 3 5 != 0 || (level == 2 && fld e 25 5 != 0)
  | 2 => decide (level ≤ 1) || fld e 57 3 != 0 || fld e 16 9 != 0 || fld e 3 5 != 0 || fld e 25 32 != 0
  | _ => true

/-- R82: the object whose entry is a word, as its first byte and length. -/
def objectSpan (w : Nat) : Nat × Nat := (fld w 32 16 * 2 ^ 25, fld w 16 16 * 2 ^ 25)

/-- R84: the grant rights of a page of a context: none where the page lies wholly in no granted object. An entry whose
object-table line ends with a status is passed over (log 50). -/
def grantRights (s : State) (gs : List Grant) (page len : Nat) : State × Option (Bool × Bool × Bool) :=
  gs.foldl (fun acc g =>
    let r := tableWord acc.1 (paLocal s.kp.settings.objBase + g.obj * 16)
    let o := objectSpan r.2.2
    if r.2.1 = .ok ∧ fld r.2.2 62 2 = 1 ∧ o.1 ≤ page ∧ page + len ≤ o.1 + o.2 then
      let b := acc.2.getD (false, false, false)
      (r.1, some (b.1 || g.rd, b.2.1 || g.wr, b.2.2 || g.atom))
    else (r.1, acc.2)) (s, none)

/-- R215, R237: a leaf becomes a translation or a permanent fault. A page that no comb of the hive holds has no right of
one (R216). -/
def finishLeaf (s : State) (ctx va e level : Nat) : State × WalkEnd :=
  let c := ctxAt s ctx
  let sz := if level = 2 then 30 else 25
  let page := va / 2 ^ sz * 2 ^ sz
  let frame := fld e 25 32 * 2 ^ 25
  let host := fld e 61 2 == 2
  let lr (n : Need) : Bool := match n with | .rd => bit e 0 | .wr => bit e 1 | .atom => bit e 2
  let mk (r : Need → Bool) : Tlb :=
    { ctx := ctx, va := page, sizeLog2 := sz, frame := if host then page else frame, host := host, translated := false,
      rd := r .rd, wr := r .wr, atom := r .atom, nopf := bit e 60, hive := c.hive }
  if host then (s, .leaf (mk lr) lr lr)
  else if 2 ^ 40 ≤ paLocal frame then (s, .fault .frame level .fault)
  else if paChip frame ≠ chipId s then (s, .leaf (mk lr) lr lr)
  else
    let g := if ctx = 0 then (s, some (true, true, true)) else grantRights s c.grants (paLocal frame) (2 ^ sz)
    match g.2 with
    | none => (g.1, .fault .grant level .rights)
    | some r =>
      let gr (n : Need) : Bool := lr n && (match n with | .rd => r.1 | .wr => r.2.1 | .atom => r.2.2)
      let k (n : Need) : Bool := ((combFor g.1 c.hive (paLocal frame)).map (fun k => k.permits n)).getD false
      (g.1, .leaf (mk (fun n => gr n && k n)) lr gr)

/-- R221: a TABLE entry of level 0 or 1 enters the directory cache as the most recently used. -/
def dirPut (s : State) (d : DirEntry) : State :=
  s.onXl (fun x =>
    let rest := x.dir.filter (fun o => !(o.ctx == d.ctx && o.level == d.level && o.va == d.va))
    { x with dir := (d :: rest).take Config.dirEntries })

/-- R214: the walk from table `a` at `level` down; `fuel` is the levels left. -/
def walkFrom (s : State) (ctx va a level : Nat) : (fuel : Nat) → State × WalkEnd
  | 0 => (s, .fault .malformed level .decode)
  | n + 1 =>
    if paChip a ≠ chipId s ∨ ¬ inHive0Private s (paLocal a) ∨ (level ≤ 2 ∧ a % 4096 ≠ 0) then
      (s, .fault .table level .fault)
    else
      let r := tableWord s (paLocal a + vaIndex va level * 8)
      if r.2.1 ≠ .ok then (r.1, .fault .readError 0 r.2.1)
      else
        let e := r.2.2
        if !bit e 63 then (r.1, .fault .notPresent level .ok)
        else if malformed e level then (r.1, .fault .malformed level .decode)
        else if fld e 61 2 = 0 then
          let next := fld e 8 49 * 256
          let sh := if level = 0 then 48 else 39
          let t := if level ≤ 1 then
              dirPut r.1 { ctx := ctx, level := level, va := va / 2 ^ sh * 2 ^ sh, next := next } else r.1
          walkFrom t ctx va next (level + 1) n
        else finishLeaf r.1 ctx va e level

/-- R214, R225: a walk, from the deepest table that the directory cache gives. -/
def walk (s : State) (ctx va : Nat) : State × WalkEnd :=
  let hit (level sh : Nat) : Option DirEntry :=
    s.xl.dir.find? (fun d => d.ctx == ctx && d.level == level && d.va == va / 2 ^ sh * 2 ^ sh)
  match hit 1 39 with
  | some d => walkFrom (dirPut s d) ctx va d.next 2 2
  | none =>
    match hit 0 48 with
    | some d => walkFrom (dirPut s d) ctx va d.next 1 3
    | none => walkFrom s ctx va (ctxAt s ctx).ptRoot 0 4

/-- R216: the fault that a missing right gives: PTE_RIGHTS where the leaf lacks it, GRANT where it does not. -/
def rightsFault (lr : Need → Bool) (n : Need) : FaultKind × Status :=
  if lr n then (.grant, .rights) else (.pteRights, .ok)

/-! ## Lookup -/

/-- What an address translates to. -/
inductive Xl
  | dev (pa : Nat)
  /-- host memory: the address sent, and whether it is a translated one (R231, R235) -/
  | host (addr : Nat) (translated : Bool)
  | miss
  /-- a reduce or atomic to host memory (R231) -/
  | hostRange

/-- R221, R231: the entry of the ATS cache that grants an access. -/
def atsFind (s : State) (ctx va : Nat) (n : Need) : Option Tlb :=
  s.xl.ats.find? (fun e => e.covers ctx va && e.permits n)

/-- R221, R231, R235: the first-level entry for an access under a HOST leaf: the translated address that the ATS cache
gives; the device virtual address itself where host software has not enabled ATS; none where a translation request must
be made. -/
def hostEntry (s : State) (leaf : Tlb) (va : Nat) (n : Need) : Option Tlb :=
  if !s.hp.atsOn then some leaf
  else
    (atsFind s leaf.ctx va n).map (fun a =>
      let sz := Nat.min leaf.sizeLog2 a.sizeLog2
      let page := va / 2 ^ sz * 2 ^ sz
      { leaf with va := page, sizeLog2 := sz, frame := a.frame + (page - a.va), translated := true,
                  rd := leaf.rd && a.rd, wr := leaf.wr && a.wr, atom := false })

/-- R216, R221: a lookup for one access. An entry without the right is looked up again by a walk, which names the fault. -/
def useTlb (e : Tlb) (va : Nat) (n : Need) : Xl :=
  if e.host ∧ n = .atom then .hostRange
  else if !e.permits n then .miss
  else if e.host then .host (e.frame + va % 2 ^ e.sizeLog2) e.translated
  else .dev (e.frame + va % 2 ^ e.sizeLog2)

/-- R221, R223: the first level of a mover, then the second, which fills the first. -/
def lookup (s : State) (m ctx va : Nat) (n : Need) : State × Xl :=
  match ((Tab.look s.xl.l1 m).getD []).find? (fun e => e.covers ctx va) with
  | some e => (l1Put s m e, useTlb e va n)
  | none =>
    match l2Find s ctx va with
    | some (i, w, e) =>
      let t := s.onXl (fun x => { x with l2 := Tab.mod x.l2 i (fun st => { st with plru := plruTouch st.plru w }) })
      (l1Put t m e, useTlb e va n)
    | none => (s, .miss)

/-- R216, R240, R243: a lookup for a channel's own access. One that ends in a translation has resolved the channel's fault on the
page, whoever's walk it was. -/
def xlate (s : State) (c va : Nat) (n : Need) : State × Xl :=
  match lookup s (c / 8) (chanAt s c).ctx va n with
  | (t, .miss) => (t, .miss)
  | (t, x) => (disarm t (.chan c) va, x)

/-- R217, R222: a leaf that grants an access is installed, in the second level and in a mover's first. A host
translation is held by the first level alone (R221). -/
def install (s : State) (m : Nat) (e : Tlb) : State := l1Put (if e.host then s else l2Put s e) m e

/-! ## Translation requests -/

/-- R221: the set of the ATS cache that holds a translation (log 51). -/
def atsSet (e : Tlb) : Nat := Config.atsSet e.ctx e.va e.sizeLog2 % 512

/-- R221, R224: a host translation enters the ATS cache; those it overlaps leave, and one of a full set (log 51). -/
def atsPut (s : State) (e : Tlb) : State :=
  let rest := s.xl.ats.filter (fun o => !o.overlaps e.ctx e.va (2 ^ e.sizeLog2))
  let mine := rest.filter (fun o => atsSet o == atsSet e)
  if mine.length < 8 then s.onXl (fun x => { x with ats := e :: rest })
  else
    let d := drawNat s
    let out := mine[d.1 % mine.length]?
    d.2.onXl (fun x => { x with ats := e :: rest.filter (fun o => some o != out) })

/-- R421: the non-posted requests of the block to the host that are outstanding stay below 1,024. -/
def hostRoom (s : State) : Bool := decide (s.hp.reads.length + s.hp.flushes.length + s.xl.atsReqs.length < 1024)

/-- R232: a translation request to the host, for one translation (log 49), merged with one that is outstanding for the
page; none where 256 are, where only the forager wants it and has its 64 (R229), or at the bound of R421. -/
def atsRequest (s : State) (leaf : Tlb) (va : Nat) (wants : List Want) (forager : List Nat) : Option State :=
  let same (a : AtsReq) : Bool := a.ctx == leaf.ctx && a.va / 4096 == va / 4096
  if s.xl.atsReqs.any same then
    some (s.onXl (fun x => { x with atsReqs := x.atsReqs.map (fun a =>
      if same a then
        { a with seq := (ctxAt s leaf.ctx).invSeq, leaf := leaf, wants := a.wants ++ wants, forager := a.forager ++ forager }
      else a) }))
  else if !hostRoom s ∨ 256 ≤ s.xl.atsReqs.length ∨ (wants = [] ∧ 64 ≤ (s.xl.atsReqs.filter (fun a => a.wants == [])).length) then none
  else
    let p := (ctxAt s leaf.ctx).pasid
    some ((emit s (.atsRequest s.xl.nextId p (va / 4096 * 4096) 1)).onXl (fun x =>
      { x with
        atsReqs := x.atsReqs ++ [{ id := x.nextId, seq := (ctxAt s leaf.ctx).invSeq, ctx := leaf.ctx, pasid := p, va := va,
                                   leaf := leaf, wants := wants, forager := forager }]
        nextId := x.nextId + 1 }))

/-! ## Walks in progress -/

/-- R225, R229: the walks that the 32 walkers serve: demand first, in order of arrival, and the forager's in what is left. -/
def served (s : State) : List Walk :=
  (s.xl.walks.filter (fun w => w.wants != []) ++ s.xl.walks.filter (fun w => w.wants == [])).take 32

/-- R225: a walk is asked for; walks of one context and page are merged. -/
def askWalk (s : State) (ctx va : Nat) (wants : List Want) (forager : List (Nat × Nat)) : State :=
  let same (w : Walk) : Bool := w.ctx == ctx && w.va / 2 ^ 25 == va / 2 ^ 25
  s.onXl (fun x =>
    if x.walks.any same then
      { x with walks := x.walks.map (fun w =>
          if same w then { w with wants := w.wants ++ wants, forager := w.forager ++ forager } else w) }
    else
      { x with
        walks := x.walks ++ [{ id := x.nextId, ctx := ctx, va := va, seq := (ctxAt s ctx).invSeq, wants := wants,
                               forager := forager }]
        nextId := x.nextId + 1 })

/-! ## The forager -/

/-- R229: whether a page is present, or on its way: the 4 KiB page, since the walk may lead to a host page. -/
def foraged (s : State) (ctx va : Nat) : Bool :=
  (l2Find s ctx va).isSome || s.xl.ats.any (fun e => e.covers ctx va) ||
    s.xl.walks.any (fun w => w.ctx == ctx && w.forager.any (fun e => e.2 / 4096 == va / 4096)) ||
    s.xl.atsReqs.any (fun a => a.ctx == ctx && a.va / 4096 == va / 4096)

/-- R229: the forager has one of its 8 walkers. -/
def foragerFree (s : State) : Bool :=
  decide ((s.xl.walks.filter (fun w => w.wants == [])).length < 8) && decide (s.xl.walks.length < 32)

/-- R229: a hint: it joins the walk of its page, or has one where the forager has a walker; else it is a pending lookup where
there is room, else it is dropped. -/
def forage (s : State) (h : Hint) : State :=
  if foraged s h.ctx h.va || s.xl.forager.contains h then s
  else if foragerFree s || s.xl.walks.any (fun w => w.ctx == h.ctx && w.va / 2 ^ 25 == h.va / 2 ^ 25) then
    askWalk s h.ctx h.va [] [(h.chan, h.va)]
  else if s.xl.forager.length < 1024 then s.onXl (fun x => { x with forager := x.forager ++ [h] })
  else s

/-- R229: pending lookups take the walkers that have come free; `fuel` bounds the run. -/
def forageOn (s : State) : Nat → State
  | 0 => s
  | n + 1 =>
    match s.xl.forager with
    | [] => s
    | h :: r => if foragerFree s then forageOn (forage (s.onXl (fun x => { x with forager := r })) h) n else s

/-- R229: the addresses of some line requests, one for each 4 KiB page, become hints for a channel: whether a page is the
host's is known once it has been walked. -/
def forageLines (s : State) (c : Nat) (lines : List Nat) : State :=
  let firsts := lines.foldl (fun (a : List Nat) l => if a.any (fun x => x / 4096 == l / 4096) then a else a ++ [l]) []
  firsts.foldl (fun t l => forage t { chan := c, ctx := (chanAt s c).ctx, va := l }) s

/-- R229, R230: what a walk comes to for the forager: a device translation in the second level, a translation request for each
host page that it looks up, or a pending lookup where none can be sent; nothing for a fault or under `nopf`. -/
def foragerLeaf (s : State) (e : Tlb) (hints : List (Nat × Nat)) : State :=
  if e.nopf || hints == [] then s
  else if !e.host then (if e.rd || e.wr || e.atom then l2Put s e else s)
  else if !s.hp.atsOn then s
  else
    hints.foldl (fun t h =>
      if t.xl.ats.any (fun a => a.covers e.ctx h.2) then t
      else
        match atsRequest t e h.2 [] [h.1] with
        | some u => u
        | none =>
          if t.xl.forager.length < 1024 then t.onXl (fun x => { x with forager := x.forager ++ [{ chan := h.1, ctx := e.ctx, va := h.2 }] })
          else t) s

/-! ## Pins -/

/-- Whether the line of an address holds a byte of `n` bytes from `a`. -/
def lineMeets (a n va : Nat) : Bool := decide ((lineOf va + 2 ^ 57 - lineOf a) % 2 ^ 57 < a % 128 + n)

/-- R52, R227: whether an address lies in a span that a command has pinned for an access. -/
def pinnedBy (s : State) (q idx ctx va : Nat) (n : Need) : Bool :=
  s.qm.pins.any (fun p => p.q == q && p.idx == some idx && p.ctx == ctx && p.need == n &&
    p.parts.any (fun e => lineMeets e.1 e.2 va))

/-- R24: whether a pin of a context overlaps a range. -/
def pinOverlaps (s : State) (ctx va len : Nat) : Bool :=
  s.qm.pins.any (fun p => p.ctx == ctx && p.pages.any (fun g => decide (g * 2 ^ 25 < va + len) && decide (va < (g + 1) * 2 ^ 25)))

/-- The pins of a command are released (R24). -/
def releasePins (s : State) (q idx : Nat) : State :=
  s.onQm (fun m => { m with pins := m.pins.filter (fun p => !(p.q == q && p.idx == some idx)) })

/-- The pins of a bound queue are released (R95 step 6, R195). -/
def releaseQueuePins (s : State) (q : Nat) : State :=
  s.onQm (fun m => { m with pins := m.pins.filter (fun p => !(p.q == q && p.idx == none)) })

/-! ## Permanent faults -/

/-- R70: whether a requester is a `QUEUE_BIND` that translates its ring and completion area. -/
def binding (s : State) (r : Requester) : Bool :=
  match r with
  | .chan c => (match (chanAt s c).op with | .queueBind _ _ _ => (chanAt s c).prog != 0 | _ => false)
  | _ => false

/-- R239: a permanent fault's record, written, queued behind the ring's 64 waiting ones, or lost. -/
def permFault (s : State) (k : FaultKind) (st : Status) (level : Nat) (acc : Access) (ctx va : Nat) (r : Requester) :
    State :=
  let i := requesterInfo s r
  let mk (n : Nat) : List Byte :=
    faultBytes n k st.code true (i.2.2.2.2 && !binding s r) acc level (ctxAt s ctx).hive ctx (ctxAt s ctx).pasid i.1 0 va i.2.1 1
  if faultRoom s && s.xl.permWait == [] then putFault s mk
  else if s.xl.permWait.length < 64 then
    s.onXl (fun x => { x with permWait := x.permWait ++ [wordsOf 4 (mk 0)] })
  else s.onHp (fun h => { h with counters := { h.counters with faultLost := satInc 32 h.counters.faultLost } })

end Sys2Proof.Machine
end

