-- ==== Sys2Proof/Machine/Lines.lean ====
section
/-! DEFINITION. The line requests of a channel's instruction (R25, R51, R110 to R117, R132, R299, R320): reads and
writes of lines of device memory, of remote and host memory and of scratchpads, and the run of an instruction over its
lines, each issued once. An instruction address is a device virtual address, or 2^57 × (1 + cluster) + offset for a
scratchpad. -/

namespace Sys2Proof.Machine

/-- The instruction address of a scratchpad byte. -/
def spadUa (cluster off : Nat) : Nat := 2 ^ 57 * (1 + cluster) + off % 2 ^ 57
def isSpad (ua : Nat) : Bool := decide (2 ^ 57 ≤ ua)
def uaCluster (ua : Nat) : Nat := ua / 2 ^ 57 - 1

/-- How one line request of an instruction comes out. -/
inductive LineEnd
  | data (bytes : List Byte)
  /-- the instruction waits: a walk, a remote transaction, a host read -/
  | held
  | fail (st : Status)

/-- R320: a request is charged to its command's label when it is issued. -/
def chargeLine (s : State) (c bytes : Nat) : State := charge s (chanAt s c).label bytes

/-- R51: a check that a line fails at run time is logged with the hive, the context and the physical address. -/
def refuseLine (s : State) (c pa : Nat) : State :=
  let ch := chanAt s c
  logErr s { cls := 4, status := Status.rights.code, hive := ch.hive, ugroup := 1, unit := c / 8, cause := 6,
             ctx := ch.ctx, paddr := pa }

/-- R116, R225: a run-time miss stops the channel at the line. -/
def startWalk (s : State) (c va : Nat) (acc : Access) : State :=
  setChan (askWalk s (chanAt s c).ctx va [{ r := .chan c, access := acc, va := va }] []) c (fun x => { x with hold := .walk })

/-- R240 `access` of a need. -/
def accessOf : Need → Access
  | .rd => .read
  | .wr => .write
  | .atom => .atomic

/-- R51: the remote-source check: the colony is not none and the chip lies in the peer range. -/
def remoteOk (s : State) (hive chip : Nat) : Bool :=
  let h := hiveAt s hive
  h.colony != 0 && decide (h.peerLo ≤ chip) && decide (chip ≤ h.peerHi)

/-- R40, R130: the check of a scratchpad line: RIGHTS for a cluster that is not ASSIGNED or LEAVING in the hive, RANGE
at or beyond its size. -/
def spadCheck (s : State) (hive ua : Nat) : Option Status :=
  let n := uaCluster ua
  let k := clusterAt s n
  if clustersAttached s ≤ n ∨ k.hive ≠ hive ∨ !(k.state == .assigned || k.state == .leaving) then some .rights
  else if 2 ^ k.spadLog2 ≤ ua % 2 ^ 57 then some .range
  else none

/-- R48, R51, R52: the comb under which a local line is reached: one of the hive's, or, inside a pinned span, one that
a detach still waits to let go. -/
def combOfLine (s : State) (hive : Nat) (pinned : Bool) (a : Nat) : Option Comb :=
  match combFor s hive a with
  | some k => some k
  | none =>
    if pinned then
      s.qm.jobs.findSome? (fun j => match j.kind with
        | .comb h _ (some k) _ => if h == hive && k.holds a then some k else none
        | _ => none)
    else none

/-- Whether a transaction of the channel on a remote line is outstanding (R112). -/
def lineBusy (s : State) (c pa : Nat) : Bool :=
  s.sw.txns.any (fun t => t.chan == c && decide (lineOf t.addr ≤ pa) && decide (pa < lineOf t.addr + 128 * t.lines))

/-- R299: how many lines a READ frame takes from a remote line on: the lines that the instruction reads next, consecutive in
one aligned 4 KiB block, at most 8, none of them outstanding (R112). -/
def readRun (s : State) (c ua pa : Nat) (ahead : List Nat) : Nat :=
  let more (i : Nat) : Bool :=
    ahead.contains (ua + 128 * i) && (Tab.look (chanAt s c).rob (ua + 128 * i)).isNone && !lineBusy s c (pa + 128 * i)
  1 + ((List.range (Nat.min 8 (32 - pa % 4096 / 128))).drop 1 |>.takeWhile more).length

/-- R25, R319: a line of device memory as a request of the channel's instruction. -/
def chanReq (s : State) (c keySel a : Nat) (k : Option WriteKind) : HomeReq :=
  let ch := chanAt s c
  { req := { origin := .channel c, hive := ch.hive, keySel := keySel, label := ch.label, level := levelOf s ch.label, addr := a }
    kind := k, second := none, raw := [], ticket := true }

/-! ## Scratchpad lines -/

/-- R439: the core-side port of a cluster. -/
def corePort (n : Nat) : Nat := 64 + n / 8

/-- R448, R449: whether the port of a cluster lacks a credit or a tag for a line. -/
def spadLacks (s : State) (n : Nat) (write : Bool) : Bool := (portAt s (corePort n)).lacks (!write) write

/-- R445: the address of a scratchpad byte on its port. -/
def spadAddr (n off : Nat) : Nat := n <<< 32 + off

/-- R445: the read of a scratchpad line (log 67). -/
def showSpadRead (s : State) (n off level : Nat) : State :=
  let x := portAt s (corePort n)
  emit s (.portRequest (corePort n) false ((freeTag x.reads x.quarReads).getD 0) (spadAddr n off) level)

/-- R445, R446: the write of bytes of a scratchpad line, with their byte enables (log 67). -/
def showSpadWrite (s : State) (n off level : Nat) (bytes : List (Nat × Byte)) : State :=
  let x := portAt s (corePort n)
  let t := (freeTag x.writes x.quarWrites).getD 0
  emit (emit s (.portRequest (corePort n) true t (spadAddr n off) level))
    (.writeBeat (corePort n) t 0 (bitmapOf (bytes.map (·.1))) (writeApply (.partialWrite bytes) (List.replicate 128 0)).1)

/-! ## Frames of several lines (R299) -/

/-- The frame that gathered lines make. -/
def Pack.frame (p : Pack) (s : State) (c : Nat) : Frame :=
  let ch := chanAt s c
  let body := p.elems ++ p.draws
  requestFrame s (paChip p.pa) (if p.reduce then 8 else 6) ch.hive (levelOf s ch.label) p.pa
    (if p.reduce then p.opf + (p.lines - 1) <<< 6 else 0) (body ++ List.replicate ((16 - body.length % 16) % 16) 0)

/-- The gathered lines of a channel leave as one transaction. -/
def flushPack (s : State) (c : Nat) : State :=
  match (chanAt s c).pack with
  | none => s
  | some p =>
    openTxn (setChan s c (fun x => { x with pack := none })) (paChip p.pa) (p.frame s c) c (.write p.pa) p.lines

/-- R299: whether one more line goes into the same frame: the next line of the same aligned 4 KiB block, of the same kind,
within 8 lines for a WRITE, 32 lines and 1,024 bytes for a REDUCE. -/
def Pack.takes (p q : Pack) : Bool :=
  p.reduce == q.reduce && p.opf == q.opf && q.pa == p.pa + 128 * p.lines && q.pa / 4096 == p.pa / 4096 &&
    (if p.reduce then
      decide (p.lines < 32) && decide (p.elems.length + p.draws.length + q.elems.length + q.draws.length ≤ 1024)
     else decide (p.lines < 8))

def Pack.join (p q : Pack) : Pack :=
  { p with lines := p.lines + 1, elems := p.elems ++ q.elems, draws := p.draws ++ q.draws }

/-- The channel's gathered lines leave where the line is one of them. -/
def flushFor (s : State) (c pa : Nat) : State :=
  match (chanAt s c).pack with
  | some p => if p.pa ≤ pa ∧ pa < p.pa + 128 * p.lines then flushPack s c else s
  | none => s

/-- A line goes into the frame that the channel gathers, or begins the next one. -/
def packLine (s : State) (c : Nat) (q : Pack) : State :=
  match (chanAt s c).pack with
  | some p =>
    if p.takes q then setChan s c (fun x => { x with pack := some (p.join q) })
    else setChan (flushPack s c) c (fun x => { x with pack := some q })
  | none => setChan s c (fun x => { x with pack := some q })

/-- R235, R421: a line of host memory is asked for; at the block's bound of outstanding requests it waits. -/
def readHost (s : State) (c ua a : Nat) (translated : Bool) (acc : Access) : State :=
  if !hostRoom s then stall s c .hostRead
  else
    let t := chargeLine s c 128
    let t := emit t (.hostRead t.hp.nextId (ctxAt s (chanAt s c).ctx).pasid a 128 translated Attr.read)
    stall (t.onHp (fun h =>
      { h with reads := h.reads ++ [{ id := h.nextId, who := .chan c, va := ua, len := 128, access := acc }],
               nextId := h.nextId + 1 })) c .hostRead

/-- R25, R51, R315: a read of one line by a channel; `acc` is how a fault record names it (R240), `ahead` the lines that the
instruction reads next, which a remote line's frame may take with it (R299). -/
def readLineAs (acc : Access) (s : State) (c ua : Nat) (ahead : List Nat := []) : State × LineEnd :=
  let ch := chanAt s c
  match Tab.look ch.rob ua with
  | some d => (s, .data d)
  | none =>
    if isSpad ua then
      match spadCheck s ch.hive ua with
      | some .rights => (refuseLine s c 0, .fail .rights)
      | some st => (s, .fail st)
      | none =>
        let n := uaCluster ua
        let off := ua % 2 ^ 57
        if spadLacks s n false then (stall s c (.line off), .held)
        else
          let t := showSpadRead (chargeLine s c 128) n off (levelOf s ch.label)
          match spadMeets s n off with
          | some st => (t, .fail st)
          | none => (t, .data (spadRead s n off 128))
    else
      let r := xlate s c ua .rd
      match r.2 with
      | .miss => (startWalk r.1 c ua acc, .held)
      | .hostRange => (r.1, .fail .range)
      | .host a tr => (readHost r.1 c ua a tr acc, .held)
      | .dev pa =>
        if paChip pa ≠ chipId s then
          if !remoteOk s ch.hive (paChip pa) then (refuseLine r.1 c pa, .fail .rights)
          else if !reachable s (paChip pa) then (r.1, .fail .link)
          else
            let u := flushPack r.1 c
            if lineBusy u c pa then (stall u c .remote, .held)
            else
              let n := readRun u c ua pa ahead
              let t := chargeLine u c (128 * n)
              let f := requestFrame t (paChip pa) 0xA ch.hive (levelOf s ch.label) pa ((n - 1) <<< 29) []
              (stall (openTxn t (paChip pa) f c (.read ua (128 * n)) n) c .remote, .held)
        else
          let pinned := pinnedBy s ch.q ch.idx ch.ctx ua .rd
          match combOfLine s ch.hive pinned (paLocal pa) with
          | some k =>
            let h := chanReq r.1 c k.keySel (paLocal pa) none
            if !(k.locRd || pinned) then (refuseLine r.1 c pa, .fail .rights)
            else if !lineGoes r.1 h then (stall (takePlace r.1 h) c (.line (paLocal pa)), .held)
            else
              let t := homeRead (chargeLine r.1 c 128) ch.hive k.keySel (paLocal pa) h.req.level
              (redeem t.1 (.channel c) (paLocal pa), if t.2.1 = .ok then .data t.2.2 else .fail t.2.1)
          | none => (refuseLine r.1 c pa, .fail .rights)

def readLine (s : State) (c ua : Nat) : State × LineEnd := readLineAs .read s c ua

/-- Runs of consecutive offsets: the first offset of each, with its bytes. -/
def byteRuns (bs : List (Nat × Byte)) : List (Nat × List Byte) :=
  bs.foldl (fun acc e =>
    match acc.reverse with
    | (o, l) :: r => if o + l.length = e.1 then (r.reverse ++ [(o, l ++ [e.2])]) else acc ++ [(e.1, [e.2])]
    | [] => [(e.1, [e.2])]) []

/-- The bytes of a write kind that a scratchpad or host line receives, by offset in the line. -/
def plainBytes : WriteKind → List (Nat × Byte)
  | .whole d => d.zipIdx.map (fun e => (e.2, e.1))
  | .partialWrite bs => bs
  | _ => []

/-- R300: the contributions to one line in the order a REDUCE frame carries them, rising in the line. -/
def risingElems (cs : List Contribution) : List Contribution :=
  (List.range 128).filterMap (fun i => cs.find? (fun e => e.off == i))

/-- R285: the bytes of an element in a REDUCE frame, its draw among them. -/
def elemBytes (sf rnd : Nat) : Nat := ((Fmt.ofNat? sf).map Fmt.size).getD 1 + (if rnd = 2 then 2 else 0)

/-- R285, R299: how many elements of a line a masked REDUCE takes beside its mask, within 1,024 bytes of payload. -/
def maskedMost (sf rnd : Nat) : Nat := (1024 - 16) / Nat.max 1 (elemBytes sf rnd)

/-- R285, R299: the elements of a line's REDUCE that its next masked frame carries, and whether any stay behind: a line whose
elements do not fit one frame goes in several, one after another (log 74). -/
def nextElems (sf rnd sent : Nat) (cs : List Contribution) : List Contribution × Bool :=
  let l := (risingElems cs).drop sent
  (l.take (maskedMost sf rnd), decide (maskedMost sf rnd < l.length))

/-- R299: the frame of a write-kind request to one remote line: WRITEP, a masked REDUCE, ATOM, or a WRITE. -/
def writeFrame (s : State) (c pa : Nat) (capping : Bool) (k : WriteKind) : Frame :=
  let ch := chanAt s c
  let dst := paChip pa
  let lv := levelOf s ch.label
  match k with
  | .whole d => requestFrame s dst 6 ch.hive lv pa 0 ((d ++ List.replicate 128 0).take 128)
  | .partialWrite bs =>
    let mask := bitmapOf (bs.map (·.1))
    requestFrame s dst 7 ch.hive lv pa (if capping then 2 ^ 31 else 0)
      (leBytes 16 mask ++ (writeApply k (List.replicate 128 0)).1)
  | .reduce op sf acc df rnd cs =>
    let n := ((Fmt.ofNat? sf).map Fmt.size).getD 1
    let dn := ((Fmt.ofNat? df).map Fmt.size).getD 1
    let es := (nextElems sf rnd ch.sent cs).1
    let body := leBytes 16 (bitmapOf (es.map (fun e => e.off / dn))) ++
      es.flatMap (fun e => leBytes n e.bits) ++ (if rnd = 2 then es.flatMap (fun e => leBytes 2 e.draw) else [])
    let o := match op with | .sum => 0 | .max => 1 | .min => 2
    requestFrame s dst 8 ch.hive lv pa (sf <<< 27 + acc <<< 22 + df <<< 17 + o <<< 15 + rnd <<< 13 + 1 <<< 12)
      (body ++ List.replicate ((16 - body.length % 16) % 16) 0)
  | .atomic op is64 sg off v cmp =>
    let o := match op with | .add => 0 | .max => 1 | .min => 2 | .xchg => 3 | .cas => 4
    requestFrame s dst 9 ch.hive lv (pa + off) (o <<< 29 + b2n is64 <<< 28 + b2n sg <<< 27) (leBytes 8 v ++ leBytes 8 cmp)

/-- R299: a write-kind request to a remote line that may share its frame: a whole line, or a REDUCE with every element of its
line present. -/
def asPack (pa : Nat) : WriteKind → Option Pack
  | .whole d =>
    some { pa := pa, lines := 1, reduce := false, opf := 0, elems := (d ++ List.replicate 128 0).take 128, draws := [] }
  | .reduce op sf acc df rnd cs =>
    let n := ((Fmt.ofNat? sf).map Fmt.size).getD 1
    let es := risingElems cs
    let o := match op with | .sum => 0 | .max => 1 | .min => 2
    if es.length = 128 / ((Fmt.ofNat? df).map Fmt.size).getD 1 ∧ es.length * elemBytes sf rnd ≤ 1024 then
      some { pa := pa, lines := 1, reduce := true, opf := sf <<< 27 + acc <<< 22 + df <<< 17 + o <<< 15 + rnd <<< 13
             elems := es.flatMap (fun e => leBytes n e.bits)
             draws := if rnd = 2 then es.flatMap (fun e => leBytes 2 e.draw) else [] }
    else none
  | _ => none

/-- What a write-kind request needs (R216) and is charged (R320). -/
def needOf : WriteKind → Need
  | .reduce _ _ _ _ _ _ => .atom
  | .atomic _ _ _ _ _ _ => .atom
  | _ => .wr
def chargeOf : WriteKind → Nat
  | .whole _ => 128
  | _ => 256

/-- R447: a scratchpad line that is written whole is no longer poisoned. -/
def spadMend (s : State) (n off : Nat) (k : WriteKind) : State :=
  match k with
  | .whole _ => s.onMv (fun m => { m with spadConds := Tab.del m.spadConds (n * 2 ^ 17 + off / 128) })
  | _ => s

/-- R299: whether elements of a line's REDUCE stay behind its next masked frame. -/
def staysBehind (sent : Nat) : WriteKind → Bool
  | .reduce _ sf _ _ rnd cs => (nextElems sf rnd sent cs).2
  | _ => false

/-- R51, R112, R299, R320: a write-kind request of a channel to one reachable remote line in frames of its own, once nothing of
the channel is outstanding on the line. It is charged once. -/
def putRemote (s : State) (c pa : Nat) (k : WriteKind) (capping : Bool) : State × LineEnd :=
  let ch := chanAt s c
  let u := flushPack s c
  if lineBusy u c pa then (stall u c .remote, .held)
  else
    let t := if ch.sent = 0 then chargeLine u c (chargeOf k) else u
    let isAtom := match k with | .atomic _ _ _ _ _ _ => true | _ => false
    let t := openTxn t (paChip pa) (writeFrame t c pa capping k) c (if isAtom then .atomic else .write pa)
    if staysBehind ch.sent k then
      (stall (setChan t c (fun x => { x with sent := match k with | .reduce _ sf _ _ rnd _ => x.sent + maskedMost sf rnd | _ => x.sent }))
        c .remote, .held)
    else (if isAtom then stall t c .remote else setChan t c (fun x => { x with sent := 0 }), .data [])

/-- R25, R51, R133, R299: a write-kind request of a channel to one line, which whole lines to come may join in its frame. The
data is an atomic's old value. `bulk`: bulk data to host memory (R256). -/
def putLine (s : State) (c ua : Nat) (k : WriteKind) (bulk capping : Bool) : State × LineEnd :=
  let ch := chanAt s c
  let need := needOf k
  if isSpad ua then
    match spadCheck s ch.hive ua with
    | some .rights => (refuseLine s c 0, .fail .rights)
    | some st => (s, .fail st)
    | none =>
      let n := uaCluster ua
      let off := ua % 2 ^ 57
      if spadLacks s n true then (stall s c (.line off), .held)
      else
        let t := showSpadWrite (chargeLine s c (chargeOf k)) n off (levelOf s ch.label) (plainBytes k)
        if spadMeets s n off = some .hwError then (t, .fail .hwError)
        else (spadWrite (spadMend t n off k) n ((plainBytes k).map (fun e => (off + e.1, e.2))), .data [])
  else
    let r := xlate s c ua need
    match r.2 with
    | .miss => (startWalk r.1 c ua (accessOf need), .held)
    | .hostRange => (r.1, .fail .range)
    | .host a tr =>
      let t := chargeLine r.1 c (chargeOf k)
      let t := (byteRuns (plainBytes k)).foldl (fun t e =>
        emit t (.hostWrite (ctxAt s ch.ctx).pasid (a + e.1) e.2 tr (if bulk then .bulk else .ordered))) t
      (setChan t c (fun x => { x with hostWritten := true }), .data [])
    | .dev pa =>
      if paChip pa ≠ chipId s then
        if !remoteOk s ch.hive (paChip pa) then (refuseLine r.1 c pa, .fail .rights)
        else if !reachable s (paChip pa) then (r.1, .fail .link)
        else
          match asPack pa k with
          | some q =>
            let u := flushFor r.1 c pa
            if lineBusy u c pa then (stall u c .remote, .held)
            else (packLine (chargeLine u c (chargeOf k)) c q, .data [])
          | none => putRemote r.1 c pa k capping
      else
        let pinned := pinnedBy s ch.q ch.idx ch.ctx ua need
        match combOfLine s ch.hive pinned (paLocal pa) with
        | some m =>
          let h := chanReq r.1 c m.keySel (paLocal pa) (some k)
          if !(m.permits need || pinned) then (refuseLine r.1 c pa, .fail .rights)
          else if !lineGoes r.1 h then (stall (takePlace r.1 h) c (.line (paLocal pa)), .held)
          else
            let t := homeWrite (chargeLine r.1 c (chargeOf k)) ch.hive m.keySel (paLocal pa) k h.req.level
            (redeem t.1 (.channel c) (paLocal pa), if t.2.1 = .ok then .data (leBytes 8 t.2.2) else .fail t.2.1)
        | none => (refuseLine r.1 c pa, .fail .rights)

/-- A write-kind request of a channel to one line, in a frame of its own. -/
def writeLine (s : State) (c ua : Nat) (k : WriteKind) (bulk capping : Bool) : State × LineEnd :=
  let r := putLine s c ua k bulk capping
  (flushPack r.1 c, r.2)

/-! ## An instruction over its lines -/

/-- The source bytes of an instruction: as they are `now`, as they stood before the instruction (`old`), which of the
two an element takes (R136, R177), and the elements already read, whose bytes `kept` holds. -/
structure Source where
  now : Nat → Byte
  old : Nat → Byte
  pick : Nat → Bool
  kept : Nat → Option (List Byte)

/-- The source bytes of element `i`, where the elements before it have left `earlier` in the line. -/
def Source.elem (x : Source) (i : Nat) (earlier : List (Nat × Byte)) (ua : Nat) : Byte :=
  if x.pick i then x.old ua
  else (((earlier.reverse.find? (fun e => e.1 == ua))).map (·.2)).getD (x.now ua)

/-- One destination line of an instruction: the source lines it needs, the line, the request that the source bytes
make, and the elements whose bytes go on in a line ahead (R177). -/
structure Piece where
  srcs : List Nat
  dst : Nat
  kind : Source → WriteKind
  parts : Source → List (Nat × List Byte) := fun _ => []

/-- A source line, which the channel keeps: it is issued once (R117, R130). -/
def takeLine (s : State) (c l : Nat) (ahead : List Nat) : State × LineEnd :=
  match readLineAs .read s c l ahead with
  | (t, .data d) => (setChan t c (fun x => { x with rob := Tab.put x.rob l d }), .data d)
  | r => r

/-- The source lines of a piece, read in order, with the lines that the pieces after it read. -/
def readLines (s : State) (c : Nat) (later : List Nat) :
    List Nat → List (Nat × List Byte) → State × Except LineEnd (List (Nat × List Byte))
  | [], acc => (s, .ok acc)
  | l :: r, acc =>
    match takeLine s c l (r ++ later) with
    | (t, .data d) => readLines t c later r (Tab.put acc l d)
    | (t, e) => (t, .error e)

/-- A byte of the lines read. -/
def byteOf (ls : List (Nat × List Byte)) (ua : Nat) : Byte :=
  nth ((Tab.look ls (lineOf ua)).getD []) (ua - lineOf ua) 0

/-- R136, R177: whether the source lines of a piece overlap what the instruction writes. -/
def overlaps (s : State) (c : Nat) (p : Piece) : Bool :=
  p.srcs.any (fun l => l == p.dst || (Tab.look (chanAt s c).before l).isSome)

/-- The source of a piece whose lines have been read. -/
def sourceOf (s : State) (c : Nat) (p : Piece) (ls : List (Nat × List Byte)) : Source :=
  { now := byteOf ls
    old := byteOf (ls.map (fun e => (e.1, (Tab.look (chanAt s c).before e.1).getD e.2)))
    pick := fun i => overlaps s c p && (match (chanAt s c).pickDraw with | some d => Config.overlapOld d i | none => false)
    kept := Tab.look (chanAt s c).parts }

/-- R136, R177: the instruction draws which source its overlapping elements take, once. -/
def drawPick (s : State) (c : Nat) (p : Piece) : State :=
  if overlaps s c p && (chanAt s c).pickDraw.isNone then
    { setChan s c (fun x => { x with pickDraw := some s.free }) with free := s.free + 1 }
  else s

/-- A line that the channel keeps changes with what the instruction itself writes to it (R136). -/
def noteWrite (s : State) (c line : Nat) (k : WriteKind) : State :=
  match Tab.look (chanAt s c).rob line with
  | some d => setChan s c (fun x => { x with rob := Tab.put x.rob line (writeApply k d).1 })
  | none => s

/-- One piece: its source lines, then its destination line; `later`: the lines that the pieces after it read. -/
def runPiece (s : State) (c : Nat) (p : Piece) (later : List Nat) : State × LineEnd :=
  match readLines s c later p.srcs [] with
  | (t, .ok ls) =>
    let t := drawPick t c p
    let x := sourceOf t c p ls
    match putLine t c p.dst (p.kind x) true false with
    | (u, .data d) =>
      (setChan (noteWrite u c p.dst (p.kind x)) c (fun y => { y with parts := p.parts x ++ y.parts }), .data d)
    | r => r
  | (t, .error e) => (t, e)

/-- R136, R177: a line that later pieces read is kept as it stands before its first write. -/
def keepBefore (s : State) (c line : Nat) (later : List Piece) : State :=
  if later.any (fun p => p.srcs.contains line) && (Tab.look (chanAt s c).before line).isNone then
    match readLine s c line with
    | (_, .data d) => setChan s c (fun x => { x with before := Tab.put x.before line d })
    | _ => s
  else s

/-- Whether the channel has remote transactions outstanding. -/
def remoteBusy (s : State) (c : Nat) : Bool := s.sw.txns.any (fun t => t.chan == c)

/-- R9, R114, R119: the instruction ends once nothing it issued is outstanding, with the failure that came first; while
it waits, a failure of its own is kept and a line that fails later may still end it. -/
def finish (s : State) (c : Nat) (st : Status) : State :=
  if remoteBusy s c then
    setChan (stall s c .remote) c (fun x =>
      { x with lineStatus := if st ≠ .ok ∧ x.lineStatus.isNone then some st else x.lineStatus })
  else retire (dropForager s c) c ((chanAt s c).lineStatus.getD st)

/-- R229: the lines of the next 4,096 requests that the pieces ahead make, a source line once and not where the channel keeps
it, in device memory. -/
def linesAhead (kept : List Nat) (ps : List Piece) : List Nat :=
  let reqs := ((ps.take 4096).flatMap (fun p => p.srcs.map (fun l => (l, false)) ++ [(p.dst, true)])).filter (fun e =>
    e.2 || !kept.contains e.1)
  ((reqs.eraseDups.take 4096).map (·.1)).filter (fun l => !isSpad l)

/-- A piece is done: the channel keeps the lines that later pieces read, and those in `keep`. -/
def pieceDone (s : State) (c : Nat) (keep : List Nat) (later : List Piece) : State :=
  setChan s c (fun x =>
    { x with
      prog := x.prog + 1
      rob := x.rob.filter (fun e => keep.contains e.1 || later.any (fun p => p.srcs.contains e.1)) })

/-- R116, R117, R132: the pieces of an instruction from its progress on: `some` its end, none while it is held. -/
def runPieces (s : State) (c : Nat) (keep : List Nat) : List Piece → State × Option Status
  | [] => (s, some .ok)
  | p :: r =>
    match runPiece (keepBefore s c p.dst r) c p (r.flatMap (·.srcs)) with
    | (t, .data _) => runPieces (pieceDone t c keep r) c keep r
    | (t, .held) => (t, none)
    | (t, .fail st) => (t, some st)

/-- R114: a memory instruction over its pieces. -/
def runPlan (s : State) (c : Nat) (ps : List Piece) : State :=
  match (chanAt s c).lineStatus with
  | some st => finish s c st
  | none =>
    match runPieces s c [] (ps.drop (chanAt s c).prog) with
    | (t, some st) => finish (flushPack t c) c st
    | (t, none) =>
      forageLines (flushPack t c) c (linesAhead ((chanAt t c).rob.map (·.1)) (ps.drop (chanAt t c).prog))

/-- A memory instruction whose operands are checked first. -/
def memInstr (s : State) (c : Nat) (plan : Except Status (List Piece)) : State :=
  match plan with
  | .error st => retire s c st
  | .ok ps => runPlan s c ps

/-! ## From bytes to pieces -/

/-- What an instruction writes at an address: `len` bytes that the source bytes of `srcs` make. -/
structure Item where
  addr : Nat
  len : Nat
  srcs : List Nat
  val : (Nat → Byte) → List Byte

/-- The distinct elements of a list, in order of first occurrence. -/
def distinct (l : List Nat) : List Nat := l.foldl (fun a x => if a.contains x then a else a ++ [x]) []

/-- An address moved up, within its own space: 2^57 addresses of device memory (R208), or one scratchpad. -/
def uaAdd (a k : Nat) : Nat := a / 2 ^ 57 * 2 ^ 57 + (a % 2 ^ 57 + k) % 2 ^ 57

/-- The lines that `len` bytes from an address touch. -/
def linesOf (a len : Nat) : List Nat :=
  if len = 0 then []
  else (List.range ((a + len - 1) / 128 - a / 128 + 1)).map (fun i => uaAdd (lineOf a) (128 * i))

/-- The bytes `v` of an item that fall in a line, by offset, in order. -/
def itemBytes (line : Nat) (v : List Byte) (it : Item) : List (Nat × Byte) :=
  v.zipIdx.filterMap (fun e =>
    let a := uaAdd it.addr e.2
    if lineOf a = line then some (a - line, e.1) else none)

/-- R133: a line all of whose bytes are written is a whole-line write, else a merged one. -/
def asWrite (bs : List (Nat × Byte)) : WriteKind :=
  if (List.range 128).all (fun i => bs.any (fun e => e.1 == i)) then
    .whole (writeApply (.partialWrite bs) []).1
  else .partialWrite bs

/-- The bytes of item `i`: those already made of it, or those its source makes now. -/
def Source.value (x : Source) (i : Nat) (it : Item) (earlier : List (Nat × Byte)) : List Byte :=
  (x.kept i).getD (it.val (x.elem i earlier))

/-- The bytes that items, numbered in element order, leave in a line, and those of the items that go on in another. -/
def fillLine (line : Nat) (own : Bool) (x : Source) (mine : List (Item × Nat)) :
    List (Nat × Byte) × List (Nat × List Byte) :=
  mine.foldl (fun a e =>
    let v := x.value e.2 e.1 (if own then a.1.map (fun b => (line + b.1, b.2)) else [])
    (a.1 ++ itemBytes line v e.1, if 1 < (linesOf e.1.addr e.1.len).length then a.2 ++ [(e.2, v)] else a.2)) ([], [])

/-- R130: items grouped by destination line, each line once, in order of first occurrence. -/
def groupItems (its : List Item) : List Piece :=
  (distinct (its.flatMap (fun i => linesOf i.addr i.len))).map (fun line =>
    let mine := its.zipIdx.filter (fun e => (linesOf e.1.addr e.1.len).contains line)
    let srcs := distinct (mine.flatMap (fun e => e.1.srcs))
    { srcs := srcs, dst := line,
      kind := fun x => asWrite (fillLine line (srcs.contains line) x mine).1
      parts := fun x => (fillLine line (srcs.contains line) x mine).2 })

/-- A copy of `len` bytes between two addresses. -/
def copyItem (src dst len : Nat) : Item :=
  { addr := dst, len := len, srcs := linesOf src len,
    val := fun rd => (List.range len).map (fun i => rd (uaAdd src i)) }

/-- The parts of a span of `len` bytes from `a` that its lines hold, rising: offset in the span, and length. -/
def spanParts (a len : Nat) : List (Nat × Nat) :=
  if len = 0 then []
  else
    (List.range ((a + len - 1) / 128 - a / 128 + 1)).map (fun i =>
      let lo := 128 * i - a % 128
      (lo, Nat.min len (128 * (i + 1) - a % 128) - lo))

/-- R135: a copy of a span as one piece for each destination line, in rising address order. -/
def copySpan (src dst len : Nat) : List Piece :=
  (spanParts dst len).map (fun p =>
    let d := uaAdd dst p.1
    let x := uaAdd src p.1
    { srcs := linesOf x p.2, dst := lineOf d,
      kind := fun y => asWrite ((List.range p.2).map (fun i => (d % 128 + i, y.now (uaAdd x i)))) })

end Sys2Proof.Machine
end

