-- ==== Sys2Proof/Machine/Tiles.lean ====
section
/-! DEFINITION. Tiles (R102, R130, R164, R169) and what the tile instructions make of their elements (R136, R139, R141
to R144, R167 to R180): the writes of each destination line, and the contributions of each reduce. -/

namespace Sys2Proof.Machine

/-- A tile whose descriptor has passed the checks. -/
structure Tile where
  fmt : Fmt
  spad : Bool
  cluster : Nat
  base : Nat
  ext : List Nat
  stride : List Int

/-- R102, R164, R169: the checks at the use of a tile; `pair` where a tile of format 14 is accepted. -/
def Tile.ofWords (t : List Word) (pair : Bool) : Except Status Tile :=
  let w (i : Nat) : Nat := (nth t i 0).toNat
  let spad := fld (w 0) 57 2 == 1
  let ext := [fld (w 1) 48 16 + 1, fld (w 1) 36 12 + 1, fld (w 1) 24 12 + 1, fld (w 1) 12 12 + 1, fld (w 1) 0 12 + 1]
  let str := [sext 32 (fld (w 2) 0 32), sext 32 (fld (w 2) 32 32), sext 32 (fld (w 3) 0 32), sext 32 (fld (w 3) 32 32)]
  match Fmt.ofNat? (fld (w 0) 59 5) with
  | none => .error .range
  | some f =>
    let al : Int := f.align
    let badStride := (List.range 4).any (fun k => decide (1 < nth ext (k + 1) 1) && nth str k 0 % al != 0)
    if 2 ≤ fld (w 0) 57 2 ∨ !bit Config.fmtIo (fld (w 0) 59 5) ∨ (f == .fp32x2 && !pair) ∨
        fld (w 0) 0 57 % f.align ≠ 0 ∨ badStride ∨ (f.block && nth ext 0 1 % Config.blockElems != 0) ∨
        (spad && (bit (w 0) 56 || fld (w 0) 24 24 != 0)) then .error .range
    else
      .ok { fmt := f, spad := spad, cluster := if spad then fld (w 0) 48 8 else 0,
            base := if spad then fld (w 0) 0 24 else fld (w 0) 0 57, ext := ext, stride := str }

/-- R130: the address of the element at an index; of its block, in a block format. -/
def Tile.addr (t : Tile) (ix : List Nat) : Nat :=
  let i0 := nth ix 0 0
  let off0 := if t.fmt.block then i0 / 32 * t.fmt.size else i0 * t.fmt.size
  let d : Int := (List.range 4).foldl (fun a k => a + ((nth ix (k + 1) 0 : Nat) : Int) * nth t.stride k 0) (off0 : Int)
  let a := addVa t.base d
  if t.spad then spadUa t.cluster a else a

/-- The indices of an extent list in element order: dimension 0 fastest. -/
def indices : List Nat → List (List Nat)
  | [] => [[]]
  | e :: r => (indices r).flatMap (fun rest => (List.range e).map (fun i => i :: rest))

/-- The elements of a tile in element order: the address of the element or of its block, and its place in the block. -/
def Tile.elems (t : Tile) : List (Nat × Nat) :=
  (indices t.ext).map (fun ix => (t.addr ix, if t.fmt.block then nth ix 0 0 % 32 else 0))

/-- The stored units of a tile in element order: its elements, or its blocks in a block format. -/
def Tile.units (t : Tile) : List Nat := (t.elems.filter (fun e => e.2 == 0)).map (·.1)

/-- The bytes of a stored unit. -/
def unitBits (rd : Nat → Byte) (f : Fmt) (a : Nat) : Nat := leNat ((List.range f.size).map (fun i => rd (uaAdd a i)))

/-- R170: the exact value of a source element. -/
def elemVal (rd : Nat → Byte) (f : Fmt) (e : Nat × Nat) : Val :=
  if f.block then nth (blockVals f (unitBits rd f e.1)) e.2 .nan else f.decode (unitBits rd f e.1)

/-- A list cut into groups of 32. -/
def groups32 {α : Type} (l : List α) : List (List α) :=
  (List.range (l.length / 32)).map (fun i => (l.drop (32 * i)).take 32)

/-! ## Copies, fills, conversions -/

/-- R136: the indices of the source element that goes to a destination index. -/
def crossed (tr : Bool) (ix : List Nat) : List Nat := if tr then nth ix 1 0 :: nth ix 0 0 :: ix.drop 2 else ix

/-- R136: `MOVE.T`. -/
def moveTPlan (d s : Tile) (tr : Bool) : Except Status (List Piece) :=
  if d.fmt ≠ s.fmt ∨ d.ext ≠ crossed tr s.ext ∨ (tr && s.fmt.block) then .error .range
  else
    .ok (groupItems (((indices d.ext).filter (fun ix => !d.fmt.block || nth ix 0 0 % 32 == 0)).map (fun ix =>
      copyItem (s.addr (crossed tr ix)) (d.addr ix) d.fmt.size)))

/-- R139: `FILL` of a tile. -/
def fillTilePlan (t : Tile) (v : Nat) : Except Status (List Piece) :=
  if t.fmt.block && v != 0 then .error .range
  else
    .ok (groupItems (t.units.map (fun a =>
      { addr := a, len := t.fmt.size, srcs := [], val := fun _ => leBytes t.fmt.size v })))

/-- R139: `FILL` of a span. -/
def fillSpanPlan (a len v : Nat) : Except Status (List Piece) :=
  if 2 ^ 40 < len then .error .range
  else
    .ok ((spanParts a len).map (fun p =>
      let d := uaAdd a p.1
      { srcs := [], dst := lineOf d,
        kind := fun _ => asWrite ((List.range p.2).map (fun i =>
          (d % 128 + i, BitVec.ofNat 8 (v >>> (8 * ((p.1 + i) % 8)))))) }))

/-- R144, R172: a draw for each destination element. -/
def elemDraws (rnd n : Nat) (seed : Word) : List Nat := if rnd = 2 then draws n seed else List.replicate n 0

/-- R143: `CONVERT`; a block destination takes its scale from its 32 source elements. -/
def convertPlan (d s : Tile) (rnd : Nat) (seed : Word) : Except Status (List Piece) :=
  match Rnd.ofNat? rnd with
  | none => .error .range
  | some m =>
    if d.ext ≠ s.ext then .error .range
    else
      let n := d.elems.length
      let srcs := s.elems.zip (elemDraws rnd n seed)
      let need (e : Nat × Nat) : List Nat := linesOf e.1 s.fmt.size
      if d.fmt.block then
        .ok (groupItems ((d.units.zip (groups32 srcs)).map (fun u =>
          { addr := u.1, len := d.fmt.size, srcs := distinct (u.2.flatMap (fun e => need e.1)),
            val := fun rd =>
              leBytes d.fmt.size (encodeBlock d.fmt m (u.2.map (fun e => (elemVal rd s.fmt e.1, e.2)))) })))
      else
        .ok (groupItems ((d.units.zip srcs).map (fun u =>
          { addr := u.1, len := d.fmt.size, srcs := need u.2.1,
            val := fun rd => leBytes d.fmt.size (d.fmt.encode m u.2.2 (elemVal rd s.fmt u.2.1)) })))

/-! ## Combines -/

/-- One contribution to a destination element: its place in element order, the source lines it needs, and its bits in the
format it travels in. -/
structure Contrib where
  idx : Nat
  addr : Nat
  srcs : List Nat
  draw : Nat
  bits : (Nat → Byte) → Nat

/-- A list of contributions cut so that no part names one destination twice; `fuel` bounds the parts. -/
def layers : Nat → List Contrib → List (List Contrib)
  | 0, l => [l]
  | n + 1, l =>
    let r := l.foldl (fun (acc : List Contrib × List Contrib) c =>
      if acc.1.any (fun x => x.addr == c.addr) then (acc.1, acc.2 ++ [c]) else (acc.1 ++ [c], acc.2)) ([], [])
    if r.2.isEmpty then [r.1] else r.1 :: layers n r.2

/-- R142, R162: the contributions to each destination line, one request for each line (for each repetition of an
element in it). -/
def reducePieces (op : RedOp) (sf acc df rnd : Nat) (cs : List Contrib) : List Piece :=
  (distinct (cs.map (fun c => lineOf c.addr))).flatMap (fun line =>
    let mine := cs.filter (fun c => lineOf c.addr == line)
    (layers mine.length mine).map (fun l =>
      { srcs := distinct (l.flatMap (·.srcs)), dst := line,
        kind := fun x =>
          .reduce op sf acc df rnd (l.map (fun e =>
            { off := e.addr - line, bits := e.bits (x.elem e.idx []), draw := e.draw })) }))

/-- R140 `op`. -/
def redOp : Nat → RedOp
  | 0 => .sum
  | 1 => .max
  | _ => .min

/-- R141, R142: `REDUCE` (`cvt` false) and `REDUCE.CVT`. Scalar source elements travel in their own format, block
elements expanded to the accumulation format (R162). -/
def reducePlan (cvt : Bool) (d s : Tile) (op accN rnd : Nat) (seed : Word) : Except Status (List Piece) :=
  match Fmt.ofNat? accN with
  | none => .error .range
  | some acc =>
    if !bit Config.fmtAccum accN || !bit Config.rounding rnd || d.spad || d.ext != s.ext ||
        (if cvt then d.fmt.block else d.fmt != acc) then .error .range
    else
      let n := d.elems.length
      let fmtN (t : Fmt) : Nat := ((List.range 15).find? (fun k => Fmt.ofNat? k == some t)).getD 0
      let sf := if s.fmt.block then accN else fmtN s.fmt
      .ok (reducePieces (redOp op) sf accN (fmtN d.fmt) rnd
        (((d.units.zip (s.elems.zip (elemDraws rnd n seed))).zipIdx).map (fun (u, i) =>
          { idx := i, addr := u.1, srcs := linesOf u.2.1.1 s.fmt.size, draw := u.2.2,
            bits := fun rd =>
              if s.fmt.block then acc.encode .nearest 0 (elemVal rd s.fmt u.2.1)
              else unitBits rd s.fmt u.2.1.1 })))

/-- R138, R176: one row of a summing `SCATTER`: 4-byte FP32 or 2-byte BF16 elements. -/
def scatterSum (bf16 : Bool) (dense table row : Nat) : List Piece :=
  let w := if bf16 then 2 else 4
  let f := if bf16 then 1 else 0
  reducePieces .sum f 0 f 0 ((List.range (row / w)).map (fun j =>
    { idx := j, addr := uaAdd table (j * w), srcs := linesOf (uaAdd dense (j * w)) w, draw := 0,
      bits := fun rd => leNat ((List.range w).map (fun i => rd (uaAdd dense (j * w + i)))) }))

end Sys2Proof.Machine
end

