-- ==== Sys2Proof/Machine/Launch.lean ====
section
/-! DEFINITION. `LAUNCH` at the hive engine (R156 to R160): eligibility, the queue of each hive, the launch record and
the kernel start. -/

namespace Sys2Proof.Machine

/-- R157: the clusters that a launch of a hive may reserve. -/
def eligible (s : State) (h : Nat) : List Nat :=
  (clustersOf s h (fun st => st == .assigned)).filter (fun n => (clusterAt s n).kernel.isNone)

/-- R157: the failure of a request at its start or at a change of a cluster: ANY with too few ASSIGNED clusters, LIST
empty or with a cluster that is not ASSIGNED. -/
def LaunchReq.failure (s : State) (h : Nat) (r : LaunchReq) : Option Status :=
  let mine := clustersOf s h (fun st => st == .assigned)
  match r.any with
  | some n => if mine.length < n then some .range else none
  | none =>
    if r.list = [] then some .range
    else if r.list.all (fun n => mine.contains n) then none
    else some .rights

/-- R157: the clusters that a request would reserve now. -/
def LaunchReq.pick (s : State) (h : Nat) (r : LaunchReq) : Option (List Nat) :=
  let e := eligible s h
  match r.any with
  | some n => if n ≤ e.length then some (e.take n) else none
  | none => if r.list.all (fun n => e.contains n) then some r.list else none

/-- The operands of a launch: entry word, argument, record address and exit register. -/
def launchArgs (ch : Channel) : Word × Word × Nat × Nat :=
  match ch.op with
  | .launchAny _ ge ga gr gx => (ch.greg ge, ch.greg ga, (ch.greg gr).toNat % 2 ^ 57, gx)
  | .launchList _ ge ga gr gx => (ch.greg ge, ch.greg ga, (ch.greg gr).toNat % 2 ^ 57, gx)
  | .launchQuery gr => (0, 0, (ch.greg gr).toNat % 2 ^ 57, 0)
  | _ => (0, 0, 0, 0)

/-- R159: a launch record. -/
def launchRecord (cl : List Nat) (seq : Nat) : List Byte :=
  let bm := bitmapOf cl
  bytesOf [fld bm 0 64, fld bm 64 64, fld bm 128 64, fld bm 192 64, seq <<< 32 + cl.length, 0, 0, 0]

/-- R158 step 2: the record as one write, of which `prog` says that it has been issued. -/
def writeLaunchRecord (s : State) (c : Nat) (cl : List Nat) (seq : Nat) : State × LineEnd :=
  let gr := (launchArgs (chanAt s c)).2.2.1
  let line := lineOf gr
  match writeLine s c line (.partialWrite ((launchRecord cl seq).zipIdx.map (fun e => (gr - line + e.2, e.1)))) false
      false with
  | (t, .data d) => (setChan t c (fun x => { x with prog := 1 }), .data d)
  | r => r

/-- R158 step 3, R451: the kernel starts, ranks rising with the cluster number, with the count less one and the record's
number. -/
def startKernels (s : State) (c : Nat) : State :=
  let ch := chanAt s c
  let a := launchArgs ch
  holdChan ((ch.kernels.zipIdx).foldl (fun t n =>
    emit t (.kernelStart n.1 a.1.toNat a.2.1.toNat n.2 (ch.kernels.length - 1) ch.launchSeq)) s) c .kernel

/-- R159: the record that has been issued takes the hive's next number. -/
def takeSeq (s : State) (c : Nat) : State :=
  let h := (chanAt s c).hive
  setHive (setChan s c (fun x => { x with launchSeq := (hiveAt s h).launchSeq })) h (fun x =>
    { x with launchSeq := (x.launchSeq + 1) % 2 ^ 32 })

/-- A launch that holds its reservation: the record, once its write has been acknowledged the start. -/
def launchGo (s : State) (c : Nat) : State :=
  let ch := chanAt s c
  match ch.lineStatus with
  | some st => if remoteBusy s c then stall s c .remote else retire (releaseClusters s c) c st
  | none =>
    if ch.prog = 0 then
      match writeLaunchRecord s c ch.kernels (hiveAt s ch.hive).launchSeq with
      | (t, .held) => t
      | (t, .fail st) => retire (releaseClusters t c) c st
      | (t, .data _) =>
        let t := takeSeq t c
        if remoteBusy t c then stall t c .remote else startKernels t c
    else if remoteBusy s c then stall s c .remote
    else startKernels s c

/-- R157: clusters are reserved for a channel. -/
def reserve (s : State) (c : Nat) (cl : List Nat) : State :=
  setChan (cl.foldl (fun t n => setCluster t n (fun x => { x with kernel := some c })) s) c
    (fun x => { x with kernels := cl, state := .running, hold := .none })

/-- R157: a launch reaches the hive engine: it fails, is served, or waits in its hive's order. -/
def launchRequest (s : State) (c : Nat) (r : LaunchReq) : State :=
  let ch := chanAt s c
  match r.failure s ch.hive with
  | some st => retire s c st
  | none =>
    match (hiveAt s ch.hive).launchQ, r.pick s ch.hive with
    | [], some cl => launchGo (reserve s c cl) c
    | _, _ => holdChan (setHive s ch.hive (fun h => { h with launchQ := h.launchQ ++ [r] })) c .launchQueued

/-- R157: after a change of a cluster of a hive, the waiting requests that now fail end. -/
def recheckLaunches (s : State) (h : Nat) : State :=
  (hiveAt s h).launchQ.foldl (fun t r =>
    match r.failure t h with
    | some st =>
      retire (setHive t h (fun x => { x with launchQ := x.launchQ.filter (fun y => y.chan != r.chan) })) r.chan st
    | none => t) s

/-- R157: the first waiting request of a hive is served. -/
def serveLaunch (s : State) (h : Nat) : Option State :=
  match (hiveAt s h).launchQ with
  | [] => none
  | r :: rest =>
    match r.pick s h with
    | none => none
    | some cl => some (launchGo (reserve (setHive s h (fun x => { x with launchQ := rest })) r.chan cl) r.chan)

end Sys2Proof.Machine
end

