-- ==== Sys2Proof/Machine/Tenant.lean ====
section
/-! DEFINITION. The tenant instructions (R106, R134 to R158): one meaning for each row, run by a channel whose current
instruction it is. -/

namespace Sys2Proof.Machine

/-- A `g` register is written and the instruction ends OK. -/
def retireG (s : State) (c r : Nat) (v : Word) : State := retire (setChan s c (fun x => x.setG r v)) c .ok

/-- A memory instruction over two tiles whose descriptors pass. -/
def twoTiles (s : State) (c td ts : Nat) (pairD pairS : Bool) (plan : Tile → Tile → Except Status (List Piece)) :
    State :=
  let ch := chanAt s c
  match Tile.ofWords (ch.treg td) pairD, Tile.ofWords (ch.treg ts) pairS with
  | .ok d, .ok t => memInstr s c (plan d t)
  | _, _ => retire s c .range

/-! ## Control -/

/-- R105, R106: `RET`: the end of the command at depth 0 (R115), else the word after the `CALL`. -/
def execRet (c : Nat) (s : State) : Host.Outcome State Fault Refusal :=
  runInstr s c (fun o => match o with | .ret => true | _ => false) (fun _ =>
    let ch := chanAt s c
    match ch.stack with
    | [] => setChan s c (fun x => { x.fresh with state := .ending, retired := true, endStatus := .ok, endDepth := 0, endWord := x.pc })
    | f :: r => setChan s c (fun x => { x.goto f.pc with stack := r, code := f.code, base := f.base }))

/-- R154: `LOOP`. -/
def execLoop (c : Nat) (s : State) : Host.Outcome State Fault Refusal :=
  runInstr s c (fun o => match o with | .loop _ _ => true | _ => false) (fun o =>
    match o with
    | .loop gc target =>
      let v := (chanAt s c).greg gc
      if 1 < v.toNat then retireTo (setChan s c (fun x => x.setG gc (v - 1))) c target else retireG s c gc 0
    | _ => s)

/-- R154: `BR`. -/
def execBr (c : Nat) (s : State) : Host.Outcome State Fault Refusal :=
  runInstr s c (fun o => match o with | .br _ => true | _ => false) (fun o =>
    match o with
    | .br target => retireTo s c target
    | _ => s)

/-- R155: the comparison of `SETP`. -/
def setpResult (ch : Channel) (cmp ga : Nat) (b : Sum Int Nat) (imm : Nat) : Bool :=
  let x := ch.greg ga
  let y := match b with | .inl i => word i | .inr r => ch.greg r
  match cmp with
  | 0 => x == y
  | 1 => x != y
  | 2 => decide (x.toNat < y.toNat)
  | 3 => decide (y.toNat ≤ x.toNat)
  | 4 => decide (x.toInt < y.toInt)
  | 5 => decide (y.toInt ≤ x.toInt)
  | 6 => ch.st.code == imm
  | _ => ch.st.code != imm

/-- R155: `SETP`. -/
def execSetp (c : Nat) (s : State) : Host.Outcome State Fault Refusal :=
  runInstr s c (fun o => match o with | .setp _ _ _ _ _ => true | _ => false) (fun o =>
    match o with
    | .setp pd cmp ga b imm => retire (setChan s c (fun x => x.setP pd (setpResult x cmp ga b imm))) c .ok
    | _ => s)

/-- R154: the address of a load or store. -/
def dataAddr (ch : Channel) (ga : Nat) (off : Int) : Nat := addVa (ch.greg ga).toNat off

/-- R154: `LD.G`. -/
def execLdG (c : Nat) (s : State) : Host.Outcome State Fault Refusal :=
  runInstr s c (fun o => match o with | .ldG _ _ _ _ => true | _ => false) (fun o =>
    match o with
    | .ldG dt d ga off =>
      let ch := chanAt s c
      let a := dataAddr ch ga off
      if a % (if dt then 32 else 8) ≠ 0 then retire s c .range
      else
        match ch.lineStatus with
        | some st => finish s c st
        | none =>
          match readLine s c (lineOf a) with
          | (t, .held) => t
          | (t, .fail st) => finish t c st
          | (t, .data l) =>
            let b := l.drop (a - lineOf a)
            if dt then retire (setChan t c (fun x => x.setT d (wordsOf 4 b))) c .ok
            else retireG t c d (BitVec.ofNat 64 (leNat (b.take 8)))
    | _ => s)

/-- A write of 8 bytes inside one line. -/
def word8 (a : Nat) (v : Word) : WriteKind :=
  .partialWrite ((leBytes 8 v.toNat).zipIdx.map (fun e => (a - lineOf a + e.2, e.1)))

/-- A write instruction of one line, `prog` saying that the line has been issued. -/
def oneWrite (s : State) (c line : Nat) (k : WriteKind) (capping : Bool) : State :=
  let ch := chanAt s c
  match ch.lineStatus with
  | some st => finish s c st
  | none =>
    if ch.prog = 0 then
      match writeLine s c line k false capping with
      | (t, .held) => t
      | (t, .fail st) => finish t c st
      | (t, .data _) => finish (setChan t c (fun x => { x with prog := 1 })) c .ok
    else finish s c .ok

/-- R154: `ST.G`. -/
def execStG (c : Nat) (s : State) : Host.Outcome State Fault Refusal :=
  runInstr s c (fun o => match o with | .stG _ _ _ => true | _ => false) (fun o =>
    match o with
    | .stG gs ga off =>
      let ch := chanAt s c
      let a := dataAddr ch ga off
      if a % 8 ≠ 0 then retire s c .range else oneWrite s c (lineOf a) (word8 a (ch.greg gs)) false
    | _ => s)

/-- R106: the channel enters an object at the next depth. -/
def enterObject (s : State) (c va : Nat) (words : List Word) : State :=
  setChan s c (fun x =>
    { x.goto 0 with
      stack := { code := x.code, base := x.base, pc := x.nextPc } :: x.stack
      code := words, base := va
      objects := if x.objects.any (fun o => o.1 == va) then x.objects else x.objects ++ [(va, words)]
      st := if zTry x.word then .ok else x.st })

/-- R107, R128: an object's words are decoded before any of them runs. -/
def decodeObject (s : State) (c va : Nat) (words : List Word) : State :=
  match firstBad false ((chanAt s c).q == 0) words with
  | some (_, st) => retire s c st
  | none => enterObject s c va words

/-- R107: the lines of an object, the second only where the first calls for it. -/
def fetchObject (s : State) (c va : Nat) : State :=
  match readLineAs .object s c va with
  | (t, .held) => t
  | (t, .fail st) => finish t c st
  | (t, .data l1) =>
    let w1 := wordsOf 16 l1
    if needsLine2 w1 then
      match readLineAs .object (setChan t c (fun x => { x with rob := Tab.put x.rob va l1 })) c (uaAdd va 128) with
      | (u, .held) => u
      | (u, .fail st) => finish u c st
      | (u, .data l2) => decodeObject u c va (w1 ++ wordsOf 16 l2)
    else decodeObject t c va w1

/-- R106, R107: `CALL`. -/
def execCall (c : Nat) (s : State) : Host.Outcome State Fault Refusal :=
  runInstr s c (fun o => match o with | .call _ => true | _ => false) (fun o =>
    match o with
    | .call t =>
      let ch := chanAt s c
      let va := ch.src t % 2 ^ 57
      if va % 256 ≠ 0 ∨ 4 ≤ ch.stack.length then retire s c .range
      else
        match ch.objects.find? (fun e => e.1 == va), ch.lineStatus with
        | some e, _ => enterObject s c va e.2
        | none, some st => finish s c st
        | none, none => fetchObject s c va
    | _ => s)

/-! ## Movement -/

/-- R135: `MOVE` SPAN. -/
def execMoveSpan (c : Nat) (s : State) : Host.Outcome State Fault Refusal :=
  runInstr s c (fun o => match o with | .span _ _ _ => true | _ => false) (fun o =>
    match o with
    | .span d x l =>
      let ch := chanAt s c
      let dst := ch.src d % 2 ^ 57
      let src := ch.src x % 2 ^ 57
      let len := ch.src l
      if len = 0 then retire s c .ok
      else if 2 ^ 40 < len ∨ (dst + 2 ^ 57 - src) % 2 ^ 57 < len ∨ (src + 2 ^ 57 - dst) % 2 ^ 57 < len then
        retire s c .range
      else runPlan s c (copySpan src dst len)
    | _ => s)

/-- R134: the register operation that `rop` selects, modulo 2^64. -/
def gsetResult (ch : Channel) (rop ga gb : Nat) (imm : Int) (ext : Option Nat) : Word :=
  let a := ch.greg ga
  let b := ch.greg gb
  let sh := (imm % 64).toNat
  match rop with
  | 0 => match ext with | some v => BitVec.ofNat 64 v | none => word imm
  | 1 => a + word imm
  | 2 => a + b
  | 3 => a - b
  | 4 => a <<< sh
  | 5 => a >>> sh
  | 6 => a &&& b
  | _ => a * word imm

/-- R134: `MOVE` GSET. -/
def execMoveGset (c : Nat) (s : State) : Host.Outcome State Fault Refusal :=
  runInstr s c (fun o => match o with | .gset _ _ _ _ _ _ => true | _ => false) (fun o =>
    match o with
    | .gset rop gd ga gb imm ext => retireG s c gd (gsetResult (chanAt s c) rop ga gb imm ext)
    | _ => s)

/-- R134: a tile's words with another base. -/
def advanced (t : List Word) (d : Nat) : List Word :=
  let w := (nth t 0 0).toNat
  t.set 0 (BitVec.ofNat 64 (w / 2 ^ 57 * 2 ^ 57 + (w % 2 ^ 57 + d) % 2 ^ 57))

/-- R134: the tile operation that `tmode` selects. -/
def tsetResult (ch : Channel) (m td ts gs w : Nat) (w3g : Bool) (e : List Nat) : Channel :=
  let x (i : Nat) : Word := BitVec.ofNat 64 (nth e i 0)
  match m with
  | 0 => ch.setT td [x 0, x 1, x 2, if w3g then ch.greg gs else 0]
  | 1 => ch.setT td ((ch.treg ts).set 0 (x 0))
  | 2 => ch.setT td (advanced (ch.treg ts) (ch.greg gs).toNat)
  | 3 => ch.setG gs (nth (ch.treg ts) w 0)
  | _ => ch.setT td ((ch.treg td).set w (ch.greg gs))

/-- R134: `MOVE` TSET. -/
def execMoveTset (c : Nat) (s : State) : Host.Outcome State Fault Refusal :=
  runInstr s c (fun o => match o with | .tset _ _ _ _ _ _ _ => true | _ => false) (fun o =>
    match o with
    | .tset m td ts gs w w3g e => retire (setChan s c (fun x => tsetResult x m td ts gs w w3g e)) c .ok
    | _ => s)

/-- R136: `MOVE.T`. -/
def execMoveT (c : Nat) (s : State) : Host.Outcome State Fault Refusal :=
  runInstr s c (fun o => match o with | .moveT _ _ _ => true | _ => false) (fun o =>
    match o with
    | .moveT td ts tr => twoTiles s c td ts true true (fun d t => moveTPlan d t tr)
    | _ => s)

/-- The operands of a `GATHER` or `SCATTER`: list, limit and row addresses. -/
structure RowOp where
  list : Nat
  width : Nat
  count : Nat
  limit : Nat
  plan : (k idx : Nat) → Except Status (List Piece)

/-- The lines of the list from row `k` on, as far as a READ frame may take them (R299). -/
def RowOp.indexLines (o : RowOp) (k : Nat) : List Nat :=
  linesOf ((o.list + k * o.width) % 2 ^ 57) (Nat.min 1024 ((o.count - k) * o.width))

/-- R138: the rows of the list from the instruction's progress on; progress is row × 2^17 + pieces of the row done.
An index line stays with the channel while rows name it; a row's own lines do not, so that a row named twice is read and
charged twice (R320). -/
def runRows (s : State) (c : Nat) (o : RowOp) : (fuel : Nat) → State × Option Status
  | 0 => (s, some .ok)
  | n + 1 =>
    let k := (chanAt s c).prog / 2 ^ 17
    let j := (chanAt s c).prog % 2 ^ 17
    if o.count ≤ k then (s, some .ok)
    else
      let a := (o.list + k * o.width) % 2 ^ 57
      match takeLine s c (lineOf a) (o.indexLines k) with
      | (t, .held) => (t, none)
      | (t, .fail st) => (t, some st)
      | (t, .data l) =>
        let idx := leNat ((l.drop (a - lineOf a)).take o.width)
        let next (u : State) : State := setChan u c (fun x =>
          { x with prog := (k + 1) * 2 ^ 17, rob := x.rob.filter (fun e => (o.indexLines (k + 1)).contains e.1) })
        if idx = 2 ^ (8 * o.width) - 1 then runRows (next t) c o n
        else if o.limit ≤ idx then (t, some .range)
        else
          match o.plan k idx with
          | .error st => (t, some st)
          | .ok ps =>
            match runPieces t c (o.indexLines k) (ps.drop j) with
            | (u, some .ok) => runRows (next u) c o n
            | r => r

/-- R229: the lines of the rows ahead, up to 256 beyond the row being issued, that index lines read so far name. -/
def rowsAhead (s : State) (c : Nat) (o : RowOp) : List Nat :=
  let k := (chanAt s c).prog / 2 ^ 17
  (List.range 257).flatMap (fun i =>
    let a := (o.list + (k + i) * o.width) % 2 ^ 57
    match Tab.look (chanAt s c).rob (lineOf a) with
    | none => []
    | some l =>
      let idx := leNat ((l.drop (a - lineOf a)).take o.width)
      if o.count ≤ k + i ∨ idx = 2 ^ (8 * o.width) - 1 ∨ o.limit ≤ idx then []
      else match o.plan (k + i) idx with | .error _ => [] | .ok ps => linesAhead [] ps)

/-- R138: a `GATHER` or `SCATTER` whose count and list alignment pass. -/
def rowInstr (s : State) (c : Nat) (o : RowOp) : State :=
  if 2 ^ 24 < o.count ∨ o.list % o.width ≠ 0 then retire s c .range
  else
    match (chanAt s c).lineStatus with
    | some st => finish s c st
    | none =>
      match runRows s c o (o.count + 1) with
      | (t, some st) => finish (flushPack t c) c st
      | (t, none) => forageLines (flushPack t c) c (rowsAhead t c o)

/-- R138: `GATHER`. -/
def execGather (c : Nat) (s : State) : Host.Outcome State Fault Refusal :=
  runInstr s c (fun o => match o with | .gather _ _ _ _ _ _ _ _ => true | _ => false) (fun o =>
    match o with
    | .gather gi gb gn gl go iw8 pitch row =>
      let ch := chanAt s c
      let g (r : Nat) : Nat := (ch.greg r).toNat
      rowInstr s c
        { list := g gi % 2 ^ 57, width := if iw8 then 8 else 4, count := g gn, limit := g gl,
          plan := fun k idx => .ok (copySpan ((g gb + idx * pitch) % 2 ^ 57) ((g go + k * row) % 2 ^ 57) row) }
    | _ => s)

/-- R138, R176: `SCATTER`. Under `op` 1 and 2 the row must hold whole elements, aligned in the table (R164). -/
def execScatter (c : Nat) (s : State) : Host.Outcome State Fault Refusal :=
  runInstr s c (fun o => match o with | .scatter _ _ _ _ _ _ _ _ _ => true | _ => false) (fun o =>
    match o with
    | .scatter gi gb gn gl go iw8 op pitch row =>
      let ch := chanAt s c
      let g (r : Nat) : Nat := (ch.greg r).toNat
      rowInstr s c
        { list := g gi % 2 ^ 57, width := if iw8 then 8 else 4, count := g gn, limit := g gl,
          plan := fun k idx =>
            let table := (g gb + idx * pitch) % 2 ^ 57
            let dense := (g go + k * row) % 2 ^ 57
            let w := if op = 1 then 4 else 2
            if op = 0 then .ok (copySpan dense table row)
            else if row % w ≠ 0 ∨ table % w ≠ 0 then .error .range
            else .ok (scatterSum (op == 2) dense table row) }
    | _ => s)

/-- R139: `FILL`. -/
def execFill (c : Nat) (s : State) : Host.Outcome State Fault Refusal :=
  runInstr s c (fun o => match o with | .fillTile _ _ => true | .fillSpan _ _ _ => true | _ => false) (fun o =>
    match o with
    | .fillTile td gs =>
      match Tile.ofWords ((chanAt s c).treg td) true with
      | .ok t => memInstr s c (fillTilePlan t ((chanAt s c).greg gs).toNat)
      | .error st => retire s c st
    | .fillSpan gs ga gl =>
      let ch := chanAt s c
      memInstr s c (fillSpanPlan ((ch.greg ga).toNat % 2 ^ 57) (ch.greg gl).toNat (ch.greg gs).toNat)
    | _ => s)

/-! ## Combine -/

/-- R142: `REDUCE`. -/
def execReduce (c : Nat) (s : State) : Host.Outcome State Fault Refusal :=
  runInstr s c (fun o => match o with | .reduce _ _ _ _ _ _ => true | _ => false) (fun o =>
    match o with
    | .reduce td ts op acc rnd gseed =>
      twoTiles s c td ts (acc == 14) false (fun d t => reducePlan false d t op acc rnd ((chanAt s c).greg gseed))
    | _ => s)

/-- R143: `CONVERT`. -/
def execConvert (c : Nat) (s : State) : Host.Outcome State Fault Refusal :=
  runInstr s c (fun o => match o with | .convert _ _ _ _ => true | _ => false) (fun o =>
    match o with
    | .convert td ts rnd gseed =>
      twoTiles s c td ts false false (fun d t => convertPlan d t rnd ((chanAt s c).greg gseed))
    | _ => s)

/-- R142: `REDUCE.CVT`. -/
def execReduceCvt (c : Nat) (s : State) : Host.Outcome State Fault Refusal :=
  runInstr s c (fun o => match o with | .reduceCvt _ _ _ _ _ _ => true | _ => false) (fun o =>
    match o with
    | .reduceCvt td ts op acc rnd gseed =>
      twoTiles s c td ts false false (fun d t => reducePlan true d t op acc rnd ((chanAt s c).greg gseed))
    | _ => s)

/-! ## Atomics -/

/-- R146: an atomic ends with the old value of its word, which `rv` writes to `g[gd]`. -/
def atomEnd (s : State) (c : Nat) (rv : Bool) (gd : Nat) (old : List Byte) : State :=
  if rv then retireG s c gd (BitVec.ofNat 64 (leNat (old.take 8))) else retire s c .ok

/-- R146: one of the five atomics. The answer of a remote one waits in the reorder buffer at address 0. -/
def atomInstr (s : State) (c : Nat) (o : Zop) : State :=
  match o with
  | .atom op is64 sgn rv gd ga gb gc off =>
    let ch := chanAt s c
    let a := dataAddr ch ga off
    let line := lineOf a
    if a % (if is64 then 8 else 4) ≠ 0 then retire s c .range
    else
      match Tab.look ch.rob 0, ch.lineStatus with
      | some old, _ => atomEnd s c rv gd old
      | none, some st => finish s c st
      | none, none =>
        match writeLine s c line (.atomic op is64 sgn (a - line) (ch.greg gb).toNat (ch.greg gc).toNat) false false with
        | (t, .held) => t
        | (t, .fail st) => finish t c st
        | (t, .data old) => if remoteBusy t c then t else atomEnd t c rv gd old
  | _ => s

/-- Whether an instruction is a given atomic. -/
def isAtom (op : AtomOp) (o : Zop) : Bool := match o with | .atom p _ _ _ _ _ _ _ _ => p == op | _ => false

/-- R146: `ATOM.ADD`. -/
def execAtomAdd (c : Nat) (s : State) : Host.Outcome State Fault Refusal := runInstr s c (isAtom .add) (atomInstr s c)
/-- R146: `ATOM.MAX`. -/
def execAtomMax (c : Nat) (s : State) : Host.Outcome State Fault Refusal := runInstr s c (isAtom .max) (atomInstr s c)
/-- R146: `ATOM.MIN`. -/
def execAtomMin (c : Nat) (s : State) : Host.Outcome State Fault Refusal := runInstr s c (isAtom .min) (atomInstr s c)
/-- R146: `ATOM.XCHG`. -/
def execAtomXchg (c : Nat) (s : State) : Host.Outcome State Fault Refusal := runInstr s c (isAtom .xchg) (atomInstr s c)
/-- R146: `ATOM.CAS`. -/
def execAtomCas (c : Nat) (s : State) : Host.Outcome State Fault Refusal := runInstr s c (isAtom .cas) (atomInstr s c)

/-! ## Synchronisation -/

/-- R253: a flush read of host memory is issued for a channel, which waits for it. -/
def flushRead (s : State) (c : Nat) : State :=
  let id := s.hp.nextId
  if !hostRoom s then stall s c .hostRead
  else stall ((emit s (.hostFlush id (ctxAt s (chanAt s c).ctx).pasid .read)).onHp (fun h =>
    { h with flushes := h.flushes ++ [(id, c)], nextId := id + 1 })) c .hostFlush

/-- R250, R252: whether HOST visibility, where it is claimed, still needs a flush read. -/
def needsFlush (ch : Channel) (host : Bool) : Bool := host && ch.hostWritten

/-- R148: `SIGNAL`. -/
def execSignal (c : Nat) (s : State) : Host.Outcome State Fault Refusal :=
  runInstr s c (fun o => match o with | .signal _ _ _ _ _ => true | _ => false) (fun o =>
    match o with
    | .signal v sscope shost close f =>
      let ch := chanAt s c
      let n := ch.src f
      match ch.lineStatus with
      | some st => retire s c st
      | none =>
        if needsFlush ch shost then flushRead s c
        else if 2 ^ 20 ≤ n then retire s c .range
        else
          fenceOp (stall s c (.fence (chipId s) n (ch.src v))) n
            (.signal c (ch.src v) close (Scope.ofCode sscope) shost)
    | _ => s)

/-- R150: a wait at a fence of another chip. -/
def remoteWait (s : State) (c chip n t : Nat) : State :=
  let ch := chanAt s c
  if !reachable s chip then retire s c .link
  else
    openTxn (holdChan s c (.fence chip n t)) chip
      (requestFrame s chip 0xB ch.hive (levelOf s ch.label) n 0 (leBytes 8 t ++ leBytes 8 0)) c .wait

/-- R150: `WAIT`. A target of 2^63 or more ends it before the fence is met, as R150's pseudocode has it, where R94 and R8 would
give a fence's own RIGHTS or STATE first (log 76). -/
def execWait (c : Nat) (s : State) : Host.Outcome State Fault Refusal :=
  runInstr s c (fun o => match o with | .wait _ _ _ _ _ => true | _ => false) (fun o =>
    match o with
    | .wait t f remote gc _ =>
      let ch := chanAt s c
      let n := ch.src f
      let chip := (ch.greg gc).toNat % 2 ^ 16
      if 2 ^ 20 ≤ n ∨ 2 ^ 63 ≤ ch.src t then retire s c .range
      else if remote ∧ chip ≠ chipId s then remoteWait s c chip n (ch.src t)
      else fenceOp (holdChan s c (.fence (chipId s) n (ch.src t))) n (.wait c (ch.src t))
    | _ => s)

/-- R151: `FLUSH`. -/
def execFlush (c : Nat) (s : State) : Host.Outcome State Fault Refusal :=
  runInstr s c (fun o => match o with | .flush _ _ => true | _ => false) (fun o =>
    match o with
    | .flush _ fhost =>
      match (chanAt s c).lineStatus with
      | some st => retire s c st
      | none => if needsFlush (chanAt s c) fhost then flushRead s c else retire s c .ok
    | _ => s)

/-- R152: `CAP`. -/
def execCap (c : Nat) (s : State) : Host.Outcome State Fault Refusal :=
  runInstr s c (fun o => match o with | .cap _ _ => true | _ => false) (fun o =>
    match o with
    | .cap a gs =>
      let ch := chanAt s c
      let va := ch.src a % 2 ^ 57
      if va % 8 ≠ 0 then retire s c .range else oneWrite s c (lineOf va) (word8 va (ch.greg gs)) true
    | _ => s)

/-! ## Launch -/

/-- R156, R157: the request of a `LAUNCH` of mode ANY or LIST. -/
def launchReq (ch : Channel) (c : Nat) : Option LaunchReq :=
  match ch.op with
  | .launchAny n _ _ _ _ => some { chan := c, any := some n, list := [] }
  | .launchList tb _ _ _ _ =>
    some { chan := c, any := none,
           list := bitsOf ((ch.treg tb).zipIdx.foldl (fun a w => a + w.1.toNat <<< (64 * w.2)) 0) 256 }
  | _ => none

/-- R157, R158: `LAUNCH` in mode ANY or LIST; one that holds its reservation goes on with its record. -/
def execLaunch (c : Nat) (s : State) : Host.Outcome State Fault Refusal :=
  runInstr s c (fun o => match o with | .launchAny _ _ _ _ _ => true | .launchList _ _ _ _ _ => true | _ => false)
    (fun _ =>
      let ch := chanAt s c
      match launchReq ch c with
      | none => s
      | some r =>
        if ch.kernels ≠ [] then launchGo s c
        else if (launchArgs ch).2.2.1 % 64 ≠ 0 then retire s c .range
        else launchRequest s c r)

/-- R157: `LAUNCH` in mode QUERY. -/
def execLaunchQuery (c : Nat) (s : State) : Host.Outcome State Fault Refusal :=
  runInstr s c (fun o => match o with | .launchQuery _ => true | _ => false) (fun _ =>
    let ch := chanAt s c
    if (launchArgs ch).2.2.1 % 64 ≠ 0 then retire s c .range
    else
      match ch.lineStatus with
      | some st => finish s c st
      | none =>
        if ch.prog = 0 then
          match writeLaunchRecord s c (clustersOf s ch.hive (fun st => st == .assigned))
              (hiveAt s ch.hive).launchSeq with
          | (t, .held) => t
          | (t, .fail st) => finish t c st
          | (t, .data _) => finish t c .ok
        else finish s c .ok)

/-- R157: the hive engine reserves the clusters of the first waiting `LAUNCH` of a hive, which goes on. -/
def execLaunchReservation (h : Nat) (s : State) : Host.Outcome State Fault Refusal :=
  match serveLaunch s h with
  | some t => .next t
  | none => .next s

end Sys2Proof.Machine
end

