-- ==== Sys2Proof/Machine/Complete.lean ====
section
/-! DEFINITION. How a command leaves its queue: the completion record (R73, R466), the accounts (R78, R79), owed fences
(R74), and discard before dispatch (R22, R465). -/

namespace Sys2Proof.Machine

/-! ## Spans of a bound queue -/

/-- R227, R231: an access inside a span that a bound queue has pinned: the entry it goes through, or the status that its
walk ends with. A malformed entry and a table read that ends keep their status and record (R214, R225). -/
def pinnedEntry (s : State) (ctx va : Nat) (n : Need) (r : Requester) : State × Except Status Tlb :=
  let walked : State × Except Status Tlb :=
    let w := walk s ctx va
    match w.2 with
    | .fault k level st =>
      if k = .malformed ∨ k = .readError then (permFault w.1 k st level (accessOf n) ctx va r, .error st)
      else (w.1, .error .fault)
    | .leaf e _ gr =>
      if gr n then (if e.host || !e.permits n then w.1 else l2Put w.1 e, .ok e) else (w.1, .error .fault)
  match l2Find s ctx va with
  | some (_, _, e) => if e.permits n then (s, .ok e) else walked
  | none => walked

/-- R231, R235: the address under which a host line of a bound queue is sent, and whether it is a translated one; none
while a translation request is out, or waits to be made. -/
def hostSend (s : State) (leaf : Tlb) (va : Nat) (n : Need) (r : Requester) : State × Option (Nat × Bool) :=
  match hostEntry s leaf va n with
  | some e => (s, some (e.frame + va % 2 ^ e.sizeLog2, e.translated))
  | none => ((atsRequest s leaf va [{ r := r, access := accessOf n, va := va }] []).getD s, none)

/-! ## Records -/

/-- Counts of a queue's indices. -/
def idxAdd (i k : Nat) : Nat := (i + k) % 2 ^ 32

def dist (a b : Nat) : Nat := (a + 2 ^ 32 - b) % 2 ^ 32

/-- R73: the bytes of a completion record. -/
def recordBytes (idx : Nat) (st : Status) (depth word m c : Nat) : List Byte :=
  bytesOf [idx <<< 32 + st.code <<< 24 + (depth % 8) <<< 21 + (word % 32) <<< 16,
    (Nat.min m (2 ^ 32 - 1)) <<< 32 + Nat.min c (2 ^ 32 - 1)]

/-- R466: a record whose write has ended with a status is lost, and logged: as SECURITY for a tag failure. `told`: the
alarm of R317 has named the context and the record. -/
def lostRecord (s : State) (ctx pa : Nat) (st : Status) (told : Bool) : State :=
  if st = .ok ∨ (st = .tagFail ∧ told) then s
  else logErr s { cls := if st = .tagFail then 3 else 2, status := st.code, hive := (ctxAt s ctx).hive, ugroup := 10,
                  unit := homePort s (paLocal pa), cause := if st = .tagFail then 4 else 5, ctx := ctx, paddr := pa }

/-- R73: `done` passes every index whose record is written. -/
def advanceDone (d : Nat) (ended : List Nat) : Nat → Nat × List Nat
  | 0 => (d, ended)
  | n + 1 => if ended.contains d then advanceDone (idxAdd d 1) (ended.filter (· != d)) n else (d, ended)

def setEnded (s : State) (q idx : Nat) : State :=
  setQueue s q (fun x =>
    let r := advanceDone x.done (x.ended ++ [idx]) (x.ended.length + 1)
    { x with done := r.1, ended := r.2 })

/-- The pins of a command are released and its channel is FREE (R24, R121 step 7); one that asked for an interrupt raises
it (R115, R256). -/
def freeChan (s : State) (c : Nat) : State :=
  let ch := chanAt s c
  let q := queueAt s ch.q
  let t := setChan (releasePins s ch.q ch.idx) c (fun _ => Channel.empty)
  if ch.retired && ch.irq && q.irqEn then raiseIrq t ch.hive q.vector else t

/-- R73: a record is written, or lost: its index has left the queue. -/
def recordDone (s : State) (r : PendRec) : State :=
  let t := setEnded (s.onQm (fun m => { m with records := m.records.filter (· != r) })) r.q r.idx
  match r.chan with
  | some c => freeChan t c
  | none => t

/-- R73: the address of the record of an index. -/
def recordVa (s : State) (r : PendRec) : Nat :=
  let qu := queueAt s r.q
  uaAdd qu.cplBase (r.idx % 2 ^ qu.ringLog2 * 16)

/-- R51: a record on a remote chip that its hive may not reach is not sent; it is logged, and lost. -/
def refuseRecord (s : State) (r : PendRec) (hive ctx pa : Nat) : State :=
  recordDone (logErr s { cls := 4, status := Status.rights.code, hive := hive, ugroup := 1, unit := r.chan.getD 0 / 8, cause := 6,
                         ctx := ctx, paddr := pa }) r

/-- R51, R73, R301, R316, R466: the write of a record through a translation of its address: to host memory, on its way to
another chip, or at its home once its line's turn has come. -/
def recordGo (s : State) (r : PendRec) (e : Tlb) : State :=
  let qu := queueAt s r.q
  let hive := (ctxAt s qu.ctx).hive
  let va := recordVa s r
  if e.host then
    match hostSend s e va .wr (.record r.q r.idx) with
    | (t, some a) => recordDone (emit t (.hostWrite (ctxAt s qu.ctx).pasid a.1 r.bytes a.2 .ordered)) r
    | (t, none) => t
  else
    let pa := e.frame + va % 2 ^ e.sizeLog2
    let line := lineOf pa
    let k : WriteKind := .partialWrite (r.bytes.zipIdx.map (fun b => (pa - line + b.2, b.1)))
    if paChip pa ≠ chipId s then
      if !remoteOk s hive (paChip pa) then refuseRecord s r hive qu.ctx pa
      else if !reachable s (paChip pa) then recordDone (lostRecord s qu.ctx pa .link false) r
      else
        openTxn s (paChip pa) (requestFrame s (paChip pa) 7 hive (levelOf s qu.label) line 0
          (leBytes 16 (bitmapOf ((plainBytes k).map (·.1))) ++ (writeApply k (List.replicate 128 0)).1))
          Config.channels (.record r.q r.idx)
    else
      let o : Origin := .record r.q r.idx
      let h : HomeReq :=
        { req := { origin := o, hive := hive, keySel := keySelAt s hive (paLocal pa), label := qu.label,
                   level := levelOf s qu.label, addr := paLocal line }
          kind := some k, second := none, raw := [], ticket := true }
      if !lineGoes s h then takePlace s h
      else
        let w := homeWrite s hive h.req.keySel (paLocal line) k h.req.level qu.ctx (pa - line)
        recordDone (lostRecord (redeem w.1 o (paLocal line)) qu.ctx pa w.2.1 true) r

/-- R73, R225: the record of an index is written where the second level holds its page; else its page is walked first. -/
def startRecord (s : State) (r : PendRec) : State :=
  let ctx := (queueAt s r.q).ctx
  let va := recordVa s r
  match (l2Find s ctx va).filter (fun e => e.2.2.permits .wr) with
  | some (_, _, e) => recordGo s r e
  | none => askWalk s ctx va [{ r := .record r.q r.idx, access := .write, va := va }] []

/-- R466: the remote write of a record has ended. -/
def recordEnds (s : State) (q idx pa : Nat) (st : Status) : State :=
  match s.qm.records.find? (fun r => r.q == q && r.idx == idx) with
  | some r => recordDone (lostRecord s (queueAt s q).ctx (pa + idx % 8 * 16) st false) r
  | none => s

/-- R73, R320: an index leaves its queue with a record, one merged write charged to the queue's label; `chan` is the channel
that is FREE once it is written. -/
def leaveQueue (s : State) (q idx : Nat) (st : Status) (depth word m c : Nat) (chan : Option Nat) : State :=
  let r : PendRec := { q := q, idx := idx, bytes := recordBytes idx st depth word m c, chan := chan }
  startRecord ((charge s (queueAt s q).label 256).onQm (fun y => { y with records := y.records ++ [r] })) r

/-! ## Accounts -/

/-- R79: a 64-bit counter that saturates. -/
def acct (n k : Nat) : Nat := satAdd 64 n k

/-- R78, R79: a command's cycles are charged to its queue, its context and the queue's virtual time, a 64-bit count (log
48). -/
def account (s : State) (q ctx m c : Nat) : State :=
  let full (n k : Nat) : Bool := decide (2 ^ 64 - 1 < n + k)
  let t := setQueue s q (fun x =>
    { x with moverCycles := acct x.moverCycles m, clusterCycles := acct x.clusterCycles c,
             acctSat := x.acctSat || full x.moverCycles m || full x.clusterCycles c,
             vt := (x.vt + (m + c) * 65536 / Nat.max 1 x.weight) % 2 ^ 64 })
  setCtx t ctx (fun x =>
    { x with moverCycles := acct x.moverCycles m, clusterCycles := acct x.clusterCycles c,
             acctSat := x.acctSat || full x.moverCycles m || full x.clusterCycles c })

/-- R74: a command that ends other than OK stops its queue, where `stop_on_err` says so. -/
def stopOnErr (s : State) (q : Nat) (st : Status) : State :=
  setQueue s q (fun x =>
    if st ≠ .ok ∧ x.stopOnErr ∧ x.state = .running then { x with state := .stopped } else x)

/-! ## Ends of commands -/

/-- R20, R24, R73, R74, R78, R79: a command that holds a channel ends: its owed fences, its account, its record. Under a
kill its owed fences go to the kill (R121 step 6). -/
def endCommand (s : State) (c : Nat) (st : Status) (depth word : Nat) : State :=
  let ch := chanAt s c
  let d := drawNat s
  let owed := ch.owed.map (·.1)
  let t := if st = .ok then d.2
    else if ch.inKill then
      d.2.onQm (fun m => { m with kills := m.kills.map (fun k =>
        if k.ctx == ch.ctx then { k with owed := k.owed ++ owed } else k) })
    else poisonAllOwed d.2 ch.ctx ch.hive st.code owed
  let t := stopOnErr (account t ch.q ch.ctx d.1 ch.clusterCycles) ch.q st
  leaveQueue (stall t c .record) ch.q ch.idx st depth word d.1 ch.clusterCycles (some c)

/-- A fetched command that holds no channel leaves the path: its pins, requests and buffer go. -/
def dropCmd (s : State) (q idx : Nat) : State :=
  (dropRequester (releasePins s q idx) (.pre q idx)).onQm (fun m =>
    { m with cmds := m.cmds.filter (fun k => !(k.q == q && k.idx == idx)) })

/-- The pool of fetched commands. -/
def cmdAt (s : State) (q idx : Nat) : Option Cmd := s.qm.cmds.find? (fun k => k.q == q && k.idx == idx)

def setCmd (s : State) (q idx : Nat) (f : Cmd → Cmd) : State :=
  s.onQm (fun m => { m with cmds := m.cmds.map (fun k => if k.q == q && k.idx == idx then f k else k) })

/-- R21, R22, R74, R465: a command ends before DISPATCHED with a status, at depth 0 and a word of its slot; it holds no
channel and is charged no cycles. -/
def discard (s : State) (q idx : Nat) (st : Status) (word : Nat) : State :=
  match cmdAt s q idx with
  | none => s
  | some k =>
    let t := leaveQueue (dropCmd s q idx) q idx st 0 word 0 0 none
    stopOnErr (poisonAllOwed t k.ctx (ctxAt t k.ctx).hive st.code (k.owed.map (·.1))) q st

end Sys2Proof.Machine
end

