-- ==== Sys2Proof/Machine/Kill.lean ====
section
/-! DEFINITION. The ordered sequences of queue reset (R76), context kill (R95, R469), hive reset and teardown (R62), and
the creation and resize that wait for clusters (R57, R60). `progress` carries each as far as what has ended allows. -/

namespace Sys2Proof.Machine

/-! ## Queues -/

/-- The bound queues that `p` accepts, rising. -/
def queuesWhere (s : State) (p : Queue → Bool) : List Nat :=
  (s.qm.queues.filter (fun e => e.2.state != .unbound && p e.2)).map (·.1)

def queuesOfCtx (s : State) (ctx : Nat) : List Nat := queuesWhere s (fun q => q.ctx == ctx)
def queuesOfHive (s : State) (h : Nat) : List Nat := queuesWhere s (fun q => (ctxAt s q.ctx).hive == h)

/-- Whether a queue has a PRE_TRANSLATED command. -/
def hasReady (s : State) (q : Nat) : Bool := s.qm.cmds.any (fun k => k.q == q && k.stage == .preTranslated)

def minVt (s : State) (qs : List Nat) : Nat :=
  match qs.map (fun q => (queueAt s q).vt) with
  | [] => 0
  | v :: r => r.foldl Nat.min v

/-- R78: the reference value for a queue of a hive. -/
def vtRef (s : State) (h q : Nat) : Nat :=
  let others := (queuesOfHive s h).filter (· != q)
  let ready := others.filter (hasReady s)
  if ready = [] then minVt s others else minVt s ready

/-- Whether a completion record of a queue is on its way. -/
def recordOut (s : State) (q : Nat) : Bool := s.qm.records.any (fun r => r.q == q)

/-- R76 step 3, R95 step 5: a record for every index from `done` to `tail` that has none. -/
def recordRest (s : State) (q : Nat) : State :=
  let x := queueAt s q
  let left := ((List.range (dist x.tail x.done)).map (idxAdd x.done)).filter (fun i =>
    !x.ended.contains i && !s.qm.records.any (fun r => r.q == q && r.idx == i))
  left.foldl (fun t i => leaveQueue t q i .aborted 0 0 0 0 none) s

/-- R76: a queue reset is admitted: fetching stops, fetched commands are discarded, dispatched ones aborted. -/
def startQueueReset (s : State) (q : Nat) (chan : Option Nat) (unbind : Bool) : State :=
  let t := setQueue s q (fun x => { x with state := .resetting })
  let t := t.onQm (fun m => { m with resets := m.resets ++ [(q, chan, unbind)] })
  let t := (s.qm.cmds.filter (fun k => k.q == q)).foldl (fun t k => discard t q k.idx .aborted 0) t
  (chansWhere s (fun ch => ch.q == q)).foldl (fun t c => abortChan t c .aborted false) t

/-- R76 steps 3 and 5, R195: a queue reset whose commands have ended: the records of what is left, and once the last is
written the queue's end. -/
def finishQueueReset (s : State) (q : Nat) (chan : Option Nat) (unbind : Bool) : State :=
  let t := recordRest s q
  if recordOut t q then t
  else
    let h := (ctxAt t (queueAt t q).ctx).hive
    let t := if unbind then setQueue (releaseQueuePins t q) q (fun _ => Queue.empty)
      else setQueue t q (fun x => { x with state := .running, fetch := x.tail, done := x.tail, ended := [], vt := vtRef t h q })
    let t := t.onQm (fun m => { m with resets := m.resets.filter (fun r => r.1 != q) })
    match chan with
    | some c => retire t c .ok
    | none => t

/-! ## Grant lists -/

def objAddr (s : State) (o : Nat) : Nat := paLocal s.kp.settings.objBase + o * 16

/-- The log entry of an object table line that fails (R467); a tag failure and an uncorrectable error have theirs. -/
def logObjectLine (s : State) (o : Nat) (st : Status) : State :=
  if st = .tagFail ∨ st = .hwError then s
  else logErr s { cls := 2, status := st.code, hive := 0, ugroup := 10, unit := homePort s (objAddr s o), cause := 5,
                  paddr := paOf (chipId s) (lineOf (objAddr s o)) }

/-- R85, R467: a grant list is unloaded; `dies` where a context's death unloads it, which tells of idle objects. -/
def unloadGrants (s : State) (hive : Nat) (dies : Bool) (gs : List Grant) : State :=
  gs.foldl (fun t g =>
    let r := tableWord t (objAddr t g.obj)
    if r.2.1 ≠ .ok then logObjectLine r.1 g.obj r.2.1
    else
      let n := fld r.2.2 0 16 - 1
      let w := tableWrite r.1 (objAddr t g.obj) (leBytes 8 (r.2.2 / 2 ^ 16 * 2 ^ 16 + n))
      if w.2 ≠ .ok then logObjectLine w.1 g.obj w.2
      else if dies ∧ n = 0 then hiveEvent w.1 0x03 hive g.obj 0 else w.1) s

/-! ## Context kill -/

/-- R95 steps 1 and 2. -/
def startKill (s : State) (ctx : Nat) (chan : Option Nat) (noRecords : Bool) : State :=
  let t := setCtx s ctx (fun x => { x with state := .killing })
  let t := (queuesOfCtx s ctx).foldl (fun t q => setQueue t q (fun x => { x with state := .resetting })) t
  let mine := s.qm.cmds.filter (fun k => k.ctx == ctx)
  let t := mine.foldl (fun t k => dropCmd t k.q k.idx) t
  let t := t.onQm (fun m => { m with kills := m.kills ++
    [{ ctx := ctx, chan := chan, step := 3, owed := mine.flatMap (fun k => k.owed.map (·.1)), noRecords := noRecords }] })
  (chansWhere s (fun ch => ch.ctx == ctx)).foldl (fun t c => abortChan t c .aborted true) t

/-- R95 step 3: no command of the context holds a channel, and no record of one is on its way. -/
def settled (s : State) (ctx : Nat) : Bool :=
  (chansWhere s (fun ch => ch.ctx == ctx)) == [] && (queuesOfCtx s ctx).all (fun q => !recordOut s q)

/-- The kills of a hive's contexts. -/
def killsOf (s : State) (h : Nat) : List KillJob := s.qm.kills.filter (fun k => (ctxAt s k.ctx).hive == h)

/-- R62 step 2: the hive's kills share a sweep, so each waits for all. -/
def killReady (s : State) (k : KillJob) : Bool :=
  let h := (ctxAt s k.ctx).hive
  k.step == 3 && settled s k.ctx &&
    (!(s.he.resets.any (fun r => r.hive == h && r.step == 1)) || (killsOf s h).all (fun j => settled s j.ctx))

/-- R62 step 2: whether a reset or teardown can begin its sweep. -/
def resetReady (s : State) (r : HiveJob) : Bool := r.step == 1 && (killsOf s r.hive).all (fun j => settled s j.ctx)

/-- R469 steps 1 and 3: the sweep begins; the bound fences in the cache are poisoned. -/
def beginSweep (s : State) : State :=
  if s.qm.sweeping || !(s.qm.kills.any (killReady s) || s.he.resets.any (resetReady s)) then s
  else
    let t := s.onQm (fun m =>
      { m with sweeping := true
               kills := m.kills.map (fun k => if killReady s k then { k with step := 4 } else k) })
    let t := t.onHe (fun e => { e with resets := e.resets.map (fun r => if resetReady s r then { r with step := 2 } else r) })
    t.qm.fences.foldl (fun u f =>
      match sweepErr t f.2 with
      | some e => poisonCached u f.1 e
      | none => u) t

/-- R469 step 2: one line of the fence table: its entries that are not cached and bound to what dies are poisoned in
the table; a line that fails poisons its fences (R90). -/
def sweepLine (s : State) (line : Nat) : State :=
  let r := tableLine s (fenceAddr s (4 * line))
  (List.range 4).foldl (fun t i =>
    let f := 4 * line + i
    if (fenceAt t f).isSome then t
    else if r.2.1 ≠ .ok then
      (let u := makeRoom t
       if cacheFull u then u else putFailed u f r.2.1)
    else
      let w (j : Nat) : Nat := leNat ((r.2.2.drop (32 * i + 8 * j)).take 8)
      let fe := Fence.ofWords (w 0) (w 1) (w 2)
      match sweepErr t fe with
      | some e =>
        (tableWrite t (fenceAddr t f) (bytesOf { fe with state := .poisoned, value := allOnes, err := e }.words)).1
      | none => t) r.1

/-- R236: the context's page requests and translation requests are abandoned, with a Stop Marker where a page request
was outstanding. A `QUEUE_BIND` that waited for one of them goes on. -/
def stopHost (s : State) (ctx : Nat) : State :=
  let out := s.xl.pri.any (fun p => p.ctx == ctx && p.group.isSome)
  let binds := (s.xl.atsReqs.filter (fun a => a.ctx == ctx)).flatMap (·.wants)
  let s := binds.foldl (fun t w => match w.r with
    | .chan c => setChan t c (fun x => if x.hold = .walk then { x with hold := .none } else x)
    | _ => t) s
  let t := s.onXl (fun x =>
    { x with pri := x.pri.filter (fun p => p.ctx != ctx), atsReqs := x.atsReqs.filter (fun a => a.ctx != ctx),
             walks := x.walks.filter (fun w => w.ctx != ctx) })
  if out then emit t (.stopMarker (ctxAt s ctx).pasid) else t

/-- R95 steps 4 (its owed fences) and 5. -/
def recordKill (s : State) (k : KillJob) : State :=
  let t := poisonAllOwed s k.ctx (ctxAt s k.ctx).hive Status.aborted.code k.owed
  let t := if k.noRecords then t else (queuesOfCtx s k.ctx).foldl recordRest t
  t.onQm (fun m => { m with kills := m.kills.map (fun j => if j.ctx == k.ctx then { j with step := 5 } else j) })

/-- R95 steps 5, once its records are written, to 8. -/
def finishKill (s : State) (k : KillJob) : State :=
  let x := ctxAt s k.ctx
  let t := (queuesOfCtx s k.ctx).foldl (fun t q =>
    let waiting := (t.qm.resets.find? (fun r => r.1 == q)).bind (·.2.1)
    let t := setQueue (releaseQueuePins t q) q (fun _ => Queue.empty)
    let t := t.onQm (fun m => { m with resets := m.resets.filter (fun r => r.1 != q) })
    match waiting with
    | some c => retire t c .aborted
    | none => t) s
  let t := shootdownAll (raiseInv t k.ctx) k.ctx
  let t := unloadGrants t x.hive true x.grants
  let t := stopHost t k.ctx
  let t := setCtx t k.ctx (fun y => { Ctx.empty with invSeq := y.invSeq })
  let t := t.onHp (fun h => { h with pasids := h.pasids.filter (fun p => p.2 != k.ctx) })
  let t := t.onQm (fun m => { m with kills := m.kills.filter (fun j => j.ctx != k.ctx) })
  match k.chan with
  | some c => retire t c .ok
  | none => t

/-! ## Clusters -/

/-- R38: the clusters of a hive at a reset or a teardown. -/
def clearClusters (s : State) (h : Nat) (teardown : Bool) : State :=
  (clustersOf s h (fun _ => true)).foldl (fun t n =>
    match (clusterAt t n).state with
    | .joining => if teardown then clearCluster t n .free else t
    | .assigned => clearCluster t n (if teardown then .free else .assigned)
    | .leaving => clearCluster t n .free
    | .clearing => if teardown then setCluster t n (fun k => { k with clearTo := .free }) else t
    | _ => t) s

/-! ## Hive reset and teardown -/

/-- R61, R204: the operations of the manager on a hive that a reset or teardown ends. `keep` is the migration whose own
handover it is. -/
def endHiveWork (s : State) (h : Nat) (keep : Bool) : State :=
  let rs := s.he.resizes.filter (fun r => r.hive == h)
  let ms := if keep then [] else s.he.migrations.filter (fun m => m.hive == h)
  let t := s.onHe (fun e =>
    { e with resizes := e.resizes.filter (fun r => r.hive != h),
             migrations := if keep then e.migrations else e.migrations.filter (fun m => m.hive != h) })
  let t := if ms = [] then t else t.onXl (fun x => { x with logs := x.logs.filter (fun l => l.hive != h) })
  (rs.map (·.chan) ++ ms.map (·.chan)).foldl (fun t c => retire t c .aborted) t

/-- R62 steps 1 and 2: a reset or teardown begins. -/
def startHiveReset (s : State) (h : Nat) (teardown : Bool) (chan : Option Nat) (cause detail : Nat) (noRecords : Bool) :
    State :=
  let t := setHive s h (fun x => { x with state := if teardown then .destroying else .resetting, masked := true })
  let t := endHiveWork t h noRecords
  let live := (s.qm.ctxs.filter (fun c => c.2.hive == h && c.2.state == .active)).map (·.1)
  let t := live.foldl (fun t c => startKill t c none noRecords) t
  let t := clearClusters t h teardown
  t.onHe (fun e => { e with resets := e.resets ++
    [{ hive := h, teardown := teardown, chan := chan, cause := cause, detail := detail, step := 1,
       startTick := s.clk.ticks, noRecords := noRecords }] })

/-- The labels of a hive's range. -/
def labelsOf (s : State) (h : Nat) : List Nat :=
  (List.range (hiveAt s h).labelCount).map (fun i => (hiveAt s h).labelFirst + i)

/-- R62 step 6 of a reset without a running DRBG, in a lifecycle state without hive keys, or whose key load fails: the reset ends
with HW_ERROR (R364, R365, R367), its hive in RESETTING with an EMPTY slot (log 52). -/
def resetFailed (s : State) (r : HiveJob) : State :=
  let t := s.onHe (fun e => { e with resets := e.resets.filter (fun x => x.hive != r.hive) })
  match r.chan with
  | some c => retire t c .hwError
  | none => t

/-- R62 step 6, R314: no request under the hive's key, nor under a commons key of which a teardown takes the last holder, is
out any more. -/
def hiveQuiet (s : State) (r : HiveJob) : Bool :=
  unitsQuiet s (keySlotOf r.hive) && (!r.teardown || (hiveAt s r.hive).combs.all (fun c => mayRelease s c.2))

/-- R62 steps 5 to 7. -/
def hiveMiddle (s : State) (r : HiveJob) : State :=
  let t := (labelsOf s r.hive).foldl (fun t l => setLabel t l (fun x => { x with stopping := true })) s
  let t := zeroSlot t (keySlotOf r.hive)
  if !r.teardown && !keysToBeHad t then resetFailed t r
  else
    let t := if r.teardown then t else deriveHiveKey t r.hive
    if !r.teardown && s.vault.wrapBad then resetFailed t r else
    let t := ((hiveAt s r.hive).combs.filter (fun c => !c.2.commons)).foldl (fun t c => markFresh t c.2) t
    t.onHe (fun e => { e with resets := e.resets.map (fun x => if x.hive == r.hive then { x with step := 8 } else x) })

/-- R337: at step 8 the messages that the mask or the budget holds on the hive's vectors are cleared; R334: a message
about the hive on hive 0's vector passes to hive 0 at a teardown. -/
def clearMessages (s : State) (h : Nat) (teardown : Bool) : State :=
  let x := hiveAt s h
  let own (m : PendMsg) : Bool := decide (x.vecFirst ≤ m.vector) && decide (m.vector < x.vecFirst + x.vecCount)
  let gone := (s.sq.msgs.filter (fun m => own m && !m.charged)).map (·.vector)
  (s.onHp (fun p => { p with pba := p.pba.filter (fun v => !gone.contains v) })).onSq (fun q =>
    { q with msgs := (q.msgs.filter (fun m => !(own m && !m.charged))).map (fun m =>
        if teardown && m.hive == h then { m with hive := 0 } else m) })

/-- R62 step 8 of a teardown, R197: everything the hive holds is released. -/
def releaseHive (s : State) (h : Nat) : State :=
  let x := hiveAt s h
  let t := (clustersOf s h (fun _ => true)).foldl (fun t n => setCluster t n (fun k => { k with hive := 255 })) s
  let ended := t.qm.jobs.filter (fun j => match j.kind with | .labels hv _ => hv == h | _ => false)
  let t := t.onQm (fun m => { m with jobs := m.jobs.filter (fun j => match j.kind with | .labels hv _ => hv != h | _ => true) })
  let t := (labelsOf s h).foldl (fun t l => setLabel t l (fun _ => Label.empty)) t
  let t := setHive t h (fun y => Hive.empty y.keyGen)
  let t := t.onHp (fun p => { p with windows := Tab.mapv p.windows (fun _ w =>
    if w.whive = h then { w with valid := false } else w) })
  let t := t.onVault (fun v => { v with tokens := v.tokens.filter (fun k => k.device || k.hive != h) })
  let t := (x.combs.filter (fun c => c.2.commons)).foldl (fun t c => commonsLeft t c.2) t
  ended.foldl (fun t j => retire t j.chan .aborted) t

/-- R62 steps 8 and 9. -/
def finishHiveReset (s : State) (r : HiveJob) : State :=
  let t := clearMessages s r.hive r.teardown
  let t := if r.teardown then releaseHive t r.hive
    else
      let u := setHive t r.hive (fun x => { x with state := .active, masked := false, launchSeq := 0, launchQ := [] })
      (labelsOf s r.hive).foldl (fun u l => setLabel u l (fun x => { x with stopping := false })) u
  let t := t.onHe (fun e =>
    { e with resets := e.resets.filter (fun x => x.hive != r.hive),
             migrations := if r.noRecords then e.migrations.filter (fun m => m.hive != r.hive) else e.migrations })
  let t := if r.noRecords then t.onXl (fun x => { x with logs := x.logs.filter (fun l => l.hive != r.hive) }) else t
  match r.chan with
  | some c => retire t c .ok
  | none =>
    hiveEvent t 0x0D r.hive (r.cause <<< 56 + r.detail % 2 ^ 16)
      ((hiveAt t r.hive).keyGen <<< 32 + (s.clk.ticks - r.startTick) % 2 ^ 32)

/-- R62: step 8 waits for the clearing of the hive's clusters. -/
def clustersSettled (s : State) (h : Nat) : Bool := clustersOf s h (fun st => st == .clearing || st == .joining) == []

/-- R62 step 7, R312: no mark fresh of a hive's private combs still waits for a slice to open. -/
def marksSettled (s : State) (h : Nat) : Bool :=
  s.pr.slices.all (fun e =>
    !(e.2.markFresh && (hiveAt s h).combs.any (fun c => !c.2.commons && c.2.holds (e.1 / 64 * 2 ^ 21))))

/-! ## Creation and resize -/

/-- R57: a creation undone. -/
def undoCreate (s : State) (j : CreateJob) : State :=
  let t := (clustersOf s j.hive (fun st => st != .failed)).foldl (fun t n => clearCluster t n .free) s
  let t := zeroSlot t (keySlotOf j.hive)
  let t := ((hiveAt s j.hive).combs.filter (fun c => !c.2.commons)).foldl (fun t c => markFresh t c.2) t
  let t := releaseHive t j.hive
  let t := t.onHe (fun e => { e with creates := e.creates.filter (fun x => x.hive != j.hive) })
  retire t j.chan .hwError

/-- R57: every step of the creation is done. -/
def finishCreate (s : State) (j : CreateJob) : State :=
  let t := setHive s j.hive (fun x => { x with state := if x.incoming then .frozen else .active, masked := false })
  let t := t.onHe (fun e => { e with creates := e.creates.filter (fun x => x.hive != j.hive) })
  retire t j.chan .ok

def advanceCreate (s : State) (j : CreateJob) : State :=
  if clustersOf s j.hive (fun st => st == .failed) ≠ [] then undoCreate s j
  else if clustersSettled s j.hive && marksSettled s j.hive then finishCreate s j
  else s

/-- R60: whether a resize has nothing left to wait for. -/
def resizeDone (s : State) (j : ResizeJob) : Bool :=
  j.added.all (fun n => (clusterAt s n).state == .assigned) && j.removed == [] && j.labels == []

/-- R60: a resize ends; `resize_count` counts it. -/
def endResize (s : State) (j : ResizeJob) (st : Status) : State :=
  let t := setHive s j.hive (fun x => { x with state := .active, resizeCount := satInc 32 x.resizeCount })
  let t := t.onHe (fun e => { e with resizes := e.resizes.filter (fun x => x.hive != j.hive) })
  retire t j.chan st

/-! ## Manager instructions that wait -/

/-- R48: the pins that a hive's contexts hold in a comb: through the page's present translation. -/
def pinsIn (s : State) (h : Nat) (c : Comb) : List Pin :=
  s.qm.pins.filter (fun p => (ctxAt s p.ctx).hive == h && p.pages.any (fun g =>
    match l2Find s p.ctx (g * 2 ^ 25) with
    | some (_, _, e) => !e.host && paChip e.frame == chipId s && c.holds (paLocal (e.frame + (g * 2 ^ 25 - e.va)))
    | none =>
      match (walk s p.ctx (g * 2 ^ 25)).2 with
      | .leaf e _ _ => !e.host && paChip e.frame == chipId s && c.holds (paLocal (e.frame + (g * 2 ^ 25 - e.va)))
      | .fault _ _ _ => false))

/-- Whether a waiting manager instruction has nothing left to wait for. -/
def jobDone (s : State) (j : Job) : Bool :=
  match j.kind with
  | .labels _ left => left == []
  | .pins ctx va len => !pinOverlaps s ctx va len
  | .comb _ _ d pins => pins.all (fun p => !s.qm.pins.contains p) && (d.map (mayRelease s)).getD true
  | .links left => left == []
  | .swap _ _ _ => false

/-- A waiting manager instruction completes. -/
def finishJob (s : State) (j : Job) : State :=
  let t := s.onQm (fun m => { m with jobs := m.jobs.filter (fun x => x.chan != j.chan) })
  let t := match j.kind with
    | .comb _ _ (some c) _ => commonsLeft t c
    | _ => t
  retire t j.chan .ok

/-! ## Migration -/

/-- R204, R246: a migration ends before its handover, with a status and its hive in a state; its log is released. -/
def endMigration (s : State) (j : MigJob) (st : Status) (to_ : HiveState) : State :=
  let t := setHive s j.hive (fun h => { h with state := to_ })
  let t := t.onHe (fun e => { e with migrations := e.migrations.filter (fun m => m.hive != j.hive) })
  let t := t.onXl (fun x => { x with logs := x.logs.filter (fun l => l.hive != j.hive) })
  retire t j.chan st

/-- R203 phase 4: an OPEN fence is closed. -/
def closeFence (s : State) (f : Nat) : State := fenceNow s f .close

/-- R203 phase 4: the handover. -/
def handover (s : State) (j : MigJob) : State :=
  let t := j.fences.foldl closeFence s
  let t := t.onHe (fun e => { e with migrations := e.migrations.map (fun m =>
    if m.hive == j.hive then { m with phase := .handover } else m) })
  startHiveReset t j.hive true (some j.chan) 0 0 true

/-- R203, R204: a migration whose copy has failed ends; one whose package has been acknowledged hands over. Neither goes on
while a write of it is unacknowledged. -/
def migrationGoes (s : State) (j : MigJob) : State :=
  if remoteBusy s j.chan then s
  else
    match (chanAt s j.chan).lineStatus, j.phase with
    | some st, .precopy => endMigration s j st .active
    | some st, .final => endMigration s j st .frozen
    | none, .final => handover s j
    | _, _ => s

/-! ## Progress -/

/-- R316: a write of the block's own whose turn at its line has come is performed. A record that has lost its translation
meanwhile gives its turn up. -/
def performTurn (s : State) (h : HomeReq) : State :=
  let a := h.req.addr
  match h.req.origin with
  | .table => redeem (homeWrite s h.req.hive h.req.keySel a (h.kind.getD (.partialWrite [])) h.req.level).1 .table a
  | .record q idx =>
    (match s.qm.records.find? (fun r => r.q == q && r.idx == idx) with
     | some r =>
       if (l2Find s (queueAt s q).ctx (recordVa s r)).isSome then startRecord s r else startRecord (redeem s h.req.origin a) r
     | none => redeem s h.req.origin a)
  | _ => s

/-- The block's own writes whose turns have come, as far as credits allow; `fuel` bounds the run. -/
def settleTurns (s : State) : (fuel : Nat) → State
  | 0 => s
  | n + 1 =>
    let own (h : HomeReq) : Bool := match h.req.origin with | .table => true | .record _ _ => true | _ => false
    match s.pr.granted.find? (fun h => own h && !lineLacks s h.req.addr h.kind) with
    | some h => settleTurns (performTurn s h) n
    | none => s

/-- R469, R95, R62: what the sweep served goes on: kills whose records are written, then resets whose contexts are gone. -/
def sweptOn (s : State) : State :=
  let t := (s.qm.kills.filter (fun k => k.step == 5)).foldl (fun t k => if settled t k.ctx then finishKill t k else t) s
  (t.he.resets.filter (fun r => r.step == 3)).foldl (fun t r => if killsOf t r.hive == [] && hiveQuiet t r then hiveMiddle t r else t) t

/-- R196: the instructions that wait for the rekey of a link that has gone DOWN end. -/
def endLinkJobs (s : State) : State :=
  let lost (j : Job) : Bool := match j.kind with | .links left => left.any (fun l => !(linkAt s l).carries) | _ => false
  let t := s.onQm (fun m => { m with jobs := m.jobs.filter (fun j => !lost j) })
  (s.qm.jobs.filter lost).foldl (fun t j => retire t j.chan .link) t

/-- R289, R293: what a link that has gone DOWN leaves: its frames leave on other links, and its rekey ends. -/
def settleLinks (s : State) : State := endLinkJobs (drainForward s)

/-- Every operation of the manager goes on as far as the commands, records and clusters it waits for allow. -/
def progress (s : State) : State :=
  let t := settleTurns s (s.pr.granted.length + 8)
  let t := t.qm.resets.foldl (fun t r =>
    let x := queueAt t r.1
    if (chansWhere t (fun ch => ch.q == r.1)) == [] && (ctxAt t x.ctx).state != .killing then
      finishQueueReset t r.1 r.2.1 r.2.2
    else t) t
  let t := t.he.migrations.foldl migrationGoes t
  let t := sweptOn (beginSweep t)
  let t := t.he.resets.foldl (fun t r =>
    if r.step == 8 && clustersSettled t r.hive && marksSettled t r.hive then finishHiveReset t r else t) t
  let t := t.he.creates.foldl advanceCreate t
  let t := t.he.resizes.foldl (fun t j => if resizeDone t j then endResize t j .ok else t) t
  settleLinks (t.qm.jobs.foldl (fun t j => if jobDone t j then finishJob t j else t) t)

/-- R469, R95, R62: the sweep has read every line of the table; the kills and resets it served go on. -/
def sweepDone (s : State) : State :=
  let t := (List.range (Config.fences / 4)).foldl sweepLine s
  let t := t.onQm (fun m => { m with sweeping := false })
  let t := (t.qm.kills.filter (fun k => k.step == 4)).foldl recordKill t
  progress (t.onHe (fun e => { e with resets := e.resets.map (fun r => if r.step == 2 then { r with step := 3 } else r) }))

end Sys2Proof.Machine
end

