-- ==== Sys2Proof/Machine/Path.lean ====
section
/-! DEFINITION. The path of one command (R20 to R25, R69 to R74, R77, R105, R108, R109, R115, R121, R131, R226 to R228,
R464, R465): from the slot fetch to the end of the command on its channel. -/

namespace Sys2Proof.Machine

/-- Whether a hive's queues fetch and dispatch (R55, R203). -/
def hiveRuns (s : State) (h : Nat) : Bool :=
  (hiveAt s h).state == .active || (hiveAt s h).state == .resizing || (hiveAt s h).state == .migrating

/-! ## Fetch -/

/-- R464: the bounds of a queue and of the block. A RUNNING queue that holds none has a place of its own, which the others
leave free; one that comes to run while all are taken has the next that falls free (log 75). -/
def fetchRoom (s : State) (q : Nat) : Bool :=
  let mine (k : Nat) : Nat := (s.qm.cmds.filter (fun x => x.q == k)).length
  let kept := ((queuesWhere s (fun x => x.state == .running)).filter (fun k => k != q && mine k == 0)).length
  decide (mine q < Config.fetchedPerQueue) &&
    decide (s.qm.cmds.length + (if mine q = 0 then 0 else kept) < Config.fetchedInBlock)

/-- The device virtual address of a slot. -/
def slotVa (x : Queue) (idx : Nat) : Nat := uaAdd x.ringBase (idx % 2 ^ x.ringLog2 * 64)

/-- R69, R231, R235: the read of a slot in a host ring leaves, once its page has a translation. -/
def issueSlotRead (s : State) (q idx : Nat) : State :=
  let x := queueAt s q
  let va := slotVa x idx
  match pinnedEntry s x.ctx va .rd (.pre q idx) with
  | (t, .ok e) =>
    if e.host && hostRoom t then
      match hostSend t e va .rd (.pre q idx) with
      | (u, some a) =>
        (emit u (.hostRead u.hp.nextId (ctxAt s x.ctx).pasid a.1 64 a.2 .read)).onHp (fun h =>
          { h with reads := h.reads ++ [{ id := h.nextId, who := .pre q idx, va := va, len := 64, access := .read }],
                   nextId := h.nextId + 1 })
      | (u, none) => u
    else t
  | (_, .error _) => s

/-- R18, R20, R69, R464: the next slot's read leaves, charged to the queue's label, once the stream clock runs, which it
demands. A host ring is read over PCIe. -/
def execSlotFetch (q : Nat) (s : State) : Host.Outcome State Fault Refusal :=
  let x := queueAt s q
  let hive := (ctxAt s x.ctx).hive
  taken (x.state == .running && x.fetch != x.tail && fetchRoom s q && hiveRuns s hive) s
    (let t := setQueue (charge s x.label 128) q (fun y => { y with fetch := idxAdd y.fetch 1 })
     let t := t.onQm (fun m => { m with cmds := m.cmds ++
       [{ q := q, idx := x.fetch, ctx := x.ctx, stage := .reading, words := [], owed := [], hostDone := 0 }] })
     inStream s (issueSlotRead t q x.fetch))

/-- R20, R105, R108, R128: the words of a slot are in its buffer and are decoded. -/
def fetched (s : State) (q idx : Nat) (words : List Word) : State :=
  let t := setCmd s q idx (fun k => { k with words := words, owed := owedOf words, stage := .fetched })
  match firstBad true (q == 0) words with
  | some (w, st) => discard t q idx st w
  | none => t

/-- R465: the read of a slot in device memory: its words, or the status that ends the command; none in a host ring, and while
its line must wait. -/
def readSlot (s : State) (q idx : Nat) : State × Except Status (Option (List Word)) :=
  let x := queueAt s q
  let va := slotVa x idx
  let hive := (ctxAt s x.ctx).hive
  match pinnedEntry s x.ctx va .rd (.pre q idx) with
  | (t, .error st) => (t, .error st)
  | (t, .ok e) =>
    if e.host then (t, .ok none)
    else
      let pa := e.frame + va % 2 ^ e.sizeLog2
      let refused := logErr t { cls := 4, status := Status.rights.code, hive := hive, ugroup := 1, cause := 6,
                                ctx := x.ctx, paddr := pa }
      if paChip pa ≠ chipId s then (refused, .error .rights)
      else
        match combFor t hive (paLocal pa) with
        | none => (refused, .error .rights)
        | some k =>
          if mustWait t k.keySel (paLocal (lineOf pa)) none then (t, .ok none)
          else if k.locRd then
            let d := homeRead t hive k.keySel (paLocal (lineOf pa)) (levelOf s x.label)
            (d.1, if d.2.1 = .ok then .ok (some (wordsOf 8 (d.2.2.drop (pa - lineOf pa)))) else .error d.2.1)
          else (refused, .error .rights)

/-- R20, R465: a slot has been read: FETCHED, or ended. A slot of a host ring is here once its read has completed. -/
def execSlotReadDone (q idx : Nat) (s : State) : Host.Outcome State Fault Refusal :=
  let r : Requester := .pre q idx
  let out := s.hp.reads.any (fun x => x.who == r) || s.xl.atsReqs.any (fun a => a.wants.any (fun w => w.r == r))
  match cmdAt s q idx with
  | none => .next s
  | some k =>
    taken (k.stage == .reading && !out) s
      (if k.words ≠ [] then fetched s q idx k.words
       else
         match readSlot s q idx with
         | (t, .ok (some ws)) => fetched t q idx ws
         | (t, .ok none) => issueSlotRead t q idx
         | (t, .error st) => progress (discard t q idx st 0))

/-! ## Static spans -/

/-- R131: a static span: what its accesses need, and its parts in element order. -/
structure Span where
  need : Need
  acc : Access
  parts : List (Nat × Nat)

/-- The parts of a tile in device memory: one for each row of dimension 0. -/
def tileParts (t : List Word) (pair : Bool) : List (Nat × Nat) :=
  match Tile.ofWords t pair with
  | .error _ => []
  | .ok t =>
    if t.spad then []
    else
      let n := (if t.fmt.block then nth t.ext 0 1 / 32 else nth t.ext 0 1) * t.fmt.size
      (indices (t.ext.drop 1)).map (fun ix => (t.addr (0 :: ix), n))

/-- The spans of one word of the prefix. -/
def spansOf (ch : Channel) (o : Zop) : List Span :=
  let rd (p : List (Nat × Nat)) : Span := { need := .rd, acc := .read, parts := p }
  let wr (p : List (Nat × Nat)) : Span := { need := .wr, acc := .write, parts := p }
  let at1 (r : Nat) : Nat := (ch.greg r).toNat % 2 ^ 57
  match o with
  | .span d x l =>
    let dst := ch.src d % 2 ^ 57
    let src := ch.src x % 2 ^ 57
    let n := ch.src l
    if n = 0 ∨ 2 ^ 40 < n ∨ (dst + 2 ^ 57 - src) % 2 ^ 57 < n ∨ (src + 2 ^ 57 - dst) % 2 ^ 57 < n then []
    else [rd [(src, n)], wr [(dst, n)]]
  | .moveT td ts _ => [rd (tileParts (ch.treg ts) true), wr (tileParts (ch.treg td) true)]
  | .fillTile td _ => [wr (tileParts (ch.treg td) true)]
  | .fillSpan _ ga gl =>
    let n := (ch.greg gl).toNat
    if n = 0 ∨ 2 ^ 40 < n then [] else [wr [(at1 ga, n)]]
  | .convert td ts _ _ => [rd (tileParts (ch.treg ts) false), wr (tileParts (ch.treg td) false)]
  | .reduce td ts _ acc _ _ =>
    [rd (tileParts (ch.treg ts) false), { need := .atom, acc := .atomic, parts := tileParts (ch.treg td) (acc == 14) }]
  | .reduceCvt td ts _ _ _ _ =>
    [rd (tileParts (ch.treg ts) false), { need := .atom, acc := .atomic, parts := tileParts (ch.treg td) false }]
  | .stG _ ga off => [wr [(addVa (ch.greg ga).toNat off, 8)]]
  | .cap a _ => [wr [(ch.src a % 2 ^ 57, 8)]]
  | .gather gi _ gn _ go iw8 _ row =>
    let n := (ch.greg gn).toNat
    if n = 0 ∨ 2 ^ 24 < n then [] else [rd [(at1 gi, n * if iw8 then 8 else 4)], wr [(at1 go, n * row)]]
  | .scatter gi _ gn _ go iw8 _ _ row =>
    let n := (ch.greg gn).toNat
    if n = 0 ∨ 2 ^ 24 < n then [] else [rd [(at1 gi, n * if iw8 then 8 else 4)], rd [(at1 go, n * row)]]
  | _ => []

/-- R131: whether a word ends the prefix. -/
def endsPrefix (w : Nat) (o : Zop) : Bool :=
  zPred w != 0 || zPneg w ||
    match o with
    | .br _ => true
    | .loop _ _ => true
    | .call _ => true
    | .wait _ _ _ _ _ => true
    | .ldG _ _ _ _ => true
    | .launchAny _ _ _ _ _ => true
    | .launchList _ _ _ _ _ => true
    | .launchQuery _ => true
    | .atom _ _ _ rv _ _ _ _ _ => rv
    | _ => false

/-- R131: the spans of a slot, its registers as the prefix sets them; a `CALL` with its target in a word gives that
target wherever it stands. -/
def staticSpans (mgr : Bool) (code : List Word) : List Nat → Channel → (live : Bool) → List Span
  | [], _, _ => []
  | i :: r, ch, live =>
    match decodeAt true mgr code i with
    | .error _ => []
    | .ok o =>
      let go := live && !endsPrefix (codeWord code i) o
      let here : List Span := match o with
        | .call (.imm t) => [{ need := .rd, acc := .object, parts := [(t % 2 ^ 57, 256)] }]
        | _ => if go then spansOf ch o else []
      let ch' := if go then
          match o with
          | .gset rop gd ga gb imm ext => ch.setG gd (gsetResult ch rop ga gb imm ext)
          | .tset m td ts gs w w3g e => tsetResult ch m td ts gs w w3g e
          | _ => ch
        else ch
      here ++ staticSpans mgr code r ch' go

/-- The 32 MiB pages of a span, each with the first of its bytes that the span touches. -/
def pagesOf (p : Span) : List Nat :=
  (p.parts.flatMap (fun e =>
    if e.2 = 0 then []
    else (List.range ((e.1 + e.2 - 1) / 2 ^ 25 - e.1 / 2 ^ 25 + 1)).map (fun i =>
      (if i = 0 then e.1 else (e.1 / 2 ^ 25 + i) * 2 ^ 25) % 2 ^ 57))).foldl
    (fun a x => if a.any (fun y => y / 2 ^ 25 == x / 2 ^ 25) then a else a ++ [x]) []

/-- R226: the 4 KiB pages of a span inside the 32 MiB page of an address, each with the first of its bytes. -/
def hostPages (p : Span) (va : Nat) : List Nat :=
  let page := va / 2 ^ 25 * 2 ^ 25
  let part (e : Nat × Nat) (b : Nat) : List Nat :=
    let lo := Nat.max e.1 b
    let hi := Nat.min (e.1 + e.2) (b + 2 ^ 25)
    if hi ≤ lo then []
    else (List.range ((hi - 1) / 4096 - lo / 4096 + 1)).map (fun i =>
      (if i = 0 then lo else (lo / 4096 + i) * 4096) % 2 ^ 57)
  (p.parts.flatMap (fun e => part e page ++ part e (page + 2 ^ 57))).foldl
    (fun a x => if a.any (fun y => y / 4096 == x / 4096) then a else a ++ [x]) []

/-! ## Pre-translation -/

/-- What one page of pre-translation comes to. -/
inductive PageEnd
  | good
  /-- the command is parked, or waits for a translation request to be sent -/
  | parked
  | wait
  | ends (st : Status)
  deriving DecidableEq

/-- R216: the faults that a leaf without the right gives at pre-translation or at run time. -/
def faultOf (s : State) (k : FaultKind) (st : Status) (level : Nat) (acc : Access) (ctx va : Nat) (r : Requester) :
    State × PageEnd :=
  if k.resolvable then (resolvableFault s k level acc ctx va [r], .parked)
  else (permFault s k st level acc ctx va r, .ends st)

/-- R25, R51, R226: the comb check of a page at pre-translation: of the hive's combs as they stand, not as they stood when the
entry was filled (R48). A frame on another chip is its destination's to check. -/
def combPasses (s : State) (e : Tlb) (va : Nat) (n : Need) : Bool :=
  let pa := e.frame + va % 2 ^ e.sizeLog2
  paChip pa != chipId s || ((combFor s (ctxAt s e.ctx).hive (paLocal pa)).map (fun k => k.permits n)).getD false

/-- R226, R231: the host pages of a span, one after the other: each needs its translation; `pass` notes one that has it. The
number is how many were passed before and are still to be skipped. -/
def preHost (s : State) (r : Requester) (pass : State → State) (e : Tlb) (p : Span) : List Nat → Nat → State × PageEnd × Nat
  | [], k => (s, .good, k)
  | _ :: l, k + 1 => preHost s r pass e p l k
  | a :: l, 0 =>
    match hostEntry s e a p.need with
    | some _ => preHost (pass s) r pass e p l 0
    | none =>
      match atsRequest s e a [{ r := r, access := p.acc, va := a }] [] with
      | some u => (u, .parked, 0)
      | none => (s, .wait, 0)

/-- R226: one page of a static span: looked up, walked on a miss, its rights, its comb and its host translations checked.
`tmo`: the first table read that it makes is not answered (R225). The lookup leaves the pseudo-LRU as it is (log 44). -/
def prePage (s : State) (q idx ctx : Nat) (tmo : Bool) (p : Span) (va skip : Nat) : State × PageEnd × Nat :=
  let r : Requester := .pre q idx
  let one (x : State × PageEnd) : State × PageEnd × Nat := (x.1, x.2, skip)
  let walked : State × PageEnd × Nat :=
    if tmo then one (faultOf s .readError .timeout 0 p.acc ctx va r)
    else
      let w := walk s ctx va
      match w.2 with
      | .fault k level st => one (faultOf w.1 k st level p.acc ctx va r)
      | .leaf e lr _ =>
        let level := if e.sizeLog2 = 30 then 2 else 3
        if e.host then
          if p.need = .atom then (w.1, .good, skip)
          else if e.permits p.need then preHost w.1 r (fun t => setCmd t q idx (fun x => { x with hostDone := x.hostDone + 1 })) e p
              (hostPages p va) skip
          else one (faultOf w.1 .pteRights .ok level p.acc ctx va r)
        else if e.permits p.need then (l2Put w.1 e, .good, skip)
        else
          let f := rightsFault lr p.need
          one (faultOf w.1 f.1 f.2 level p.acc ctx va r)
  match l2Find s ctx va with
  | some (_, _, e) => if e.permits p.need && combPasses s e va p.need then (s, .good, skip) else walked
  | none => walked

/-- The pages of the spans in order, up to the first that is not good. -/
def prePages (s : State) (q idx ctx : Nat) (tmo : Bool) : List (Span × Nat) → Nat → State × PageEnd
  | [], _ => (s, .good)
  | x :: r, k =>
    match prePage s q idx ctx tmo x.1 x.2 k with
    | (t, .good, k) => prePages (disarm t (.pre q idx) x.2) q idx ctx tmo r k
    | (t, e, _) => (t, e)

/-- R23: whether every earlier command of the queue has left pre-translation. -/
def preTurn (s : State) (k : Cmd) : Bool :=
  let d := (queueAt s k.q).done
  s.qm.cmds.all (fun j => j.q != k.q || decide (dist k.idx d ≤ dist j.idx d) || j.stage == .preTranslated)

/-- R78: a queue that gains its first PRE_TRANSLATED command re-enters at the reference value. -/
def reenter (s : State) (q hive : Nat) : State :=
  if hasReady s q then s else setQueue s q (fun x => { x with vt := Nat.max x.vt (vtRef s hive q) })

/-- The static spans of a command, and their pages. -/
def cmdSpans (k : Cmd) : List Span := staticSpans (k.q == 0) k.words (starts k.words 9 0) Channel.empty true
def cmdPages (k : Cmd) : List (Span × Nat) := (cmdSpans k).flatMap (fun p => (pagesOf p).map (fun a => (p, a)))

/-- R20, R226, R227: pre-translation of a command: its spans are translated, checked and pinned; or it is parked, waits
for a pin, or ends. -/
def execPreTranslate (q idx : Nat) (s : State) : Host.Outcome State Fault Refusal :=
  match cmdAt s q idx with
  | none => .next s
  | some k =>
    let spans := cmdSpans k
    let pins := (s.qm.pins.filter (fun p => p.idx.isSome)).length
    taken (k.stage == .fetched && preTurn s k) s
      (if Config.commandPins < pins + spans.length then s
       else
         match prePages s q idx k.ctx false (cmdPages k) k.hostDone with
         | (t, .good) =>
           let t := reenter t q (ctxAt t k.ctx).hive
           let t := t.onQm (fun m => { m with pins := m.pins ++ spans.map (fun p =>
             { ctx := k.ctx, pages := (pagesOf p).map (fun a => a / 2 ^ 25), need := p.need, parts := p.parts, q := q,
               idx := some idx }) })
           setCmd t q idx (fun x => { x with stage := .preTranslated })
         | (t, .parked) => setCmd t q idx (fun x => { x with stage := .parked })
         | (t, .wait) => t
         | (t, .ends st) => progress (discard t q idx st 0))

/-- R132, R225: a table read that a command's pre-translation makes is not answered: its translation ends with TIMEOUT. -/
def preReadTimeout (s : State) (q idx : Nat) : State :=
  match cmdAt s q idx with
  | none => s
  | some k =>
    if k.stage == .fetched && preTurn s k then
      match prePages s q idx k.ctx true (cmdPages k) k.hostDone with
      | (t, .ends st) => progress (discard t q idx st 0)
      | _ => s
    else s

/-- R228: a command whose pre-translation has passed its bound is discarded. -/
def execPreTranslationTimeout (q idx : Nat) (s : State) : Host.Outcome State Fault Refusal :=
  match cmdAt s q idx with
  | none => .next s
  | some k => taken (k.stage == .fetched) s (progress (discard s q idx .timeout 0))

/-! ## Dispatch -/

/-- Channels that a hive's commands hold. -/
def held (s : State) (h : Nat) : Nat := (chansWhere s (fun ch => ch.hive == h)).length

/-- The lowest index of a queue among its commands without a channel. -/
def headCmd (s : State) (q : Nat) : Option Cmd :=
  let d := (queueAt s q).done
  (s.qm.cmds.filter (fun k => k.q == q)).foldl (fun a k =>
    match a with
    | none => some k
    | some j => if dist k.idx d < dist j.idx d then some k else some j) none

/-- R23, R74, R109: whether a queue's head can be dispatched. -/
def dispatchable (s : State) (q : Nat) : Bool :=
  let x := queueAt s q
  match headCmd s q with
  | none => false
  | some k =>
    k.stage == .preTranslated && x.state == .running && hiveRuns s (ctxAt s x.ctx).hive &&
      decide ((chansWhere s (fun ch => ch.q == q)).length < Config.dispatchedPerQueue) &&
      (!zOrd (codeWord k.words 0) || k.idx == x.done)

/-- The place of a hive in the round that starts after the hive last served. -/
def turn (s : State) (h : Nat) : Nat := (h + 511 - s.qm.lastHive) % 256

/-- R77: the hive served next. -/
def pickHive (s : State) : Option Nat :=
  let ready := (queuesWhere s (fun _ => true)).filter (dispatchable s)
  let hs := ((distinct (ready.map (fun q => (ctxAt s (queueAt s q).ctx).hive)))).filter
    (fun h => decide (held s h < (hiveAt s h).chCeiling))
  let below := hs.filter (fun h => decide (held s h < (hiveAt s h).chGuarantee))
  let ratio (a b : Nat) : Bool :=
    let x := held s a * (hiveAt s b).chGuarantee
    let y := held s b * (hiveAt s a).chGuarantee
    decide (x < y) || (x == y && decide (turn s a < turn s b))
  let best (lt : Nat → Nat → Bool) (l : List Nat) : Option Nat :=
    l.foldl (fun a h => match a with | none => some h | some b => if lt h b then some h else some b) none
  if below ≠ [] then best ratio below else best (fun a b => decide (turn s a < turn s b)) hs

/-- R78: the queue of a hive that is served next: the lowest `vt`, then the lowest number. -/
def pickQueue (s : State) (h : Nat) : Option Nat :=
  ((queuesOfHive s h).filter (dispatchable s)).foldl (fun a q =>
    match a with
    | none => some q
    | some b => if (queueAt s q).vt < (queueAt s b).vt then some q else some b) none

/-- R100, R108: a channel as dispatch leaves it. -/
def dispatched (s : State) (k : Cmd) : Channel :=
  let w := codeWord k.words 0
  { Channel.empty with
    state := .running, q := k.q, idx := k.idx, ctx := k.ctx, hive := (ctxAt s k.ctx).hive, label := (queueAt s k.q).label,
    code := k.words, owed := k.owed, scope := zScope w, host := zHost w, irq := zIrq w }

/-- R99, R405, R409: a FREE channel that the scheduler can grant. -/
def mayGrant (s : State) (c : Nat) : Bool :=
  decide (c < Config.channels) && (chanAt s c).state == .free && (moverAt s (c / 8)).inService && !(moverAt s (c / 8)).draining

/-- R77, R99, R109: the scheduler grants a FREE channel of a mover in service to the command it chooses. A mover that is awake
comes before a gated one, which is woken (R354). -/
def execDispatch (c : Nat) (s : State) : Host.Outcome State Fault Refusal :=
  let m := moverAt s (c / 8)
  match (pickHive s).bind (pickQueue s) with
  | none => .next s
  | some q =>
    match headCmd s q with
    | none => .next s
    | some k =>
      taken (mayGrant s c && (!m.gated || !(List.range Config.channels).any (fun d => mayGrant s d && !(moverAt s (d / 8)).gated))) s
        (let t := setMover (setChan s c (fun _ => dispatched s k)) (c / 8) (fun x => { x with gated := false })
         t.onQm (fun x => { x with cmds := x.cmds.filter (fun j => !(j.q == q && j.idx == k.idx)), lastHive := (ctxAt s k.ctx).hive }))

/-! ## The end of a command -/

/-- R115, R253, R256: a command whose last instruction has retired and whose writes are visible ends; HOST visibility is
sought first where word 0 claims it. Its interrupt follows its record. -/
def execCommandComplete (c : Nat) (s : State) : Host.Outcome State Fault Refusal :=
  let ch := chanAt s c
  let st := ch.lineStatus.getD ch.endStatus
  taken (ch.state == .ending && ch.retired && ch.hold == .none && !remoteBusy s c) s
    (if needsFlush ch ch.host && st == .ok then flushRead s c
     else progress (endCommand s c st ch.endDepth ch.endWord))

/-- R121 steps 5 to 7: nothing of an aborted command is outstanding: it ends. -/
def execAbortSettleDone (c : Nat) (s : State) : Host.Outcome State Fault Refusal :=
  let ch := chanAt s c
  let out := remoteBusy s c || s.hp.reads.any (fun r => r.who == .chan c) || s.hp.flushes.any (fun f => f.2 == c)
  taken (ch.state == .ending && !ch.retired && ch.hold == .none && !out) s
    (progress (endCommand s c ch.endStatus ch.endDepth ch.endWord))

end Sys2Proof.Machine
end

