-- ==== Sys2Proof/Machine/Faults.lean ====
section
/-! DEFINITION. How a run-time translation ends (R116, R117, R214 to R217, R225), and what answers it: the manager's
answer words (R242, R243), the host's ATS and PRI messages (R232 to R237), the page-fault service timeout, and the
completions of host reads (R235, R253). -/

namespace Sys2Proof.Machine

/-! ## The host port's state -/

/-- R394, R388: the stages of `boot_stage`. -/
def stageReady : Nat := 4
def stageHeld : Nat := 5
def stageRecovery : Nat := 6

/-- R434, R421: host accesses below the mailbox are served: stage READY, no block warm reset, not in D3hot. -/
def blockReady (s : State) : Bool :=
  s.kp.mbox.bootStage == stageReady && s.kp.warm.isNone && !s.clk.cold && !s.hp.d3hot

def count (s : State) (f : Counters → Counters) : State := s.onHp (fun h => { h with counters := f h.counters })

/-- R420, R421: a host transaction that breaks an access rule is logged, and reported as AER requires. -/
def refuseHost (s : State) : State := emit (refuseInput s true 11 0) .aerReport

/-- R435: a sunk posted write; one that breaks an access rule is also logged (R420). -/
def sinkWrite (s : State) (logged : Bool) : State :=
  let t := count s (fun c => { c with sunkWr := satInc 32 c.sunkWr })
  if logged then refuseHost t else t

/-! ## Requesters -/

def needOfAccess : Access → Need
  | .read => .rd
  | .object => .rd
  | .write => .wr
  | .atomic => .atom

/-- A channel goes on with its instruction; one that ends stays ENDING. -/
def wake (s : State) (c : Nat) : State :=
  setChan s c (fun x =>
    { x with hold := .none, state := if x.state = .faulted ∨ x.state = .waiting then .running else x.state })

/-- The record of an index that waits for its translation. -/
def recordAt (s : State) (q idx : Nat) : Option PendRec := s.qm.records.find? (fun r => r.q == q && r.idx == idx)

/-- R226, R237, R243: a requester ends with a status. -/
def endReq (s : State) (st : Status) (r : Requester) : State :=
  let t := dropRequester s r
  match r with
  | .chan c => finish (wake t c) c st
  | .pre q idx => discard t q idx st 0
  | .record q idx =>
    match recordAt t q idx with
    | some k => recordDone (lostRecord t (queueAt t q).ctx 0 st false) k
    | none => t

/-- A command before dispatch is in FETCHED, or still at its slot read. -/
def unpark (s : State) (q idx : Nat) : State :=
  match cmdAt s q idx with
  | none => s
  | some k =>
    if k.words = [] then issueSlotRead (setCmd s q idx (fun k => { k with stage := .reading })) q idx
    else setCmd s q idx (fun k => { k with stage := .fetched })

/-- R226, R243: a requester looks up again. -/
def retryReq (s : State) : Requester → State
  | .chan c => wake s c
  | .pre q idx => unpark s q idx
  | .record q idx => match recordAt s q idx with | some k => startRecord s k | none => s

/-- R116, R226: a requester is held by a fault. -/
def faultReq (s : State) : Requester → State
  | .chan c => setChan s c (fun x => { x with state := .faulted, hold := .walk })
  | .pre q idx => setCmd s q idx (fun k => { k with stage := .parked })
  | .record _ _ => s

/-- A requester waits for the host's answer. -/
def hostReq (s : State) : Requester → State
  | .chan c => setChan s c (fun x => { x with state := .running, hold := .walk })
  | .pre q idx => setCmd s q idx (fun k => { k with stage := .parked })
  | .record _ _ => s

/-- R70, R227: whether the address is one that the requester's command has pinned for an access, or its queue's bind. -/
def pinnedReq (s : State) (ctx va : Nat) (n : Need) : Requester → Bool
  | .chan c => pinnedBy s (chanAt s c).q (chanAt s c).idx ctx va n
  | .record _ _ => true
  | .pre _ _ => false

/-- R237: a permanent fault of each of some requesters. -/
def permAll (s : State) (k : FaultKind) (st : Status) (level : Nat) (acc : Access) (ctx va : Nat)
    (rs : List Requester) : State :=
  rs.foldl (fun t r => endReq (permFault t k st level acc ctx va r) st r) s

/-- R214, R225, R227, R234, R237, R241: a translation ends in a fault of requesters with one access. A fault of the device
tables inside a pinned span has no record and ends with FAULT; a malformed entry and a table read that ends keep their
status and record there too. -/
def meetFault (s : State) (k : FaultKind) (st : Status) (level : Nat) (acc : Access) (ctx va : Nat)
    (reqs : List Requester) : State :=
  let own := k == .hostPage || k == .hostDenied || k == .malformed || k == .readError
  let pinned (r : Requester) : Bool := !own && pinnedReq s ctx va (needOfAccess acc) r
  let t := (reqs.filter pinned).foldl (fun t r => endReq t .fault r) s
  let rest := reqs.filter (fun r => !pinned r)
  if rest = [] then t
  else if k.resolvable then rest.foldl faultReq (resolvableFault t k level acc ctx va rest)
  else permAll t k st level acc ctx va rest

/-- The wants of a walk or of a translation request, grouped by access: the access, the first address, the requesters. -/
def byAccess (ws : List Want) : List (Access × Nat × List Requester) :=
  [Access.read, .write, .atomic, .object].filterMap (fun a =>
    match ws.filter (fun w => w.access == a) with
    | [] => none
    | w :: r => some (a, w.va, (w :: r).map (·.r)))

/-- R237: every want ends in a fault. -/
def faultAll (s : State) (k : FaultKind) (st : Status) (level ctx : Nat) (ws : List Want) : State :=
  (byAccess ws).foldl (fun t g => meetFault t k st level g.1 ctx g.2.1 g.2.2) s

/-! ## Walks -/

/-- R217, R221: a translation enters the first-level buffer of a requester, which goes on; a completion record takes it as it
is. -/
def granted (s : State) (e : Tlb) (w : Want) : State :=
  match w.r with
  | .chan c => retryReq (disarm (install s (c / 8) e) w.r w.va) w.r
  | .record q idx =>
    match recordAt s q idx with
    | some k => recordGo (if e.host then s else l2Put s e) k e
    | none => s
  | .pre _ _ => retryReq (disarm s w.r w.va) w.r

/-- R231, R232: a want under a HOST leaf that grants it: its translation is at hand, or a translation request is made. The
answer is none where no request can be sent. -/
def hostWant (s : State) (leaf : Tlb) (w : Want) : Option State :=
  match hostEntry s leaf w.va (needOfAccess w.access) with
  | some e => some (granted s e w)
  | none => atsRequest (hostReq s w.r) leaf w.va [w] []

/-- R216: what one want comes to under a leaf; none where it must wait to send a translation request. A pinned span keeps the
rights it was checked with (R194). -/
def leafWant (s : State) (e : Tlb) (lr gr : Need → Bool) (w : Want) : Option State :=
  let n := needOfAccess w.access
  let level := if e.sizeLog2 = 30 then 2 else 3
  if e.host ∧ n = .atom then some (endReq s .range w.r)
  else if e.permits n then (if e.host then hostWant s e w else some (granted s e w))
  else if gr n && pinnedReq s e.ctx w.va n w.r then
    let x : Tlb := { e with rd := gr .rd, wr := gr .wr, atom := gr .atom }
    some (match w.r with
      | .chan c => retryReq (l1Put s (c / 8) x) w.r
      | .record q idx => (match recordAt s q idx with | some k => recordGo s k x | none => s)
      | .pre _ _ => s)
  else
    let f := if e.host then (FaultKind.pteRights, Status.ok) else rightsFault lr n
    some (meetFault s f.1 f.2 level w.access e.ctx w.va [w.r])

/-- The wants of a walk that has reached a leaf; those that cannot send their request are left. -/
def leafWants (s : State) (e : Tlb) (lr gr : Need → Bool) : List Want → State × List Want
  | [] => (s, [])
  | w :: r =>
    match leafWant s e lr gr w with
    | some t => leafWants t e lr gr r
    | none => let x := leafWants s e lr gr r; (x.1, w :: x.2)

/-- R214 to R217, R229, R231: what a walk comes to for those that want it. A walk that needs a translation request stays in
progress for those that cannot send one (R232). -/
def settleWalk (s : State) (w : Walk) : State :=
  let gone := s.onXl (fun x => { x with walks := x.walks.filter (fun y => y.id != w.id) })
  let r := walk gone w.ctx w.va
  forageOn
    (match r.2 with
     | .fault k level st => faultAll r.1 k st level w.ctx w.wants
     | .leaf e lr gr =>
       let x := leafWants (foragerLeaf r.1 e w.forager) e lr gr w.wants
       if x.2 = [] then x.1
       else x.1.onXl (fun y => { y with walks := y.walks ++ [{ w with wants := x.2, forager := [] }] }))
    1024

/-- R214, R219, R225: a walk that a walker serves ends; one that began before an invalidation of its context walks again. -/
def execTableWalkDone (w : Nat) (s : State) : Host.Outcome State Fault Refusal :=
  match (served s).find? (fun k => k.id == w) with
  | none => .next s
  | some k =>
    let now := (ctxAt s k.ctx).invSeq
    .next (if k.seq = now then progress (settleWalk s k)
      else s.onXl (fun x => { x with walks := x.walks.map (fun y => if y.id == w then { y with seq := now } else y) }))

/-! ## Page requests -/

/-- R233: a group index for a page request: as many are outstanding at most as the host's allocation and 512 let. -/
def freeGroup (s : State) : Option Nat :=
  if Nat.min 512 s.hp.priAlloc ≤ (s.xl.pri.filter (fun p => p.group.isSome)).length then none
  else ((List.range 512).map (fun i => (s.xl.priGroup + i) % 512)).find? (fun g => !s.xl.pri.any (fun p => p.group == some g))

/-- The records of a page request. -/
def recsOf (s : State) (ctx page : Nat) : List FaultRec :=
  (s.xl.faults ++ s.xl.resWait).filter (fun f => f.kind == .hostPage && f.ctx == ctx && f.va / 4096 == page)

/-- R233: the first page request that waits is sent, with the bits that its requesters need, where a group is free. One whose
page has a request outstanding waits for its response; one whose records have all been withdrawn is none any more. -/
def sendOnePri (s : State) : State :=
  let s := s.onXl (fun x => { x with pri := x.pri.filter (fun p => p.group.isSome || recsOf s p.ctx p.page != []) })
  let clear (p : PriReq) : Bool :=
    p.group.isNone && !s.xl.pri.any (fun y => y.group.isSome && y.pasid == p.pasid && y.page == p.page)
  match s.xl.pri.find? clear, freeGroup s with
  | some p, some g =>
    let fs := recsOf s p.ctx p.page
    let w := fs.any (fun f => f.access == .write)
    let r := fs.any (fun f => f.access != .write)
    (emit s (.pageRequest p.pasid g (p.page * 4096) r w)).onXl (fun x =>
      { x with priGroup := (g + 1) % 512, pri := x.pri.map (fun y => if y == p then { y with group := some g } else y) })
  | _, _ => s

/-- R233: the page requests that wait are sent, as far as groups are free and PRI is on. -/
def sendPri (s : State) : State := if s.hp.priOn then s.xl.pri.foldl (fun t _ => sendOnePri t) s else s

/-- R70, R233, R235: a host translation lacks the right: HOST_DENIED where no page request may be sent, else a page request,
merged with one for the page. A `QUEUE_BIND` sends no page request and ends. -/
def pageRequest (s : State) (ctx va : Nat) (acc : Access) (reqs : List Requester) : State :=
  if !s.hp.priOn || s.hp.priFailed then meetFault s .hostDenied .fault 0 acc ctx va reqs
  else
    let s := permAll s .hostPage .fault 0 acc ctx va (reqs.filter (binding s))
    let reqs := reqs.filter (fun r => !binding s r)
    if reqs = [] then s
    else
      let p := (ctxAt s ctx).pasid
      let t := meetFault s .hostPage .ok 0 acc ctx va reqs
      if t.xl.pri.any (fun y => y.pasid == p && y.page == va / 4096 && !y.answered) then t
      else
        sendPri (t.onXl (fun x => { x with pri := x.pri ++
          [{ group := none, pasid := p, ctx := ctx, page := va / 4096, answered := false }] }))

/-- A record leaves the outstanding ones. -/
def dropRec (s : State) (f : FaultRec) : State :=
  s.onXl (fun x =>
    { x with faults := x.faults.filter (fun g => g != f), resWait := x.resWait.filter (fun g => g != f) })

/-- R243: the requesters of a record walk again, or send a new translation request; a fault that recurs for one of them counts
this record. A channel's next walk finds the HOST leaf and asks again. -/
def retryRec (s : State) (f : FaultRec) : State :=
  let n := repeatOf s f.ctx f.page f.access f.reqs + 1
  let t := (dropRec s f).onXl (fun x =>
    { x with
      repeats := x.repeats.filter (fun r => !(r.ctx == f.ctx && r.page == f.page && r.access == f.access &&
          r.reqs.any f.reqs.contains)) ++
        [{ ctx := f.ctx, page := f.page, access := f.access, count := n, reqs := f.reqs }] })
  f.reqs.foldl retryReq t

/-- R233: a record becomes HOST_DENIED. -/
def denyRec (s : State) (f : FaultRec) : State :=
  permAll (dropRec s f) .hostDenied .fault 0 f.access f.ctx f.va f.reqs

/-! ## Answers -/

/-- R244: a manager's answer to a HOST_PAGE record comes before the host's response: an outstanding page request is answered,
so its response acts on nothing; one that waits for a group is not sent. -/
def endPri (s : State) (f : FaultRec) : State :=
  if f.kind = .hostPage then
    let mine (p : PriReq) : Bool := p.ctx == f.ctx && p.page == f.va / 4096
    s.onXl (fun x => { x with pri := (x.pri.filter (fun p => !(mine p && p.group.isNone))).map (fun p =>
      if mine p then { p with answered := true } else p) })
  else s

/-- R242: an answer or response that finds nothing to act on. -/
def dupResponse (s : State) : State := count s (fun c => { c with dupResp := satInc 32 c.dupResp })

/-- R242 to R244: a manager answer. -/
def execFaultAnswer (w : Word) (s : State) : Host.Outcome State Fault Refusal :=
  let i := fld w.toNat 32 32
  let a := fld w.toNat 0 8
  hostAccess s
    (if !blockReady s then sinkWrite s false
     else
       match s.xl.faults.find? (fun f => f.index == i) with
       | none => dupResponse s
       | some f =>
         if a = 0 then progress (drainAll (retryRec (endPri s f) f))
         else if a = 1 then progress (drainAll (f.reqs.foldl (fun t r => endReq t .fault r) (dropRec (endPri s f) f)))
         else if a = 2 then progress (drainAll (f.reqs.foldl (fun t r => endReq t .rights r) (dropRec (endPri s f) f)))
         else dupResponse s)

/-- R239: the fault-consumed word. -/
def execFaultConsumed (w : Word) (s : State) : Host.Outcome State Fault Refusal :=
  let v := fld w.toNat 0 32
  hostAccess s
    (if !blockReady s then sinkWrite s false
     else if dist v s.xl.faultConsumed ≤ dist s.xl.faultNext s.xl.faultConsumed then
       drainAll (s.onXl (fun x => { x with faultConsumed := v }))
     else count s (fun c => { c with badConsumed := satInc 32 c.badConsumed }))

/-- R243: a requester's fault has not been resolved within 2 s of its first record, which RETRY does not restart. -/
def execPageFaultServiceTimeout (r : Requester) (s : State) : Host.Outcome State Fault Refusal :=
  taken (s.xl.timers.any (fun t => t.1 == r)) s (progress (endReq s .fault r))

/-! ## ATS and PRI -/

/-- R421: channels whose request to the host waits for room try again. -/
def hostOn (s : State) : State :=
  (chansWhere s (fun ch => ch.hold == .hostRead)).foldl (fun t c =>
    if t.hp.reads.any (fun r => r.who == .chan c) then t else setChan t c (fun x => { x with hold := .none })) s

/-- Translation requests that could not be sent are tried again: walks in progress do it at their end, slot reads at
SLOT_READ_DONE; records that wait here do it when a request has ended. -/
def sendWaiting (s : State) : State :=
  let out (r : PendRec) : Bool :=
    s.xl.walks.any (fun a => a.wants.any (fun w => w.r == .record r.q r.idx)) ||
      s.xl.atsReqs.any (fun a => a.wants.any (fun w => w.r == .record r.q r.idx)) ||
      (s.xl.faults ++ s.xl.resWait).any (fun f => f.reqs.contains (.record r.q r.idx)) ||
      s.sw.txns.any (fun t => t.kind == .record r.q r.idx) ||
      (atUnits s).any (fun h => h.ticket && h.req.origin == .record r.q r.idx)
  (s.qm.records.filter (fun r => !out r)).foldl startRecord (hostOn s)

/-- R219, R232, R233, R236: the host's answer to a translation request. One that no one wants any more installs nothing (R230);
one whose leaf was read before an invalidation of its context is discarded, and its requesters look up again. -/
def execAtsTranslationCompletion (id : Nat) (a : AtsAnswer) (s : State) : Host.Outcome State Fault Refusal :=
  match s.xl.atsReqs.find? (fun r => r.id == id) with
  | none => .next (s.onXl (fun x => { x with atsLost := x.atsLost + 1 }))
  | some q =>
    let t := s.onXl (fun x => { x with atsReqs := x.atsReqs.filter (fun r => r.id != id) })
    .next (progress (sendWaiting
      (if q.seq ≠ (ctxAt s q.ctx).invSeq then q.wants.foldl (fun t w => retryReq t w.r) t else match a with
       | .error => faultAll t .hostDenied .fault 0 q.ctx q.wants
       | .translation sz frame r w =>
         let n := Nat.max 12 sz
         let e : Tlb :=
           { ctx := q.ctx, va := q.va / 2 ^ n * 2 ^ n, sizeLog2 := n, frame := frame / 2 ^ n * 2 ^ n, host := true,
             translated := true, rd := r, wr := w, atom := false, nopf := false, hive := (ctxAt t q.ctx).hive }
         let u := if (r || w) && (q.wants != [] || q.forager != []) then atsPut t e else t
         let ok := q.wants.filter (fun x => e.permits (needOfAccess x.access))
         let no := q.wants.filter (fun x => !e.permits (needOfAccess x.access))
         let v := ok.foldl (fun t x => (hostWant t q.leaf x).getD t) u
         (byAccess no).foldl (fun t g => pageRequest t q.ctx g.2.1 g.1 g.2.2) v)))

/-- R232, R245: a translation request has had no answer for 100 µs. -/
def execAtsRequestTimeout (id : Nat) (s : State) : Host.Outcome State Fault Refusal :=
  match s.xl.atsReqs.find? (fun r => r.id == id) with
  | none => .next s
  | some q =>
    .next (progress (sendWaiting (q.wants.foldl (fun t w => endReq t .timeout w.r)
      (s.onXl (fun x => { x with atsReqs := x.atsReqs.filter (fun r => r.id != id) })))))

/-- R233, R244, R437: a Page Request Group Response. -/
def execPrgResponse (pasid group : Nat) (code : PrgCode) (s : State) : Host.Outcome State Fault Refusal :=
  let hit := s.xl.pri.find? (fun p => p.group == some group && p.pasid == pasid)
  hostAccess s
    (match hit, Tab.look s.hp.pasids pasid with
     | some p, some _ =>
       let t := s.onXl (fun x => { x with pri := x.pri.filter (fun y => y != p) })
       let late : Bool := p.answered
       match code with
       | .success =>
         if late then sendPri (dupResponse t)
         else progress (sendPri (drainAll ((recsOf t p.ctx p.page).foldl retryRec t)))
       | .invalidRequest =>
         if late then sendPri (dupResponse t)
         else progress (sendPri (drainAll ((recsOf t p.ctx p.page).foldl denyRec t)))
       | .responseFailure =>
         let t := (t.onXl (fun x => { x with pri := [] })).onHp (fun h => { h with priFailed := true })
         progress (drainAll (((t.xl.faults ++ t.xl.resWait).filter (fun f => f.kind == .hostPage)).foldl denyRec t))
     | _, _ => dupResponse s)

/-- R234: an invalidation's completion leaves once the host reads that used what it removed have ended. -/
def settleInvs (s : State) : State :=
  let live (l : List Nat) : List Nat := l.filter (fun i => s.hp.reads.any (fun r => r.id == i))
  let is := s.xl.atsInvs.map (fun i => (i.1, live i.2))
  (is.filter (fun i => i.2 == [])).foldl (fun t i => emit t (.atsInvalidationDone i.1))
    (s.onXl (fun x => { x with atsInvs := is.filter (fun i => i.2 != []) }))

/-- R234, R437: an ATS Invalidation Request. -/
def execAtsInvalidationRequest (itag : Nat) (pasid : Option Nat) (va sizeLog2 : Nat) (s : State) :
    Host.Outcome State Fault Refusal :=
  let len := 2 ^ sizeLog2
  let a := va / len * len
  hostAccess s
    (match pasid.bind (fun p => Tab.look s.hp.pasids p) with
     | none =>
       emit (count s (fun c => { c with staleInv := satInc 32 c.staleInv })) (.atsInvalidationDone itag)
     | some ctx =>
       let gone (e : Tlb) : Bool := e.host && e.overlaps ctx a len
       let used := s.hp.reads.filter (fun r =>
         (requesterInfo s r.who).2.2.1 == ctx &&
           decide (r.va < a + len) && decide (a < r.va + r.len))
       settleInvs (s.onXl (fun x =>
         { x with
           ats := x.ats.filter (fun e => !gone e)
           l1 := Tab.mapv x.l1 (fun _ l => l.filter (fun e => !gone e))
           forager := x.forager.filter (fun f => !hintIn f ctx a len)
           walks := (x.walks.map (fun w =>
             if hintIn { chan := 0, ctx := w.ctx, va := w.va } ctx a len then { w with forager := [] } else w)).filter
               (fun w => w.wants != [] || w.forager != [])
           atsReqs := x.atsReqs.map (fun y =>
             if hintIn { chan := 0, ctx := y.ctx, va := y.va } ctx a len then { y with forager := [] } else y)
           atsInvs := x.atsInvs ++ [(itag, used.map (·.id))] })))

/-- R233, R235: host software enables or disables ATS or PRI, PRI with an allocation of page requests. Enabling PRI again ends the
state after a Response Failure; host translations made under the other setting of ATS leave. Page faults whose request has not
been sent when PRI is disabled become HOST_DENIED, as every later one does (R235, log 73). -/
def execPriEnableChange (ats : Bool) (pri : Option Nat) (s : State) : Host.Outcome State Fault Refusal :=
  let t := s.onHp (fun h =>
    { h with atsOn := ats, priOn := pri.isSome, priAlloc := pri.getD h.priAlloc, priFailed := h.priFailed && !(pri.isSome && !h.priOn) })
  let u := if ats = s.hp.atsOn then t
    else t.onXl (fun x => { x with ats := [], l1 := Tab.mapv x.l1 (fun _ l => l.filter (fun e => !e.host)) })
  .next (if pri.isSome then sendPri u
    else
      let unsent := (u.xl.pri.filter (fun p => p.group.isNone)).flatMap (fun p => recsOf u p.ctx p.page)
      progress (drainAll (unsent.foldl denyRec (u.onXl (fun x => { x with pri := x.pri.filter (fun p => p.group.isSome) })))))

/-! ## Host reads -/

/-- R235: the completion of an outbound read of host memory. -/
def execHostReadCompletion (id : Nat) (ok : Bool) (data : List Byte) (s : State) : Host.Outcome State Fault Refusal :=
  match s.hp.reads.find? (fun r => r.id == id) with
  | none => .next s
  | some r =>
    let t := settleInvs (hostOn (s.onHp (fun h => { h with reads := h.reads.filter (fun x => x.id != id) })))
    let d := (data ++ List.replicate r.len 0).take r.len
    let live : Bool := match r.who with
      | .chan c => (chanAt s c).state != .free && (chanAt s c).state != .ending
      | .pre q idx => (cmdAt s q idx).isSome
      | .record _ _ => false
    .next
      (if !live then t
       else if ok then
         match r.who with
         | .chan c => setChan (wake t c) c (fun x => { x with rob := Tab.put x.rob r.va d })
         | .pre q idx => setCmd t q idx (fun k => { k with words := wordsOf 8 d })
         | .record _ _ => t
       else progress (endReq (permFault t .hostDenied .fault 0 r.access (requesterInfo t r.who).2.2.1 r.va r.who) .fault r.who))

/-- R253: a flush read has completed: the writes ahead of it have reached the host. -/
def execHostFlushReadCompletion (id : Nat) (s : State) : Host.Outcome State Fault Refusal :=
  match s.hp.flushes.find? (fun f => f.1 == id) with
  | none => .next s
  | some f =>
    .next (setChan (wake (hostOn (s.onHp (fun h => { h with flushes := h.flushes.filter (fun x => x.1 != id) }))) f.2) f.2
      (fun x => { x with hostWritten := false }))

end Sys2Proof.Machine
end

