-- ==== Sys2Proof/Machine/Sequencer.lean ====
section
/-! DEFINITION. The sequencer's part: the start of the resets of rungs 5 and 6 (R345, R346, R348), the gates of
interrupt messages (R329, R337, R433), the acknowledgement of hive events (R339, R342), the watchdog of a queue, the
timeout of a `WAIT`, and the fence cache's own events (R90, R93, R469). -/

namespace Sys2Proof.Machine

/-! ## Resets of rungs 5 and 6 -/

/-- R348: the function's PCIe state starts afresh; the messages that the host's masks held go with it. -/
def dropPcie (s : State) : State :=
  (s.onHp (fun h =>
    { h with msix := [], msixFunctionMask := false, pba := [], atsOn := false, priOn := false, priAlloc := 0, d3hot := false })).onSq
    (fun q => { q with msgs := q.msgs.filter (fun m => !s.hp.pba.contains m.vector) })

/-- R348: a cause of a block warm reset. One in progress absorbs it, and keeps PCIe state only if every cause keeps it.
A block held at step 1 (R389), in RECOVERY or in cold reset stays there. -/
def startWarm (s : State) (keepPcie : Bool) : State :=
  if s.clk.cold || s.kp.mbox.bootStage == stageHeld || s.kp.mbox.bootStage == stageRecovery then
    if keepPcie || s.clk.cold then s else dropPcie s
  else
    s.onKp (fun k =>
      { k with
        warm := some (match k.warm with
          | some j => { j with keepPcie := j.keepPcie && keepPcie }
          | none => { keepPcie := keepPcie, clearing := false, stepsDone := false })
        mbox := { k.mbox with bootStage := 3 } })

/-- R346, R418: a block-wide fatal error. -/
def fatal (s : State) (hive ugroup unit cause : Nat) : State :=
  startWarm (logErr s { cls := 6, status := Status.hwError.code, hive := hive, ugroup := ugroup, unit := unit,
                        cause := cause }) true

/-- R55, R346: a hardware hive reset. A hive that is already in RESETTING or DESTROYING absorbs it; a creation ends
under R57; hive 0 is reset by a block warm reset. -/
def hwHiveReset (s : State) (h cause detail : Nat) : State :=
  if h = 0 then fatal s 0 0 0 (if cause = 2 then 0xA else 2)
  else
    match (hiveAt s h).state with
    | .free => s
    | .creating => s
    | .resetting => s
    | .destroying => s
    | _ => startHiveReset (wakeStream s) h false none cause detail false

/-- R345: an entry for an escalation. -/
def logEscalation (s : State) (h : Nat) : State :=
  logErr s { cls := 2, status := Status.hwError.code, hive := h, ugroup := 0, cause := 0xA }

/-- R345: a reset has not ended by twice its bound. -/
def execResetEscalation (o : Overrun) (s : State) : Host.Outcome State Fault Refusal :=
  match o with
  | .commandAbort c =>
    let ch := chanAt s c
    taken (ch.state == .ending && !ch.retired) s
      (progress (hwHiveReset (logEscalation s ch.hive) ch.hive 2 2))
  | .queueReset q =>
    let h := (ctxAt s (queueAt s q).ctx).hive
    taken (s.qm.resets.any (fun r => r.1 == q)) s
      (progress (hwHiveReset (logEscalation s h) h 2 3))
  | .contextKill x =>
    let h := (ctxAt s x).hive
    taken (s.qm.kills.any (fun k => k.ctx == x)) s (progress (hwHiveReset (logEscalation s h) h 2 4))
  | .hiveReset h =>
    taken (s.he.resets.any (fun r => r.hive == h)) s (startWarm (logEscalation s h) true)
  | .warmReset =>
    taken (match s.kp.warm with | some j => !j.stepsDone | none => false) s
      ((logEscalation s 255).onKp (fun k => { k with watchdogStarved := true }))

/-! ## Messages -/

/-- R335: the hive in whose range a vector lies. -/
def vectorOwner (s : State) (v : Nat) : Option Nat :=
  (s.he.hives.find? (fun e => decide (e.2.vecFirst ≤ v) && decide (v < e.2.vecFirst + e.2.vecCount))).map (·.1)

/-- R329: the hive whose budget a message is charged to; hive 0's where the hive's `label_first` is not bound. -/
def budgetHive (s : State) (h : Nat) : Nat :=
  if (hiveAt s h).labelCount ≠ 0 ∧ (labelAt s (hiveAt s h).labelFirst).hive = h then h else 0

def setMsg (s : State) (v : Nat) (f : PendMsg → PendMsg) : State :=
  s.onSq (fun q => { q with msgs := q.msgs.map (fun m => if m.vector = v then f m else m) })

def msixAt (s : State) (v : Nat) : MsixEntry := (Tab.look s.hp.msix v).getD { addr := 0, data := 0, masked := true }

/-- R329, R337: the vector's pending bit is set. -/
def setPending (s : State) (v : Nat) : State :=
  s.onHp (fun h => { h with pba := if h.pba.contains v then h.pba else h.pba ++ [v] })

/-- R329, R333, R337: gates 1 and 2: the message is charged to its budget, or held with its vector's pending bit set. `irq_held`
counts each held message once, since binding (log 87). -/
def chargeMessage (s : State) (m : PendMsg) : State × Bool :=
  if m.charged then (s, true)
  else if ((vectorOwner s m.vector).map (fun h => (hiveAt s h).masked)).getD true then (s, false)
  else
    let b := budgetHive s m.hive
    let l := (hiveAt s b).labelFirst
    if (hiveAt s b).irqSent < (labelAt s l).irqMax then
      (setMsg (setHive s b (fun h => { h with irqSent := h.irqSent + 1 })) m.vector (fun x => { x with charged := true }),
        true)
    else if m.held then (s, false)
    else
      (setLabel (setMsg (setPending s m.vector) m.vector (fun x => { x with held := true })) l
        (fun x => { x with irqHeld := satInc 16 x.irqHeld, sat := x.sat || decide (2 ^ 16 - 1 ≤ x.irqHeld + 1) }), false)

/-- R337, R433: gate 3, and the send. -/
def sendMessage (s : State) (v : Nat) : State :=
  let e := msixAt s v
  if e.masked || s.hp.msixFunctionMask then
    setPending s v
  else if e.addr % 4 ≠ 0 then logErr s { cls := 4, ugroup := 11, unit := v, cause := 6 }
  else
    let t := emit s (.msix v e.addr e.data .ordered)
    let t := t.onHp (fun h => { h with pba := h.pba.filter (· != v) })
    t.onSq (fun q =>
      { q with msgs := q.msgs.filter (fun m => m.vector != v),
               retargets := if v = (hiveAt s 0).vecFirst then [] else q.retargets })

/-- R337, R433: a pending vector meets its gates; past them its message is sent with the entry in force. -/
def execMsixMessageSend (v : Nat) (s : State) : Host.Outcome State Fault Refusal :=
  match s.sq.msgs.find? (fun m => m.vector == v) with
  | none => .next s
  | some m =>
    let r := chargeMessage s m
    .next (if r.2 then sendMessage r.1 v else r.1)

/-- R339, R342: the event-consumed word; the record of lost events comes first when space becomes free. -/
def execEventConsumed (w : Word) (s : State) : Host.Outcome State Fault Refusal :=
  let v := fld w.toNat 0 32
  hostAccess s
    (if !blockReady s then sinkWrite s false
     else if dist v s.sq.eventConsumed ≤ dist s.sq.eventNext s.sq.eventConsumed then
       let t := s.onSq (fun q => { q with eventConsumed := v })
       if t.sq.eventLost ≠ 0 ∧ eventRoom t then
         hiveEvent (t.onSq (fun q => { q with eventLost := 0 })) 0x0F 255 (Nat.min t.sq.eventLost (2 ^ 32 - 1)) 0
       else t
     else count s (fun c => { c with badConsumed := satInc 32 c.badConsumed }))

/-! ## Watchdog and wait -/

/-- R80: a dispatched command has outlasted `wd_ms`. -/
def execQueueWatchdogExpiry (c : Nat) (s : State) : Host.Outcome State Fault Refusal :=
  let ch := chanAt s c
  taken (ch.state != .free) s
    (let t := setQueue s ch.q (fun q => { q with wdFired := true })
     let t := hiveEvent t 0x02 ch.hive ch.q ch.idx
     if (queueAt s ch.q).wdAbort then abortChan t c .timeout false else t)

/-- R150: a `WAIT` has reached its `tmo`: it ends with TIMEOUT and its held wait is withdrawn. -/
def execWaitTimeout (c : Nat) (s : State) : Host.Outcome State Fault Refusal :=
  let ch := chanAt s c
  taken (ch.state == .waiting && (match ch.op with | .wait _ _ _ _ tmo => tmo != 0 | _ => false))
    s (retire s c .timeout)

/-! ## The fence cache -/

/-- R93: the table read of a cache miss returns. -/
def execFenceCacheFillDone (f : Nat) (s : State) : Host.Outcome State Fault Refusal :=
  taken ((Tab.look s.qm.fills f).isSome && cacheRoom s f) s (inStream s (fillDone s f))

/-- R90: a dirty entry is written back. -/
def execFenceCacheWriteback (f : Nat) (s : State) : Host.Outcome State Fault Refusal :=
  taken (((fenceAt s f).map (·.dirty)).getD false) s (inStream s (writeBack s f))

/-- R469: the sweep of the fence table ends. -/
def execFenceTableSweepDone (s : State) : Host.Outcome State Fault Refusal :=
  taken s.qm.sweeping s (sweepDone s)

end Sys2Proof.Machine
end

