-- ==== Sys2Proof/Machine/Clusters.lean ====
section
/-! DEFINITION. The cluster control ports (R38 to R40, R60, R158, R451 to R454). -/

namespace Sys2Proof.Machine

/-- R451: while a cluster is isolated, every input of its port is ignored. -/
def heard (s : State) (n : Nat) (t : State) : Host.Outcome State Fault Refusal :=
  .next (if decide (n < clustersAttached s) && !(clusterAt s n).iso then t else s)

/-- R39: a cluster that is FREE or FAILED is power-gated. -/
def Cluster.gated (k : Cluster) : Cluster :=
  { k with kernel := none, late := false, pwrEn := false, pwrGood := false, iso := true, rstN := false }

/-- R60: a cluster that becomes FREE or FAILED is no longer waited for by the resize that removes it. -/
def leftResize (s : State) (n : Nat) : State :=
  s.onHe (fun e => { e with resizes := e.resizes.map (fun r => { r with removed := r.removed.filter (· != n) }) })

/-- R38: a cluster enters FAILED. One that was on its way to FREE leaves its hive's bitmap. -/
def failCluster (s : State) (n : Nat) : State :=
  setCluster (leftResize s n) n (fun k =>
    { k.gated with state := .failed, hive := if k.state = .clearing ∧ k.clearTo = .free then 255 else k.hive })

/-- R341: the order of the states of R38. -/
def ClusterState.code : ClusterState → Nat
  | .free => 0
  | .joining => 1
  | .assigned => 2
  | .leaving => 3
  | .clearing => 4
  | .failed => 5

/-- After a change of a cluster: the waiting launches of its hive, and whatever waited for it. -/
def clusterMoved (s : State) (h : Nat) : State := progress (recheckLaunches s h)

/-- R38, R346: a cluster fault. -/
def execClusterFault (n : Nat) (s : State) : Host.Outcome State Fault Refusal :=
  let k := clusterAt s n
  heard s n
    (let t := hiveEvent (failCluster s n) 0x0E k.hive n k.state.code
     clusterMoved (if k.state = .assigned ∨ k.state = .leaving then hwHiveReset t k.hive 1 n else t) k.hive)

/-- R452 steps 2 to 5: the cluster's supply is in tolerance. -/
def execClusterPowerGood (n : Nat) (s : State) : Host.Outcome State Fault Refusal :=
  let k := clusterAt s n
  taken (k.pwrEn && !k.pwrGood) s
    (emit (setCluster s n (fun x => { x with pwrGood := true, iso := false, rstN := true })) (.clusterClear n))

/-- R39, R454: a cluster whose clearing fails. -/
def clearFailed (s : State) (n : Nat) : State :=
  clusterMoved (logErr (failCluster s n) { cls := 2, hive := (clusterAt s n).hive, ugroup := 6, unit := n, cause := 9 })
    (clusterAt s n).hive

/-- R38, R60, R453: a cluster reports clear done. -/
def execClusterClearDone (n spadLog2 : Nat) (s : State) : Host.Outcome State Fault Refusal :=
  let k := clusterAt s n
  heard s n
    (if k.state ≠ .joining ∧ k.state ≠ .clearing then refuseInput s true 6 n
     else if spadLog2 < 10 ∨ 24 < spadLog2 then clearFailed s n
     else
       let t := spadClear s n
       if k.state = .joining ∨ k.clearTo = .assigned then
         clusterMoved (setCluster t n (fun x => { x with state := .assigned, kernel := none, spadLog2 := spadLog2 })) k.hive
       else
         let t := setCluster (leftResize t n) n (fun x => { x.gated with state := .free, hive := 255, spadLog2 := spadLog2 })
         clusterMoved (if k.late then hiveEvent t 0x04 k.hive n 0 else t) k.hive)

/-- R39: a cluster has not reported clear done within 80 µs. -/
def execClusterClearTimeout (n : Nat) (s : State) : Host.Outcome State Fault Refusal :=
  let k := clusterAt s n
  taken (k.state == .joining || k.state == .clearing) s (clearFailed s n)

/-- R158 step 5: one cluster's end reaches its `LAUNCH`, which completes with the last. -/
def collectEnd (s : State) (c n exit : Nat) : State :=
  let t := setChan (chargeKernel s c) c (fun x =>
    { x with kernels := x.kernels.filter (· != n), exits := x.exits ||| (exit % 2 ^ 32) })
  let ch := chanAt t c
  if ch.kernels = [] then
    let gx := (launchArgs ch).2.2.2
    retire (setChan t c (fun x => x.setG gx (BitVec.ofNat 64 x.exits))) c .ok
  else t

/-- R158, R260, R454: a cluster reports its kernel's end; its scratchpad writes are visible, and until here a mover reads the
bytes from before the kernel, where R261 lets it read any mixture (log 84). -/
def execKernelEnd (n exit : Nat) (writes : List (Nat × Byte)) (s : State) : Host.Outcome State Fault Refusal :=
  let k := clusterAt s n
  heard s n
    (match k.kernel with
     | some c =>
       let ch := chanAt s c
       if ch.hold = .kernel ∧ ch.kernels.contains n then
         let t := spadWrite s n (writes.filter (fun e => decide (e.1 < 2 ^ k.spadLog2)))
         clusterMoved (freeKernel (collectEnd t c n exit) n) k.hive
       else refuseInput s true 6 n
     | none => refuseInput s true 6 n)

/-- R40, R335: a cluster interrupt. -/
def execClusterInterrupt (n : Nat) (s : State) : Host.Outcome State Fault Refusal :=
  let k := clusterAt s n
  heard s n
    (if (k.state = .assigned ∨ k.state = .leaving) ∧ (hiveAt s k.hive).vecCount ≠ 0 then
       raiseIrq s k.hive (hiveAt s k.hive).vecFirst
     else refuseInput s true 6 n)

/-- R60: a resize has reached its bound: it ends with TIMEOUT, and its clusters that are still LEAVING leave the
bitmap. -/
def execResizeTimeout (h : Nat) (s : State) : Host.Outcome State Fault Refusal :=
  match s.he.resizes.find? (fun r => r.hive == h) with
  | none => .next s
  | some j =>
    let t := (j.removed.filter (fun n => (clusterAt s n).state == .leaving)).foldl
      (fun t n => setCluster t n (fun k => { k with late := true })) s
    .next (endResize t j .timeout)

end Sys2Proof.Machine
end

