-- ==== Sys2Proof/Machine/Images.lean ====
section
/-! DEFINITION. The images of the manager instructions: how their lines are checked and read (R187), and the layouts of
the hive descriptor (R36, R43), the context image (R66), the queue image (R70) and the label setting (R197, R321). -/

namespace Sys2Proof.Machine

/-! ## Lines in hive 0's memory -/

/-- R187: an address with a leaf that leads outside the private combs of hive 0 on this chip. -/
def leadsOutside (s : State) (ctx va : Nat) : Bool :=
  match (walk s ctx va).2 with
  | .leaf e _ _ => e.host || paChip e.frame != chipId s || !inHive0Private s (paLocal (e.frame + va % 2 ^ e.sizeLog2))
  | .fault _ _ _ => false

/-- R187: every line of an image or record translates to a private comb of hive 0 on this chip, or the instruction waits
for a walk, or fails. -/
def imageLines (s : State) (c : Nat) (n : Need) : List Nat → State × Except LineEnd Unit
  | [] => (s, .ok ())
  | l :: r =>
    match xlate s c l n with
    | (t, .miss) =>
      if leadsOutside t (chanAt s c).ctx l then (t, .error (.fail .range)) else (startWalk t c l (accessOf n), .error .held)
    | (t, .dev pa) =>
      if paChip pa = chipId s ∧ inHive0Private s (paLocal pa) then imageLines t c n r else (t, .error (.fail .range))
    | (t, _) => (t, .error (.fail .range))

/-- R187: a line of an image is read once; it stays with the channel. -/
def imageRead (s : State) (c : Nat) : List Nat → List Byte → State × Except LineEnd (List Byte)
  | [], acc => (s, .ok acc)
  | l :: r, acc =>
    match readLine s c l with
    | (t, .data d) => imageRead (setChan t c (fun x => { x with rob := Tab.put x.rob l d })) c r (acc ++ d)
    | (t, e) => (t, .error e)

/-- R187: an image of `n` bytes: its alignment, its lines, its read; then what the instruction makes of it. A line of it that
has timed out ends the instruction (R132). -/
def withImage (s : State) (c a align n : Nat) (k : State → List Byte → State) : State :=
  if a % align ≠ 0 then retire s c .range
  else
    match (chanAt s c).lineStatus with
    | some st => retire s c st
    | none =>
    match imageLines s c .rd (linesOf a n) with
    | (t, .error (.fail st)) => retire t c st
    | (t, .error _) => t
    | (t, .ok _) =>
      match imageRead t c (linesOf a n) [] with
      | (u, .error (.fail st)) => retire u c st
      | (u, .error _) => u
      | (u, .ok bs) => k u ((bs.drop (a % 128)).take n)

/-- The lines of a record are written, `prog` counting those done, so that each is issued once (R117). -/
def recordWrite (s : State) (c a : Nat) (bytes : List Byte) : List Nat → State × Except LineEnd Unit
  | [] => (s, .ok ())
  | l :: r =>
    let mine := (bytes.zipIdx).filterMap (fun e =>
      let x := uaAdd a e.2
      if lineOf x = l then some (x - l, e.1) else none)
    match writeLine s c l (asWrite mine) false false with
    | (t, .data _) => recordWrite (setChan t c (fun x => { x with prog := x.prog + 1 })) c a bytes r
    | (t, e) => (t, .error e)

/-- R116, R117, R187, R188: a record is written, from its first line not yet written on, and the instruction completes.
`check` is the STATE check that follows the checks of the address. -/
def withRecord (s : State) (c a align : Nat) (check : Option Status) (bytes : List Byte) : State :=
  let ch := chanAt s c
  let lines := (linesOf a bytes.length).drop ch.prog
  if a % align ≠ 0 then retire s c .range
  else
    match ch.lineStatus with
    | some st => retire s c st
    | none =>
    match imageLines s c .wr lines with
    | (t, .error (.fail st)) => retire t c st
    | (t, .error _) => t
    | (t, .ok _) =>
      match (if ch.prog = 0 then check else none) with
      | some st => retire t c st
      | none =>
        match recordWrite t c a bytes lines with
        | (u, .error (.fail st)) => retire u c st
        | (u, .error _) => u
        | (u, .ok _) => retire u c .ok

/-- Word `i` of an image. -/
def imgWord (bs : List Byte) (i : Nat) : Nat := leNat ((bs.drop (8 * i)).take 8)

/-- The value of a register as an address in device memory. -/
def gAddr (s : State) (c ga : Nat) : Nat := ((chanAt s c).greg ga).toNat % 2 ^ 57

/-- R8: the first check that fails ends the instruction; where none does, its effect. -/
def checked (s : State) (c : Nat) (checks : List (Bool × Status)) (eff : State) : State :=
  match checks.find? (·.1) with
  | some k => retire s c k.2
  | none => eff

/-! ## Comb entries (R43) -/

def Comb.ofWords (w0 w1 : Nat) : Comb :=
  { valid := bit w0 63, placement := fld w0 60 2, stack := fld w0 57 3, base := fld w0 32 10, count := fld w0 16 11,
    keySel := fld w0 0 9, colAtom := bit w1 6, colWr := bit w1 5, colRd := bit w1 4, locAtom := bit w1 2,
    locWr := bit w1 1, locRd := bit w1 0 }

def Comb.words (c : Comb) : List Nat :=
  [b2n c.valid <<< 63 + c.placement <<< 60 + c.stack <<< 57 + c.base <<< 32 + c.count <<< 16 + c.keySel,
   b2n c.colAtom <<< 6 + b2n c.colWr <<< 5 + b2n c.colRd <<< 4 + b2n c.locAtom <<< 2 + b2n c.locWr <<< 1 + b2n c.locRd]

/-- The reserved fields of a comb entry. -/
def combRz (w0 w1 : Nat) : Bool := rz w0 62 1 && rz w0 42 15 && rz w0 27 5 && rz w0 9 7 && rz w1 7 57 && rz w1 3 1

/-- Whether two combs share a granule. -/
def Comb.meets (a b : Comb) : Bool :=
  a.valid && b.valid && decide (a.base < b.base + b.count) && decide (b.base < a.base + a.count)

/-- R45: the granules of a comb lie in its region. -/
def combFits (s : State) (c : Comb) : Bool :=
  let lo := c.base * 2 ^ 30
  let hi := (c.base + c.count) * 2 ^ 30
  if c.placement = 0 then decide (hi ≤ stripedEnd s)
  else
    let b := stripedEnd s + c.stack * bandBytes s
    decide (b ≤ lo) && decide (hi ≤ b + bandBytes s)

/-- R44: the private key selector of a hive. -/
def privateSel (h : Nat) : Nat := if h = 0 then 0xFF else h
/-- R44: a commons selector. -/
def commonsSel (k : Nat) : Bool := decide (0x100 ≤ k) && decide (k ≤ 0x11F)

/-- R45: whether a comb entry of a hive fails with RANGE, apart from overlaps. -/
def combRange (s : State) (h : Nat) (c : Comb) : Bool :=
  decide (1 < c.placement) || (c.placement == 0 && c.stack != 0) ||
    (c.placement == 1 && decide (stackCount s ≤ c.stack)) || decide (c.count < 1) || decide (1024 < c.count) ||
    !combFits s c || !(c.keySel == privateSel h || commonsSel c.keySel)

/-- R45: whether two of some combs overlap. -/
def combsMeet : List Comb → Bool
  | [] => false
  | c :: r => r.any (fun d => c.meets d) || combsMeet r

/-- R46: two combs that may stand under one commons key. -/
def Comb.sameCommons (a b : Comb) : Bool :=
  a.commons && a.keySel == b.keySel && a.base == b.base && a.count == b.count

/-- R45, R46: whether a comb fails with RESOURCE against the combs that are held, those that a DETACH still waits to let go
among them, whichever hive's they are. -/
def combTaken (s : State) (c : Comb) : Bool :=
  (allCombs s).any (fun e => (c.meets e.2 || (c.commons && e.2.keySel == c.keySel)) && !c.sameCommons e.2)

/-- R46: two commons entries of one image that name one selector for other granules. -/
def commonsClash : List Comb → Bool
  | [] => false
  | c :: r => r.any (fun d => c.commons && d.keySel == c.keySel && !c.sameCommons d) || commonsClash r

/-- R46, R57: a comb that its hive is about to hold: the first holder of a commons comb loads its key, and its cells are
marked fresh, as a private comb's are. -/
def prepareComb (s : State) (c : Comb) : State :=
  if c.commons then (if commonsHeld s c.keySel then s else markFresh (deriveCommonsKey s c.keySel) c) else markFresh s c

/-! ## The hive descriptor (R36) -/

def HiveState.code : HiveState → Nat
  | .free => 0
  | .creating => 1
  | .active => 2
  | .resizing => 3
  | .migrating => 4
  | .frozen => 5
  | .resetting => 6
  | .destroying => 7

/-- R36: the clusters of a hive's bitmap: ASSIGNED or LEAVING, among them one that a resize has left LEAVING at its bound,
which no longer counts for a later resize (R60). -/
def bitmapClusters (s : State) (h : Nat) : List Nat := clustersOf s h (fun st => st == .assigned || st == .leaving)

/-- The four words of a cluster bitmap. -/
def bitmapWords (cl : List Nat) : List Nat := let b := bitmapOf cl; [fld b 0 64, fld b 64 64, fld b 128 64, fld b 192 64]

/-- The 48 words of a hive's descriptor image. -/
def hiveImage (s : State) (h : Nat) : List Nat :=
  let x := hiveAt s h
  let cl := bitmapClusters s h
  [h <<< 56 + x.state.code <<< 52 + b2n x.incoming <<< 49 + b2n x.elastic <<< 48 + x.colony <<< 16 + x.combs.length <<< 8,
   cl.length <<< 48 + x.clusterMax <<< 32 + x.clusterMin <<< 16,
   held s h <<< 48 + x.chCeiling <<< 32 + x.chGuarantee,
   x.labelFirst <<< 48 + x.labelCount <<< 32 + x.vecFirst <<< 16 + x.vecCount,
   x.ctxQuota <<< 48 + x.queueQuota <<< 32 + x.peerLo <<< 16 + x.peerHi,
   x.keyGen <<< 32 + x.resizeCount, 0, 0] ++ bitmapWords cl ++ [0, 0, 0, 0] ++
  (List.range 16).flatMap (fun i => match Tab.look x.combs i with | some k => k.words | none => [0, 0])

/-- R36, R6: the reserved fields of a descriptor image. -/
def hiveRz (w : Nat → Nat) : Bool :=
  rz (w 0) 50 2 && rz (w 0) 40 8 && rz (w 0) 0 8 && rz (w 1) 57 7 && rz (w 1) 41 7 && rz (w 1) 25 7 && rz (w 1) 0 16 &&
    rz (w 2) 58 6 && rz (w 2) 42 6 && rz (w 2) 10 22 && rz (w 3) 60 4 && rz (w 3) 45 3 && rz (w 3) 27 5 && rz (w 3) 12 4 &&
    w 6 == 0 && w 7 == 0 && w 12 == 0 && w 13 == 0 && w 14 == 0 && w 15 == 0 &&
    (List.range 16).all (fun i => combRz (w (16 + 2 * i)) (w (17 + 2 * i)))

/-- The cluster bitmap that begins at word `i`. -/
def bitmapAt (w : Nat → Nat) (i : Nat) : Nat := w i + w (i + 1) <<< 64 + w (i + 2) <<< 128 + w (i + 3) <<< 192

/-- The hive that a descriptor image describes, with its valid combs. An entry with `valid` 0 is dropped with its other RW
fields, so that `QUERY_HIVE` returns them as 0 (log 66). -/
def hiveOf (w : Nat → Nat) (keyGen : Nat) : Hive :=
  { Hive.empty keyGen with
    incoming := bit (w 0) 49, elastic := bit (w 0) 48, colony := fld (w 0) 16 24, clusterMax := fld (w 1) 32 9,
    clusterMin := fld (w 1) 16 9, chCeiling := fld (w 2) 32 10, chGuarantee := fld (w 2) 0 10,
    labelFirst := fld (w 3) 48 12, labelCount := fld (w 3) 32 13, vecFirst := fld (w 3) 16 11, vecCount := fld (w 3) 0 12,
    ctxQuota := fld (w 4) 48 16, queueQuota := fld (w 4) 32 16, peerLo := fld (w 4) 16 16, peerHi := fld (w 4) 0 16,
    combs := (List.range 16).filterMap (fun i =>
      let k := Comb.ofWords (w (16 + 2 * i)) (w (17 + 2 * i))
      if k.valid then some (i, k) else none) }

/-- R36, R37, R56: the ranges of a descriptor's fields, of its combs and of its clusters. -/
def hiveRange (s : State) (h : Nat) (x : Hive) (bm : Nat) : Bool :=
  let combs := x.combs.map (·.2)
  let n := (bitsOf bm 256).length
  h == 0 || decide (254 < h) || decide (256 < x.clusterMax) || decide (256 < x.clusterMin) || decide (x.chCeiling < 1) ||
    decide (512 < x.chCeiling) || decide (x.chCeiling < x.chGuarantee) || decide (x.labelCount < 1) ||
    decide (4096 < x.labelFirst + x.labelCount) || decide (2048 < x.vecFirst + x.vecCount) ||
    decide (16384 < x.ctxQuota) || decide (4096 < x.queueQuota) || combs.any (combRange s h) || combsMeet combs ||
    (bitsOf bm 256).any (fun i => decide (clustersAttached s ≤ i)) || decide (x.clusterMax < x.clusterMin) ||
    (x.elastic && (decide (n < x.clusterMin) || decide (x.clusterMax < n))) ||
    (!x.elastic && (x.clusterMin != 0 || x.clusterMax != 0)) || x.colony == Config.managerColony

/-- Whether two ranges, each a first and a count, share a number. -/
def rangesMeet (a n b m : Nat) : Bool := decide (0 < n) && decide (0 < m) && decide (a < b + m) && decide (b < a + n)

/-- R56: the channels that guarantees may claim, and what the hives other than `h` claim. -/
def channelsInService (s : State) : Nat := 8 * (moversInService s).length
def guaranteed (s : State) (h : Nat) : Nat :=
  ((s.he.hives.filter (fun e => e.1 != h)).map (fun e => e.2.chGuarantee)).foldl (· + ·) 0

/-- R56: what fails a creation with RESOURCE. -/
def hiveTaken (s : State) (h : Nat) (x : Hive) (bm : Nat) : Bool :=
  (bitsOf bm 256).any (fun n => (clusterAt s n).state != .free) ||
    x.combs.any (fun c => combTaken s c.2) || commonsClash (x.combs.map (·.2)) ||
    s.he.hives.any (fun e => e.1 != h &&
      (rangesMeet x.labelFirst x.labelCount e.2.labelFirst e.2.labelCount ||
        rangesMeet x.vecFirst x.vecCount e.2.vecFirst e.2.vecCount)) ||
    decide (channelsInService s < guaranteed s h + x.chGuarantee) || (slotAt s h).retired

/-! ## Label settings (R197, R321) -/

def LabelSetting.ofWords (w0 w1 w2 : Nat) : LabelSetting :=
  { label := fld w0 52 12, guar := fld w1 44 20, ceil := fld w1 24 20, prio := fld w1 22 2, win := fld w1 14 8,
    missEv := bit w1 13, stat := bit w1 12, irqMax := fld w2 52 12 }

def settingRz (w0 w1 w2 w3 : Nat) : Bool := rz w0 0 52 && rz w1 0 12 && rz w2 0 52 && w3 == 0

/-- R322: a setting's own ranges. -/
def settingRange (first : Nat) (l : LabelSetting) : Bool :=
  decide (l.ceil < l.guar) || decide (1 < l.prio) || (l.irqMax != 0 && l.label != first)

/-- R197, R193: whether some settings of a hive fail with RANGE. -/
def settingsRange (s : State) (h : Nat) (ls : List LabelSetting) : Bool :=
  let x := hiveAt s h
  ls.any (fun l => decide (l.label < x.labelFirst) || decide (x.labelFirst + x.labelCount ≤ l.label) ||
    settingRange x.labelFirst l) || decide ((distinct (ls.map (·.label))).length < ls.length)

/-- The settings that stand from word `i` of an image. -/
def settingsAt (w : Nat → Nat) (i n : Nat) : List LabelSetting :=
  (List.range n).map (fun k => LabelSetting.ofWords (w (i + 4 * k)) (w (i + 4 * k + 1)) (w (i + 4 * k + 2)))
def settingsRz (w : Nat → Nat) (i n : Nat) : Bool :=
  (List.range n).all (fun k =>
    settingRz (w (i + 4 * k)) (w (i + 4 * k + 1)) (w (i + 4 * k + 2)) (w (i + 4 * k + 3)))

/-- R197: settings wait for the boundaries of their labels. -/
def pendSettings (s : State) (ls : List LabelSetting) : State :=
  ls.foldl (fun t l => setLabel t l.label (fun x => { x with pendingSet := some l })) s

/-! ## The context image (R66) -/

def CtxState.code : CtxState → Nat
  | .free => 0
  | .active => 1
  | .killing => 2

def ctxImage (s : State) (n : Nat) : List Nat :=
  let x := ctxAt s n
  [n <<< 50 + x.state.code <<< 48 + x.hive <<< 40 + x.pasid <<< 20 + b2n x.acctSat <<< 19, x.ptRoot, x.grantBase,
   x.grantCount <<< 48 + (queuesOfCtx s n).length <<< 32, x.moverCycles, x.clusterCycles, 0, 0]

def ctxRz (w : Nat → Nat) : Bool :=
  rz (w 0) 0 19 && rz (w 1) 57 7 && rz (w 2) 57 7 && rz (w 3) 0 32 && w 6 == 0 && w 7 == 0

/-! ## The queue image (R70) -/

def QueueState.code : QueueState → Nat
  | .unbound => 0
  | .running => 1
  | .stopped => 2
  | .resetting => 3

def queueImage (s : State) (n : Nat) : List Nat :=
  let x := queueAt s n
  [n <<< 52 + x.state.code <<< 48 + b2n x.acctSat <<< 47 + b2n x.wdFired <<< 46 + x.ctx <<< 32 +
     b2n x.stopOnErr <<< 22 + b2n x.wdAbort <<< 21 + x.ringLog2 <<< 16 + x.weight,
   x.ringBase, x.cplBase, x.label <<< 52 + x.wdMs <<< 32 + x.vector <<< 16 + b2n x.irqEn <<< 15,
   x.tail <<< 32 + x.done, x.staleDb <<< 32 + x.overrunDb, x.moverCycles, x.clusterCycles]

def queueRz (w : Nat → Nat) : Bool :=
  rz (w 0) 23 9 && rz (w 1) 57 7 && rz (w 2) 57 7 && rz (w 3) 48 4 && rz (w 3) 27 5 && rz (w 3) 0 15

/-- The queue that an image describes, from its RW fields. -/
def queueOf (w : Nat → Nat) : Queue :=
  { Queue.empty with
    ctx := fld (w 0) 32 14, stopOnErr := bit (w 0) 22, wdAbort := bit (w 0) 21, ringLog2 := fld (w 0) 16 5,
    weight := fld (w 0) 0 16, ringBase := fld (w 1) 0 57, cplBase := fld (w 2) 0 57, label := fld (w 3) 52 12,
    wdMs := fld (w 3) 32 16, vector := fld (w 3) 16 11, irqEn := bit (w 3) 15 }

/-- R70: the ranges and alignments of a queue image. -/
def queueRange (x : Queue) : Bool :=
  decide (x.ringLog2 < 6) || decide (16 < x.ringLog2) || decide (x.weight < 1) ||
    x.ringBase % 2 ^ (x.ringLog2 + 6) != 0 || x.cplBase % 2 ^ (x.ringLog2 + 4) != 0 || decide (x.wdMs < 1) ||
    decide (60000 < x.wdMs)

end Sys2Proof.Machine
end

