-- ==== Sys2Proof/Machine/Hives.lean ====
section
/-! DEFINITION. The manager instructions that act on a hive (R55 to R62, R192 to R194, R197). -/

namespace Sys2Proof.Machine

/-- A manager instruction waits for the operation it started, which may have ended already (R188). -/
def await (s : State) (c : Nat) (start : State → State) : State := progress (start (stall s c .job))

/-- Clusters join a hive (R38): they are powered (R452 step 1). -/
def joinClusters (s : State) (h : Nat) (cl : List Nat) : State :=
  cl.foldl (fun t n => setCluster t n (fun k =>
    { k with state := .joining, hive := h, clearTo := .assigned, kernel := none, late := false, pwrEn := true })) s

/-- R57: a creation that has passed its checks; one whose key load fails ends with HW_ERROR (R367). -/
def createHive (s : State) (c h : Nat) (x : Hive) (cl : List Nat) : State :=
  let t := x.combs.foldl (fun t k => prepareComb t k.2) s
  let t := setHive t h (fun o => { x with keyGen := o.keyGen, state := .creating, masked := true })
  let t := deriveHiveKey t h
  let t := joinClusters t h cl
  let t := (labelsOf t h).foldl (fun t l => setLabel t l (fun _ => { Label.empty with hive := h })) t
  let t := t.onHe (fun e => { e with creates := e.creates ++ [{ hive := h, chan := c }] })
  if s.vault.wrapBad then undoCreate t { hive := h, chan := c } else t

/-- R35, R364: the lifecycle states in which `HIVE_CREATE` is refused. -/
def noHives (s : State) : Bool := s.vault.lc == .blank || s.vault.lc == .locked || s.vault.lc == .endOfLife

/-- R35, R56, R57: `HIVE_CREATE`. -/
def execHiveCreate (c : Nat) (s : State) : Host.Outcome State Fault Refusal :=
  runInstr s c (fun o => match o with | .hiveCreate _ _ => true | _ => false) (fun o =>
    match o with
    | .hiveCreate h ga =>
      if noHives s then retire s c .rights
      else
        withImage s c (gAddr s c ga) 128 384 (fun t bs =>
          let w := imgWord bs
          let x := hiveOf w 0
          let bm := bitmapAt w 8
          checked t c
            [(!hiveRz w, .decode), (hiveRange t h x bm, .range), ((hiveAt t h).state != .free, .state),
             (hiveTaken t h x bm, .resource), (!t.vault.drbgOn, .hwError)]
            (await t c (fun u => createHive u c h x (bitsOf bm 256))))
    | _ => s)

/-- R193: the reserved fields of a resize image's fixed part. -/
def resizeRz (w : Nat → Nat) : Bool :=
  rz (w 4) 42 9 && rz (w 4) 10 22 && w 5 == 0 && w 6 == 0 && w 7 == 0

/-- R58, R193: the cluster changes that a bitmap asks of a hive: added, removed and FAILED ones left out. -/
def resizeAdds (s : State) (h bm : Nat) : List Nat :=
  (bitsOf bm 256).filter (fun n =>
    !((clusterAt s n).hive == h && ((clusterAt s n).state == .assigned || (clusterAt s n).state == .failed)))
def resizeCuts (s : State) (h bm : Nat) (st : ClusterState) : List Nat :=
  (clustersOf s h (fun x => x == st)).filter (fun n => !bit bm n)

/-- R29, R58: what fails a resize with RANGE. -/
def resizeRange (s : State) (h bm ceiling guar nlab : Nat) (ls : List LabelSetting) : Bool :=
  let x := hiveAt s h
  let n := ((bitsOf bm 256).filter (fun i => (clusterAt s i).state != .failed)).length
  h == 0 || decide (4096 < nlab) || decide (ceiling < 1) || decide (512 < ceiling) || decide (ceiling < guar) ||
    (bitsOf bm 256).any (fun i => decide (clustersAttached s ≤ i)) || decide (n < x.clusterMin) || decide (x.clusterMax < n) ||
    (clustersOf s h (fun st => st != .assigned && st != .failed)).any (fun i => !(clusterAt s i).late && !bit bm i) ||
    settingsRange s h ls

/-- R58: a resize that has passed its checks. -/
def resizeHive (s : State) (c h bm ceiling guar : Nat) (ls : List LabelSetting) : State :=
  let added := resizeAdds s h bm
  let removed := resizeCuts s h bm .assigned
  let t := setHive s h (fun x => { x with state := .resizing, chCeiling := ceiling, chGuarantee := guar })
  let t := (resizeCuts s h bm .failed).foldl (fun t n => setCluster t n (fun k => { k with hive := 255 })) t
  let t := joinClusters t h added
  let t := removed.foldl (fun t n =>
    if (clusterAt t n).kernel.isSome then setCluster t n (fun k => { k with state := .leaving }) else clearCluster t n .free) t
  let t := t.onHe (fun e => { e with resizes := e.resizes ++
    [{ hive := h, chan := c, added := added, removed := removed, labels := ls.map (·.label) }] })
  recheckLaunches (pendSettings t ls) h

/-- R58, R60, R193: `HIVE_RESIZE`. -/
def execHiveResize (c : Nat) (s : State) : Host.Outcome State Fault Refusal :=
  runInstr s c (fun o => match o with | .hiveResize _ _ => true | _ => false) (fun o =>
    match o with
    | .hiveResize h ga =>
      withImage s c (gAddr s c ga) 128 64 (fun t bs =>
        let n := fld (imgWord bs 4) 51 13
        if !resizeRz (imgWord bs) then retire t c .decode
        else if 4096 < n then retire t c .range
        else
          withImage t c (gAddr s c ga) 128 (64 + 32 * n) (fun t bs =>
            let w := imgWord bs
            let bm := bitmapAt w 0
            let ls := settingsAt w 8 n
            let x := hiveAt t h
            let ceiling := fld (w 4) 32 10
            let guar := fld (w 4) 0 10
            checked t c
              [(!settingsRz w 8 n, .decode), (resizeRange t h bm ceiling guar n ls, .range),
               (x.state != .active || !x.elastic, .state),
               ((resizeAdds t h bm).any (fun i => (clusterAt t i).state != .free) ||
                 (decide (x.chGuarantee < guar) && decide (channelsInService t < guaranteed t h + guar)), .resource)]
              (await t c (fun u => resizeHive u c h bm ceiling guar ls))))
    | _ => s)

/-- R34, R55, R62: `HIVE_RESET`. -/
def execHiveReset (c : Nat) (s : State) : Host.Outcome State Fault Refusal :=
  runInstr s c (fun o => match o with | .hiveReset _ => true | _ => false) (fun o =>
    match o with
    | .hiveReset h =>
      let st := (hiveAt s h).state
      checked s c [(h == 0, .range), (!(st == .active || st == .resizing || st == .migrating || st == .frozen), .state)]
        (await s c (fun u => startHiveReset u h false (some c) 0 0 false))
    | _ => s)

/-- R34, R55, R62: `HIVE_DESTROY`. -/
def execHiveDestroy (c : Nat) (s : State) : Host.Outcome State Fault Refusal :=
  runInstr s c (fun o => match o with | .hiveDestroy _ => true | _ => false) (fun o =>
    match o with
    | .hiveDestroy h =>
      let st := (hiveAt s h).state
      checked s c [(h == 0, .range), (!(st == .active || st == .migrating || st == .frozen), .state)]
        (await s c (fun u => startHiveReset u h true (some c) 0 0 false))
    | _ => s)

/-- R50, R55, R192: `COLONY_JOIN`. -/
def execColonyJoin (c : Nat) (s : State) : Host.Outcome State Fault Refusal :=
  runInstr s c (fun o => match o with | .colonyJoin _ _ _ _ => true | _ => false) (fun o =>
    match o with
    | .colonyJoin h col lo hi =>
      let st := (hiveAt s h).state
      checked s c [(h == 0, .range), (!(st == .active || st == .resizing), .state)]
        (retire (setHive s h (fun x => { x with colony := col, peerLo := lo, peerHi := hi })) c .ok)
    | _ => s)

/-! ## Combs -/

/-- R55: the states of a hive that accept a comb grant. -/
def grantable (s : State) (h : Nat) : Bool := (hiveAt s h).state == .active || (hiveAt s h).state == .resizing

/-- R194: `COMB_GRANT` ATTACH. A commons key is derived in TEST and PRODUCTION only (R364); elsewhere the first holder's grant
fails with RIGHTS, as a creation does (log 55). -/
def execCombGrantAttach (c : Nat) (s : State) : Host.Outcome State Fault Refusal :=
  runInstr s c (fun o => match o with | .combAttach _ _ _ => true | _ => false) (fun o =>
    match o with
    | .combAttach h e ga =>
      withImage s c (gAddr s c ga) 1 16 (fun t bs =>
        let k := Comb.ofWords (imgWord bs 0) (imgWord bs 1)
        let x := hiveAt t h
        checked t c
          [(!combRz (imgWord bs 0) (imgWord bs 1), .decode), (noHives t && !commonsHeld t k.keySel, .rights),
           (!k.valid || combRange t h k || !commonsSel k.keySel || x.combs.any (fun d => d.1 != e && k.meets d.2), .range),
           ((Tab.look x.combs e).isSome || !grantable t h, .state), (combTaken t k, .resource),
           (!commonsHeld t k.keySel && !t.vault.drbgOn, .hwError)]
          (if t.vault.wrapBad && !commonsHeld t k.keySel then retire (prepareComb t k) c .hwError
           else retire (setHive (prepareComb t k) h (fun y => { y with combs := Tab.put y.combs e k })) c .ok))
    | _ => s)

/-- R48, R120, R185, R194: the commands of a hive that hold some pins end with ABORTED; a command of queue 0 ends only
with the status of its own instructions. -/
def evictPins (s : State) (ps : List Pin) : State :=
  ps.foldl (fun t p =>
    match p.idx with
    | none => t
    | some i =>
      if p.q = 0 then t
      else
        (chansWhere t (fun ch => ch.q == p.q && ch.idx == i)).foldl (fun t c => abortChan t c .aborted false)
          (discard t p.q i .aborted 0)) s

/-- R194: `COMB_GRANT` RIGHTS. -/
def execCombGrantRights (c : Nat) (s : State) : Host.Outcome State Fault Refusal :=
  runInstr s c (fun o => match o with | .combRights _ _ _ _ => true | _ => false) (fun o =>
    match o with
    | .combRights h e evict r =>
      match Tab.look (hiveAt s h).combs e with
      | none => retire s c .state
      | some k =>
        if !grantable s h then retire s c .state
        else
          let n : Comb := { k with colAtom := bit r 6, colWr := bit r 5, colRd := bit r 4, locAtom := bit r 2, locWr := bit r 1,
                                   locRd := bit r 0 }
          let pins := if evict then (pinsIn s h k).filter (fun p => p.idx.isSome && p.q != 0) else []
          let t := setHive s h (fun x => { x with combs := Tab.put x.combs e n })
          await t c (fun u => (evictPins u pins).onQm (fun m =>
            { m with jobs := m.jobs ++ [{ chan := c, kind := .comb h e none pins }] }))
    | _ => s)

/-- R48, R194: `COMB_GRANT` DETACH. -/
def execCombGrantDetach (c : Nat) (s : State) : Host.Outcome State Fault Refusal :=
  runInstr s c (fun o => match o with | .combDetach _ _ _ => true | _ => false) (fun o =>
    match o with
    | .combDetach h e evict =>
      match Tab.look (hiveAt s h).combs e with
      | none => retire s c .state
      | some k =>
        checked s c [(!k.commons, .range), (!grantable s h, .state)]
          (let pins := pinsIn s h k
           let t := setHive s h (fun x => { x with combs := Tab.del x.combs e })
           await t c (fun u => (if evict then evictPins u pins else u).onQm (fun m =>
             { m with jobs := m.jobs ++ [{ chan := c, kind := .comb h e (some k) pins }] })))
    | _ => s)

/-! ## Labels, resume, queries -/

/-- R197: `LABEL_SET`. -/
def execLabelSet (c : Nat) (s : State) : Host.Outcome State Fault Refusal :=
  runInstr s c (fun o => match o with | .labelSet _ _ _ => true | _ => false) (fun o =>
    match o with
    | .labelSet h ga n =>
      withImage s c (gAddr s c ga) 32 (32 * n) (fun t bs =>
        let w := imgWord bs
        let ls := settingsAt w 0 n
        let st := (hiveAt t h).state
        checked t c
          [(!settingsRz w 0 n, .decode), (settingsRange t h ls, .range),
           (!(st == .active || st == .migrating || st == .frozen), .state)]
          (await t c (fun u => (pendSettings u ls).onQm (fun m =>
            { m with jobs := m.jobs ++ [{ chan := c, kind := .labels h (ls.map (·.label)) }] }))))
    | _ => s)

/-- R55, R192, R204: `RESUME`. -/
def execResume (c : Nat) (s : State) : Host.Outcome State Fault Refusal :=
  runInstr s c (fun o => match o with | .resume _ => true | _ => false) (fun o =>
    match o with
    | .resume h =>
      if (hiveAt s h).state ≠ .frozen then retire s c .state
      else
        let t := (s.he.migrations.filter (fun m => m.hive == h)).foldl (fun t j => endMigration t j .aborted .active) s
        retire (setHive t h (fun x => { x with state := .active })) c .ok
    | _ => s)

/-- R36, R192: `QUERY_HIVE`. -/
def execQueryHive (c : Nat) (s : State) : Host.Outcome State Fault Refusal :=
  runInstr s c (fun o => match o with | .queryHive _ _ => true | _ => false) (fun o =>
    match o with
    | .queryHive h ga => withRecord s c (gAddr s c ga) 128 none (bytesOf (hiveImage s h))
    | _ => s)

/-- R368: the fingerprint record of a hive's key. -/
def fingerprintRecord (s : State) (h : Nat) : List Byte :=
  let k := keySlotOf h
  bytesOf [h <<< 56 + (hiveAt s h).state.code <<< 52 + k <<< 32 + (slotAt s k).gen] ++ fingerprint s k ++
    bytesOf [s.clk.ticks, 3 <<< 60, 0]

/-- R196, R368: `KEY_DERIVE` FINGERPRINT. -/
def execKeyDeriveFingerprint (c : Nat) (s : State) : Host.Outcome State Fault Refusal :=
  runInstr s c (fun o => match o with | .keyFingerprint _ _ => true | _ => false) (fun o =>
    match o with
    | .keyFingerprint h ga =>
      let st := (hiveAt s h).state
      withRecord s c (gAddr s c ga) 64
        (if st = .free ∨ st = .creating ∨ st = .resetting ∨ st = .destroying then some .state else none)
        (fingerprintRecord s h)
    | _ => s)

end Sys2Proof.Machine
end

