-- ==== Sys2Proof/Machine/Contexts.lean ====
section
/-! DEFINITION. The manager instructions that act on contexts, queues, objects and fences (R66 to R88, R192, R195, R198,
R219, R467, R468). -/

namespace Sys2Proof.Machine

/-! ## Grant lists -/

/-- R83: a grant entry. -/
def Grant.ofWord (w : Nat) : Grant := { obj := fld w 48 16, atom := bit w 2, wr := bit w 1, rd := bit w 0 }

/-- R66, R67: whether a grant list of `n` entries at a physical address is where it must be. -/
def grantListOk (s : State) (base n : Nat) : Bool :=
  n == 0 || (base % 64 == 0 && decide (base < 2 ^ 57) && paChip base == chipId s &&
    (linesOf (paLocal base) (8 * n)).all (inHive0Private s))

/-- The words of a grant list, or the status of the line that fails. -/
def readGrants (s : State) (base : Nat) : List Nat → List Nat → State × Except Status (List Nat)
  | [], acc => (s, .ok acc)
  | i :: r, acc =>
    let x := tableWord s (paLocal base + 8 * i)
    if x.2.1 = .ok then readGrants x.1 base r (acc ++ [x.2.2]) else (x.1, .error x.2.1)

/-- R83, R468: what an object table entry makes of a grant to a hive: DECODE, RANGE or none. -/
def grantCheck (s : State) (hive w0 w1 : Nat) : Option Status :=
  let o := objectSpan w0
  let n := fld w0 16 16
  if !rz w0 48 6 || w1 != 0 then some .decode
  else if fld w0 62 2 ≠ 1 ∨ fld w0 54 8 ≠ hive ∨ n = 0 ∨ 32768 < n then some .range
  else if (hiveAt s hive).combs.any (fun k => k.2.holds o.1 && k.2.holds (o.1 + o.2 - 1)) then none
  else some .range

/-- R82: an object table entry: the status of its line and its two words. -/
def objEntry (s : State) (o : Nat) : State × Status × Nat × Nat :=
  let a := objAddr s o
  let r := tableLine s (lineOf a)
  let w (i : Nat) : Nat := leNat ((r.2.2.drop (a - lineOf a + 8 * i)).take 8)
  (r.1, r.2.1, w 0, w 1)

/-- R83: the entries of a list in order, up to the first object line that fails; the least status of the checks. -/
def checkGrants (s : State) (hive : Nat) : List Grant → Option Status → State × Option Status
  | [], st => (s, st)
  | g :: r, st =>
    let e := objEntry s g.obj
    if e.2.1 ≠ .ok then (e.1, some e.2.1)
    else
      match grantCheck e.1 hive e.2.2.1 e.2.2.2, st with
      | some .decode, _ => checkGrants e.1 hive r (some .decode)
      | some x, none => checkGrants e.1 hive r (some x)
      | _, st => checkGrants e.1 hive r st

/-- R85: `holders` of an object raised by one. -/
def raiseHolder (s : State) (o : Nat) : State × Status :=
  let r := tableWord s (objAddr s o)
  if r.2.1 ≠ .ok then (r.1, r.2.1)
  else tableWrite r.1 (objAddr s o) (leBytes 8 (r.2.2 / 2 ^ 16 * 2 ^ 16 + (fld r.2.2 0 16 + 1) % 2 ^ 16))

/-- R85, R467: a list is loaded, or its counts are lowered again and the failing status given. -/
def raiseHolders (s : State) (hive : Nat) : List Grant → List Grant → State × Option Status
  | [], _ => (s, none)
  | g :: r, done =>
    match raiseHolder s g.obj with
    | (t, .ok) => raiseHolders t hive r (done ++ [g])
    | (t, st) => (unloadGrants t hive false done, some st)

/-- R67, R83, R85: a grant list is read and checked: its grants, or the status. -/
def readGrantList (s : State) (hive base n : Nat) : State × Except Status (List Grant) :=
  match readGrants s base (List.range n) [] with
  | (t, .error st) => (t, .error st)
  | (t, .ok ws) =>
    if ws.any (fun w => !rz w 3 45) then (t, .error .decode)
    else
      let gs := ws.map Grant.ofWord
      match checkGrants t hive gs none with
      | (u, some st) => (u, .error st)
      | (u, none) => if (distinct (gs.map (·.obj))).length < gs.length then (u, .error .range) else (u, .ok gs)

/-! ## Contexts -/

/-- R55: the hive states in which a context can be created and a queue bound. -/
def tenantsRun (s : State) (h : Nat) : Bool :=
  let st := (hiveAt s h).state
  st == .active || st == .resizing || st == .migrating

/-- R67: the contexts that a hive holds. -/
def ctxsOfHive (s : State) (h : Nat) : Nat := (s.qm.ctxs.filter (fun e => e.2.state != .free && e.2.hive == h)).length

/-- R67, R85: a context that has passed its checks is loaded and becomes ACTIVE. -/
def createCtx (s : State) (c n : Nat) (w : Nat → Nat) (gs : List Grant) : State :=
  let h := fld (w 0) 40 8
  match raiseHolders s h gs [] with
  | (t, some st) => retire t c st
  | (t, none) =>
    let t := setCtx t n (fun o =>
      { Ctx.empty with
        state := .active, hive := h, pasid := fld (w 0) 20 20, ptRoot := fld (w 1) 0 57, grantBase := fld (w 2) 0 57,
        grantCount := fld (w 3) 48 16, grants := gs, invSeq := o.invSeq })
    retire (t.onHp (fun p => { p with pasids := Tab.put p.pasids (fld (w 0) 20 20) n })) c .ok

/-- R66, R67: `CTX_CREATE`. -/
def execCtxCreate (c : Nat) (s : State) : Host.Outcome State Fault Refusal :=
  runInstr s c (fun o => match o with | .ctxCreate _ _ => true | _ => false) (fun o =>
    match o with
    | .ctxCreate n ga =>
      withImage s c (gAddr s c ga) 64 64 (fun t bs =>
        let w := imgWord bs
        let h := fld (w 0) 40 8
        let k := fld (w 3) 48 16
        checked t c
          [(!ctxRz w, .decode), (h == 255 || decide (4096 < k) || !grantListOk t (fld (w 2) 0 57) k, .range)]
          (match readGrantList t h (fld (w 2) 0 57) k with
           | (u, .error st) => retire u c st
           | (u, .ok gs) =>
             checked u c
               [((ctxAt u n).state != .free || !tenantsRun u h, .state),
                ((Tab.look u.hp.pasids (fld (w 0) 20 20)).isSome || decide ((hiveAt u h).ctxQuota ≤ ctxsOfHive u h), .resource)]
               (createCtx u c n w gs)))
    | _ => s)

/-- R68, R95, R185: `CTX_KILL`. -/
def execCtxKill (c : Nat) (s : State) : Host.Outcome State Fault Refusal :=
  runInstr s c (fun o => match o with | .ctxKill _ => true | _ => false) (fun o =>
    match o with
    | .ctxKill n =>
      checked s c [(n == 0, .range), ((ctxAt s n).state != .active, .state)]
        (await s c (fun u => startKill u n (some c) false))
    | _ => s)

/-- R81: `QUERY_CTX`. -/
def execQueryCtx (c : Nat) (s : State) : Host.Outcome State Fault Refusal :=
  runInstr s c (fun o => match o with | .queryCtx _ _ _ => true | _ => false) (fun o =>
    match o with
    | .queryCtx n ga qmax =>
      withRecord s c (gAddr s c ga) 64 none
        (bytesOf (ctxImage s n ++ ((queuesOfCtx s n).take qmax).flatMap (queueImage s)))
    | _ => s)

/-! ## Queues -/

/-- R70: the status that a fault of a bind's translation ends with. -/
def bindStatus (k : FaultKind) (st : Status) : Status :=
  match k with
  | .notPresent => .fault
  | .table => .fault
  | .frame => .fault
  | .hostPage => .fault
  | .hostDenied => .fault
  | .pteRights => .rights
  | .grant => .rights
  | .malformed => .decode
  | .readError => st

/-- R70, R226: one page of the ring or of the completion area: good, waiting for the host, or the end of the bind. `tmo`: the
first table read that it makes is not answered. -/
def bindPage (s : State) (c ctx : Nat) (tmo : Bool) (p : Span) (va skip : Nat) : State × PageEnd × Nat :=
  let bad (t : State) (k : FaultKind) (st : Status) (level : Nat) : State × PageEnd × Nat :=
    (permFault t k (bindStatus k st) level p.acc ctx va (.chan c), .ends (bindStatus k st), skip)
  let walked : State × PageEnd × Nat :=
    if tmo then bad s .readError .timeout 0
    else
      let w := walk s ctx va
      match w.2 with
      | .fault k level st => bad w.1 k st level
      | .leaf e lr _ =>
        let level := if e.sizeLog2 = 30 then 2 else 3
        if e.host then
          if e.permits p.need then
            preHost w.1 (.chan c) (fun t => setChan t c (fun x => { x with prog := x.prog + 1 })) e p (hostPages p va) skip
          else bad w.1 .pteRights .rights level
        else if e.permits p.need then (l2Put w.1 e, .good, skip)
        else bad w.1 (rightsFault lr p.need).1 .rights level
  match l2Find s ctx va with
  | some (_, _, e) => if e.permits p.need && combPasses s e va p.need then (s, .good, skip) else walked
  | none => walked

/-- The pages of the two areas in order, up to the first that is not good. -/
def bindPages (s : State) (c ctx : Nat) (tmo : Bool) : List (Span × Nat) → Nat → State × PageEnd
  | [], _ => (s, .good)
  | x :: r, k =>
    match bindPage s c ctx tmo x.1 x.2 k with
    | (t, .good, k) => bindPages t c ctx tmo r k
    | (t, e, _) => (t, e)

/-- R70: the two areas of a queue, as the spans that its bind translates and pins. -/
def bindSpans (x : Queue) : List Span :=
  [{ need := .rd, acc := .read, parts := [(x.ringBase, 2 ^ (x.ringLog2 + 6))] },
   { need := .wr, acc := .write, parts := [(x.cplBase, 2 ^ (x.ringLog2 + 4))] }]

/-- R70: the pins of a queue's two areas. -/
def queuePins (x : Queue) (n : Nat) : List Pin :=
  (bindSpans x).map (fun p =>
    { ctx := x.ctx, pages := (pagesOf p).map (· / 2 ^ 25), need := p.need, parts := p.parts, q := n, idx := none })

/-- R70, R78, R195: a bind that has passed its checks: the areas are translated and pinned, and the queue runs. The channel's
progress is 1 from its admission on, and one more for each host page passed. -/
def bindQueue (s : State) (c n : Nat) (tmo : Bool) (x : Queue) (tail done : Nat) : State :=
  let spans := bindSpans x
  let s1 := setChan s c (fun y => { y with prog := Nat.max 1 y.prog })
  match bindPages s1 c x.ctx tmo (spans.flatMap (fun p => (pagesOf p).map (fun a => (p, a)))) ((chanAt s1 c).prog - 1) with
  | (t, .ends st) => retire t c st
  | (t, e) =>
    if tmo then s
    else if e = .parked then stall t c .walk
    else if e = .wait then t
    else
    let t := t.onQm (fun m => { m with pins := m.pins ++ queuePins x n })
    let t := setQueue t n (fun _ =>
      { x with state := .running, tail := tail, done := done, fetch := done, vt := vtRef t (ctxAt t x.ctx).hive n })
    retire t c .ok

/-- R70, R75, R195: the bind of an image. -/
def bindInstr (s : State) (c : Nat) (tmo : Bool) (o : Zop) : State :=
  match o with
  | .queueBind n ga gi =>
    withImage s c (gAddr s c ga) 64 64 (fun t bs =>
      let w := imgWord bs
      let x := queueOf w
      let k := ctxAt t x.ctx
      let h := hiveAt t k.hive
      let live := k.state == .active
      let ix := match gi with | some r => ((chanAt t c).greg r).toNat | none => 0
      let tail := fld ix 32 32
      let done := fld ix 0 32
      checked t c
        [(!queueRz w, .decode),
         (n == 0 || queueRange x || decide (2 ^ x.ringLog2 < dist tail done) ||
           (live && (decide (x.label < h.labelFirst) || decide (h.labelFirst + h.labelCount ≤ x.label) ||
             decide (x.vector < h.vecFirst) || decide (h.vecFirst + h.vecCount ≤ x.vector))), .range),
         ((queueAt t n).state != .unbound || !live || !tenantsRun t k.hive, .state),
         (decide (h.queueQuota ≤ (queuesOfHive t k.hive).length), .resource)]
        (bindQueue t c n tmo x tail done))
  | _ => s

/-- Whether an instruction is a `QUEUE_BIND` BIND. -/
def isBind (o : Zop) : Bool := match o with | .queueBind _ _ _ => true | _ => false

/-- R70, R75, R195: `QUEUE_BIND` BIND. -/
def execQueueBind (c : Nat) (s : State) : Host.Outcome State Fault Refusal := runInstr s c isBind (bindInstr s c false)

/-- R70, R132, R225: a table read that the bind of a channel makes is not answered: the bind ends with TIMEOUT. -/
def bindReadTimeout (s : State) (c : Nat) : State :=
  if running s c isBind && (chanAt s c).holds then bindInstr s c true (chanAt s c).op else s

/-- The admission of a reset or an unbind of a queue (R75, R185). -/
def resetQueue (s : State) (c n : Nat) (unbind : Bool) : State :=
  let st := (queueAt s n).state
  checked s c [(n == 0, .range), (!(st == .running || st == .stopped), .state)]
    (await s c (fun u => startQueueReset u n (some c) unbind))

/-- R76, R195: `QUEUE_BIND` RESET. -/
def execQueueReset (c : Nat) (s : State) : Host.Outcome State Fault Refusal :=
  runInstr s c (fun o => match o with | .queueReset _ => true | _ => false) (fun o =>
    match o with
    | .queueReset n => resetQueue s c n false
    | _ => s)

/-- R76, R195: `QUEUE_BIND` UNBIND. -/
def execQueueUnbind (c : Nat) (s : State) : Host.Outcome State Fault Refusal :=
  runInstr s c (fun o => match o with | .queueUnbind _ => true | _ => false) (fun o =>
    match o with
    | .queueUnbind n => resetQueue s c n true
    | _ => s)

/-! ## INVALIDATE -/

/-- R198, R219: `INVALIDATE` PAGES. -/
def execInvalidatePages (c : Nat) (s : State) : Host.Outcome State Fault Refusal :=
  runInstr s c (fun o => match o with | .invPages _ _ _ => true | _ => false) (fun o =>
    match o with
    | .invPages n ga gl =>
      let a := ((chanAt s c).greg ga).toNat
      let l := ((chanAt s c).greg gl).toNat
      checked s c
        [(a % 2 ^ 25 != 0 || l == 0 || l % 2 ^ 25 != 0 || decide (2 ^ 57 < a + l), .range),
         ((ctxAt s n).state != .active, .state)]
        (await s c (fun u => (shootdown (raiseInv u n) n a l).onQm (fun m =>
          { m with jobs := m.jobs ++ [{ chan := c, kind := .pins n a l }] })))
    | _ => s)

/-- R85: whether a list takes away or narrows a grant of another. -/
def narrows (old new : List Grant) : Bool :=
  old.any (fun g =>
    !new.any (fun n => n.obj == g.obj && (n.rd || !g.rd) && (n.wr || !g.wr) && (n.atom || !g.atom)))

/-- R85, R198, R467: the grant list of a context is replaced; the context's pins are not waited for (log 63). -/
def replaceGrants (s : State) (c n base k : Nat) (gs : List Grant) : State :=
  let old := ctxAt s n
  match raiseHolders s old.hive gs [] with
  | (t, some st) => retire t c st
  | (t, none) =>
    let t := setCtx t n (fun x => { x with grants := gs, grantBase := base, grantCount := k })
    let t := if narrows old.grants gs then shootdownAll (raiseInv t n) n else t
    retire (unloadGrants t old.hive false old.grants) c .ok

/-- R198: `INVALIDATE` CONTEXT. -/
def execInvalidateContext (c : Nat) (s : State) : Host.Outcome State Fault Refusal :=
  runInstr s c (fun o => match o with | .invContext _ _ _ => true | _ => false) (fun o =>
    match o with
    | .invContext n ga gl =>
      let a := ((chanAt s c).greg ga).toNat
      let k := ((chanAt s c).greg gl).toNat
      checked s c [(decide (4096 < k) || !grantListOk s a k, .range), ((ctxAt s n).state != .active, .state)]
        (match readGrantList s (ctxAt s n).hive a k with
         | (t, .error st) => retire t c st
         | (t, .ok gs) => replaceGrants t c n (a % 2 ^ 57) k gs)
    | _ => s)

/-- R85, R86, R467, R468: `INVALIDATE` OBJECT. -/
def execInvalidateObject (c : Nat) (s : State) : Host.Outcome State Fault Refusal :=
  runInstr s c (fun o => match o with | .invObject _ => true | _ => false) (fun o =>
    match o with
    | .invObject o =>
      let e := objEntry s o
      if e.2.1 ≠ .ok then retire e.1 c e.2.1
      else
        let w := e.2.2.1
        let st := fld w 62 2
        checked e.1 c
          [(!rz w 48 6 || e.2.2.2 != 0, .decode), (decide (2 ≤ st), .range), (st == 0 || fld w 0 16 != 0, .state)]
          (let r := tableWrite e.1 (objAddr s o) (leBytes 8 (w % 2 ^ 62))
           retire r.1 c r.2)
    | _ => s)

/-- R88: `INVALIDATE` FENCE. It comes after the operations that wait for the fence (R93); where the cache has no room for
the entry, the instruction waits. -/
def execInvalidateFence (c : Nat) (s : State) : Host.Outcome State Fault Refusal :=
  runInstr s c (fun o => match o with | .invFence _ => true | _ => false) (fun o =>
    match o with
    | .invFence f =>
      let r := settleFill s f
      match r.2, fenceAt r.1 f with
      | some st, _ => retire r.1 c st
      | none, some fe =>
        if fe.state = .opened then retire r.1 c .state
        else
          let w := tableWrite r.1 (fenceAddr s f) (List.replicate 32 0)
          if w.2 = .ok then retire (w.1.onQm (fun m => { m with fences := Tab.del m.fences f })) c .ok
          else retire w.1 c w.2
      | none, none => r.1
    | _ => s)

end Sys2Proof.Machine
end

