-- ==== Sys2Proof/Machine/Migrate.lean ====
section
/-! DEFINITION. Live migration (R200 to R206, R246 to R248): the plan, the copy of a round, the freeze, the package. The
copy of a round is issued when its set is taken; the round ends when every line of it has been acknowledged. -/

namespace Sys2Proof.Machine

/-- The cells of a hive's private combs that are not fresh (R203, R314). -/
def liveCells (s : State) (h : Nat) : List Nat :=
  distinct ((s.pr.slices.filter (fun e => e.2.state != .fresh &&
    (hiveAt s h).combs.any (fun c => !c.2.commons && c.2.holds (e.1 / 64 * 2 ^ 21)))).map (fun e => e.1 / 64))

/-- R247: what a log answers with. -/
def logCells (s : State) (h : Nat) : List Nat :=
  match s.xl.logs.find? (fun l => l.hive == h) with
  | some l => if l.allDirty then liveCells s h else l.cells
  | none => []

/-- R248: the log is cleared. -/
def clearLog (s : State) (h : Nat) : State :=
  s.onXl (fun x => { x with logs := x.logs.map (fun l => if l.hive == h then { l with cells := [], allDirty := false } else l) })

/-- R51, R202: a line leaves for the destination chip as a write of hive 0, charged to the plan's label. -/
def copyWrite (s : State) (j : MigJob) (pa : Nat) (f : Frame) (bytes : Nat) : State × Option Status :=
  if !remoteOk s 0 j.dstChip then (refuseLine s j.chan pa, some .rights)
  else if !reachable s j.dstChip then (s, some .link)
  else (openTxn (charge s j.label bytes) j.dstChip f j.chan (.write 0), none)

/-- R25, R51, R202: one line of a comb, read for the source hive, whose comb must let it read, and written at the destination.
The read comes before what waits at the line (log 67): a write that lands later is logged. -/
def copyLine (s : State) (j : MigJob) (k : Comb) (dst a : Nat) : State × Option Status :=
  let r := homeRead (charge s j.label 128) j.hive k.keySel a (levelOf s j.label)
  if !k.locRd then (refuseLine s j.chan (paOf (chipId s) a), some .rights)
  else if r.2.1 ≠ .ok then (r.1, some r.2.1)
  else
    let pa := dst + (a - k.base * 2 ^ 30)
    copyWrite r.1 j pa (requestFrame r.1 j.dstChip 6 0 (levelOf r.1 j.label) pa 0 r.2.2) 128

/-- Steps in order, up to the first that fails. -/
def untilFail {α : Type} (f : State → α → State × Option Status) : State → List α → State × Option Status
  | s, [] => (s, none)
  | s, x :: r =>
    match f s x with
    | (t, none) => untilFail f t r
    | y => y

/-- R202: one cell of a comb, as 16,384 whole lines. -/
def copyCell (s : State) (j : MigJob) (cell : Nat) : State × Option Status :=
  match (hiveAt s j.hive).combs.find? (fun c => !c.2.commons && c.2.holds (cell * 2 ^ 21)) with
  | some (i, k) =>
    match Tab.look j.pairs i with
    | some dst => untilFail (fun t n => copyLine t j k dst (cell * 2 ^ 21 + 128 * n)) s (List.range 16384)
    | none => (s, none)
  | none => (s, none)

def copyCells (s : State) (j : MigJob) (cells : List Nat) : State × Option Status :=
  untilFail (fun t n => copyCell t j n) s cells

def migAt (s : State) (h : Nat) : Option MigJob := s.he.migrations.find? (fun m => m.hive == h)
def setMig (s : State) (h : Nat) (f : MigJob → MigJob) : State :=
  s.onHe (fun e => { e with migrations := e.migrations.map (fun m => if m.hive == h then f m else m) })

/-- R204: a copy has failed: the migration ends with that status, once no copy is outstanding. -/
def copyFailed (s : State) (h : Nat) (st : Status) : State :=
  match migAt s h with
  | some j => migrationGoes (setChan s j.chan (fun x => { x with lineStatus := some (x.lineStatus.getD st) })) j
  | none => s

/-- R203 phase 1: a round's set is taken and its copy issued; a copy that fails ends the migration. -/
def startRound (s : State) (h : Nat) (round : Nat) (cells : List Nat) : State :=
  let t := setMig (clearLog s h) h (fun m =>
    { m with round := round, cells := cells, cellsTotal := m.cellsTotal + cells.length })
  match migAt t h with
  | none => t
  | some j =>
    match copyCells t j cells with
    | (u, none) => u
    | (u, some st) => copyFailed u h st

/-! ## The plan (R200) -/

def planRz (w : Nat → Nat) : Bool :=
  rz (w 1) 57 7 && rz (w 2) 48 4 && rz (w 2) 0 32 && rz (w 3) 57 7 && w 4 == 0 && w 5 == 0 && w 6 == 0 && w 7 == 0 &&
    (List.range 16).all (fun i => rz (w (8 + 2 * i)) 57 6 && w (9 + 2 * i) == 0)

/-- The valid pairs: comb entry and `dst_base`. -/
def planPairs (w : Nat → Nat) : Tab Nat :=
  (List.range 16).filterMap (fun i => if bit (w (8 + 2 * i)) 63 then some (i, fld (w (8 + 2 * i)) 0 57) else none)

/-- R200, R201: what fails a plan with RANGE, its fence list apart. -/
def planRange (s : State) (h : Nat) (w : Nat → Nat) : Bool :=
  let x := hiveAt s h
  let dst := fld (w 0) 48 16
  let rounds := fld (w 0) 32 8
  let ms := fld (w 0) 0 16
  let pkg := fld (w 1) 0 57
  let ps := planPairs w
  let lab := fld (w 2) 52 12
  let isPrivate (i : Nat) : Bool := match Tab.look x.combs i with | some k => !k.commons | none => false
  h == 0 || decide (rounds < 1) || decide (32 < rounds) || decide (ms < 1) || decide (60000 < ms) || pkg % 4096 != 0 ||
    dst == chipId s || paChip pkg != dst || ps.any (fun p => p.2 % 2 ^ 30 != 0 || paChip p.2 != dst || !isPrivate p.1) ||
    (List.range 16).any (fun i => isPrivate i && (Tab.look ps i).isNone) ||
    decide (lab < (hiveAt s 0).labelFirst) || decide ((hiveAt s 0).labelFirst + (hiveAt s 0).labelCount ≤ lab)

/-- R203 phase 1: a migration that has passed its checks. -/
def startMigration (s : State) (c h : Nat) (w : Nat → Nat) (fences : List Nat) : State :=
  let t := setHive s h (fun x => { x with state := .migrating })
  let t := t.onXl (fun x => { x with logs := x.logs ++ [{ hive := h, cells := [], allDirty := false }] })
  let j : MigJob :=
    { hive := h, chan := c, phase := .precopy, dstChip := fld (w 0) 48 16, dstHive := fld (w 0) 40 8,
      maxRounds := fld (w 0) 32 8, stopCells := fld (w 0) 16 16, freezeMs := fld (w 0) 0 16, pkgAddr := fld (w 1) 0 57,
      label := fld (w 2) 52 12, fences := fences, pairs := planPairs w, round := 0, cells := [], cellsFinal := 0,
      cellsTotal := 0, freezeTick := 0 }
  startRound (t.onHe (fun e => { e with migrations := e.migrations ++ [j] })) h 0 (liveCells t h)

/-- R200 to R203: `MIGRATE`. -/
def execMigrate (c : Nat) (s : State) : Host.Outcome State Fault Refusal :=
  runInstr s c (fun o => match o with | .migrate _ _ => true | _ => false) (fun o =>
    match o with
    | .migrate h ga =>
      withImage s c (gAddr s c ga) 64 320 (fun t bs =>
        let w := imgWord bs
        let n := fld (w 2) 32 16
        if !planRz w then retire t c .decode
        else
          withImage t c (fld (w 3) 0 57) 1 (4 * n) (fun t fs =>
            let fences := (List.range n).map (fun i => leNat ((fs.drop (4 * i)).take 4))
            checked t c
              [(planRange t h w || fences.any (fun f => decide (Config.fences ≤ f)), .range),
               ((hiveAt t h).state != .active, .state),
               (decide (Config.migrations ≤ t.he.migrations.length), .resource)]
              (await t c (fun u => startMigration u c h w fences))))
    | _ => s)

/-! ## Rounds, freeze, package -/

/-- R203 phase 2: commands fetched and not dispatched are returned. -/
def returnCommands (s : State) (h : Nat) : State :=
  let mine := s.qm.cmds.filter (fun k => (ctxAt s k.ctx).hive == h)
  mine.foldl (fun t k =>
    setQueue (dropCmd t k.q k.idx) k.q (fun x =>
      if dist k.idx x.done < dist x.fetch x.done then { x with fetch := k.idx } else x)) s

/-- R203 phase 2: the hive is frozen. -/
def freeze (s : State) (j : MigJob) (d : Nat) : State :=
  let t := setHive s j.hive (fun x => { x with state := .frozen })
  let t := setMig t j.hive (fun m => { m with phase := .freezing, freezeTick := s.clk.ticks })
  returnCommands (hiveEvent t 0x0B j.hive (j.round + 1) (d % 2 ^ 32)) j.hive

/-- R203 phase 1: a round has ended: the next round begins, or the hive freezes. -/
def execMigrateRoundDone (h : Nat) (s : State) : Host.Outcome State Fault Refusal :=
  match migAt s h with
  | none => .next s
  | some j =>
    taken (j.phase == .precopy && !remoteBusy s j.chan) s
      (let set := logCells s h
       let d := set.length
       if d ≤ j.stopCells ∨ j.round + 1 = j.maxRounds ∨ j.cells.length ≤ d then freeze s j d
       else startRound s h (j.round + 1) set)

/-- R205: the record of a carried fence, as the cache has it; one that is FREE, as its table entry stands. -/
def fenceRecord (s : State) (f : Nat) : State × List Nat :=
  let r := fill s f
  match fenceAt r.1 f with
  | some fe => (r.1, [f] ++ fe.words.take 3)
  | none =>
    let a := fenceAddr s f
    let l := tableLine r.1 (lineOf a)
    (l.1, [f] ++ (List.range 3).map (fun i => leNat ((l.2.2.drop (a - lineOf a + 8 * i)).take 8)))

/-- R205: the package. The layout of R205 has no place for the `dst_hive` that R200 has it record: it is not in it (log 53). -/
def package (s : State) (j : MigJob) : State × List Byte :=
  let cs := (s.qm.ctxs.filter (fun e => e.2.hive == j.hive && e.2.state == .active)).map (·.1)
  let qs := queuesOfHive s j.hive
  let fs := j.fences.foldl (fun acc f => let r := fenceRecord acc.1 f; (r.1, acc.2 ++ r.2)) (s, [])
  let header : List Nat :=
    [chipId s <<< 48 + j.hive <<< 40 + 1 <<< 32 + cs.length <<< 16 + qs.length,
     j.fences.length <<< 48 + (j.round + 1) <<< 40 + 3 <<< 36,
     ((s.clk.ticks - j.freezeTick) % 2 ^ 32) <<< 32 + j.cellsFinal, j.cellsTotal, 0, 0, 0, 0]
  (fs.1, bytesOf (header ++ hiveImage s j.hive ++ cs.flatMap (ctxImage s) ++ qs.flatMap (queueImage s) ++ fs.2))

/-- R203: the package leaves line by line; a short last line is a merged write. -/
def writePackage (s : State) (j : MigJob) (bytes : List Byte) : State × Option Status :=
  untilFail (fun t i =>
    let pa := j.pkgAddr + 128 * i
    let part := (bytes.drop (128 * i)).take 128
    let lv := levelOf t j.label
    if part.length = 128 then copyWrite t j pa (requestFrame t j.dstChip 6 0 lv pa 0 part) 128
    else
      copyWrite t j pa (requestFrame t j.dstChip 7 0 lv pa 0
        (leBytes 16 (2 ^ part.length - 1) ++ (part ++ List.replicate 128 0).take 128)) 256)
    s (List.range ((bytes.length + 127) / 128))

/-- R203 phases 2 and 3, R248: the last dispatched command of the frozen hive has ended, and no write of it is unanswered at a
unit or a port: the last set is copied and the package written; once all of it is acknowledged the hive is handed over. -/
def execMigrateDrainDone (h : Nat) (s : State) : Host.Outcome State Fault Refusal :=
  match migAt s h with
  | none => .next s
  | some j =>
    taken (j.phase == .freezing && chansWhere s (fun ch => ch.hive == h) == [] &&
        (queuesOfHive s h).all (fun q => !recordOut s q) && writesQuiet s h) s
      (let set := logCells s h
       let t := setMig (clearLog s h) h (fun m =>
         { m with phase := .final, cells := set, cellsFinal := set.length, cellsTotal := m.cellsTotal + set.length })
       match migAt t h with
       | none => t
       | some k =>
         match copyCells t k set with
         | (u, some st) => copyFailed u h st
         | (u, none) =>
           let p := package u k
           match writePackage p.1 k p.2 with
           | (v, some st) => copyFailed v h st
           | (v, none) => progress v)

/-- R204: the drain has outlasted `freeze_ms`. -/
def execMigrateFreezeTimeout (h : Nat) (s : State) : Host.Outcome State Fault Refusal :=
  match migAt s h with
  | none => .next s
  | some j => taken (j.phase == .freezing) s (endMigration s j .timeout .frozen)

end Sys2Proof.Machine
end

