-- ==== Sys2Proof/Machine/HostPort.lean ====
section
/-! DEFINITION. The host port unit (R421 to R437): the mailbox registers (R393 to R395), the MSI-X table, the fence
window, the doorbell pages with their page-0 words, the aperture, the route reload (R281), and the answers to accesses
that have no target (R274, R434). -/

namespace Sys2Proof.Machine

/-! ## Registers as they read -/

/-- R358: the report codes. -/
def LcState.report : LcState → Nat
  | .blank => 0
  | .test => 1
  | .production => 2
  | .endOfLife => 3
  | .locked => 4

/-- R394: `mb_status`. -/
def mbStatus (s : State) : Nat :=
  let m := s.kp.mbox
  m.bootStage <<< 56 + s.vault.lc.report <<< 48 + b2n m.fwCopy <<< 47 + b2n m.setCopy <<< 46 + b2n m.vecShort <<< 39 +
    b2n m.setFail <<< 38 + b2n m.fwFallback <<< 37 + b2n s.clk.osc <<< 36 + b2n m.isOut <<< 35 + b2n m.pmbFail <<< 34 +
    b2n m.clkFail <<< 33 + b2n m.drbgFail <<< 32 + m.fwSecver <<< 24 + m.setSecver <<< 16

/-- R394: `mb_cmd` and `mb_reply`. -/
def mbCmd (s : State) : Nat := s.kp.mbox.op <<< 48 + s.kp.mbox.argLen <<< 32 + s.kp.mbox.tag
def mbReply (s : State) : Nat :=
  let m := s.kp.mbox
  b2n m.busy <<< 63 + m.replyStatus <<< 48 + m.replyLen <<< 32 + m.replyTag

/-- A byte of a list of words. -/
def wordByte (ws : List Nat) (off : Nat) : Byte := BitVec.ofNat 8 (nth ws (off / 8) 0 >>> (8 * (off % 8)))

/-- R366, R393: the identity public key, in TEST and PRODUCTION. -/
def identityOut (s : State) : List Byte :=
  if s.vault.lc = .test ∨ s.vault.lc = .production then s.vault.identity else []

/-- R393: a byte of the mailbox window. -/
def mailboxByte (s : State) (o : Nat) : Byte :=
  if o < 0x20 then wordByte [mbStatus s, mbCmd s, mbReply s, s.kp.mbox.refused] o
  else if 0x400 ≤ o ∧ o < 0x600 then wordByte (s.kp.capability.map (·.toNat)) (o - 0x400)
  else if 0x600 ≤ o ∧ o < 0x660 then nth (identityOut s) (o - 0x600) 0
  else if 0x1000 ≤ o ∧ o < 0x9000 then nth s.kp.mbox.reply (o - 0x1000) 0
  else if 0x9000 ≤ o ∧ o < 0xD000 then cellRead 0 s.kp.mbox.args (o - 0x9000)
  else 0

/-- The two words of an MSI-X table entry. -/
def msixWords (e : MsixEntry) : List Nat := [e.addr, e.data + b2n e.masked <<< 32]

/-- R424: a byte of the MSI-X table and of the Pending Bit Array. -/
def msixByte (s : State) (o : Nat) : Byte := wordByte (msixWords (msixAt s (o / 16))) (o % 16)
def pbaByte (s : State) (o : Nat) : Byte :=
  BitVec.ofNat 8 (bitmapOf ((List.range 8).filter (fun i => s.hp.pba.contains (8 * o + i))))

/-- R435: the counter words of page 0. -/
def counterWords (s : State) : List Nat :=
  let c := s.hp.counters
  [c.sunkDb <<< 32 + c.sunkWr, c.urReads <<< 32 + c.urAtomic, c.dupResp <<< 32 + c.staleInv, c.faultLost <<< 32 + c.badConsumed]

def Window.none_ : Window := { valid := false, whive := 0, granule := 0 }
def windowAt (s : State) (i : Nat) : Window := (Tab.look s.hp.windows i).getD Window.none_

/-- R429: the word of a window entry. -/
def windowWord (w : Window) : Nat := b2n w.valid <<< 63 + w.whive <<< 42 + w.granule <<< 32

/-- R426: a word of a doorbell page; the page-0 words read zero in any other page. -/
def doorbellWord (s : State) (page i : Nat) : Nat :=
  if i < 0x1000 then
    let q := queueAt s i
    if q.state ≠ .unbound ∧ q.ctx = page then q.tail <<< 32 + q.done else 0
  else if page ≠ 0 then 0
  else if i = 0x1001 then s.sq.eventConsumed
  else if i = 0x1003 then s.xl.faultConsumed
  else if 0x1200 ≤ i ∧ i < 0x1400 then windowWord (windowAt s (i - 0x1200))
  else if 0x1400 ≤ i ∧ i < 0x1404 then nth (counterWords s) (i - 0x1400) 0
  else 0

/-! ## Refusals -/

/-- R434, R435: a read answered with Unsupported Request. -/
def urRead (s : State) (logged : Bool) : State :=
  let t := emit (count s (fun c => { c with urReads := satInc 32 c.urReads })) .unsupported
  if logged then refuseHost t else t

/-- R432, R434: an AtomicOp answered with Unsupported Request. -/
def urAtomic (s : State) (logged : Bool) : State :=
  let t := emit (count s (fun c => { c with urAtomic := satInc 32 c.urAtomic })) .unsupported
  if logged then refuseHost t else t

/-- R435: a sunk doorbell. -/
def sinkDoorbell (s : State) : State := count s (fun c => { c with sunkDb := satInc 32 c.sunkDb })

/-- R421, R274: whether the keeper's structures answer. -/
def keeperServes (s : State) : Bool := !s.hp.d3hot

/-- R424: an access of 4 or 8 bytes, naturally aligned. -/
def wordAccess (off len : Nat) : Bool := (len == 4 || len == 8) && off % len == 0

/-- R434: whether a doorbell page answers: its context is ACTIVE and its hive is not being reset or destroyed. -/
def pageLive (s : State) (page : Nat) : Bool :=
  let h := (hiveAt s (ctxAt s page).hive).state
  (ctxAt s page).state == .active && h != .resetting && h != .destroying

/-! ## The aperture (R429 to R432) -/

/-- R430: what an aperture access meets: the hive, the comb and the local address, or a refusal, logged or not. -/
def apertureTarget (s : State) (off len : Nat) (n : Need) : Except Bool (Nat × Comb × Nat) :=
  let w := windowAt s (off / 2 ^ 30)
  let a := w.granule * 2 ^ 30 + off % 2 ^ 30
  let st := (hiveAt s w.whive).state
  if !w.valid then .error true
  else if st = .resetting ∨ st = .destroying then .error false
  else if !(st == .active || st == .resizing || st == .migrating || st == .frozen) then .error true
  else if 2 ^ 30 < off % 2 ^ 30 + len then .error true
  else
    match combFor s w.whive a with
    | some k => if k.permits n then .ok (w.whive, k, a) else .error true
    | none => .error true

/-- R319: the label of aperture traffic. -/
def apertureLabel (s : State) (h : Nat) : Nat := (hiveAt s h).labelFirst

/-- R430, R315: the lines of an aperture read in order: the bytes, open where a line is not good, and which are not. -/
def apertureLines (s : State) (h : Nat) (k : Comb) : List Nat → List Byte × List Bool → State × List Byte × List Bool
  | [], acc => (s, acc)
  | l :: r, acc =>
    let lab := apertureLabel s h
    let x := homeRead (charge s lab 128) h k.keySel l (levelOf s lab)
    let t := redeem x.1 (.hostPort 0) l
    if x.2.1 = .ok then apertureLines t h k r (acc.1 ++ x.2.2, acc.2 ++ [false])
    else
      let d := drawBytes t 128
      apertureLines d.2 h k r (acc.1 ++ d.1, acc.2 ++ [true])

/-- The part of a host write that falls in a line. -/
def lineWrite (a : Nat) (data : List Byte) (l : Nat) : WriteKind :=
  asWrite ((data.zipIdx).filterMap (fun e => if lineOf (a + e.2) = l then some (a + e.2 - l, e.1) else none))

/-- R432: an AtomicOp as the atomic of R146; FetchAdd is ADD, Swap is XCHG. -/
def hostAtomic (a : Nat) (op : HostAtomic) (size operand compare : Nat) : WriteKind :=
  .atomic (match op with | .fetchAdd => .add | .swap => .xchg | .cas => .cas) (size == 8) false (a % 128) operand compare

/-- R430: a host Memory Read through BAR4. -/
def apertureReadGo (s : State) (off len : Nat) : State :=
  if !blockReady s then urRead s false
  else
    match apertureTarget s off len .rd with
    | .error logged => urRead s logged
    | .ok (h, k, a) =>
      let r := apertureLines s h k (linesOf a len) ([], [])
      emit r.1 (.readDone ((r.2.1.drop (a % 128)).take len) r.2.2)

/-- R319: a write-kind request of the host port to a line of a hive's comb. -/
def apertureLine (s : State) (h : Nat) (k : Comb) (l : Nat) (w : WriteKind) : State × Status × Nat :=
  let lab := apertureLabel s h
  let r := homeWrite (charge s lab (chargeOf w)) h k.keySel l w (levelOf s lab)
  (redeem r.1 (.hostPort 0) l, r.2)

/-- R430: a host Memory Write through BAR4, line by line. -/
def apertureWriteGo (s : State) (off : Nat) (data : List Byte) : State :=
  if !blockReady s then sinkWrite s false
  else
    match apertureTarget s off data.length .wr with
    | .error logged => sinkWrite s logged
    | .ok (h, k, a) => (linesOf a data.length).foldl (fun t l => (apertureLine t h k l (lineWrite a data l)).1) s

/-- R432: a host AtomicOp to BAR4. -/
def apertureAtomicGo (s : State) (off : Nat) (op : HostAtomic) (size operand compare : Nat) : State :=
  if !blockReady s then urAtomic s false
  else
    match apertureTarget s off size .atom with
    | .error logged => urAtomic s logged
    | .ok (h, k, a) =>
      let r := apertureLine s h k (lineOf a) (hostAtomic a op size operand compare)
      let d := drawNat r.1
      if r.2.1 = .ok then emit r.1 (.atomicDone r.2.2 false) else emit d.2 (.atomicDone (d.1 % 2 ^ (8 * size)) true)

/-- R426, R429: a window entry is written through page 0. -/
def execWindowEntryWrite (i : Nat) (w : Word) (s : State) : Host.Outcome State Fault Refusal :=
  let g := fld w.toNat 32 10
  hostAccess s
    (if !blockReady s then sinkWrite s false
     else if 512 ≤ i ∨ memBytes s / 2 ^ 30 ≤ g then sinkWrite s true
     else
       let e : Window := { valid := bit w.toNat 63, whive := fld w.toNat 42 8, granule := g }
       s.onHp (fun h => { h with windows := Tab.put h.windows i e }))

/-! ## The fence window -/

/-- R425: the value and status word of a fence: from the cache, else from its table entry. -/
def fenceWords (s : State) (f : Nat) : State × List Nat :=
  let t := if cacheRoom s f then (fill s f).1 else s
  match fenceAt t f with
  | some fe => (t, fe.words.take 2)
  | none =>
    let a := fenceAddr t f
    let r := tableLine t (lineOf a)
    (r.1, (List.range 2).map (fun i => leNat ((r.2.2.drop (a - lineOf a + 8 * i)).take 8)))

/-- R424, R425: a read of the fence window at an offset of it. -/
def execFenceWindowRead (off size : Nat) (s : State) : Host.Outcome State Fault Refusal :=
  hostAccess s
    (if !(size == 8 || size == 16) || off % size != 0 || decide (16 * Config.fences ≤ off) then urRead s true
     else if !blockReady s then urRead s false
     else
       let r := fenceWords s (off / 16)
       let t := emit r.1 (.readDone (((bytesOf r.2).drop (off % 16)).take size) [])
       if (fenceAt s (off / 16)).isSome then t else inStream s t)

/-! ## The mailbox -/

/-- R396: whether an operation code and an argument length are a command's. -/
def mbKnown (op len : Nat) : Bool :=
  match op with
  | 0x01 => len == 0
  | 0x02 => len == 0
  | 0x03 => len == 256
  | 0x04 => len == 8
  | 0x05 => len == 328
  | 0x06 => len == 232
  | 0x07 => len == 0
  | 0x08 => len == 224
  | 0x09 => len == 8
  | 0x0A => len == 80
  | 0x0B => len == 8
  | 0x0C => len == 224
  | 0x10 => len == 0
  | 0x11 => len == 0
  | 0x12 => len == 8
  | 0x13 => len == 0
  | 0x14 => decide (8 ≤ len) && decide (len ≤ 16384)
  | 0x15 => len == 8
  | 0x16 => len == 0
  | 0x17 => len == 8
  | 0x18 => len == 0
  | 0x19 => decide (8 ≤ len) && decide (len ≤ 72)
  | _ => false

def setMbox (s : State) (f : Mailbox → Mailbox) : State := s.onKp (fun k => { k with mbox := f k.mbox })

/-- R395, R404: a mailbox command ends with a status and a reply; a `REBOOT` that waited for it starts. -/
def mbEnd (s : State) (st : Status) (reply : List Byte) : State :=
  setMbox s (fun m =>
    let n := { m with busy := false, resetAsked := false, replyStatus := st.code, replyLen := reply.length, replyTag := m.tag,
                      reply := reply }
    match m.rebootTag with
    | some g => { n with op := 0x11, argLen := 0, tag := g, busy := true, rebootTag := none }
    | none => n)

/-- R420: a mailbox command that is refused, with DECODE, RANGE or STATE, is counted. -/
def mbRefuse (s : State) (st : Status) : State :=
  mbEnd (if st = .decode ∨ st = .range ∨ st = .state then refuseInput s false 9 0 else s) st []

/-- R395: a write of `mb_cmd` that covers bytes 4 to 7 starts a command; an unknown one ends with DECODE. -/
def mbStart (s : State) (op len tag : Nat) : State :=
  let t := setMbox s (fun m => { m with op := op, argLen := len, tag := tag, busy := true, reply := [] })
  if mbKnown op len then t else mbRefuse t .decode

/-- R404: whether a write of `mb_cmd` asks for a `REBOOT` while a vault command blows fuses. -/
def waitsToReboot (s : State) (len v : Nat) : Bool :=
  s.vault.blow.isSome && s.kp.mbox.rebootTag.isNone && len == 8 && fld v 48 16 == 0x11 && fld v 32 16 == 0

/-- R395, R404: a write of `mb_cmd`, by the bytes it covers. -/
def mbWrite (s : State) (off len v : Nat) : State :=
  if s.kp.mbox.busy then
    if waitsToReboot s len v then setMbox s (fun m => { m with rebootTag := some (fld v 0 32) })
    else setMbox s (fun m => { m with refused := satInc 32 m.refused })
  else if len = 8 then mbStart s (fld v 48 16) (fld v 32 16) (fld v 0 32)
  else if off = 0xC then mbStart s (fld v 16 16) (fld v 0 16) s.kp.mbox.tag
  else setMbox s (fun m => { m with tag := fld v 0 32 })

/-- R393: an accepted write of the mailbox window. -/
def mailboxWrite (s : State) (off : Nat) (data : List Byte) : State :=
  if 8 ≤ off ∧ off < 0x10 then mbWrite s off data.length (leNat data)
  else if 0x9000 ≤ off ∧ off < 0xD000 then setMbox s (fun m => { m with args := cellWriteN 0 m.args (off - 0x9000) data })
  else s

/-! ## The MSI-X table -/

/-- The bytes of a word with some of them replaced. -/
def patch (w off : Nat) (data : List Byte) : Nat :=
  leNat (((leBytes 16 w).take off ++ data ++ (leBytes 16 w).drop (off + data.length)).take 16)

/-- A write of one doubleword of an MSI-X table entry. -/
def msixWord (s : State) (off : Nat) (data : List Byte) : State :=
  let i := off / 16
  let e := msixAt s i
  let v := patch (e.addr + e.data <<< 64 + b2n e.masked <<< 96) (off % 16) data
  let n : MsixEntry := { addr := fld v 0 64, data := fld v 64 32, masked := bit v 96 }
  s.onHp (fun h => { h with msix := Tab.put h.msix i n })

/-- R424: an aligned write of whole doublewords of the MSI-X table (log 22). -/
def msixWrite (s : State) (off : Nat) (data : List Byte) : State :=
  (List.range (data.length / 4)).foldl (fun t i => msixWord t (off + 4 * i) ((data.drop (4 * i)).take 4)) s

/-! ## Doorbells -/

/-- R71, R427: one doorbell. -/
def doorbell (s : State) (page q d : Nat) : State :=
  let x := queueAt s q
  if !(blockReady s && pageLive s page && decide (q < Config.queues) && (x.state == .running || x.state == .stopped) &&
      x.ctx == page) then sinkDoorbell s
  else if 2 ^ 31 ≤ dist d x.tail then setQueue s q (fun y => { y with staleDb := satInc 32 y.staleDb })
  else if 2 ^ x.ringLog2 < dist d x.done then
    hiveEvent (setQueue s q (fun y => { y with overrunDb := satInc 32 y.overrunDb })) 0x01 (ctxAt s page).hive q d
  else setQueue s q (fun y => { y with tail := d })

/-- R427: whether a doorbell write of `n` bytes has one of the two forms: one word whose byte enables, bit i for byte i, cover
bits [31:0], or whole words with every byte enabled. -/
def doorbellForm (off be n : Nat) : Bool :=
  off % 8 == 0 && (((n == 4 || n == 8) && be % 16 == 15) || (n != 0 && n % 8 == 0 && be % 2 ^ n == 2 ^ n - 1))

/-- R427: a write to the doorbells of a page: one doorbell for each word, or sunk for its form. -/
def doorbellGo (s : State) (page off be : Nat) (data : List Byte) : State :=
  let n := data.length
  if !doorbellForm off be n then sinkWrite s true
  else
    (List.range ((n + 7) / 8)).foldl (fun t i =>
      doorbell t page (off / 8 + i) (leNat ((data.drop (8 * i)).take 4))) s

/-- The byte enables of a write of `n` whole bytes. -/
def allBytes (n : Nat) : Nat := 2 ^ n - 1

/-! ## Order of arrival (R257, R267) -/

/-- The offset, length and need of an access to an aperture. -/
def apertureSpan : HostOp → Option (Nat × Nat × Need)
  | .read off len => some (off, len, .rd)
  | .write off data => some (off, data.length, .wr)
  | .atomic off _ size _ _ => some (off, size, .atom)
  | .doorbell _ _ _ _ => none

/-- What an access makes of a line; none for a read. -/
def hostKind (a l : Nat) : HostOp → Option WriteKind
  | .write _ data => some (lineWrite a data l)
  | .atomic _ op size v c => some (hostAtomic a op size v c)
  | _ => none

/-- R319, R430: the line requests of a host access; none of a doorbell, and none of an access that is refused. -/
def hostLines (s : State) (op : HostOp) : List HomeReq :=
  match apertureSpan op with
  | none => []
  | some (off, len, n) =>
    match (if blockReady s then apertureTarget s off len n else .error false) with
    | .error _ => []
    | .ok (h, k, a) =>
      let lab := apertureLabel s h
      (linesOf a len).map (fun l =>
        { req := { origin := .hostPort 0, hive := h, keySel := k.keySel, label := lab, level := levelOf s lab, addr := l }
          kind := hostKind a l op, second := none, raw := [], ticket := true })

/-- R18, R257, R316: whether a host access can be performed now: it has no line, or the stream clock runs and the turns of all
its lines have come. -/
def hostCan (s : State) (op : HostOp) : Bool :=
  let ls := hostLines s op
  ls == [] || (s.clk.stream.ready && ls.all (lineGoes s))

/-- A host access is performed. -/
def hostPerform (s : State) : HostOp → State
  | .read off len => apertureReadGo s off len
  | .write off data => apertureWriteGo s off data
  | .atomic off op size v c => apertureAtomicGo s off op size v c
  | .doorbell page off be data => doorbellGo s page off be data

/-- A host access that must wait takes its places at the units; it demands the stream clock (R18). -/
def hostClaim (s : State) (op : HostOp) : State :=
  if s.clk.stream.ready then ((hostLines s op).filter (fun h => !lineGoes s h)).foldl takePlace s else demand s .stream

/-- R257, R267: the host accesses that wait are performed in order of arrival, as far as they can be; `fuel` bounds the run. -/
def hostDrain (s : State) : (fuel : Nat) → State
  | 0 => s
  | n + 1 =>
    match s.hp.queue with
    | [] => s
    | op :: r =>
      if hostCan s op then hostDrain (hostPerform (s.onHp (fun h => { h with queue := r })) op) n
      else hostClaim s op

/-- The host accesses that wait go on. -/
def hostGoes (s : State) : State := hostDrain s s.hp.queue.length

/-- What waits for the units goes on: the block's own operations, then the host's accesses. -/
def onward (s : State) : State := hostGoes (progress s)

/-- R257, R267: a host access arrives behind those that wait. -/
def hostTake (s : State) (op : HostOp) : State :=
  hostGoes (s.onHp (fun h => { h with queue := h.queue ++ [op] }))

/-- R132: a line of the host access in front has been unanswered for 16 µs: the access ends without it. A read or an AtomicOp
completes with open, poisoned data; a write is lost (log 77). -/
def hostTimeout (s : State) : State :=
  match s.hp.queue with
  | [] => s
  | op :: r =>
    let t := dropTickets (s.onHp (fun h => { h with queue := r })) (.hostPort 0)
    hostGoes (match op with
      | .read _ len => (let d := drawBytes t len; emit d.2 (.readDone d.1 ((hostLines s op).map (fun _ => true))))
      | .atomic _ _ size _ _ => (let d := drawNat t; emit d.2 (.atomicDone (d.1 % 2 ^ (8 * size)) true))
      | _ => t)

/-- R274: what waits at the host port is refused: the block is being reset. -/
def refuseQueue (s : State) : State :=
  let t := dropTickets (s.onHp (fun h => { h with queue := [] })) (.hostPort 0)
  s.hp.queue.foldl (fun t op => match op with
    | .read _ _ => urRead t false
    | .atomic _ _ _ _ _ => urAtomic t false
    | .write _ _ => sinkWrite t false
    | .doorbell page off be data => doorbellGo t page off be data) t

/-- R430: a host Memory Read. -/
def execApertureRead (off len : Nat) (s : State) : Host.Outcome State Fault Refusal := hostAccess s (hostTake s (.read off len))

/-- R430: a host Memory Write. -/
def execApertureWrite (off : Nat) (data : List Byte) (s : State) : Host.Outcome State Fault Refusal :=
  hostAccess s (hostTake s (.write off data))

/-- R432: a host AtomicOp. -/
def execApertureAtomicop (bar off : Nat) (op : HostAtomic) (size operand compare : Nat) (s : State) :
    Host.Outcome State Fault Refusal :=
  hostAccess s
    (if !blockReady s then urAtomic s false
     else if bar ≠ 4 ∨ !(size == 4 || size == 8) ∨ off % size ≠ 0 then urAtomic s true
     else hostTake s (.atomic off op size operand compare))

/-- R71, R427: a write to a doorbell page's doorbells, with its byte enables. -/
def execDoorbellWrite (page off be : Nat) (data : List Byte) (s : State) : Host.Outcome State Fault Refusal :=
  hostAccess s (hostTake s (.doorbell page off be data))

/-! ## Route reload (R281) -/

/-- R281: a route entry of the route area; none for one whose fields are wrong. -/
def routeOf (w : Nat) : Option Route :=
  if !rz w 60 3 || !rz w 48 4 then none
  else if bit w 63 && (fld w 56 4 == 0 || fld w 52 4 == 0) then none
  else
    some { valid := bit w 63, hops := fld w 56 4, rto := fld w 52 4, nextChip := fld w 32 16, spray := fld w 16 16,
           primary := fld w 0 16 }

/-- R281: some route entries are loaded; one that is wrong, or whose line fails, loads as invalid and is logged. -/
def loadRoutes (s : State) : List Nat → State
  | [] => s
  | n :: r =>
    let x := tableWord s (paLocal s.kp.settings.routeBase + 8 * n)
    let put (t : State) (e : Route) : State := t.onSw (fun w => { w with routes := Tab.put w.routes n e })
    match (if x.2.1 = .ok then routeOf x.2.2 else none) with
    | some e => loadRoutes (put x.1 e) r
    | none => loadRoutes (put (logErr x.1 { cls := 4, ugroup := 12, unit := n, cause := 6 }) Route.invalid) r

/-- R281, R426: the route reload word. Entries past the last chip number are none. -/
def execRouteReload (w : Word) (s : State) : Host.Outcome State Fault Refusal :=
  let first := fld w.toNat 48 16
  let n := fld w.toNat 32 16 + 1
  hostAccess s
    (if !blockReady s then sinkWrite s false
     else inStream s (loadRoutes s ((List.range n).filterMap (fun i => if first + i < 2 ^ 16 then some (first + i) else none))))

/-! ## Other accesses -/

/-- R424, R426, R434: what becomes of a write that no row of its own serves; none where it takes effect. -/
def writeRefused (s : State) (bar off len : Nat) : Option Bool :=
  if bar = 0 then
    if off < 0x18100 then
      if !keeperServes s then some false
      else if off < 0x10000 then (if wordAccess off len then none else some true)
      else none
    else some (decide (0x1000000 ≤ off))
  else if bar = 2 then
    let page := off / 0x10000
    let o := off % 0x10000
    if !blockReady s || !pageLive s page then some false
    else if o < 0x8000 then (if (len == 4 || (len != 0 && len % 8 == 0)) && o % 8 == 0 then none else some true)
    else if page ≠ 0 then some false
    else if 0xA000 ≤ o ∧ o + len ≤ 0xA020 then none
    else if o = 0x8000 ∨ o = 0x8008 ∨ o = 0x8010 ∨ o = 0x8018 ∨ (0x9000 ≤ o ∧ o < 0xA000) then
      (if len = 8 ∧ o % 8 = 0 then none else some true)
    else some false
  else if bar = 4 then
    if !blockReady s then some false
    else match apertureTarget s off len .wr with | .error l => some l | .ok _ => none
  else some (blockReady s)

/-- R427, R434: a write that takes no effect: a doorbell is sunk as a doorbell, another write as a write. -/
def refusedWrite (s : State) (bar off len : Nat) (logged : Bool) : State :=
  if bar = 2 ∧ off % 0x10000 < 0x8000 then
    hostTake s (.doorbell (off / 0x10000) (off % 0x10000) (allBytes len) (List.replicate len 0))
  else sinkWrite s logged

/-- The words of page 0 that have rows of their own. -/
def pageZeroWrite (s : State) (o : Nat) (w : Word) : Host.Outcome State Fault Refusal :=
  if o = 0x8000 then execFaultAnswer w s
  else if o = 0x8008 then execEventConsumed w s
  else if o = 0x8010 then execRouteReload w s
  else if o = 0x8018 then execFaultConsumed w s
  else execWindowEntryWrite ((o - 0x9000) / 8) w s

/-- R5, R393, R424, R426: a write of a register or a window, by its place; a counter, the Pending Bit Array and a part of a
doubleword of the MSI-X table take none, and the write is sunk (R435). -/
def execRegisterWrite (bar off : Nat) (data : List Byte) (s : State) : Host.Outcome State Fault Refusal :=
  if !hostOpen s then .next (hostWaits s)
  else
    match writeRefused s bar off data.length with
    | some logged => .next (refusedWrite s bar off data.length logged)
    | none =>
      if bar = 0 then
        if off < 0x10000 then .next (mailboxWrite s off data)
        else if off + data.length ≤ 0x18000 ∧ off % 4 = 0 ∧ data.length % 4 = 0 then .next (msixWrite s (off - 0x10000) data)
        else .next (sinkWrite s false)
      else if bar = 4 then .next (hostTake s (.write off data))
      else if 0xA000 ≤ off % 0x10000 then .next (sinkWrite s false)
      else if off % 0x10000 < 0x8000 then
        .next (hostTake s (.doorbell (off / 0x10000) (off % 0x10000) (allBytes data.length) data))
      else pageZeroWrite s (off % 0x10000) (BitVec.ofNat 64 (leNat data))

/-- R424, R426: the bytes that a read of BAR0 or BAR2 returns, or its refusal, logged or not. -/
def readBytes (s : State) (bar off len : Nat) : Except Bool (List Byte) :=
  let each (f : Nat → Byte) : Except Bool (List Byte) := .ok ((List.range len).map (fun i => f (off + i)))
  if bar = 0 then
    if off < 0x18100 then
      if !keeperServes s then .error false
      else if off < 0x10000 then (if wordAccess off len then each (mailboxByte s) else .error true)
      else if off < 0x18000 then each (fun o => msixByte s (o - 0x10000))
      else each (fun o => pbaByte s (o - 0x18000))
    else if blockReady s then each (fun _ => 0)
    else .error false
  else if bar = 2 then
    if !blockReady s || !pageLive s (off / 0x10000) || !pageLive s ((off + len - 1) / 0x10000) then .error false
    else each (fun o => wordByte [doorbellWord s (o / 0x10000) (o % 0x10000 / 8)] (o % 8))
  else .error (blockReady s)

/-- R434: an I/O request, a message, or a memory access: answered as its target is, with Unsupported Request where it is
refused. A write that is not refused takes effect as its own row gives. -/
def execInboundUnsupportedRequest (k : InboundKind) (s : State) : Host.Outcome State Fault Refusal :=
  if !hostOpen s then .next (hostWaits s)
  else
    match k with
    | .ioRequest read => .next (if read then urRead s true else refuseHost (emit s .unsupported))
    | .message => .next (refuseHost (emit s .unsupported))
    | .memRead bar off len =>
      if bar = 4 then .next (hostTake s (.read off len))
      else if bar = 0 ∧ 0x1000000 ≤ off then execFenceWindowRead (off - 0x1000000) len s
      else
        match readBytes s bar off len with
        | .ok bs => .next (emit s (.readDone bs []))
        | .error logged => .next (urRead s logged)
    | .memWrite bar off len =>
      match writeRefused s bar off len with
      | some logged => .next (refusedWrite s bar off len logged)
      | none => .next s

/-! ## Resets and power of the function -/

/-- R348: a hot reset or a link-down reset; the function is in D0 after it. -/
def execPcieConventionalReset (s : State) : Host.Outcome State Fault Refusal :=
  .next (startWarm (s.onHp (fun h => { h with d3hot := false })) false)

/-- R348: a Function Level Reset; the function is in D0 after it. -/
def execFunctionLevelReset (s : State) : Host.Outcome State Fault Refusal :=
  .next (startWarm (s.onHp (fun h => { h with d3hot := false })) false)

/-- R421: a move between D0 and D3hot keeps all state. -/
def execPciePowerStateChange (d3hot : Bool) (s : State) : Host.Outcome State Fault Refusal :=
  .next (s.onHp (fun h => { h with d3hot := d3hot }))

end Sys2Proof.Machine
end

