-- ==== Sys2Proof/Machine/Regulator.lean ====
section
/-! DEFINITION. The regulator's own events: window boundaries (R323, R328, R329, R333, R334), the refresh of the meters'
copies (R325), and the power samples (R330 to R332, R397). -/

namespace Sys2Proof.Machine

/-! ## Window boundaries -/

/-- R333: the status record of the window that closes. -/
def statusRecord (l : Nat) (x : Label) : List Byte :=
  bytesOf [l <<< 52 + x.win <<< 44 + 2 <<< 40 + x.cap <<< 32 + x.wseq, x.linesPrio <<< 32 + x.linesBulk,
    x.linesScav <<< 32 + x.held, x.misses <<< 32 + x.irqHeld <<< 16 + b2n x.sat <<< 15]

/-- R333: where a label's record lies. -/
def statusAddr (s : State) (l : Nat) : Nat := paLocal s.kp.settings.lstatBase + l * 32

/-- R328: whether the window that closes is a miss. -/
def Label.missed (x : Label) : Bool :=
  decide (0 < budgetG x) && decide (x.meter < budgetG x) && decide ((x.win + 1) * 500 ≤ x.held)

/-- R328: the label that GUARANTEE_MISS names when a label's window closes: of the labels of the hive whose windows close with
it, the lowest that has missed and tells. Labels of one hive, bound together, close together while their windows are of one
length (log 30). -/
def missNamed (s : State) (l : Nat) : Option Nat :=
  let x := labelAt s l
  let h := hiveAt s x.hive
  ((List.range h.labelCount).map (fun i => h.labelFirst + i)).find? (fun k =>
    let y := labelAt s k
    y.win == x.win && y.wseq == x.wseq && y.missEv && y.missed)

/-- R328: the row of `label_first` has closed the window that this label's row now closes, and has told its misses. -/
def firstClosed (s : State) (l : Nat) : Bool :=
  let x := labelAt s l
  let f := (hiveAt s x.hive).labelFirst
  l != f && (labelAt s f).win == x.win && (labelAt s f).wseq == (x.wseq + 1) % 2 ^ 32

/-- R328: a window closes; a miss is counted. The misses of a window of `label_first` raise the hive's event once: with its row,
or with that of a label that has missed. -/
def closeWindow (s : State) (l : Nat) : State :=
  let x := labelAt s l
  let u := if x.missed then
      setLabel s l (fun x => { x with misses := satInc 32 x.misses, sat := x.sat || decide (2 ^ 32 - 1 ≤ x.misses + 1) })
    else s
  match missNamed s l with
  | some n =>
    if (hiveAt u x.hive).missRaised || firstClosed s l || !(l == (hiveAt s x.hive).labelFirst || (x.missEv && x.missed)) then u
    else hiveEvent (setHive u x.hive (fun y => { y with missRaised := true })) 0x07 x.hive n x.wseq
  | none => u

/-- R323, R333, R334: the label as the next window begins. The window after binding has number 0, and numbers wrap at 2^32
(log 88). -/
def Label.open_ (x : Label) (cap : Nat) : Label :=
  let y := { x with
    meter := 0, linesPrio := 0, linesBulk := 0, linesScav := 0, held := 0, cap := cap, wseq := (x.wseq + 1) % 2 ^ 32,
    stopped := x.stopping, pendingSet := none }
  match x.pendingSet with
  | some p => { y with guar := p.guar, ceil := p.ceil, prio := p.prio, win := p.win, missEv := p.missEv, stat := p.stat,
                       irqMax := p.irqMax }
  | none => y

/-- R329: a hive's window begins anew. -/
def Hive.newWindow (h : Hive) : Hive :=
  { h with irqSent := 0, refusalsWin := 0, refusedRaised := false, alarmRaised := false, missRaised := false }

/-- R329: at the boundary of a budget, the messages that it holds are charged in rising vector number, up to `irq_max`;
`vs` are the vectors that are left. -/
def releaseMessages (s : State) (b : Nat) : List Nat → State
  | [] => s
  | v :: r =>
    match s.sq.msgs.find? (fun m => m.vector == v) with
    | some m =>
      if m.held && !m.charged && budgetHive s m.hive == b then releaseMessages (chargeMessage s m).1 b r
      else releaseMessages s b r
    | none => releaseMessages s b r

/-- R329: the window of a hive's `label_first`, and, for hive 0's, of every hive whose own is not bound. -/
def hiveWindow (s : State) (l : Nat) : State :=
  let h := (labelAt s l).hive
  if (hiveAt s h).labelFirst ≠ l then s
  else
    let t := s.onHe (fun e => { e with hives := Tab.mapv e.hives (fun n x =>
      if n = h ∨ (h = 0 ∧ budgetHive s n = 0) then x.newWindow else x) })
    releaseMessages t h (List.range Config.vectors)

/-- R60, R197: the settings of a label apply: every instruction that carried one has that much less to wait for. -/
def settingApplied (s : State) (l : Nat) : State :=
  let t := s.onQm (fun m => { m with jobs := m.jobs.map (fun j =>
    match j.kind with | .labels h left => { j with kind := .labels h (left.filter (· != l)) } | _ => j) })
  t.onHe (fun e => { e with resizes := e.resizes.map (fun r => { r with labels := r.labels.filter (· != l) }) })

/-- R323, R328, R329, R333, R334: a window boundary of a bound label. The local copies of its meter keep the closed window's
value until the next METER_REFRESH (R325, log 85). -/
def execLabelWindowBoundary (l : Nat) (s : State) : Host.Outcome State Fault Refusal :=
  taken ((labelAt s l).hive != Config.noHive && decide (l < Config.labels)) s
    (let t := closeWindow s l
     let t := if (labelAt t l).stat then (writeRecord t (statusAddr t l) (statusRecord l (labelAt t l))).1 else t
     let t := settingApplied (setLabel t l (fun x => x.open_ t.kp.power.level)) l
     progress (hiveWindow t l))

/-- R325: every local copy of the meters is refreshed. -/
def execMeterRefresh (s : State) : Host.Outcome State Fault Refusal :=
  .next (s.onRg (fun r => { r with copies := r.labels.map (fun e => (e.1, e.2.meter)) }))

/-! ## Power -/

/-- R397: the effective cap in W: the smallest nonzero one. -/
def effectiveCap (s : State) : Nat :=
  let caps := [s.kp.settings.pCapW, s.kp.power.mailboxCap, (s.kp.waggle.cap.map (·.1)).getD 0].filter (· != 0)
  match caps with
  | [] => 0
  | c :: r => r.foldl Nat.min c

/-- R330: the median of the last good readings, of which there may be fewer than three (log 31). -/
def median : List Nat → Nat
  | [] => 0
  | [a] => a
  | [a, b] => (a + b) / 2
  | a :: b :: c :: _ => Nat.max (Nat.min a b) (Nat.min (Nat.max a b) c)

/-- The model's unit of power is 2^-17 W: a whole number of them is every LINEAR11 and LINEAR16 reading in watts (R397,
R398), and the mean of two such (log 46). -/
def wattUnit : Nat := 2 ^ 17

/-- R396, R400: Pf as it is reported, in whole units of 0.125 W (log 46). -/
def pfReport (s : State) : Nat := median s.kp.power.good * 8 / wattUnit

/-- R398: the entries of a role. -/
def pmbOf (s : State) (role : Nat) : List Nat :=
  ((s.kp.settings.pmb.zipIdx).filter (fun e => e.1.role == role)).map (·.2)

/-- A field of `n` bits as a signed number. -/
def signedField (n x : Nat) : Int := if 2 ^ (n - 1) ≤ x then (x : Int) - 2 ^ n else x

/-- R398: a LINEAR11 word, and a LINEAR16 word under a linear VOUT_MODE, in the model's unit (log 46, log 82). -/
def linear11 (w : Nat) : Int := signedField 11 (fld w 0 11) * 2 ^ (signedField 5 (fld w 11 5) + 17).toNat
def linear16 (mode w : Nat) : Int := (w : Int) * 2 ^ (signedField 5 (fld mode 0 5) + 17).toNat

/-- R397: the PEC byte of the Read Word of a command: over the address to write, the command, the address to read and the two
bytes read. -/
def readPec (e : PmbEntry) (lo hi : Byte) : Nat :=
  pec [BitVec.ofNat 8 (2 * e.addr), BitVec.ofNat 8 e.cmd, BitVec.ofNat 8 (2 * e.addr + 1), lo, hi]

/-- R397, R398: the reading that a device's answer is; none where it fails: a NACK, more than 500 µs, a PEC mismatch, or a
VOUT_MODE that is not linear. -/
def readingOf (s : State) (i : Nat) (a : PmbAnswer) : Option Int :=
  match s.kp.settings.pmb[i]?, a with
  | some e, .bytes lo hi x =>
    let w := leNat [lo, hi]
    if readPec e lo hi ≠ x.toNat then none
    else if e.fmt = 0 then some (linear11 w)
    else
      match nth s.kp.power.voutModes i none with
      | some m => if fld m 5 3 = 0 then some (linear16 m w) else none
      | none => none
  | _, _ => none

/-- R397: the transactions of a reading: the write of PAGE for a paged device, then the Read Word. -/
def askPmb (s : State) (i : Nat) : State :=
  match s.kp.settings.pmb[i]? with
  | some e => emit (if e.page = 0xFF then s else emit s (.pmbPage e.addr e.page)) (.pmbRead e.addr e.cmd)
  | none => s

/-- R397: the sum of the role-0 readings; none where one of them failed. -/
def inputPower : List (Option Int) → Option Int
  | [] => some 0
  | none :: _ => none
  | some v :: r => (inputPower r).map (fun x => x + v)

def onPower (s : State) (f : Power → Power) : State := s.onKp (fun k => { k with power := f k.power })

/-- R330, R332: a failed sample; the eighth in a row raises POWER_READ. -/
def failedSample (s : State) : State :=
  let t := onPower s (fun p => { p with fails := p.fails + 1 })
  if 8 ≤ t.kp.power.fails ∧ !t.kp.power.readRaised then
    hiveEvent (setMbox (onPower t (fun p => { p with readRaised := true })) (fun m => { m with pmbFail := true }))
      0x0A 0 (Nat.min 255 t.kp.power.fails) 0
  else t

/-- R330, R332: a good sample of `p` under the cap `k`, both in the model's unit; no capping where the cap is 0. Of the 16
samples of R332 the first is one that finds c at 15 (log 86). -/
def goodSample (s : State) (p k : Nat) : State :=
  let t := setMbox (onPower s (fun w => { w with fails := 0, readRaised := false, good := (p :: w.good).take 3 }))
    (fun m => { m with pmbFail := false })
  let pf := median t.kp.power.good
  let c := t.kp.power.level
  let c' := if k = 0 then 0 else if k < pf then Nat.min 15 (c + 1) else if 16 * pf < 15 * k then c - 1 else c
  let n := if c = 15 ∧ k < pf ∧ k ≠ 0 then t.kp.power.overCount + 1 else 0
  let raise : Bool := decide (16 ≤ n) && !t.kp.power.overRaised
  let u := onPower t (fun w =>
    { w with level := c', overCount := n, overRaised := (w.overRaised || raise) && decide (c' = 15) })
  if raise then hiveEvent u 0x09 0 c' 0 else u

/-- R397: the entries that a sample reads: those of role 0, and the next one of role 1 in turn. -/
def sampled (s : State) : List Nat :=
  let monitors := pmbOf s 1
  pmbOf s 0 ++ (match monitors[s.kp.power.nextMonitor % Nat.max 1 monitors.length]? with | some m => [m] | none => [])

/-- R397: the readings of a sample, by its devices' answers; a device that none is given for has not answered. -/
def readingsOf (s : State) (answers : List PmbAnswer) : List (Option Int) :=
  (sampled s).zipIdx.map (fun e => (answers[e.2]?).bind (readingOf s e.1))

/-- The readings of a sample are kept by their entries (R396 `PWR_QUERY`); the monitor of the next sample is the next in turn. -/
def keepReadings (s : State) (answers : List PmbAnswer) : State :=
  let n := (pmbOf s 1).length
  let k := s.kp.settings.pmb.length
  onPower ((sampled s).foldl askPmb s) (fun w =>
    { w with
      readings := ((sampled s).zip (readingsOf s answers)).foldl (fun l e => l.set e.1 e.2)
        ((w.readings ++ List.replicate k none).take k)
      nextMonitor := (w.nextMonitor + 1) % Nat.max 1 n })

/-- R330 to R332, R397: one millisecond's sample: the answers of the role-0 devices in order, then of one monitor. During a
block warm reset the level stays (R404). -/
def execPowerCapSample (answers : List PmbAnswer) (s : State) : Host.Outcome State Fault Refusal :=
  taken (!s.clk.cold && s.kp.haveSettings) s
    (let t := keepReadings s answers
     let k := wattUnit * effectiveCap t
     if s.kp.warm.isSome then t
     else
       match inputPower ((readingsOf s answers).take (pmbOf s 0).length) with
       | none => failedSample t
       | some p => if p < 0 ∨ (k ≠ 0 ∧ 2 * (k : Int) < p) then failedSample t else goodSample t p.toNat k)

end Sys2Proof.Machine
end

