-- ==== Sys2Proof/Machine/Swarm.lean ====
section
/-! DEFINITION. The links of the swarm (R286 to R290), its flows (R291 to R297), the arrival of frames (R283 to R285,
R293, R294), and the rows of the control frames. -/

namespace Sys2Proof.Machine

/-! ## Transactions at the source -/

/-- R132, R301, R302: a transaction ends, and its place may let a waiting request go; the channel takes the first failing
status and goes on if it waited for it. -/
def endTxn (s : State) (t : Txn) (st : Status) : State :=
  let u := releaseFlows (s.onSw (fun w => { w with txns := w.txns.filter (fun x => x.id != t.id) }))
  match t.kind with
  | .record q idx => progress (recordEnds u q idx t.addr st)
  | .wait => retire u t.chan st
  | _ =>
    let v := setChan u t.chan (fun x =>
      { x with hold := if x.hold = .remote then .none else x.hold
               lineStatus := if st ≠ .ok ∧ x.lineStatus.isNone then some st else x.lineStatus })
    if (chanAt v t.chan).hold = .job then progress v else v

/-- The answer of a read or an atomic, kept for the instruction. -/
def keepData (s : State) (c key : Nat) (d : List Byte) : State :=
  if Config.channels ≤ c then s else setChan s c (fun x => { x with rob := Tab.put x.rob key d })

/-! ## Links -/

/-- R288, R290: the KEYX of a generation to a link's neighbour. -/
def sendKeyx (s : State) (l gen : Nat) (reply : Bool) : State :=
  putFrame s l (ctlFrame s (linkAt s l).neighbour 5 (if reply then 2 ^ 31 else 0) (leBytes 4 gen ++ List.replicate 12 0))

/-- R290: a rekey starts at this end of a link in UP. -/
def startRekey (s : State) (l : Nat) : State :=
  if (linkAt s l).state = .up then
    sendKeyx (setLink s l (fun x => { x with state := .rekey, initiated := true })) l ((linkAt s l).genTx + 1) false
  else s

/-- R287: the phase-1 payload of this end. -/
def helloPayload (s : State) (ephemeral nonce : List Byte) : List Byte :=
  let k := s.kp.settings
  leBytes 2 k.chipId ++ leBytes 1 s.vault.lc.report ++ leBytes 1 k.endorseRoot ++ List.replicate 12 0 ++
    sized 96 s.vault.identity ++ sized 96 k.endorseKey ++ sized 96 k.endorsement ++ ephemeral ++ nonce

/-- R287: a HELLO; the chip it goes to is not known, so its `dst_chip` is an open value. -/
def sendHello (s : State) (l phase : Nat) (payload : List Byte) : State :=
  let d := drawNat s
  putFrame d.2 l (ctlFrame d.2 (d.1 % 2 ^ 16) 4 (phase * 2 ^ 30) payload)

/-- R15, R280, R286: what a link needs to train: its clock domain runs in ACTIVE, with both fast clocks. -/
def mayTrain (s : State) (l : Nat) : Bool :=
  let k := linkAt s l
  k.state == .down && !k.holdDown && k.locked && !k.broken && bit (linksConnected s) l && decide (l < Config.links) &&
    s.kp.settings.chipIdValid && (s.vault.lc == .test || s.vault.lc == .production) && s.vault.drbgOn && s.clk.control.ready &&
    s.clk.stream.ready

/-- R286, R287: a link that can train enters TRAINING and sends its phase-1 HELLO. -/
def train (s : State) (l : Nat) : State :=
  if mayTrain s l then
    let e := drawBytes s 96
    let n := drawDrbg e.2 32
    let own := helloPayload n.2 e.1 n.1
    sendHello (setLink n.2 l (fun x => { x with state := .training, ownHello := own })) l 1 own
  else s

/-- R286, R289, R293: a link goes DOWN; the frames last sent on it are sent again, and the instructions that wait for its
rekey end. -/
def linkDown (s : State) (l : Nat) : State :=
  if (linkAt s l).state = .down then s else settleLinks (dropLink s l)

/-- R196: a link carries frames under its new key at both ends. -/
def rekeyDone (s : State) (l : Nat) : State :=
  let t := setLink s l (fun x => { x with state := .up, initiated := false, replied := false })
  progress (t.onQm (fun m => { m with jobs := m.jobs.map (fun j => match j.kind with
    | .links left => { j with kind := .links (left.filter (· != l)) }
    | _ => j) }))

/-! ## Flows -/

/-- R294: the receive bitmap as the payload of an ACK. -/
def ackPayload (fl : Flow) : List Byte := leBytes 128 (bitmapOf fl.bitmap)

/-- R293: an ACK frame of a flow. -/
def sendAck (s : State) (peer : Nat) : State :=
  match flowAt s peer with
  | none => s
  | some fl => sendCtl (setFlow s peer (fun x => { x with sinceAck := 0 })) peer (ctlFrame s peer 1 0 (ackPayload fl))

/-- R295: the waits that a peer holds at this chip's fences are withdrawn. -/
def withdrawWaits (s : State) (peer : Nat) : State :=
  let theirs (w : Waiter) : Bool := match w with | .remote src _ _ _ _ => src == peer | _ => false
  let op (o : FenceOp) : Bool := match o with | .rwait src _ _ _ _ _ => src == peer | _ => false
  s.onQm (fun m =>
    { m with
      fences := Tab.mapv m.fences (fun _ f => { f with waits := f.waits.filter (fun w => !theirs w) })
      fills := Tab.mapv m.fills (fun _ l => l.filter (fun o => !op o)) })

/-- R295: what a flow's reset ends, beside the flow: transactions and remote waits with LINK, the peer's held waits, and
its frames not yet performed. -/
def resetPeer (s : State) (peer : Nat) : State :=
  let mine := s.sw.txns.filter (fun t => t.peer == peer)
  let t := withdrawWaits s peer
  let t := t.onSw (fun w => { w with rx := w.rx.filter (fun r => !(r.frame.src == peer && sequenced r.frame.ftype)) })
  mine.foldl (fun t x => if t.sw.txns.any (fun y => y.id == x.id) then endTxn t x .link else t) t

/-- R295: a flow is reset and its entry is freed. -/
def killFlow (s : State) (peer : Nat) : State := resetPeer (dropFlow s peer) peer

/-- R295, R418: a flow is reset and reopens with an epoch. -/
def resetFlow (s : State) (peer epoch : Nat) (opened : Bool) : State :=
  let t := unwait s (fun f => f.dst == peer)
  let t := t.onSw (fun w => { w with flows := Tab.put w.flows peer { Flow.new epoch with opened := opened } })
  resetPeer t peer

/-- Distance in sequence numbers modulo 2^32. -/
def seqDist (a b : Nat) : Nat := (a + 2 ^ 32 - b) % 2 ^ 32

/-- R293: whether `ack` covers a sequence number. -/
def covers (ack seq : Nat) : Bool := decide (seqDist ack seq < 2 ^ 31)

/-- R293, R297, R301: the acknowledgement and the watermark that a frame of a flow brings; `marks` are the numbers that
an ACK's bitmap marks. -/
def takeAck (s : State) (peer ack landed : Nat) (marks : List Nat) : State :=
  let got (q : Nat) : Bool := covers ack q || marks.contains q
  let told := ((flowAt s peer).map (·.failed)).getD []
  let t := setFlow s peer (fun x =>
    { x with acked := if covers ack x.acked then ack else x.acked
             idleFor := 0
             retx := x.retx.filter (fun e => !got e.seq)
             failed := x.failed.filter (fun e => !got e.2)
             peerLanded := if covers landed x.peerLanded then landed else x.peerLanded })
  let t := unwait t (fun f => f.dst == peer && got f.seq)
  let t := (told.filter (fun e => got e.2)).foldl (fun t e => countPerformed t peer e.1) t
  let refused (x : Txn) : Bool := t.sw.rx.any (fun r => r.frame.src == peer && r.frame.ftype == 0xD && fld r.frame.w4 32 32 == x.seq)
  let done (x : Txn) : Bool := x.peer == peer && (match x.kind with | .write _ => true | _ => false) && covers landed x.seq && !refused x
  let t := (t.sw.txns.filter done).foldl (fun t x => endTxn t x .ok) t
  releaseFlows (releaseHeld t peer (Config.flowWindow + 1))

/-! ## Arrival -/

/-- R288: `plen` of a masked or whole REDUCE, in units of 16 bytes. -/
def reducePlen (f : Frame) : Nat :=
  let size := ((Fmt.ofNat? (fld f.opf 27 5)).map Fmt.size).getD 1
  let dsize := ((Fmt.ofNat? (fld f.opf 17 5)).map Fmt.size).getD 1
  let draws := if fld f.opf 13 2 = 2 then 2 else 0
  let n := if bit f.opf 12 then (bitsOf (leNat (f.payload.take 16)) 128).length else (fld f.opf 6 6 + 1) * (128 / dsize)
  ((if bit f.opf 12 then 16 else 0) + n * (size + draws) + 15) / 16

/-- R285: whether `plen` suits the type. -/
def plenOk (f : Frame) : Bool :=
  f.payload.length == 16 * f.plen &&
    (match f.ftype with
     | 0x0 => f.plen == 0
     | 0x1 => f.plen == 8
     | 0x2 => f.plen == 0
     | 0x3 => f.plen == 0
     | 0x4 => (f.opf / 2 ^ 30 == 1 && f.plen == 27) || (f.opf / 2 ^ 30 == 2 && f.plen == 6)
     | 0x5 => f.plen == 1
     | 0x6 => f.plen % 8 == 0 && decide (8 ≤ f.plen) && decide (f.plen ≤ 64)
     | 0x7 => f.plen == 9
     | 0x8 => decide (1 ≤ f.plen) && decide (f.plen ≤ 64) && f.plen == reducePlen f
     | 0x9 => f.plen == 1
     | 0xA => f.plen == 0
     | 0xB => f.plen == 1
     | 0xC => f.plen % 8 == 0 && decide (8 ≤ f.plen) && decide (f.plen ≤ 64)
     | 0xD => f.plen == 1
     | _ => false)

/-- R285: whether the bits that the type leaves RZ are zero. -/
def rzOk (f : Frame) : Bool :=
  let control : Bool := f.w4 == 0 && f.srcHive == 0 && f.colony == 0
  !f.rz &&
    (match f.ftype with
     | 0x0 => control && f.opf == 0
     | 0x1 => control && f.opf == 0
     | 0x2 => control && f.opf % 2 ^ 31 == 0
     | 0x3 => control && f.opf % 2 ^ 31 == 0
     | 0x4 => control && f.opf % 2 ^ 30 == 0 && (f.plen == 6 || leNat ((f.payload.drop 4).take 12) == 0)
     | 0x5 => control && f.opf % 2 ^ 31 == 0 && leNat (f.payload.drop 4) == 0
     | 0x6 => f.opf == 0 && decide (f.w4 < 2 ^ 57)
     | 0x7 => f.opf % 2 ^ 31 == 0 && decide (f.w4 < 2 ^ 57)
     | 0x8 => f.opf % 2 ^ 6 == 0 && decide (f.w4 < 2 ^ 57)
     | 0x9 => f.opf % 2 ^ 27 == 0 && decide (f.w4 < 2 ^ 57)
     | 0xA => f.opf % 2 ^ 29 == 0 && decide (f.w4 < 2 ^ 57)
     | 0xB => f.opf % 2 ^ 31 == 0 && decide (f.w4 < 2 ^ 20) && leNat (f.payload.drop 8) == 0
     | 0xC => f.opf == 0 && f.w4 % 2 ^ 24 == 0
     | 0xD => f.opf == 0 && f.w4 % 2 ^ 24 == 0 && leNat (f.payload.drop 8) == 0
     | _ => false)

/-- R285: the payload of a RESP is RZ but for the old value that answers an ATOM. -/
def respOk (s : State) (f : Frame) : Bool :=
  f.ftype != 0xD || f.dst != chipId s || leNat f.payload == 0 ||
    s.sw.txns.all (fun t => t.peer != f.src || t.seq != fld f.w4 32 32 || t.kind == .atomic)

/-- R285, R288, R290: whether the frame's key is installed and its counter new; HELLO frames carry neither. -/
def keyOk (k : Link) (f : Frame) : Bool :=
  if f.ftype = 4 then true
  else if k.state = .down ∨ k.state = .training then false
  else if k.genRx % 2 = f.kph then decide (k.lctrRx ≤ f.lctr)
  else k.oldRx && decide (k.lctrOld ≤ f.lctr)

/-- R286: whether the link's state admits the type. -/
def stateOk (k : Link) (f : Frame) : Bool := if sequenced f.ftype then k.carries else true

/-- R285, R286: a frame that a link accepts. -/
def frameOk (s : State) (l : Nat) (f : Frame) (tagOk : Bool) : Bool :=
  rzOk f && plenOk f && respOk s f && (tagOk || f.ftype == 4) && keyOk (linkAt s l) f && stateOk (linkAt s l) f

/-- R277, R289: when the frames discarded within the last 1 ms arrived, the present one among them, in control-clock
cycles. -/
def discardsAt (s : State) (l : Nat) : List Nat :=
  ((linkAt s l).discards ++ [s.clk.controlCycles]).filter (fun x => decide (s.clk.controlCycles < x + 1000000))

/-- R285, R289: a frame is discarded and counted; 64 within 1 ms take the link DOWN. -/
def discardFrame (s : State) (l : Nat) : State :=
  let t := setLink (s.onSw (fun w => { w with discarded := w.discarded + 1 })) l (fun x => { x with discards := discardsAt s l })
  if 64 ≤ (discardsAt s l).length then linkDown t l else t

/-- R283, R302: a frame goes on toward its destination, or waits for credit at the link it goes on. -/
def forward (s : State) (r : RxFrame) : State :=
  match chooseLink s r.frame.dst r.frame.path r.frame.level with
  | none => dropForward s r.link r.frame
  | some k =>
    if sequenced r.frame.ftype then sendOrWait s { link := r.link, out := k, frame := r.frame } else putFrame s k r.frame

/-- R294: bytes of the hold store that a peer's early frames take. -/
def holdBytes (s : State) : Nat :=
  ((s.sw.rx.filter (fun r => sequenced r.frame.ftype && r.frame.path == 0)).map (fun r => 64 + r.frame.payload.length)).foldl (· + ·) 0

/-- R294: `cum` passes every frame that has arrived. -/
def advanceCum (cum : Nat) (bm : List Nat) : Nat → Nat × List Nat
  | 0 => (cum, bm)
  | n + 1 => if bm.contains 0 then advanceCum ((cum + 1) % 2 ^ 32) ((bm.filter (· != 0)).map (· - 1)) n else (cum, bm)

/-- R293: 16 frames since the last ACK bring one. -/
def countArrival (s : State) (peer : Nat) : State :=
  let t := setFlow s peer (fun x => { x with sinceAck := x.sinceAck + 1, idleFor := 0 })
  match flowAt t peer with
  | some fl => if 16 ≤ fl.sinceAck then sendAck t peer else t
  | none => t

/-- R291, R294: a sequenced frame at its destination. -/
def receiveSeq (s : State) (r : RxFrame) : State :=
  let f := r.frame
  let lose (t : State) : State := oweCredit t r.link f
  match flowAt s f.src with
  | none => lose (s.onSw (fun w => { w with discarded := w.discarded + 1 }))
  | some fl =>
    if !fl.opened ∨ fl.closing ∨ fl.epoch ≠ f.epoch then lose (s.onSw (fun w => { w with discarded := w.discarded + 1 }))
    else
      let t := takeAck s f.src f.ack f.landed []
      let d := seqDist f.seq fl.cum
      if d = 0 ∨ 2 ^ 31 ≤ d ∨ fl.bitmap.contains (d - 1) then
        lose (sendAck (setFlow t f.src (fun x => { x with dup := x.dup + 1 })) f.src)
      else if Config.flowWindow < d then lose (setFlow t f.src (fun x => { x with winErr := x.winErr + 1 }))
      else if f.path = 0 ∧ 2 ^ 22 < holdBytes s + 64 + f.payload.length then lose t
      else
        let c := advanceCum fl.cum (fl.bitmap ++ [d - 1]) (Config.flowWindow + 1)
        let t := setFlow t f.src (fun x => { x with cum := c.1, bitmap := c.2 })
        countArrival (t.onSw (fun w => { w with rx := w.rx ++ [r] })) f.src

/-- R288: LS: HKDF-Extract of the shared secret under the two nonces, that of the lower chip ID first. -/
def linkSecret (s : State) (own peer : List Byte) : List Byte :=
  let z := Config.ecdh ((own.drop 0x130).take 96) ((peer.drop 0x130).take 96)
  let n (p : List Byte) : List Byte := p.drop 0x190
  sized 48 (Config.hkdfExtract (if chipId s < leNat (peer.take 2) then n own ++ n peer else n peer ++ n own) z)

/-- R288: the key of generation `g` between this chip and a neighbour; `sending` from this chip. -/
def linkKey (s : State) (ls : List Byte) (neighbour g : Nat) (sending : Bool) : List Byte :=
  let lo := Nat.min (chipId s) neighbour
  let hi := Nat.max (chipId s) neighbour
  let d := if (decide (chipId s < neighbour)) == sending then 0 else 1
  sized 32 (Config.hkdfExpand ls (ascii "HX1 link" ++ leBytes 4 g ++ leBytes 1 d ++ leBytes 2 lo ++ leBytes 2 hi) 32)

/-- R288: LS of a link, which the vault holds. -/
def linkLs (s : State) (l : Nat) : List Byte := (Tab.look s.vault.linkSecrets l).getD []

/-- R14, R367: a link key leaves the vault as a wrapped load; none where its unwrap fails, which is logged. -/
def carryKey (s : State) (l : Nat) (key : List Byte) : State × Option (List Byte) :=
  if s.vault.wrapBad then
    (logErr (s.onVault (fun v => { v with wrapBad := false }))
      { cls := 2, status := Status.hwError.code, ugroup := 12, unit := l, cause := 0x10 }, none)
  else (s, some (Config.keyWrap s.vault.wrapKey key))

/-- R288, R290, R367: the keys of both directions of a generation are derived and loaded into a link's slots by `put`: the one
for sending, the one for receiving, and their wrapped loads. The answer is whether both slots were filled. -/
def loadPair (s : State) (l neighbour g : Nat) (put : (tx wtx rx wrx : List Byte) → Link → Link) : State × Bool :=
  let tx := linkKey s (linkLs s l) neighbour g true
  let rx := linkKey s (linkLs s l) neighbour g false
  match carryKey s l tx with
  | (t, none) => (t, false)
  | (t, some a) =>
    match carryKey t l rx with
    | (u, none) => (u, false)
    | (u, some b) => (setLink u l (put tx a rx b), true)

/-- R290: the slots of the next generation: the key for receiving is in use, the one for sending waits. -/
def installNext (tx wtx rx wrx : List Byte) (x : Link) : Link :=
  { x with genRx := x.genRx + 1, lctrOld := x.lctrRx, lctrRx := 0, oldRx := true, oldKey := x.rxKey, rxKey := rx, rxWrapped := wrx,
           nextKey := tx, txWrapped := wtx }

/-- R290: the link sends under the generation that it has installed. -/
def useTx (x : Link) : Link := { x with genTx := x.genRx, lctrTx := 0, txKey := x.nextKey, nextKey := [] }

/-- R367: a load of a link's key has failed: what asked for it ends with HW_ERROR, and the link, which lacks the key, goes
DOWN (log 78). -/
def linkKeyFailed (s : State) (l : Nat) : State :=
  let asks (j : Job) : Bool := match j.kind with | .links left => left.contains l | _ => false
  let t := s.onQm (fun m => { m with jobs := m.jobs.filter (fun j => !asks j) })
  linkDown ((s.qm.jobs.filter asks).foldl (fun t j => retire t j.chan .hwError) t) l

/-- R285, R288, R290: a frame of good form and tag is accepted: its counter, the keys it shows in use, its credit. -/
def acceptLink (s : State) (l : Nat) (f : Frame) : State :=
  if f.ftype = 4 then s
  else
    let k := linkAt s l
    let newest : Bool := k.genRx % 2 == f.kph
    let t := setLink s l (fun x =>
      let y := (if newest ∧ x.genTx < x.genRx then useTx x else x).refund f.clevel f.credit
      { y with
        lctrRx := if newest then f.lctr + 1 else y.lctrRx
        lctrOld := if newest then y.lctrOld else f.lctr + 1 })
    let t := if newest ∧ k.state = .rekey ∧ k.lctrRx = 0 ∧ 0 < k.genRx then rekeyDone t l
      else if 2 ^ 48 ≤ f.lctr then startRekey t l else t
    drainForward t

/-- R295: a frame of a flow that this end has closed shows that the peer ignored the CLOSE: the flow stays open, where it
finds an entry. -/
def keepOpen (s : State) (f : Frame) : State :=
  match flowAt s f.src with
  | some fl =>
    if fl.closing ∧ fl.opened ∧ fl.epoch = f.epoch ∧ f.ftype ≠ 2 ∧ f.ftype ≠ 3 ∧ f.ftype ≠ 4 then
      let t := freeEntry s
      if entryFree t then setFlow t f.src (fun x => { x with entry := true, closing := false, idleFor := 0 }) else t
    else s
  | none => s

/-- R283 to R285, R289, R293, R294: a frame arrives on a link; `tagOk`: its tag verifies under the key that it names. -/
def execSwarmFrameReceive (l : Nat) (f : Frame) (tagOk : Bool) (s : State) : Host.Outcome State Fault Refusal :=
  taken ((linkAt s l).state != .down || (linkAt s l).locked) s
    (if !frameOk s l f tagOk then discardFrame s l
     else if (linkAt s l).state = .down then s
     else
       let t := acceptLink s l f
       if counterSpent (linkAt t l) then linkDown t l
       else if f.ftype = 0 ∨ f.ftype = 4 ∨ f.ftype = 5 then t.onSw (fun w => { w with rx := w.rx ++ [{ link := l, frame := f }] })
       else if f.dst ≠ chipId t then
         if f.hops = 0 then dropForward t l f
         else forward t { link := l, frame := { f with hops := f.hops - 1 } }
       else if sequenced f.ftype then receiveSeq (keepOpen t f) { link := l, frame := f }
       else (keepOpen t f).onSw (fun w => { w with rx := w.rx ++ [{ link := l, frame := f }] }))

/-! ## Rows of the control frames -/

/-- The oldest accepted frame that `p` holds of, and the state without it. -/
def popRx (s : State) (p : RxFrame → Bool) : Option (RxFrame × State) :=
  (s.sw.rx.find? p).map (fun r => (r, s.onSw (fun w => { w with rx := w.rx.eraseP p })))

/-- The effect of an accepted frame. -/
def onRx (s : State) (p : RxFrame → Bool) (eff : State → RxFrame → State) : Host.Outcome State Fault Refusal :=
  match popRx s p with
  | none => .next s
  | some r => .next (eff r.2 r.1)

/-- R293, R297: the acknowledgement and the watermark in the header of a control frame of an open flow. -/
def headerAck (s : State) (f : Frame) : State :=
  match flowAt s f.src with
  | some fl => if fl.opened ∧ !fl.closing ∧ fl.epoch = f.epoch ∧ f.dst = chipId s then takeAck s f.src f.ack f.landed [] else s
  | none => s

/-- R285, R286: PROBE keeps a link from silence; the first one under generation 0 brings it UP. -/
def execProbe (link : Nat) (s : State) : Host.Outcome State Fault Refusal :=
  onRx s (fun r => r.link == link && r.frame.ftype == 0) (fun t r =>
    let t := headerAck t r.frame
    if (linkAt t link).state = .auth ∧ (linkAt t link).genRx = 0 then setLink t link (fun x => { x with state := .up }) else t)

/-- R293, R294: ACK: its cumulative acknowledgement and its bitmap. -/
def execAck (src : Nat) (s : State) : Host.Outcome State Fault Refusal :=
  onRx s (fun r => r.frame.src == src && r.frame.ftype == 1) (fun t r =>
    match flowAt t src with
    | some fl =>
      if fl.opened ∧ !fl.closing ∧ fl.epoch = r.frame.epoch then
        takeAck t src r.frame.ack r.frame.landed
          ((bitsOf (leNat r.frame.payload) 1024).map (fun i => (r.frame.ack + 1 + i) % 2 ^ 32))
      else t
    | none => t)

/-- R291: a flow opens with an epoch; what waited for it leaves. -/
def openFlow (s : State) (peer epoch : Nat) : State :=
  releaseHeld (setFlow s peer (fun x => { x with opened := true, epoch := epoch })) peer (Config.flowWindow + 1)

/-- R291, R295: OPEN. Of OPENs that cross, the lower chip's epoch stands; the other epoch, coming again before the reply has
reached its sender, is answered once more, and any other epoch on an open flow resets it. -/
def execOpn (src : Nat) (s : State) : Host.Outcome State Fault Refusal :=
  onRx s (fun r => r.frame.src == src && r.frame.ftype == 2) (fun t r =>
    let t := headerAck t r.frame
    let e := r.frame.epoch
    let reply : Bool := bit r.frame.opf 31
    let fresh (t : State) : State :=
      let u := freeEntry t
      if entryFree u then
        sendOpen (u.onSw (fun w => { w with flows := Tab.put w.flows src { Flow.new e with opened := true } })) src true
      else sendCtl u src (ctlFrame u src 3 (2 ^ 31) [])
    match flowAt t src with
    | none => if reply then t else fresh t
    | some fl =>
      if reply then (if fl.entry ∧ !fl.opened ∧ (fl.epoch = e ∨ src < chipId t) then openFlow t src e else t)
      else if fl.closing then fresh t
      else if !fl.entry then
        let u := freeEntry t
        if entryFree u then sendOpen (openFlow (setFlow u src (fun x => { x with entry := true })) src e) src true
        else sendCtl u src (ctlFrame u src 3 (2 ^ 31) [])
      else if !fl.opened then
        if chipId t < src then sendOpen (openFlow (setFlow t src (fun x => { x with crossed := some e })) src fl.epoch) src true
        else sendOpen (openFlow t src e) src true
      else if fl.epoch = e ∨ fl.crossed = some e then sendOpen t src true
      else sendOpen (resetFlow t src e true) src true)

/-- R291, R295: CLOSE: an idle half is freed; a refused opener tries again. -/
def execClose (src : Nat) (s : State) : Host.Outcome State Fault Refusal :=
  onRx s (fun r => r.frame.src == src && r.frame.ftype == 3) (fun t r =>
    let t := headerAck t r.frame
    if bit r.frame.opf 31 then t
    else if flowIdle t src || (flowAt t src).any (·.closing) then dropFlow t src else t)

/-- R287, R363, R364: whether the peer's endorsing root is usable here. -/
def rootUsable (s : State) (index : Nat) (key : List Byte) : Bool :=
  let h := digest key
  let maj (l : List Nat) (i : Nat) : Bool := decide (2 ≤ (l.filter (fun w => bit w i)).length)
  match s.vault.lc with
  | .test => index == 0xFF && h == Config.vendorKeyHash 3
  | .production =>
    decide (index < 4) && maj s.vault.fuses.enrolled index && !maj s.vault.fuses.revoked index &&
      leNat h == nth s.vault.fuses.owner index 0
  | _ => false

/-- R366: the identity private scalar: the expansion as a big-endian integer, brought into the group; 48 bytes, big-endian. -/
def identityScalar (s : State) : List Byte :=
  let x := beNat (sized 72 (Config.hkdf (leBytes 8 s.vault.fuses.serial) (drkBytes s) (ascii "HX1 identity") 72))
  beBytes 48 (x % (Config.p384Order - 1) + 1)

/-- R286 to R288: HELLO; `verified` is the verdict of the P-384 engine on the endorsement and the phase-2 signature. -/
def execHello (link : Nat) (verified : Bool) (s : State) : Host.Outcome State Fault Refusal :=
  onRx s (fun r => r.link == link && r.frame.ftype == 4) (fun t r =>
    let k := linkAt t link
    if k.state ≠ .training then t
    else if r.frame.opf / 2 ^ 30 = 1 then
      let u := setLink t link (fun x => { x with peerHello := r.frame.payload })
      sendHello u link 2 (sized 96 (Config.ecdsaSign (identityScalar t) (digest (k.ownHello ++ r.frame.payload))))
    else
      let p := k.peerHello
      let chip := leNat (p.take 2)
      if verified ∧ p ≠ [] ∧ chip ≠ chipId t ∧ rootUsable t (leNat ((p.drop 3).take 1)) ((p.drop 0x70).take 96) then
        let u := t.onVault (fun v => { v with linkSecrets := Tab.put v.linkSecrets link (linkSecret t k.ownHello p) })
        match loadPair u link chip 0 (fun tx wtx rx wrx x =>
          { x with state := .auth, neighbour := chip, txKey := tx, txWrapped := wtx, rxKey := rx, rxWrapped := wrx
                   ownHello := k.ownHello.take 0x130 ++ List.replicate 96 0 ++ k.ownHello.drop 0x190 }) with
        | (v, true) => v
        | (v, false) => linkKeyFailed v link
      else linkDown t link)

/-- R290: KEYX. The reply to it makes the initiator send under the new generation; the first of a generation makes the
responder install both directions and reply. -/
def execKeyx (link : Nat) (s : State) : Host.Outcome State Fault Refusal :=
  onRx s (fun r => r.link == link && r.frame.ftype == 5) (fun t r =>
    let t := headerAck t r.frame
    let k := linkAt t link
    let g := leNat (r.frame.payload.take 4)
    if !k.carries then t
    else if bit r.frame.opf 31 then
      if k.state = .rekey ∧ k.initiated ∧ g = k.genTx + 1 then
        let sends (x : Link) : Link := { useTx x with initiated := false }
        if k.genRx < g then
          match loadPair t link k.neighbour g (fun tx wtx rx wrx x => sends (installNext tx wtx rx wrx x)) with
          | (u, true) => u
          | (u, false) => linkKeyFailed u link
        else setLink t link sends
      else t
    else if g = k.genRx + 1 then
      match loadPair t link k.neighbour g (fun tx wtx rx wrx x =>
        { installNext tx wtx rx wrx x with replied := true, state := .rekey }) with
      | (u, true) => sendKeyx u link g true
      | (u, false) => linkKeyFailed u link
    else if g = k.genRx ∧ k.replied then sendKeyx t link g true
    else t)

/-! ## Links in time -/

/-- R18, R286, R354: the PCS of a link reports lock: it wakes the link's transport and demands the stream clock, with which
the link trains. -/
def execPcsLock (link : Nat) (s : State) : Host.Outcome State Fault Refusal :=
  taken (decide (link < Config.links) && !(linkAt s link).locked && !s.clk.cold) s
    (train (demand (setLink s link (fun x => { x with locked := true, gated := false })) .stream) link)

/-- R19, R289: the PCS reports loss of lock, or the link clock stops. -/
def execPcsLockLoss (link : Nat) (s : State) : Host.Outcome State Fault Refusal :=
  taken (linkAt s link).locked s (linkDown (setLink s link (fun x => { x with locked := false })) link)

/-- R289: no valid frame for 10 µs. -/
def execLinkSilenceTimeout (link : Nat) (s : State) : Host.Outcome State Fault Refusal :=
  taken ((linkAt s link).state != .down) s (linkDown s link)

/-- R286: the hold-down ends. -/
def execHoldDownEnd (link : Nat) (s : State) : Host.Outcome State Fault Refusal :=
  taken (linkAt s link).holdDown s (train (setLink s link (fun x => { x with holdDown := false })) link)

/-- R287: 4 µs have passed without the peer's phase-1 HELLO. -/
def execHelloRepeat (link : Nat) (s : State) : Host.Outcome State Fault Refusal :=
  taken ((linkAt s link).state == .training && (linkAt s link).peerHello == []) s
    (sendHello s link 1 (linkAt s link).ownHello)

/-- R290: 4 µs have passed without the reply to this end's KEYX. -/
def execKeyxRepeat (link : Nat) (s : State) : Host.Outcome State Fault Refusal :=
  taken ((linkAt s link).state == .rekey && (linkAt s link).initiated) s
    (sendKeyx s link ((linkAt s link).genTx + 1) false)

/-- R289: 1 µs without a frame sent brings a PROBE. -/
def execProbeInterval (link : Nat) (s : State) : Host.Outcome State Fault Refusal :=
  let k := linkAt s link
  taken (k.carries || k.state == .auth) s
    (drainForward (putFrame s link (ctlFrame s k.neighbour 0 0 [])))

/-- R290: 64 µs after the first frame under the new key, the old one is zeroised. -/
def execOldKeyRetire (link : Nat) (s : State) : Host.Outcome State Fault Refusal :=
  taken ((linkAt s link).oldRx && decide (0 < (linkAt s link).lctrRx)) s
    (setLink s link (fun x => { x with oldRx := false, lctrOld := 0, oldKey := [] }))

/-! ## Flows in time -/

/-- R291: 4 µs have passed without the reply to an OPEN, or after a refusal. -/
def execOpenRepeat (peer : Nat) (s : State) : Host.Outcome State Fault Refusal :=
  match flowAt s peer with
  | none => .next s
  | some fl => taken (!fl.opened) s (if fl.entry then sendOpen s peer false else enterFlow s peer)

/-- R293: 0.5 µs after a frame that no ACK has acknowledged. -/
def execAckDelay (peer : Nat) (s : State) : Host.Outcome State Fault Refusal :=
  match flowAt s peer with
  | none => .next s
  | some fl => taken (decide (0 < fl.sinceAck)) s (sendAck s peer)

/-- R293: `rto` after its last sending, a frame neither covered nor marked is sent again. -/
def execRetransmitTimeout (peer seq : Nat) (s : State) : Host.Outcome State Fault Refusal :=
  match (flowAt s peer).bind (fun fl => fl.retx.find? (fun e => e.seq == seq)) with
  | none => .next s
  | some e => .next (transmit s peer e.frame)

/-- R293, R302: the frames that a flow still has to send. -/
def toSend (s : State) (peer : Nat) (fl : Flow) : List Frame :=
  (s.sw.fwd.filter (fun w => w.link == Config.ownLink && w.frame.dst == peer)).map (·.frame) ++ fl.held ++ fl.retx.map (·.frame)

/-- R296: every primary link has held less than 16 KiB of credit at the level of a frame to send for 2 µs. -/
def execSprayEnter (peer : Nat) (s : State) : Host.Outcome State Fault Refusal :=
  match flowAt s peer with
  | none => .next s
  | some fl =>
    let low (f : Frame) : Bool := (primarySet s peer).all (fun k => decide ((linkAt s k).creditAt f.level < 16))
    taken (!fl.spray && (toSend s peer fl).any low) s (setFlow s peer (fun x => { x with spray := true }))

/-- R296: a primary link has held 64 KiB of credit for 8 µs: of all levels and of what they share together (log 72). -/
def execOrderedReturn (peer : Nat) (s : State) : Host.Outcome State Fault Refusal :=
  match flowAt s peer with
  | none => .next s
  | some fl =>
    taken (fl.spray && (primarySet s peer).any (fun k => decide (64 ≤ (linkAt s k).credit.foldl (· + ·) (linkAt s k).shared)))
      s (setFlow s peer (fun x => { x with spray := false }))

/-- R295: a flow idle for 1 ms is closed. -/
def execFlowIdleClose (peer : Nat) (s : State) : Host.Outcome State Fault Refusal :=
  taken (flowIdle s peer) s (closeFlow s peer)

/-- R295: a peer without a link in either set for 100 µs. -/
def execFlowUnreachableTimeout (peer : Nat) (s : State) : Host.Outcome State Fault Refusal :=
  taken ((flowAt s peer).isSome && !reachable s peer) s (killFlow s peer)

/-- R283: a frame that has waited 64 µs to be forwarded. -/
def execForwardQueueTimeout (k : Nat) (s : State) : Host.Outcome State Fault Refusal :=
  match s.sw.fwd[k]? with
  | none => .next s
  | some r =>
    taken (r.link != Config.ownLink) s
      (dropForward (s.onSw (fun w => { w with fwd := w.fwd.eraseIdx k })) r.link r.frame)

/-! ## KEY_DERIVE -/

/-- R196: `KEY_DERIVE` LINK; of a link in REKEY it joins the rekey under way (log 62). -/
def execKeyDeriveLink (c : Nat) (s : State) : Host.Outcome State Fault Refusal :=
  runInstr s c (fun o => match o with | .keyLink _ => true | _ => false) (fun o =>
    match o with
    | .keyLink links =>
      let ls := bitsOf links 16
      if links = 0 ∨ ls.any (fun l => !bit (linksConnected s) l) then retire s c .range
      else if ls.any (fun l => !(linkAt s l).carries) then retire s c .state
      else
        await s c (fun t =>
          ls.foldl startRekey (t.onQm (fun m => { m with jobs := m.jobs ++ [{ chan := c, kind := .links ls }] })))
    | _ => s)

end Sys2Proof.Machine
end

