-- ==== Sys2Proof/Machine/Requests.lean ====
section
/-! DEFINITION. The performance of accepted request and response frames (R296 to R301): the check of R49 at the
destination, the lines at their home, the answers, and the ends of transactions at the source. -/

namespace Sys2Proof.Machine

/-- R7: a status from its code; codes that R7 does not give read as HW_ERROR. -/
def Status.ofCode : Nat → Status
  | 0 => .ok
  | 1 => .state
  | 2 => .range
  | 3 => .rights
  | 4 => .fault
  | 5 => .timeout
  | 6 => .poison
  | 7 => .contextKilled
  | 8 => .tagFail
  | 9 => .decode
  | 10 => .aborted
  | 11 => .resource
  | 12 => .link
  | _ => .hwError

/-! ## Order -/

/-- R296, R298: an accepted frame may be performed: on path 0 behind every lower number; a capping write when the
watermark has reached the number before it. -/
def ready (s : State) (r : RxFrame) : Bool :=
  match flowAt s r.frame.src with
  | none => false
  | some fl =>
    let f := r.frame
    let earlier (x : RxFrame) : Bool :=
      x.frame.src == f.src && sequenced x.frame.ftype && x.frame.path == 0 && x.frame.seq != f.seq && covers f.seq x.frame.seq
    (f.path == 1 || (covers fl.cum f.seq && !s.sw.rx.any earlier)) &&
      (f.ftype != 7 || !bit f.opf 31 || (fl.landed + 1) % 2 ^ 32 == f.seq)

/-- R285: the lines that a REDUCE frame names. -/
def reduceLines (f : Frame) : Nat := if bit f.opf 12 then 1 else fld f.opf 6 6 + 1

/-- R285: the lines that a request frame names. -/
def frameLines (f : Frame) : Nat :=
  match f.ftype with
  | 6 => f.plen / 8
  | 7 => 1
  | 8 => reduceLines f
  | 9 => 1
  | 0xA => f.opf / 2 ^ 29 + 1
  | _ => 0

/-- What a request frame does to each of its lines, as far as their order goes (R315, R316). -/
def frameKind (f : Frame) : Option WriteKind :=
  match f.ftype with
  | 6 => some (.whole [])
  | 7 => some (.partialWrite [])
  | 8 => some (.reduce .sum 0 0 0 0 [])
  | 9 => some (.atomic .add true false 0 0 0)
  | _ => none

/-! ## The check at the destination -/

/-- R49: a hive lets a request at an address, through the comb that holds it. -/
def admits (s : State) (f : Frame) (need : Need) (a h : Nat) : Option Comb :=
  match combFor s h a with
  | none => none
  | some k =>
    let x := hiveAt s h
    if colonyTest s h f.src f.colony && k.colonyPermits need then some k
    else if f.colony == Config.managerColony && f.srcHive == 0 && need == .wr && x.state == .frozen && x.incoming then some k
    else none

/-- R49, R51: the hive that performs a request, and its comb. -/
def destination (s : State) (f : Frame) (need : Need) (a : Nat) : Option (Nat × Comb) :=
  (s.he.hives.map (·.1)).findSome? (fun h => (admits s f need a h).map (fun k => (h, k)))

/-- R300: the form of a request's lines: inside memory, aligned, inside one 4 KiB block. -/
def linesOk (s : State) (a n align : Nat) : Bool :=
  a % align == 0 && decide (a < memBytes s) && decide (a < 2 ^ 40) && decide (a % 4096 + 128 * n ≤ 4096 + a % 128)

/-- R25, R316, R319: the line requests of a frame at their home, at the frame's level and under no label of this chip; none of a
frame that will be refused. -/
def frameReqs (s : State) (f : Frame) : List HomeReq :=
  let need : Need := match f.ftype with | 6 => .wr | 7 => .wr | 0xA => .rd | _ => .atom
  let a := paLocal f.w4
  if frameLines f = 0 ∨ !linesOk s (lineOf a) (frameLines f) 128 then []
  else
    match destination s f need a with
    | none => []
    | some d =>
      (List.range (frameLines f)).map (fun i =>
        { req := { origin := .swarm f.src f.seq, hive := d.1, keySel := d.2.keySel, label := Config.noLabel, level := f.level,
                   addr := lineOf a + 128 * i }
          kind := frameKind f, second := none, raw := [], ticket := true })

/-- R316: the turns of a frame's lines have come. -/
def linesFree (s : State) (f : Frame) : Bool := (frameReqs s f).all (lineGoes s)

/-- A frame that must wait takes its places at the units. -/
def frameClaim (s : State) (f : Frame) : State := ((frameReqs s f).filter (fun h => !lineGoes s h)).foldl takePlace s

/-- The turns of a frame's lines are given back. -/
def frameLeaves (s : State) (f : Frame) : State :=
  (frameReqs s f).foldl (fun t h => redeem t h.req.origin h.req.addr) s

/-- The accepted frame `seq` of a peer, of a type, is performed and leaves its link's receive buffer. One that is ready and
whose lines must wait takes its places at the units. -/
def perform (s : State) (src seq ftype : Nat) (eff : State → Frame → State) : Host.Outcome State Fault Refusal :=
  match s.sw.rx.find? (fun r => r.frame.src == src && r.frame.seq == seq && r.frame.ftype == ftype) with
  | none => .next s
  | some r =>
    if !ready s r then .next s
    else if !linesFree s r.frame then .next (frameClaim s r.frame)
    else
      .next (frameLeaves (eff (oweCredit (s.onSw (fun w => { w with rx := w.rx.erase r })) r.link r.frame) r.frame) r.frame)

/-- R53: a refusal counts against the hive whose comb holds the address; an address that no comb holds has none, and of
several hives that hold a commons comb the first in table order counts it (log 27). -/
def countRefusal (s : State) (a : Nat) : State :=
  match (s.he.hives.map (·.1)).find? (fun h => (combFor s h a).isSome) with
  | some h => refuseRemote s h (paOf (chipId s) a)
  | none => s

/-- R300: a refused request: counted, and answered with its status. -/
def refuseFrame (s : State) (f : Frame) (st : Status) : State :=
  let t := countRefusal s (paLocal f.w4)
  if f.ftype = 0xA then sendRdata t f.src f.seq f.level st (List.replicate (128 * (f.opf / 2 ^ 29 + 1)) 0)
  else sendResp t f.src f.seq f.level st 0

/-- R132, R300: a line of a frame has been unanswered for 16 µs: the frame is answered with TIMEOUT. -/
def frameTimeout (s : State) (src seq : Nat) : State :=
  let t := dropTickets s (.swarm src seq)
  match s.sw.rx.find? (fun r => r.frame.src == src && r.frame.seq == seq) with
  | none => t
  | some r =>
    let f := r.frame
    let u := oweCredit (t.onSw (fun w => { w with rx := w.rx.erase r })) r.link f
    if f.ftype = 0xA then sendRdata u src seq f.level .timeout (List.replicate (128 * frameLines f) 0)
    else sendResp u src seq f.level .timeout 0

/-- R300: the status that refuses a request of `n` lines at its address, before it is performed: R49, then the range. -/
def requestBad (s : State) (f : Frame) (need : Need) (n align : Nat) (rangeOk : Bool) : Option Status :=
  if (destination s f need (paLocal f.w4)).isNone then some .rights
  else if !rangeOk || !linesOk s (paLocal f.w4) n align then some .range else none

/-- R49, R300: a request frame that nothing refuses is performed for its hive, through its comb. -/
def onRequest (s : State) (f : Frame) (need : Need) (n align : Nat) (rangeOk : Bool) (eff : Nat → Comb → State) : State :=
  match requestBad s f need n align rangeOk, destination s f need (paLocal f.w4) with
  | none, some d => eff d.1 d.2
  | some st, _ => refuseFrame s f st
  | none, none => refuseFrame s f .rights

/-- R297, R300: the write-kind requests of a frame, in address order, and the watermark or the answer. -/
def writeLines (s : State) (f : Frame) (need : Need) (rangeOk : Bool) (ks : List (Nat × WriteKind)) : State :=
  let a := paLocal f.w4
  onRequest s f need ks.length 128 rangeOk (fun h k =>
    let r := ks.foldl (fun (e : State × Status) x =>
      let w := homeWrite e.1 h k.keySel (a + 128 * x.1) x.2 f.level
      (w.1, if e.2 = .ok then w.2.1 else e.2)) (s, Status.ok)
    if r.2 = .ok then countPerformed r.1 f.src f.seq else sendResp r.1 f.src f.seq f.level r.2 0)

/-! ## Requests -/

/-- R299, R300: WRITE: `plen` / 8 whole lines. -/
def execWrite (src seq : Nat) (s : State) : Host.Outcome State Fault Refusal :=
  perform s src seq 6 (fun t f =>
    writeLines t f .wr true ((List.range (f.plen / 8)).map (fun i => (i, .whole ((f.payload.drop (128 * i)).take 128)))))

/-- R298 to R300: WRITEP: one line under its byte mask; a capping one in its turn. -/
def execWritep (src seq : Nat) (s : State) : Host.Outcome State Fault Refusal :=
  perform s src seq 7 (fun t f =>
    let mask := leNat (f.payload.take 16)
    writeLines t f .wr true [(0, .partialWrite ((bitsOf mask 128).map (fun i => (i, nth f.payload (16 + i) 0))))])

/-- R285: the contributions of a REDUCE frame: element number, bits and draw. -/
def frameElements (f : Frame) (size dsize : Nat) : List (Nat × Nat × Nat) :=
  let masked := bit f.opf 12
  let idx := if masked then bitsOf (leNat (f.payload.take 16)) 128 else List.range ((fld f.opf 6 6 + 1) * (128 / dsize))
  let body := if masked then f.payload.drop 16 else f.payload
  let draws := body.drop (idx.length * size)
  let stochastic : Bool := fld f.opf 13 2 == 2
  idx.zipIdx.map (fun e =>
    (e.1, leNat ((body.drop (e.2 * size)).take size), if stochastic then leNat ((draws.drop (2 * e.2)).take 2) else 0))

/-- R142, R285: the line requests of a REDUCE frame; none where a format, the operation or the rounding is out of range. -/
def reduceKinds (f : Frame) : Option (List (Nat × WriteKind)) :=
  let sf := fld f.opf 27 5
  let acc := fld f.opf 22 5
  let df := fld f.opf 17 5
  let rnd := fld f.opf 13 2
  let op : Option RedOp := match fld f.opf 15 2 with | 0 => some .sum | 1 => some .max | 2 => some .min | _ => none
  match Fmt.ofNat? sf, Fmt.ofNat? acc, Fmt.ofNat? df, Rnd.ofNat? rnd, op with
  | some x, some _, some y, some _, some o =>
    if 128 % y.size ≠ 0 then none
    else
      let per := 128 / y.size
      let es := frameElements f x.size y.size
      some ((List.range (reduceLines f)).map (fun i =>
        (i, .reduce o sf acc df rnd ((es.filter (fun e => e.1 / per == i)).map (fun e =>
          { off := e.1 % per * y.size, bits := e.2.1, draw := e.2.2 })))))
  | _, _, _, _, _ => none

/-- R142, R162, R300: REDUCE: the contributions of each line, combined at its home. -/
def execReduceFrame (src seq : Nat) (s : State) : Host.Outcome State Fault Refusal :=
  perform s src seq 8 (fun t f =>
    match reduceKinds f with
    | some ks => writeLines t f .atom true ks
    | none => writeLines t f .atom false ((List.range (reduceLines f)).map (fun i => (i, .whole []))))

/-- R285: the operation of an ATOM frame. -/
def frameAtom (f : Frame) : Option AtomOp :=
  match f.opf / 2 ^ 29 with
  | 0 => some .add | 1 => some .max | 2 => some .min | 3 => some .xchg | 4 => some .cas | _ => none

/-- R146, R300: ATOM, answered with the old value. -/
def execAtom (src seq : Nat) (s : State) : Host.Outcome State Fault Refusal :=
  perform s src seq 9 (fun t f =>
    let a := paLocal f.w4
    let is64 := bit f.opf 28
    onRequest t f .atom 1 (if is64 then 8 else 4) (frameAtom f).isSome (fun h k =>
      let w := homeWrite t h k.keySel (lineOf a)
        (.atomic ((frameAtom f).getD .add) is64 (bit f.opf 27) (a % 128) (leNat (f.payload.take 8)) (leNat (f.payload.drop 8)))
        f.level
      let u := sendResp w.1 f.src f.seq f.level w.2.1 (if w.2.1 = .ok then w.2.2 else 0)
      if w.2.1 = .ok then countPerformed u f.src f.seq else u))

/-- R300: READ, answered by an RDATA. -/
def execRead (src seq : Nat) (s : State) : Host.Outcome State Fault Refusal :=
  perform s src seq 0xA (fun t f =>
    let a := paLocal f.w4
    let n := f.opf / 2 ^ 29 + 1
    onRequest t f .rd n 128 true (fun h k =>
      let r := (List.range n).foldl (fun (e : State × Status × List Byte) i =>
        let x := homeRead e.1 h k.keySel (a + 128 * i) f.level
        (x.1, if e.2.1 = .ok then x.2.1 else e.2.1, e.2.2 ++ (x.2.2 ++ List.replicate 128 0).take 128)) (t, Status.ok, [])
      let u := sendRdata r.1 f.src f.seq f.level r.2.1 r.2.2
      if r.2.1 = .ok then countPerformed u f.src f.seq else u))

/-- R297, R301: a wait is cancelled at its home: the first of that chip, hive and target at the fence. One whose fence is still
being read counts as performed then. -/
def cancelWait (s : State) (n src srcHive target : Nat) : State :=
  let same (w : Waiter) : Bool := match w with | .remote a _ h t _ => a == src && h == srcHive && t == target | _ => false
  let op (o : FenceOp) : Bool := match o with | .rwait a _ h _ t _ => a == src && h == srcHive && t == target | _ => false
  let held := ((Tab.look s.qm.fences n).map (·.waits)).getD []
  let queued := ((Tab.look s.qm.fills n).getD []).find? op
  if held.any same then s.onQm (fun m => { m with fences := Tab.mod m.fences n (fun f => { f with waits := f.waits.eraseP same }) })
  else
    let t := s.onQm (fun m => { m with fills := Tab.mod m.fills n (fun l => l.eraseP op) })
    match queued with
    | some (.rwait _ seq _ _ _ _) => countPerformed t src seq
    | _ => t

/-- R91, R92, R300, R301: WAIT, or its cancellation. -/
def execWaitFrame (src seq : Nat) (s : State) : Host.Outcome State Fault Refusal :=
  perform s src seq 0xB (fun t f =>
    let target := leNat (f.payload.take 8)
    if bit f.opf 31 then countPerformed (cancelWait t f.w4 f.src f.srcHive target) f.src f.seq
    else fenceOp t f.w4 (.rwait f.src f.seq f.srcHive f.colony target f.level))

/-! ## Responses -/

/-- R301: the transaction that a response answers ends; a response to one that has ended is discarded and counted. -/
def answer (s : State) (f : Frame) (data : State → Txn → State) : State :=
  let st := Status.ofCode (fld f.w4 24 8)
  let t := countPerformed s f.src f.seq
  match t.sw.txns.find? (fun x => x.peer == f.src && x.seq == fld f.w4 32 32) with
  | none => t.onSw (fun w => { w with responsesLost := w.responsesLost + 1 })
  | some x => endTxn (if st = .ok then data t x else t) x st

/-- R300, R301: RDATA. -/
def execRdata (src seq : Nat) (s : State) : Host.Outcome State Fault Refusal :=
  perform s src seq 0xC (fun t f => answer t f (fun u x =>
    match x.kind with
    | .read va len =>
      (List.range (len / 128)).foldl (fun v i => keepData v x.chan (va + 128 * i) ((f.payload.drop (128 * i)).take 128)) u
    | _ => u))

/-- R300, R301: RESP. -/
def execResp (src seq : Nat) (s : State) : Host.Outcome State Fault Refusal :=
  perform s src seq 0xD (fun t f => answer t f (fun u x =>
    match x.kind with
    | .atomic => keepData u x.chan 0 (f.payload.take 8)
    | _ => u))

end Sys2Proof.Machine
end

