-- ==== Sys2Proof/Machine/Brood.lean ====
section
/-! DEFINITION. The brood: logical and physical units (R405 to R407), substitution and retirement (R408 to R411), wear
(R412, R413), what becomes of an uncorrectable error (R418), the scrub of SRAM (R419) and the error log's keeping
(R415). -/

namespace Sys2Proof.Machine

/-! ## Physical units -/

/-- R405: how many logical and physical units a group of a class has. The groups of class 1 are its sets (set × 8 + bank),
of class 3 its SRAM instances, of class 4 its links; classes 0 and 2 have one group, 0. -/
def logicalCount (cls group : Nat) : Nat :=
  match cls with
  | 0 => 64
  | 1 => 16
  | 2 => 288
  | 3 => Config.sramRows group
  | 4 => 8
  | _ => 0

def spareCount (cls : Nat) : Nat :=
  match cls with
  | 0 => 16
  | 1 => 1
  | 2 => 32
  | 3 => 4
  | 4 => 1
  | _ => 0

/-- R407: the SRAM instances. -/
def sramInstance (i : Nat) : Bool :=
  decide (i ≤ 0x3F) || (decide (0x100 ≤ i) && decide (i ≤ 0x13F)) || (decide (0x200 ≤ i) && decide (i ≤ 0x207)) ||
    (decide (0x210 ≤ i) && decide (i ≤ 0x21F)) || (decide (0x220 ≤ i) && decide (i ≤ 0x223)) ||
    (decide (0x230 ≤ i) && decide (i ≤ 0x23F))

/-- R407: whether the fuses mark a physical unit bad. -/
def fusedBad (s : State) (cls group n : Nat) : Bool :=
  let f := s.vault.fuses
  match cls with
  | 0 => f.badMover.contains n
  | 2 => f.badKeyrow.contains n
  | 3 => f.badRow.any (fun w => w != 2 ^ 32 - 1 && fld w 16 16 == group && fld w 0 16 == n)
  | 4 => f.badLane.contains (9 * group + n)
  | _ => false

/-- R406: the physical units of a group that were good at the last boot, rising; the first `k` of them. -/
def bootGood (s : State) (cls group k : Nat) : Nat → Nat → List Nat
  | 0, _ => []
  | fuel + 1, n =>
    if k = 0 then []
    else if fusedBad s cls group n ∨ s.br.bootBad.contains (cls, group, n) then bootGood s cls group k fuel (n + 1)
    else n :: bootGood s cls group (k - 1) fuel (n + 1)

/-- R26, R406: the logical units of a group that the last boot found a good physical unit for. -/
def servedUnits (s : State) (cls group : Nat) : Nat :=
  (bootGood s cls group (logicalCount cls group) (logicalCount cls group + spareCount cls) 0).length

/-- R405, R406: the physical unit that serves a logical one. -/
def physOf (s : State) (cls group unit : Nat) : Nat :=
  match s.br.map.find? (fun e => e.1 == cls && e.2.1 == group && e.2.2.1 == unit) with
  | some e => e.2.2.2
  | none => nth (bootGood s cls group (unit + 1) (unit + 1 + spareCount cls) 0) unit unit

/-- R405, R408: the lowest good physical unit of a group that serves nothing. -/
def spareOf (s : State) (cls group : Nat) : Option Nat :=
  let n := logicalCount cls group
  let boot := bootGood s cls group n (n + spareCount cls) 0
  let free (p : Nat) : Bool :=
    !boot.contains p && !fusedBad s cls group p && !s.br.bad.contains (cls, group, p) &&
      !s.br.map.any (fun e => e.1 == cls && e.2.1 == group && e.2.2.2 == p) &&
      !s.br.substs.any (fun x => x.uclass == cls && cls == 0 && x.spare == p)
  (List.range (spareCount cls + n)).find? free

/-- R417: the unit groups of the log. -/
def ugroupOf (cls : Nat) : Nat :=
  match cls with
  | 0 => 1
  | 1 => 2
  | 2 => 3
  | 3 => 4
  | 4 => 5
  | 5 => 7
  | _ => 0

/-- R199: how `SPARE_SWAP` names a unit: `unit` and `sub`, as the group and the logical number within it. -/
def unitOf (cls unit sub : Nat) : Nat × Nat :=
  match cls with
  | 1 => (fld sub 0 8 * 8 + unit, fld sub 8 4)
  | 3 => (unit, sub)
  | 4 => (unit, sub)
  | _ => (0, unit)

/-- The inverse for a record of the log: `unit`. -/
def logUnit (cls group unit : Nat) : Nat :=
  match cls with
  | 1 => group % 8
  | 3 => group
  | 4 => group
  | _ => unit

/-- R408, R410: a SPARE record. -/
def spareRecord (s : State) (cls group unit phys cause : Nat) : State :=
  logErr s { cls := 5, ugroup := ugroupOf cls, unit := logUnit cls group unit, sub := phys, cause := cause }

/-! ## Effects on the units -/

/-- R224, R408: a way of a set loses its entry; a retired one leaves the set (R410). -/
def onWay (s : State) (group way : Nat) (retire_ : Bool) : State :=
  s.onXl (fun x =>
    let st := (Tab.look x.l2 group).getD TlbSet.empty
    { x with l2 := Tab.put x.l2 group { st with ways := if retire_ then st.ways.eraseIdx way else st.ways.set way none } })

/-- R408: what the switch of a unit other than a mover does to what it holds. -/
def switchUnit (s : State) (cls group unit : Nat) : State :=
  match cls with
  | 1 => onWay s group unit false
  | 4 => linkDown s group
  | _ => s

/-- R410: the keeper retires a unit without a spare. -/
def retireUnit (s : State) (cls group unit : Nat) : State :=
  let t := match cls with
    | 0 => setMover s unit (fun m => { m with inService := false, draining := false })
    | 1 => onWay s group unit true
    | 2 => setSlot s unit (fun k => { k with retired := true })
    | 4 => setLink (linkDown s group) group (fun x => { x with broken := true })
    | _ => s
  spareRecord t cls group unit (physOf s cls group unit) 8

/-- R408, R409: a substitution is done: the old unit is marked bad, the map changes, a record is written. -/
def swapDone (s : State) (cls group unit spare : Nat) : State :=
  let old := physOf s cls group unit
  let t := s.onBr (fun b =>
    { b with
      bad := b.bad ++ [(cls, group, old)]
      map := b.map.filter (fun e => !(e.1 == cls && e.2.1 == group && e.2.2.1 == unit)) ++ [(cls, group, unit, spare)]
      substs := b.substs.filter (fun x => !(x.uclass == cls && x.unit == group && x.sub == unit))
      savedWear := b.wear })
  spareRecord (switchUnit t cls group unit) cls group unit spare 7

/-- Whether a substitution of a unit is pending (R199, R411). -/
def swapPending (s : State) (cls group unit : Nat) : Bool :=
  s.br.substs.any (fun x => x.uclass == cls && x.unit == group && x.sub == unit)

/-- R409 step 1: a mover drains; its spare is woken. -/
def drainMover (s : State) (m spare : Nat) (chan : Option Nat) : State :=
  let t := setMover s m (fun x => { x with draining := true, homeWaits := true, spareAwake := false })
  t.onBr (fun b => { b with substs := b.substs ++
    [{ uclass := 0, unit := 0, sub := m, chan := chan, spare := spare, retries := 0, sleeping := false }] })

/-- R408, R410, R413: the keeper asks for a substitution. -/
def keeperSwap (s : State) (cls group unit : Nat) : State :=
  if swapPending s cls group unit then s
  else
    match spareOf s cls group with
    | none => retireUnit s cls group unit
    | some p => if cls = 0 then (if (moverAt s unit).inService then drainMover s unit p none else s) else swapDone s cls group unit p

/-- R199: `SPARE_SWAP`. -/
def execSpareSwap (c : Nat) (s : State) : Host.Outcome State Fault Refusal :=
  runInstr s c (fun o => match o with | .spareSwap _ _ _ => true | _ => false) (fun o =>
    match o with
    | .spareSwap cls unit sub =>
      let g := unitOf cls unit sub
      let ok : Bool := match cls with
        | 0 => decide (unit < reportedMovers s) && sub == 0
        | 1 => decide (unit < 8) && decide (sub < 2 ^ 12)
        | 2 => decide (unit < reportedSlots s) && sub == 0
        | 3 => sramInstance unit && decide (sub < Config.sramRows unit)
        | 4 => decide (unit < 16) && decide (sub < 8)
        | _ => false
      if !ok then retire s c .range
      else if swapPending s cls g.1 g.2 then retire s c .state
      else
        match spareOf s cls g.1 with
        | none => retire (retireUnit s cls g.1 g.2) c .resource
        | some p =>
          if cls = 0 then
            await s c (fun t => drainMover (t.onQm (fun m => { m with jobs := m.jobs ++ [{ chan := c, kind := .swap cls unit sub }] }))
              unit p (some c))
          else retire (swapDone s cls g.1 g.2 p) c .ok
    | _ => s)

/-- A waiting `SPARE_SWAP` ends. -/
def endSwapJob (s : State) (chan : Option Nat) (st : Status) : State :=
  match chan with
  | some c => retire (s.onQm (fun m => { m with jobs := m.jobs.filter (fun j => j.chan != c) })) c st
  | none => s

/-- The pending substitution of a mover. -/
def moverSwap (s : State) (m : Nat) : Option Subst := s.br.substs.find? (fun x => x.uclass == 0 && x.sub == m)

/-- R409: whether a reduce or an atomic that the combine unit of a mover has begun is still in progress. -/
def homeBusy (s : State) (m : Nat) : Bool :=
  (List.range Config.memPorts).any (fun p =>
    homeMover s p == m &&
      ((portAt s p).reads.map (·.home) ++ (portAt s p).writes.map (·.home) ++ (portAt s p).arb ++
        s.pr.granted.filter (fun h => portOf s h == p)).any (fun h => (h.kind.map WriteKind.combines).getD false))

/-- R409 step 3: the home-side operations that waited go on, in order of arrival. -/
def homeGoes (s : State) : State := onward (wakeLines (s.pr.lockWait.foldl arrive (s.onPr (fun p => { p with lockWait := [] }))))

/-- R409 step 3: the spare is awake and no home-side operation is in progress: the home side switches. -/
def execHomeSideSwitch (m : Nat) (s : State) : Host.Outcome State Fault Refusal :=
  match moverSwap s m with
  | none => .next s
  | some x =>
    taken (!x.sleeping && (moverAt s m).homeWaits && !homeBusy s m) s
      (homeGoes (setMover s m (fun y => { y with homePhysical := x.spare, homeWaits := false, spareAwake := true })))

/-- R409 step 5: every channel of a DRAINING mover is FREE: its channels switch to the spare. -/
def execMoverQuietPoint (m : Nat) (s : State) : Host.Outcome State Fault Refusal :=
  match moverSwap s m with
  | none => .next s
  | some x =>
    let quiet : Bool := (List.range 8).all (fun i => (chanAt s (8 * m + i)).state == .free)
    taken (!x.sleeping && quiet && (moverAt s m).spareAwake) s
      (let t := swapDone s 0 0 m x.spare
       let t := setMover t m (fun y =>
         { y with physical := x.spare, draining := false, spareAwake := false, gated := false })
       let t := t.onXl (fun y => { y with l1 := Tab.del y.l1 m })
       endSwapJob t x.chan .ok)

/-- R199, R409: a mover did not reach its quiet point within 100 ms. The scheduler grants it again; its home side stays
where it is. -/
def execSpareSwapTimeout (uclass unit sub : Nat) (s : State) : Host.Outcome State Fault Refusal :=
  match (if uclass = 0 ∧ sub = 0 then moverSwap s unit else none) with
  | none => .next s
  | some x =>
    let t := homeGoes (setMover s unit (fun y =>
      { y with draining := false, homeWaits := false, spareAwake := false, homePhysical := y.physical }))
    let gone := t.onBr (fun b => { b with substs := b.substs.filter (fun y => !(y.uclass == 0 && y.sub == unit)) })
    taken (!x.sleeping) s
      (match x.chan with
       | some c => endSwapJob gone (some c) .timeout
       | none =>
         if 8 ≤ x.retries + 1 then spareRecord gone 0 0 unit (physOf s 0 0 unit) 0xE
         else t.onBr (fun b => { b with substs := b.substs.map (fun y =>
           if y.uclass == 0 && y.sub == unit then { y with sleeping := true, retries := y.retries + 1 } else y) }))

/-- R18, R409: 10 s after a cancelled substitution, the keeper tries again; its timer demands the control clock. -/
def execSpareRetryTimer (m : Nat) (s : State) : Host.Outcome State Fault Refusal :=
  match moverSwap s m with
  | none => .next s
  | some x =>
    taken x.sleeping s
      (inControl s
        (let t := setMover s m (fun y => { y with draining := true, homeWaits := true, spareAwake := false })
         t.onBr (fun b => { b with substs := b.substs.map (fun y =>
           if y.uclass == 0 && y.sub == m then { y with sleeping := false } else y) })))

/-! ## Wear -/

def Wear.empty (cls group unit : Nat) : Wear :=
  { uclass := cls, group := group, unit := unit, corr := 0, unc := 0, corrHours := [0], uncHours := [0], recent := [] }

def wearAt (s : State) (cls group unit : Nat) : Wear :=
  (s.br.wear.find? (fun w => w.uclass == cls && w.group == group && w.unit == unit)).getD (Wear.empty cls group unit)

/-- One more in the newest bucket. -/
def bump : List Nat → List Nat
  | [] => [1]
  | h :: r => satInc 32 h :: r

/-- R412: an error of a physical unit is counted. -/
def countWear (s : State) (cls group unit : Nat) (corrected : Bool) : State :=
  let w := wearAt s cls group unit
  let r := (w.recent ++ [s.clk.coldTicks]).filter (fun x => decide (s.clk.coldTicks < x + 25000000))
  let n := if corrected then { w with corr := satInc 32 w.corr, corrHours := bump w.corrHours, recent := r }
    else { w with unc := satInc 32 w.unc, uncHours := bump w.uncHours }
  s.onBr (fun b =>
    { b with wear := b.wear.filter (fun x => !(x.uclass == cls && x.group == group && x.unit == unit)) ++ [n] })

/-- R413: whether the counts of the last 24 h have reached the thresholds of a class. -/
def worn (cls : Nat) (w : Wear) : Bool :=
  let c := w.corrHours.foldl (· + ·) 0
  let u := w.uncHours.foldl (· + ·) 0
  match cls with
  | 0 => decide (64 ≤ c) || decide (1 ≤ u)
  | 1 => decide (8 ≤ c) || decide (2 ≤ u)
  | 2 => decide (4 ≤ c) || decide (1 ≤ u)
  | 3 => decide (4 ≤ c) || decide (1 ≤ u)
  | 4 => decide (256 ≤ c) || decide (16 ≤ w.recent.length) || decide (1 ≤ u)
  | _ => false

/-- R412, R413: an error of the physical unit that serves a logical one; the keeper asks for a substitution at the
threshold. -/
def wearError (s : State) (cls group unit : Nat) (corrected : Bool) : State :=
  let p := physOf s cls group unit
  let t := countWear s cls group p corrected
  if worn cls (wearAt t cls group p) then keeperSwap t cls group unit else t

/-- R414, R416, R417: the log record of an error of each severity; `told` says whether a requester ends with HW_ERROR for one that
is not corrected. -/
def errorRecord (s : State) (k : ErrKind) (told : Bool) (hive ugroup unit sub : Nat) : State :=
  logErr s
    { cls := if k = .corrected then 1 else 2, status := if k ≠ .corrected ∧ told then Status.hwError.code else 0, hive := hive,
      ugroup := ugroup, unit := unit, sub := sub,
      cause := match k with | .corrected => 1 | .uncorrectable => 2 | .parity => 3 }

/-! ## Owners of an uncorrectable error -/

/-- R132, R409: the commands of a mover end with HW_ERROR. -/
def abortMover (s : State) (m : Nat) : State :=
  (chansWhere s (fun _ => true)).foldl (fun t c => if c / 8 = m then abortChan t c .hwError false else t) s

/-- R314: a slice, by its key, is treated as OPEN, and uncertain. One that is being opened is OPEN with that: its requests go
on, and a mark fresh that waits is made. -/
def uncertainSlice (s : State) (k : Nat) : State :=
  let o := (Tab.look s.pr.slices k).getD Slice.fresh
  if o.state = .opening then
    let t := openingDone s k
    let n := (Tab.look t.pr.slices k).getD Slice.fresh
    if n.state = .opened then putSlice t k { n with uncertain := true, stale := true } else t
  else putSlice s k { o with state := .opened, uncertain := true, stale := o.stale || o.state != .opened }

/-- R314: the 64 slices of a bitmap word are treated as OPEN, and uncertain. -/
def uncertainWord (s : State) (port cell : Nat) : State :=
  let t := (List.range 64).foldl (fun t i => uncertainSlice t ((cell / 64 * 64 + i) * 64 + port)) s
  logErr t { cls := 2, ugroup := 7, unit := port, cause := 0x11 }

/-- R295, R418: a flow whose row is lost is reset; it reopens with the next epoch. -/
def loseFlow (s : State) (peer : Nat) : State :=
  if (flowAt s peer).isSome then
    let e := nextEpoch s
    sendOpen (resetFlow (s.onSw (fun w => { w with epoch := e })) peer e false) peer false
  else s

/-- R418: storage of a hive's contexts or queues. -/
def loseStorage (s : State) (inst : Nat) (hive : Option Nat) : State :=
  match hive with
  | some h => if h = 0 then fatal s 0 4 inst 2 else hwHiveReset s h 3 (s.br.logNext + 2 ^ 16 - 1)
  | none => fatal s 255 4 inst 2

/-- R418: an uncorrectable row of an SRAM instance is told to its owner. A row of 64 bytes holds eight bitmap words, two
fences, one flow, or eight route entries. -/
def loseRow (s : State) (inst row : Nat) : State :=
  if inst ≤ 0x3F then abortMover s inst
  else if 0x100 ≤ inst ∧ inst ≤ 0x13F then
    (List.range 8).foldl (fun t i => uncertainWord t (inst - 0x100) ((row * 8 + i) * 64)) s
  else if inst = 0x202 then
    [2 * row, 2 * row + 1].foldl (fun t i =>
      match s.qm.fences[i]? with
      | some f => poisonCached t f.1 Status.hwError.code
      | none => t) s
  else if inst = 0x206 then
    (match s.sw.flows[row]? with
     | some f => loseFlow s f.1
     | none => s)
  else if inst = 0x207 then loadRoutes s ((List.range 8).map (fun i => 8 * row + i))
  else if inst = 0x200 ∨ inst = 0x201 then loseStorage s inst none
  else fatal s 255 4 inst 2

/-! ## Rows -/

/-- R410: a key row that no spare repairs: requests that name its slot find it EMPTY. -/
def loseKeyRow (s : State) (slot : Nat) : State :=
  if (slotAt s slot).retired then setSlot s slot (fun k => { k with loaded := false }) else s

/-- R411: a spare mover fails while it wakes: it is marked bad and the next one is taken. -/
def spareFails (s : State) (p : Nat) : State :=
  match s.br.substs.find? (fun x => x.uclass == 0 && x.spare == p && !x.sleeping) with
  | none => s
  | some x =>
    let t := s.onBr (fun b => { b with bad := b.bad ++ [(0, 0, p)] })
    match spareOf t 0 0 with
    | some n => t.onBr (fun b => { b with substs := b.substs.map (fun y =>
        if y.uclass == 0 && y.sub == x.sub then { y with spare := n } else y) })
    | none =>
      endSwapJob (retireUnit (t.onBr (fun b => { b with substs := b.substs.filter (fun y => !(y.uclass == 0 && y.sub == x.sub)) }))
        0 0 x.sub) x.chan .resource

/-- R414, R418: an uncorrectable error of this SRAM instance, not attributed to one hive, is block-wide: it makes the record of
class FATAL that its reset makes, and no other. -/
def blockWide (inst : Nat) : Bool :=
  !(decide (inst ≤ 0x3F) || (decide (0x100 ≤ inst) && decide (inst ≤ 0x13F)) || inst == 0x202 || inst == 0x206 || inst == 0x207)

/-- R412, R413, R414: an error of an SRAM row: its record, its count, and for a mover's or a propolis unit's array that unit's
count. -/
def rowError (s : State) (k : ErrKind) (hive inst row : Nat) : State :=
  let ok : Bool := k == .corrected
  let t := if !ok && blockWide inst && hive == 255 then s
    else errorRecord s k (decide (inst ≤ 0x3F) || inst == 0x202) hive 4 inst row
  let t := wearError t 3 inst row ok
  if inst ≤ 0x3F then wearError t 0 0 inst ok
  else if 0x100 ≤ inst ∧ inst ≤ 0x13F then countWear t 5 0 (inst - 0x100) ok
  else t

/-- R412, R413, R418: an error that a unit reports. -/
def reportError (s : State) (u : ErrUnit) (k : ErrKind) : State :=
  let ok : Bool := k == .corrected
  match u with
  | .mover m =>
    if 64 ≤ m then (let t := countWear (errorRecord s k false 255 1 m 0) 0 0 m ok; if ok then t else spareFails t m)
    else
      let t := wearError (errorRecord s k true 255 1 m 0) 0 0 m ok
      if ok then t else abortMover t m
  | .way b set w =>
    let g := set * 8 + b
    let t := errorRecord s k false 255 2 b (w * 256 + set)
    wearError (if ok then t else onWay t g w false) 1 g w ok
  | .keyRow slot =>
    let t := wearError (errorRecord s k (slotAt s slot).retired 255 3 slot 0) 2 0 slot ok
    if ok then t else loseKeyRow t slot
  | .sram inst row =>
    let t := rowError s k 255 inst row
    if ok then t else loseRow t inst row
  | .lane l n => wearError (errorRecord s k false 255 5 l n) 4 l n ok
  | .bitmapWord port cell =>
    if ok then countWear (errorRecord s k false 255 7 port 0) 5 0 port true
    else uncertainWord (countWear s 5 0 port false) port cell
  | .fenceCacheLine f =>
    let t := rowError s k 255 0x202 ((s.qm.fences.map (·.1)).idxOf f / 2)
    if ok then t else poisonCached t f Status.hwError.code
  | .ctxOrQueueStorage queue row h =>
    let inst := if queue then 0x201 else 0x200
    let t := rowError s k (match h with | some n => if n = 0 then 255 else n | none => 255) inst row
    if ok then t else loseStorage t inst h
  | .routeCopy chip =>
    let t := rowError s k 255 0x207 (chip / 8)
    if ok then t else loadRoutes t [chip]
  | .flowRow peer =>
    let t := rowError s k 255 0x206 ((s.sw.flows.map (·.1)).idxOf peer)
    if ok then t else loseFlow t peer
  | .blockStorage inst row =>
    let t := rowError s k 255 inst row
    if ok then t else fatal t 255 4 inst 2
  | .firstLevel m e =>
    let t := if ok then s else s.onXl (fun x => { x with l1 := Tab.mod x.l1 m (fun l => l.eraseIdx e) })
    wearError (errorRecord t k false 255 1 m e) 0 0 m ok
  | .directory e =>
    let t := if ok then s else s.onXl (fun x => { x with dir := x.dir.eraseIdx e })
    countWear (errorRecord t k false 255 0 0 e) 6 0 0 ok
  | .atsEntry e =>
    let t := if ok then s else s.onXl (fun x => { x with ats := x.ats.eraseIdx e })
    countWear (errorRecord t k false 255 0 1 e) 6 0 1 ok
  | .spadLine n o =>
    let t := countWear (errorRecord s k false 255 6 n 0) 6 6 n ok
    if ok then t
    else
      let c : LineCond := if k = .parity then .poisoned else .uncorrectable
      t.onMv (fun m => { m with spadConds := Tab.put m.spadConds (n * 2 ^ 17 + o / 128) c })
  | .keyPath => if ok then s else s.onVault (fun v => { v with wrapBad := true })
  | .keeper =>
    let t := countWear (errorRecord s k false 255 9 0 0) 6 9 0 ok
    if ok then t else t.onKp (fun p => { p with watchdogStarved := true })

/-- R412, R413, R418: ERROR_REPORT. -/
def execErrorReport (u : ErrUnit) (k : ErrKind) (s : State) : Host.Outcome State Fault Refusal := .next (progress (reportError s u k))

/-- R419: the unit whose entry a scrub reads. -/
def scrubUnit (a : SramArray) (entry : Nat) : ErrUnit :=
  match a with
  | .instance_ i => .sram i entry
  | .level2 b st => .way b st entry
  | .ats => .atsEntry entry

/-- R419: whether the scrub reads an array now: rows of a gated unit wait until it wakes. -/
def scrubReads (s : State) : SramArray → Bool
  | .instance_ i => sramInstance i && !(decide (i ≤ 0x3F) && (moverAt s i).gated) && !s.pr.gated.any (fun p => i == 0x100 + p)
  | _ => true

/-- R419: the scrub of an SRAM row or a cache entry: a corrected one is rewritten, an uncorrectable one reported. -/
def execSramScrub (a : SramArray) (entry : Nat) (corr uncorr : Bool) (s : State) : Host.Outcome State Fault Refusal :=
  taken (scrubReads s a) s
    (if uncorr then progress (reportError s (scrubUnit a entry) .uncorrectable)
     else if corr then progress (reportError s (scrubUnit a entry) .corrected)
     else s)

/-- R412: an hour passes: a new bucket, the oldest of 24 goes. -/
def execWearBucketRoll (s : State) : Host.Outcome State Fault Refusal :=
  .next (s.onBr (fun b =>
    { b with wear := b.wear.map (fun w =>
        { w with corrHours := (0 :: w.corrHours).take 24, uncHours := (0 :: w.uncHours).take 24 }) }))

/-- R412: the counts are written to the keeper state every 10 min. -/
def execWearCountSave (s : State) : Host.Outcome State Fault Refusal :=
  .next (emit (s.onBr (fun b => { b with savedWear := b.wear })) (.flashWrite 0xC0000 0x10000))

/-- R415: records of classes 2, 3, 5 and 6 are copied to the flash log, a ring of 2,048. -/
def execLogPersist (s : State) : Host.Outcome State Fault Refusal :=
  let new := s.br.log.filter (fun r => s.br.unsaved.contains r.index)
  let all := s.br.flashLog ++ new
  .next (emit (s.onBr (fun b =>
    { b with flashLog := all.drop (all.length - Config.flashLogRecords), unsaved := [] })) (.flashWrite 0xA0000 0x20000))

end Sys2Proof.Machine
end

