-- ==== Sys2Proof/Machine/Ports.lean ====
section
/-! DEFINITION. The stream ports (R444 to R450) and the line requests that the propolis units serve through them: the
slice states (R312, R313), the conditions of a line (R315), the line locks (R316), the tweak cache (R309), the memory
scrub (R419), and the stream request timeout. -/

namespace Sys2Proof.Machine

/-! ## Line requests -/


/-- The row of a line request: nothing is attached at or above S × C (R209); it waits for the stream clock (R18). -/
def request (s : State) (h : HomeReq) : Host.Outcome State Fault Refusal :=
  if memBytes s ≤ h.req.addr then .fault (.noMemory h.req.addr) else .next (inStream s (arrive s h))

/-- R312, R315: a line read reaches its propolis unit. -/
def execPropolisRead (r : LineReq) (s : State) : Host.Outcome State Fault Refusal :=
  request s { req := { r with addr := lineOf r.addr }, kind := none, second := none, raw := [] }

/-- R133, R312, R315: a write-kind request reaches its propolis unit. -/
def execPropolisWrite (r : LineReq) (k : WriteKind) (s : State) : Host.Outcome State Fault Refusal :=
  request s { req := { r with addr := lineOf r.addr }, kind := some k, second := none, raw := [] }

/-- R312, R313: the fill of a slice is done. -/
def execSliceOpeningDone (cell port : Nat) (s : State) : Host.Outcome State Fault Refusal :=
  let k := cell * 64 + port
  let sl := (Tab.look s.pr.slices k).getD Slice.fresh
  taken (sl.state == .opening && sl.filling && decide (port < 64)) s (onward (openingDone s k))

/-! ## Responses -/

/-- A request goes in front of what waits at a line. -/
def waitFirst (s : State) (h : HomeReq) : State :=
  let a := h.req.addr
  if s.pr.locks.any (fun e => e.addr == a) then
    s.onPr (fun p => { p with locks := p.locks.map (fun e => if e.addr == a then { e with waiting := h :: e.waiting } else e) })
  else addLock s a false [h]

/-- R315, R450: a line to be poisoned goes back as it was read, with its POISON tag, before the request is answered; the write
waits for other reads of the line that are out. -/
def poisonThen (s : State) (h : HomeReq) (raw : List Byte) (st : Status) : State :=
  let g : HomeReq := { h with second := some st, raw := sized 128 raw }
  if onLine s h.req.addr = [] then sendOut s g else waitFirst s g

/-- R412, R447: a line that the target's ECC corrected. -/
def corrected (s : State) (p : Nat) : State :=
  countWear (logErr s { cls := 1, ugroup := 10, unit := p, cause := 1 }) 5 0 p true

/-- R310, R311: what a line's data and metadata say of it: good, with its plaintext; poisoned; or failing its tag. -/
def classify (s : State) (keySel a rsMeta : Nat) (data : List Byte) : LineCond × List Byte :=
  let k := slotAt s keySel
  let c := sized 128 data
  if rsMeta = lineTag k.material k.hashKey a false c then (.good, decryptLine k.material a c)
  else if rsMeta = lineTag k.material k.hashKey a true c then (.poisoned, [])
  else (.tagFail, [])

/-- R315: a line in an OPEN slice turns out to have a content and a condition. A slice marked fresh meanwhile keeps neither. -/
def observe (s : State) (a : Nat) (c : LineCond) (plain : List Byte) : State :=
  if (sliceAt s a).state ≠ .opened then s
  else if c = .good then (setCond s a .good).onPr (fun p => { p with mem := cellWriteN 0 p.mem a (sized 128 plain) })
  else setCond s a c

/-- R315, R419: the data of a read has come back. A scrub rewrites a good line that was corrected, and raises the alarm of R317
for a controller's error too. -/
def readBack (s : State) (p : Nat) (h : HomeReq) (corr err poison : Bool) (rsMeta : Nat) (data : List Byte) : State :=
  let a := h.req.addr
  if err ∨ poison then
    let l : LogIn := { cls := 2, status := Status.hwError.code, hive := h.req.hive, ugroup := 10, unit := p, cause := 5,
                       paddr := paOf (chipId s) a }
    let t := countWear (logErr (observe s a .uncorrectable []) l) 5 0 p false
    let u := if h.req.origin = .scrubber then securityAlarm t h.req.hive h.req.keySel a (st := .hwError) else t
    poisonThen u h data .hwError
  else
    let x := classify s h.req.keySel a rsMeta data
    let t := observe s a x.1 x.2
    match x.1 with
    | .poisoned => settle t h .poison []
    | .good =>
      if h.kind.isSome then sendOut t { h with second := some .ok }
      else if h.req.origin = .scrubber ∧ corr then sendOut t { h with kind := some (.whole x.2), second := some .ok }
      else settle t h .ok (sized 128 x.2)
    | _ =>
      if (sliceAt s a).uncertain then
        poisonThen (logErr t { cls := 2, status := Status.hwError.code, hive := h.req.hive, ugroup := 10, unit := p, cause := 5,
                               paddr := paOf (chipId s) a }) h data .hwError
      else poisonThen (securityAlarm t h.req.hive h.req.keySel a) h data .tagFail

/-- R315: what a write that has landed leaves. -/
def landed (s : State) (r : PortReq) : State :=
  let a := r.home.req.addr
  if (sliceAt s a).state ≠ .opened then s
  else match r.home.second with
    | some .ok | none => if r.home.req.origin = .scrubber then observe s a .good r.line else storeLine s a r.line
    | some _ => setCond s a .poisoned

/-- R315, R447: a write is acknowledged. Whether one acknowledged with an error has landed is open (log 29); the controller
has then not accepted the write of a poisoned line. -/
def writeBackDone (s : State) (r : PortReq) (err : Bool) : State :=
  let isAtom : Bool := match r.home.kind with | some (.atomic _ _ _ _ _ _) => true | _ => false
  match r.home.second with
  | some .ok | none =>
    if err then
      let d := drawNat s
      settle (if d.1 % 2 = 0 then d.2 else landed d.2 r) r.home .hwError []
    else settle (landed s r) r.home .ok (if isAtom then leBytes 8 r.old else [])
  | some st => settle (if err then s else landed s r) r.home st []

/-- The unit group and the unit of a stream port (R417). -/
def refusePort (s : State) (p : Nat) : State :=
  refuseInput s true (if p < 64 then 10 else 6) (if p < 64 then p else p - 64)

/-- R420, R447, R449: a response arrives on a stream port; one whose tag is not outstanding in its space, or a read's that does
not carry one line, is refused: its request then ends with its timeout. -/
def execStreamResponse (p : Nat) (write : Bool) (tag : Nat) (corr err poison : Bool) (m : RsData)
    (s : State) : Host.Outcome State Fault Refusal :=
  let x := portAt s p
  match (if write then x.writes else x.reads).find? (fun r => r.tag == tag) with
  | none => taken (decide (p < 96)) s (refusePort s p)
  | some r =>
    if !write && m.data.length != 128 then .next (refusePort s p) else
    let t := setPort s p (fun y =>
      if write then { y with writes := y.writes.filter (fun q => q.tag != tag) }
      else { y with reads := y.reads.filter (fun q => q.tag != tag) })
    let t := if corr then corrected t p else t
    .next (onward (if write then writeBackDone t r err else readBack t p r.home corr err poison m.rsMeta m.data))

/-! ## Readiness and credits -/

/-- R444: the 96 stream ports, memory-side and core-side, are reset. -/
def resetPorts (s : State) : State :=
  { s with
    ports := Tab.mapv s.ports (fun _ _ => Port.reset)
    sent := s.sent ++ (List.range (Config.memPorts + Config.corePorts)).map .portReset }

/-- R353 step 4, R443: a domain reports ready; links that waited for the fast clocks train (R15). -/
def clockReady (s : State) (d : Dom) : State :=
  let t := setClock s d (fun c => { c with ready := true, second := false })
  let t := t.onClk (fun c => match d with
    | .control => { c with hxDown := false }
    | .stream => { c with portsDue := false })
  onward (if t.clk.control.ready && t.clk.stream.ready then (List.range Config.links).foldl train t else t)

/-- R448: every connected memory-side port has its first credits, or is left out. -/
def portsReady (s : State) : Bool :=
  (List.range (fld s.kp.settings.integ 16 8)).all (fun p => (portAt s p).initial || (portAt s p).leftOut)

/-- R353, R448: the stream domain reports ready once its ports are. -/
def portsUp (s : State) : State := if s.clk.portsDue && portsReady s then clockReady s .stream else s

/-- R448: credits come back on a stream port; what goes beyond 255 is refused. -/
def execCreditReturn (p req wd : Nat) (s : State) : Host.Outcome State Fault Refusal :=
  let x := portAt s p
  let t := setPort s p (fun y =>
    { y with creditReq := Nat.min 255 (y.creditReq + req), creditWd := Nat.min 255 (y.creditWd + wd),
             initial := y.initial || (decide (8 ≤ y.creditReq + req) && decide (8 ≤ y.creditWd + wd)) })
  let t := if 255 < x.creditReq + req ∨ 255 < x.creditWd + wd then refusePort t p else t
  taken (decide (p < 96) && decide (req ≤ 15) && decide (wd ≤ 15)) s
    (onward (wakeLines (drainPort (portsUp t) p (x.arb.length + 1))))

/-- A request leaves its unit with a status; a ticket's row finds out when it comes again. -/
def endWaiting (s : State) (h : HomeReq) (st : Status) : State := if h.ticket then s else answerReq s h st []

/-- R448: 1 µs without credits: a connected port is left out, and its requests end with TIMEOUT. -/
def execInitialCreditTimeout (p : Nat) (s : State) : Host.Outcome State Fault Refusal :=
  let x := portAt s p
  let t := setPort s p (fun y => { y with leftOut := true, arb := [], aged := [] })
  let t := x.arb.foldl (fun t h => releaseLine (endWaiting t h .timeout) h.req.addr) t
  taken (decide (p < fld s.kp.settings.integ 16 8) && !x.initial && !x.leftOut && x.creditReq == 0 && x.creditWd == 0)
    s (onward (wakeLines (portsUp (logErr t { cls := 4, ugroup := 10, unit := p, cause := 6 }))))

/-- R326: a request passed over for 1,024 cycles is served next: element `k` of those that wait at a port, or of the frames
that wait at a link's sender. Nothing waits at the host port's outbound queue of the model (log 28). -/
def execArbiterAgeExpiry (p : SharedPoint) (k : Nat) (s : State) : Host.Outcome State Fault Refusal :=
  match p with
  | .port p =>
    let x := portAt s p
    (match x.arb[k]? with
     | none => .next s
     | some h =>
       taken (!x.aged.contains h) s
         (drainPort (setPort s p (fun y => { y with aged := y.aged ++ [h] })) p (x.arb.length + 1)))
  | .linkSender l =>
    (match (s.sw.fwd.zipIdx.filter (fun e => e.1.out == l))[k]? with
     | none => .next s
     | some e =>
       taken (hasCredit s l e.1.frame) s
         (settleLinks (sendFwd (s.onSw (fun w => { w with fwd := w.fwd.eraseIdx e.2 })) e.1)))
  | .hostOut => .next s

/-! ## Timeouts -/

/-- R132, R449: a port's request is not answered in time: its tag is quarantined until the port's next reset. Whether a
write has landed is open. -/
def portTimeout (s : State) (p : Nat) (write : Bool) (r : PortReq) : State :=
  let t := setPort s p (fun y =>
    if write then { y with writes := y.writes.filter (fun q => q.tag != r.tag), quarWrites := y.quarWrites ++ [r.tag] }
    else { y with reads := y.reads.filter (fun q => q.tag != r.tag), quarReads := y.quarReads ++ [r.tag] })
  let d := drawNat t
  settle (if write && d.1 % 2 == 1 then landed d.2 r else d.2) r.home .timeout []

/-- R132: a line of a channel's own instruction has been unanswered for 16 µs: the instruction ends with TIMEOUT. -/
def lineTimeout (s : State) (c : Nat) : State :=
  let ch := chanAt s c
  match ch.hold with
  | .line _ =>
    setChan (dropTickets s (.channel c)) c (fun x => { x with hold := .none, lineStatus := some (x.lineStatus.getD .timeout) })
  | _ => s

/-- R132: a line of one of the block's own rows that waits at its unit has been unanswered for 16 µs. A write of the block's own
tables is lost; so is a completion record (R466). -/
def ticketTimeout (s : State) (o : Origin) (a : Nat) : State :=
  match o with
  | .channel c => lineTimeout s c
  | .hostPort _ => hostTimeout s
  | .swarm src seq => frameTimeout s src seq
  | .record q idx =>
    (match s.qm.records.find? (fun r => r.q == q && r.idx == idx) with
     | some r => recordDone (lostRecord (dropTickets s o) (queueAt s q).ctx (paOf (chipId s) a) .timeout false) r
     | none => dropTickets s o)
  | _ => dropWhere s (fun h => h.isTicket o a)

/-- R132, R313: a request that waits at its unit has been unanswered for 16 µs. -/
def waitingTimeout (s : State) (o : Origin) (a : Nat) : State :=
  let mine (h : HomeReq) : Bool := h.req.origin == o && h.req.addr == a && !h.ticket
  let p := homePort s a
  if (atUnits s).any (fun h => h.isTicket o a) then ticketTimeout s o a else
  match s.pr.waiting.find? (fun w => mine w.2), s.pr.lockWait.find? mine,
      (s.pr.locks.flatMap (fun e => e.waiting)).find? mine, (portAt s p).arb.find? mine with
  | some w, _, _, _ => answerReq (s.onPr (fun x => { x with waiting := x.waiting.erase w })) w.2 .timeout []
  | none, some h, _, _ => answerReq (s.onPr (fun x => { x with lockWait := x.lockWait.erase h })) h .timeout []
  | none, none, some h, _ =>
    answerReq (s.onPr (fun x => { x with locks := x.locks.map (fun e => { e with waiting := e.waiting.erase h }) })) h .timeout []
  | none, none, none, some h =>
    settle (setPort s p (fun y => { y with arb := y.arb.erase h, aged := y.aged.erase h })) h .timeout []
  | none, none, none, none => s

/-- R132: a read of host memory has been unanswered for 16 µs. -/
def hostReadTimeout (s : State) (r : HostRead) : State :=
  let t := settleInvs (hostOn (s.onHp (fun h => { h with reads := h.reads.filter (fun x => x.id != r.id) })))
  match r.who with
  | .chan c => setChan (wake t c) c (fun x => { x with lineStatus := some (x.lineStatus.getD .timeout) })
  | .pre q idx => discard t q idx .timeout 0
  | .record _ _ => t

/-- R225, R245: a table read of the walk of a slot's page has ended with TIMEOUT: the READ_ERROR record, and the command's
end. -/
def slotWalkTimeout (s : State) (q idx : Nat) : State :=
  let x := queueAt s q
  discard (permFault s .readError .timeout 0 .read x.ctx (slotVa x idx) (.pre q idx)) q idx .timeout 0

/-- R132, R225, R253, R301, R449: a request unanswered for 16 µs. -/
def execStreamRequestTimeout (x : TimedOut) (s : State) : Host.Outcome State Fault Refusal :=
  match x with
  | .portTag p write tag =>
    let y := portAt s p
    (match (if write then y.writes else y.reads).find? (fun r => r.tag == tag) with
     | none => .next s
     | some r => .next (onward (portTimeout s p write r)))
  | .remote id =>
    (match s.sw.txns.find? (fun t => t.id == id && t.kind != .wait) with
     | none => .next s
     | some t => .next (endTxn s t .timeout))
  | .hostFlush id =>
    (match s.hp.flushes.find? (fun f => f.1 == id) with
     | none => .next s
     | some f =>
       .next (setChan (wake (s.onHp (fun h => { h with flushes := h.flushes.filter (fun y => y.1 != id) })) f.2) f.2
         (fun c => { c with lineStatus := some (c.lineStatus.getD .timeout) })))
  | .tableRead w =>
    (match s.xl.walks.find? (fun k => k.id == w) with
     | none => .next s
     | some k =>
       .next (progress (faultAll (s.onXl (fun y => { y with walks := y.walks.filter (fun j => j.id != w) })) .readError .timeout 0
         k.ctx k.wants)))
  | .preRead q idx => .next (progress (preReadTimeout s q idx))
  | .bindRead c => .next (progress (bindReadTimeout s c))
  | .line c => .next (lineTimeout s c)
  | .waiting o a => .next (onward (waitingTimeout s o a))
  | .slotRead q idx =>
    (match cmdAt s q idx with
     | none => .next s
     | some k => taken (k.stage == .reading) s (progress (discard s q idx .timeout 0)))
  | .slotWalk q idx =>
    (match cmdAt s q idx with
     | none => .next s
     | some k => taken (k.stage == .reading && k.words == []) s (progress (slotWalkTimeout s q idx)))
  | .hostRead id =>
    (match s.hp.reads.find? (fun r => r.id == id) with
     | none => .next s
     | some r => .next (progress (hostReadTimeout s r)))

/-! ## Scrubbing -/

/-- R419: the scrub read of a line that is out at its port. -/
def scrubRead (s : State) (a : Nat) : Option PortReq :=
  (portAt s (homePort s a)).reads.find? (fun r => r.home.req.origin == .scrubber && r.home.req.addr == a)

/-- R419: MEMORY_SCRUB: the scrub read of a line of an OPEN slice, under the key of the comb that holds it, at SCAVENGE and
uncharged (R319); it demands the stream clock (R18). FRESH slices are skipped. Its response comes in the row where the port
answers within it (`m`), else as every other's. -/
def execMemoryScrub (addr : Nat) (corr err poison : Bool) (m : Option RsData) (s : State) : Host.Outcome State Fault Refusal :=
  let a := lineOf addr
  if memBytes s ≤ a then .fault (.noMemory a)
  else if !s.clk.stream.ready then .next (demand s .stream)
  else
    match (s.he.hives.findSome? (fun h => (combFor s h.1 a).map (·.keySel))) with
    | none => .next s
    | some k =>
      if (sliceAt s a).state == .opened && (slotAt s k).loaded then
        let t := arrive s { req := { origin := .scrubber, hive := alarmHive Config.noHive k, keySel := k, label := Config.noLabel,
                                     level := 3, addr := a }
                            kind := none, second := none, raw := [] }
        match m, scrubRead t a with
        | some d, some r => execStreamResponse (homePort s a) false r.tag corr err poison d t
        | _, _ => .next t
      else .next s

end Sys2Proof.Machine
end

