-- ==== Sys2Proof/Machine/Boot.lean ====
section
/-! DEFINITION. The lifecycle as fuses give it (R358, R359, R363), flash images and the settings body (R385 to R391), the
capability block (R26, R27), the block warm reset (R349), the cold reset and the boot in its stages (R350, R384, R388,
R389). -/

namespace Sys2Proof.Machine

/-! ## Lifecycle -/

/-- R359: the per-bit majority of the three copies. -/
def majority (l : List Nat) : Nat :=
  let a := nth l 0 0
  let b := nth l 1 0
  let c := nth l 2 0
  (a &&& b) ||| (a &&& c) ||| (b &&& c)

/-- R363: whether the device root reads as one. -/
def drkOk (s : State) : Bool :=
  let f := s.vault.fuses
  f.drk != 0 && f.drk != 2 ^ 384 - 1 && leNat ((digest (leBytes 48 f.drk)).take 4) == f.drkChk

/-- R358, R359: the state that the copies decode to. -/
def decodeLc (s : State) : LcState × Nat :=
  let w := majority s.vault.fuses.lc
  (if w = 0 then .blank
   else if w = Config.lcTest then (if drkOk s then .test else .locked)
   else if w = Config.lcProduction then (if drkOk s then .production else .locked)
   else if w = Config.lcEndOfLife then .endOfLife
   else .locked, w)

/-- R366: the identity key is computed where the device root may be used. -/
def withIdentity (s : State) : State :=
  if (s.vault.lc = .test ∨ s.vault.lc = .production) ∧ s.vault.identity = [] then
    s.onVault (fun v => { v with identity := (Config.p384Public (identityScalar s) ++ List.replicate 96 0).take 96 })
  else s

/-- One fuse copy reads blown. -/
def Fuses.blow (f : Fuses) : FuseBit → Fuses
  | .lc c b => { f with lc := f.lc.set c (nth f.lc c 0 ||| 2 ^ b) }
  | .drk b => { f with drk := f.drk ||| 2 ^ b }
  | .drkChk b => { f with drkChk := f.drkChk ||| 2 ^ b }
  | .owner r b => { f with owner := f.owner.set r (nth f.owner r 0 ||| 2 ^ b) }
  | .enrolled c r => { f with enrolled := f.enrolled.set c (nth f.enrolled c 0 ||| 2 ^ r) }
  | .revoked c r => { f with revoked := f.revoked.set c (nth f.revoked c 0 ||| 2 ^ r) }
  | .arbFw b => { f with arbFw := f.arbFw ||| 2 ^ b }
  | .arbSet b => { f with arbSet := f.arbSet ||| 2 ^ b }
  | .trim b => { f with trim := f.trim ||| 2 ^ b }

/-- R359: the vault decodes the lifecycle. A link stays up only in TEST and PRODUCTION (R289). Keys of the state that the
part leaves are destroyed: nothing written under the test root is read in PRODUCTION, and LOCKED has no key (R364). A word that
is no code is an input refused (R420). -/
def senseLc (s : State) : State :=
  let d := decodeLc s
  let t := if d.1 = .locked then refuseInput s false 8 0 else s
  let t := withIdentity (t.onVault (fun v => { v with lc := d.1, lcWord := d.2 }))
  let t := if (s.vault.lc = .test ∨ s.vault.lc = .production) ∧ d.1 ≠ s.vault.lc then (s.pr.slots.map (·.1)).foldl zeroSlot t else t
  if d.1 = .test ∨ d.1 = .production then t else (t.sw.links.map (·.1)).foldl linkDown t

/-- R359: the copies of a code's bits that read unblown, in the order of R360; none where the word decodes to no code. -/
def missingCopies (s : State) : List (Nat × Nat) :=
  let w := majority s.vault.fuses.lc
  let code : Bool := match (decodeLc s).1 with | .test => true | .production => true | .endOfLife => true | _ => false
  if code then
    (bitsOf w 32).flatMap (fun b => ((List.range 3).filter (fun c => !bit (nth s.vault.fuses.lc c 0) b)).map (fun c => (c, b)))
  else []

def setBlow (s : State) (b : Option Blow) : State := s.onVault (fun v => { v with blow := b })

/-- R359, R361, R457: the repair at boot begins to blow the missing copies of the code's bits. -/
def repairLc (s : State) : State :=
  let m := missingCopies s
  if m = [] then s
  else setBlow s (some { kind := .bootRepair, todo := m.map (fun x => .lc x.1 x.2), pulses := 0, vpp := false })

/-- R377: the value of an anti-rollback counter. -/
def arbValue (n : Nat) : Nat := if n = 0 then 0 else n.log2 + 1

/-- R363: whether an owner root is enrolled and not revoked. -/
def rootLive (s : State) (i : Nat) : Bool :=
  decide (i < 4) && bit (majority s.vault.fuses.enrolled) i && !bit (majority s.vault.fuses.revoked) i

/-- R363: whether a presented public key is a usable owner root. -/
def rootMatches (s : State) (i : Nat) (key : List Byte) : Bool :=
  rootLive s i && leNat (digest key) == nth s.vault.fuses.owner i 0

/-! ## Flash images (R385 to R387) -/

/-- R385: where a copy's region begins, and its size. -/
def regionOf (kind copy : Nat) : Nat × Nat :=
  if kind = 1 then (copy * 0x40000, 0x40000) else (0x80000 + copy * 0x10000, 0x10000)

def flashRead (s : State) (a n : Nat) : List Byte := cellReadN 0xFF s.kp.flash a n
def flashWrite (s : State) (a : Nat) (bs : List Byte) : State :=
  emit (s.onKp (fun k => { k with flash := cellWriteN 0xFF k.flash a bs })) (.flashWrite a bs.length)

/-- R379, R385: the sectors from `a` up read erased. -/
def flashErase (s : State) (a n : Nat) : State :=
  s.onKp (fun k => { k with flash := k.flash.filter (fun e => e.1 < a || decide (a + n ≤ e.1)) })

def header (s : State) (kind copy : Nat) : List Byte := flashRead s (regionOf kind copy).1 256
def hdr (h : List Byte) (off n : Nat) : Nat := leNat ((h.drop off).take n)
def bodyLen (h : List Byte) : Nat := hdr h 8 4
def bodyOf (s : State) (kind copy : Nat) (h : List Byte) : List Byte := flashRead s ((regionOf kind copy).1 + 256) (bodyLen h)

/-- R386, R387: the checks of a header alone: form, target, security version. -/
def headerOk (s : State) (kind copy : Nat) : Bool :=
  let h := header s kind copy
  let n := bodyLen h
  let arb := if kind = 1 then s.vault.fuses.arbFw else s.vault.fuses.arbSet
  hdr h 0 4 == Config.imgMagic && hdr h 4 1 == kind && hdr h 7 1 == 0 && hdr h 0x18 8 == 0 && leNat (h.drop 0xE0) == 0 &&
    (if kind = 1 then decide (1 ≤ n) && decide (n ≤ 196608) else n == 0x510) && decide (256 + n ≤ (regionOf kind copy).2) &&
    (hdr h 0x10 8 == 0 || hdr h 0x10 8 == s.vault.fuses.serial) && decide (hdr h 5 1 ≤ 64) && decide (arbValue arb ≤ hdr h 5 1)

/-- R387: the signer is permitted, and its key is the permitted one. -/
def signerOk (s : State) (kind copy : Nat) : Bool :=
  let h := header s kind copy
  let key := (h.drop 0x20).take 96
  let g := hdr h 6 1
  if kind = 1 then g == 0xFE && digest key == Config.vendorKeyHash 1
  else
    match s.vault.lc with
    | .blank => g == 0xFD && digest key == Config.vendorKeyHash 2
    | .test =>
      (g == 0xFD && digest key == Config.vendorKeyHash 2) ||
        (decide (g < 4) && bit (majority s.vault.fuses.enrolled) g && leNat (digest key) == nth s.vault.fuses.owner g 0)
    | .production => rootMatches s g key
    | _ => false

/-! ## The settings body (R390, R391) -/

def settingsOf (b : List Byte) : Settings :=
  let w := imgWord b
  let n := Nat.min 16 (fld (w 14) 56 8)
  let p := Nat.min 8 (fld (w 14) 48 8)
  { chipId := fld (w 0) 32 16, chipIdValid := bit (w 0) 31, pCapW := fld (w 0) 0 16, integ := w 1,
    bandGib := fld (w 2) 56 8, streamIdleUs := fld (w 2) 32 16, controlIdleUs := fld (w 2) 16 16, h0w2 := w 3, h0w3 := w 4,
    h0w4 := w 5, objBase := w 8, fenceBase := w 9, faultBase := w 10, eventBase := w 11, routeBase := w 12,
    lstatBase := w 13, lab0Count := fld (w 14) 56 8, pmbCount := fld (w 14) 48 8, q0Index := fld (w 15) 0 32,
    combs := (List.range 16).map (fun i => Comb.ofWords (w (16 + 2 * i)) (w (17 + 2 * i))),
    ctx0 := (List.range 8).map (fun i => w (48 + i)), queue0 := (List.range 8).map (fun i => w (56 + i)),
    labels := (List.range n).map (fun i => LabelSetting.ofWords (w (64 + 4 * i)) (w (65 + 4 * i)) (w (66 + 4 * i))),
    pmb := (List.range p).map (fun i =>
      let e := w (128 + i)
      { addr := fld e 57 7, page := fld e 48 8, cmd := fld e 40 8, role := fld e 36 4, fmt := fld e 32 4 }),
    endorseRoot := leNat ((b.drop 0x440).take 1), endorseKey := (b.drop 0x450).take 96,
    endorsement := (b.drop 0x4B0).take 96 }

/-- R34: the words of hive 0's descriptor image, from the settings. -/
def hive0Word (k : Settings) (i : Nat) : Nat :=
  match i with
  | 0 => Config.managerColony <<< 16
  | 2 => k.h0w2
  | 3 => k.h0w3
  | 4 => k.h0w4
  | i => if 16 ≤ i ∧ i < 48 then (match k.combs[(i - 16) / 2]? with
      | some c => nth c.words ((i - 16) % 2) 0
      | none => 0) else 0

/-- R34: hive 0 as the settings describe it. -/
def hive0Of (k : Settings) : Hive := hiveOf (hive0Word k) 0

/-- R391: the reserved fields of a body. -/
def settingsRzOk (b : List Byte) : Bool :=
  let w := imgWord b
  let lab := Nat.min 16 (fld (w 14) 56 8)
  let pmb := Nat.min 8 (fld (w 14) 48 8)
  rz (w 0) 16 15 && rz (w 1) 0 8 && rz (w 2) 48 8 && rz (w 2) 0 16 && w 6 == 0 && w 7 == 0 &&
    (List.range 6).all (fun i => rz (w (8 + i)) 41 23) && rz (w 14) 0 48 && rz (w 15) 32 32 &&
    rz (w 3) 58 6 && rz (w 3) 42 6 && rz (w 3) 10 22 && rz (w 4) 60 4 && rz (w 4) 45 3 && rz (w 4) 27 5 && rz (w 4) 12 4 &&
    (List.range 16).all (fun i => combRz (w (16 + 2 * i)) (w (17 + 2 * i))) && ctxRz (fun i => w (48 + i)) &&
    queueRz (fun i => w (56 + i)) && settingsRz w 64 lab &&
    (List.range pmb).all (fun i => rz (w (128 + i)) 56 1 && rz (w (128 + i)) 0 32) && leNat ((b.drop 0x441).take 15) == 0

/-- Whether a range of local memory lies in one private comb of hive 0 under the settings. -/
def inComb0 (x : Hive) (a n : Nat) : Bool := x.combs.any (fun c => !c.2.commons && c.2.holds a && c.2.holds (a + n - 1))

/-- Whether ranges are pairwise disjoint. -/
def disjoint : List (Nat × Nat) → Bool
  | [] => true
  | a :: r => r.all (fun b => !rangesMeet a.1 a.2 b.1 b.2) && disjoint r

/-- R391: the table areas: base, size and alignment. -/
def tableAreas (k : Settings) : List (Nat × Nat) :=
  [(k.objBase, 2 ^ 20), (k.fenceBase, 2 ^ 25), (k.faultBase, 2 ^ 17), (k.eventBase, 2 ^ 17), (k.lstatBase, 2 ^ 17),
   (k.routeBase, 2 ^ 19)]

/-- R56, R391: the ranges of hive 0's fields. -/
def hive0Ok (s : State) (x : Hive) : Bool :=
  let cs := x.combs.map (·.2)
  decide (1 ≤ x.chCeiling) && decide (x.chCeiling ≤ 512) && decide (x.chGuarantee ≤ x.chCeiling) && decide (1 ≤ x.labelCount) &&
    decide (x.labelFirst + x.labelCount ≤ 4096) && decide (x.vecFirst + x.vecCount ≤ 2048) && decide (x.ctxQuota ≤ 16384) &&
    decide (x.queueQuota ≤ 4096) && cs.all (fun c => c.keySel == 0xFF) && !cs.any (combRange s 0) && !combsMeet cs &&
    decide (x.chGuarantee ≤ channelsInService s)

/-- R67, R70, R390, R391: the checks of the context 0 and queue 0 images; each of them takes one of hive 0's quota. -/
def images0Ok (k : Settings) (x : Hive) : Bool :=
  let chip := if k.chipIdValid then k.chipId else 0
  let c := nth k.ctx0
  let q := queueOf (fun i => nth k.queue0 i 0)
  let root := fld (c 1 0) 0 57
  let ring := 2 ^ (q.ringLog2 + 6)
  let cpl := 2 ^ (q.ringLog2 + 4)
  let held (a : Nat) : Bool := x.combs.any (fun e => !e.2.commons && e.2.holds a)
  let both (a n : Nat) : Bool := held a && held (a + n - 1)
  decide (1 ≤ x.ctxQuota) && decide (1 ≤ x.queueQuota) && fld (c 0 0) 40 8 == 0 && fld (c 3 0) 48 16 == 0 &&
    root % 4096 == 0 && paChip root == chip && inComb0 x (paLocal root) 0x4000 &&
    q.ctx == 0 && !queueRange q && q.label == x.labelFirst && decide (x.vecFirst ≤ q.vector) &&
    decide (q.vector < x.vecFirst + x.vecCount) && !q.wdAbort && paChip q.ringBase == chip && paChip q.cplBase == chip &&
    both (paLocal q.ringBase) ring && both (paLocal q.cplBase) cpl &&
    disjoint (tableAreas k ++ [(paLocal root, 0x4000), (paLocal q.ringBase, ring), (paLocal q.cplBase, cpl)])

/-- R391: the checks of a settings body. -/
def settingsOk (s : State) (b : List Byte) : Bool :=
  let k := settingsOf b
  let t := s.onKp (fun x => { x with settings := k })
  let x := hive0Of k
  let inside (l : LabelSetting) : Bool := decide (x.labelFirst ≤ l.label) && decide (l.label < x.labelFirst + x.labelCount)
  fld (imgWord b 0) 48 16 == 1 && settingsRzOk b && hive0Ok t x && decide (k.bandGib * 2 ^ 30 ≤ stackBytes t) &&
    decide (10 ≤ k.streamIdleUs) && decide (10 ≤ k.controlIdleUs) && decide (k.lab0Count ≤ 16) && decide (k.pmbCount ≤ 8) &&
    (tableAreas k).all (fun a => a.1 % a.2 == 0 && inComb0 x a.1 a.2) && images0Ok k x &&
    k.labels.all (fun l => inside l && !settingRange x.labelFirst l) &&
    (distinct (k.labels.map (·.label))).length == k.labels.length &&
    k.pmb.all (fun e => decide (e.role ≤ 1) && decide (e.fmt ≤ 1)) && decide ((k.pmb.filter (fun e => e.role == 0)).length ≤ 2) &&
    decide (clustersAttached t ≤ 256) && decide (fld k.integ 24 8 ≤ 8) && fld k.integ 16 8 == 8 * fld k.integ 24 8

/-- R386, R387: what the P-384 engine finds of a copy's signature, over the header's first 128 bytes and the body. -/
def imageVerdict (s : State) (kind copy : Nat) : Bool :=
  let h := header s kind copy
  Config.ecdsaVerifies (digest ((h.drop 0x20).take 96)) (digest (h.take 0x80 ++ bodyOf s kind copy h)) ((h.drop 0x80).take 96)

/-- R387: whether the engine is asked about a copy: the checks before the signature pass. -/
def asksEngine (s : State) (kind copy : Nat) : Bool := headerOk s kind copy && signerOk s kind copy

/-- R387: the operand of a command is the verdict that the engine gives, where it is asked (log 8). -/
def engineSays (s : State) (kind copy : Nat) (verdict : Bool) : Bool :=
  !asksEngine s kind copy || verdict == imageVerdict s kind copy

/-- R387: whether a copy is valid; `sigOk` is the verdict of the P-384 engine on its signature. -/
def copyValid (s : State) (kind copy : Nat) (sigOk : Bool) : Bool :=
  headerOk s kind copy && signerOk s kind copy && sigOk &&
    (kind == 1 || settingsOk s (bodyOf s kind copy (header s kind copy)))

/-- R387: of two copies, the one with the higher `secver`, A on a tie, among those that `ok` holds of. -/
def preferred (s : State) (kind : Nat) (okA okB : Bool) : Option Nat :=
  let v (c : Nat) : Nat := hdr (header s kind c) 5 1
  if okA ∧ (!okB ∨ v 1 ≤ v 0) then some 0 else if okB then some 1 else none

/-- R387, R420: the copies of a kind that are found invalid are counted: both headers are read, then the body of the preferred
copy, and the other's where that one fails. -/
def countInvalid (s : State) (kind : Nat) (okA okB : Bool) : State :=
  let first := preferred s kind (headerOk s kind 0) (headerOk s kind 1)
  let ok (c : Nat) : Bool := if c = 0 then okA else okB
  let bad := (List.range 2).filter (fun c =>
    !ok c && (!headerOk s kind c || first == some c || !((first.map ok).getD true)))
  bad.foldl (fun t _ => refuseInput t false 9 0) s

/-! ## The capability block (R26, R27) -/

/-- R27: words 0 to 11; word 11 is zero while the block is held (R389). -/
def capabilityWords (s : State) (held_ : Bool) : List Word :=
  let slots := ((List.range 288).filter (fun k => !(slotAt s k).retired)).length
  ([0x4858000101000000 + 1 <<< 8 + 12,
    255 <<< 48 + 0x4000 <<< 32 + 0x1000 <<< 16 + 0x800,
    6 <<< 56 + 16 <<< 48 + 6 <<< 40 + 8 <<< 32 + 4 <<< 24 + 20 <<< 16 + 0x2000,
    80 <<< 56 + (moversInService s).length <<< 48 + 8 <<< 40 + 64 <<< 32 + 32 <<< 24 + 8 <<< 16 + 0x600,
    0x1000 <<< 48 + 32 <<< 40 + 0x1000 <<< 24 + 12,
    0x8000 <<< 48 + 16 <<< 40 + 1 <<< 32 + 8 <<< 24 + 32 <<< 16 + 57 <<< 8 + 57,
    0x42000000 <<< 32 + 21 <<< 24 + 7 <<< 16 + 30 <<< 8 + 16,
    0x140 <<< 48 + slots <<< 32 + 32 <<< 24 + 16 <<< 16 + 8 <<< 8 + 200,
    16 <<< 56 + 0x1000 <<< 32 + 0x8000 <<< 16,
    Config.fmtIo <<< 32 + Config.fmtAccum <<< 16 + Config.rounding <<< 8 + 128,
    0x100 <<< 32 + 0xFFFF <<< 16 + 32 <<< 8,
    if held_ then 0 else s.kp.settings.integ] : List Nat).map (BitVec.ofNat 64)

/-! ## Hive 0, context 0 and queue 0 (R34, R211, R349 step 7) -/

/-- R211: the entries of the bootstrap tree: local address and entry. -/
def bootEntries (s : State) (root : Nat) : List (Nat × Nat) :=
  let chip := chipId s
  let table (o : Nat) : Nat := 2 ^ 63 + paOf chip (root + o)
  let granules := ((hiveAt s 0).combs.filter (fun c => !c.2.commons)).flatMap (fun c =>
    (List.range c.2.count).map (fun i => c.2.base + i))
  [(root + 8 * (chip / 128), table 0x1000),
   (root + 0x1000 + 8 * (chip % 128 * 4), table 0x2000),
   (root + 0x1000 + 8 * (chip % 128 * 4 + 1), table 0x3000)] ++
    granules.map (fun g => (root + 0x2000 + g / 512 * 0x1000 + 8 * (g % 512), 2 ^ 63 + 2 ^ 61 + paOf chip (g * 2 ^ 30) + 7))

/-- R211: the tree is written by hive-0 requests under the manager key. -/
def writeBootTree (s : State) (root : Nat) : State :=
  (bootEntries s root).foldl (fun t e => (writeRecord t e.1 (leBytes 8 e.2)).1) s

/-- R321, R349: hive 0's labels, with the settings that the image gives. -/
def bindLabels0 (s : State) : State :=
  let t := (labelsOf s 0).foldl (fun t l => setLabel t l (fun _ => { Label.empty with hive := 0 })) s
  s.kp.settings.labels.foldl (fun t l => setLabel t l.label (fun x =>
    { x with guar := l.guar, ceil := l.ceil, prio := l.prio, win := l.win, missEv := l.missEv, stat := l.stat,
             irqMax := l.irqMax })) t

/-- R349 step 7: hive 0, context 0 with its tree, and queue 0 with its pins. -/
def createHive0 (s : State) : State :=
  let k := s.kp.settings
  let t := setHive s 0 (fun _ => { hive0Of k with state := .active })
  let t := bindLabels0 (deriveManagerKey t)
  let root := fld (nth k.ctx0 1 0) 0 57
  let pasid := fld (nth k.ctx0 0 0) 20 20
  let t := setCtx t 0 (fun _ => { Ctx.empty with state := .active, hive := 0, pasid := pasid, ptRoot := root })
  let t := t.onHp (fun h => { h with pasids := Tab.put h.pasids pasid 0 })
  let t := writeBootTree t (paLocal root)
  let q := queueOf (fun i => nth k.queue0 i 0)
  let t := t.onQm (fun m => { m with pins := m.pins ++ queuePins q 0 })
  setMbox (setQueue t 0 (fun _ => { q with state := .running, tail := k.q0Index, done := k.q0Index, fetch := k.q0Index }))
    (fun m => { m with vecShort := decide ((hiveAt t 0).vecCount < 2) })

/-! ## Block warm reset -/

/-- R411: a substitution of a mover completes before step 7. -/
def finishSwaps (s : State) : State :=
  s.br.substs.foldl (fun t x =>
    if x.uclass = 0 ∧ !x.sleeping then
      setMover (swapDone t 0 0 x.sub x.spare) x.sub (fun m =>
        { m with physical := x.spare, homePhysical := x.spare, draining := false, homeWaits := false, spareAwake := false })
    else t) s

/-- R26, R162, R410: from a block warm reset on, the movers that are left are numbered without a gap, and requests for a
substitution that carry over follow (log 11). -/
def renumber (s : State) : State :=
  let live := moversInService s
  if live.length = Config.moversInService then s
  else
    let phys := live.map (fun m => (moverAt s m).physical)
    let t := (List.range Config.moversInService).foldl (fun t i =>
      setMover t i (fun _ =>
        match live[i]? with
        | some m => { moverAt s m with homePhysical := (moverAt s m).physical }
        | none => { Mover.initial i with inService := false })) s
    t.onBr (fun b =>
      { b with
        map := b.map.filter (fun e => e.1 != 0) ++ phys.zipIdx.map (fun e => (0, 0, e.2, e.1))
        substs := b.substs.map (fun x => if x.uclass = 0 then { x with sub := live.idxOf x.sub } else x) })

/-- R410: the sets of the second level that have lost ways, empty. -/
def shortSets (s : State) : Tab TlbSet :=
  (s.xl.l2.filter (fun e => decide (e.2.ways.length < 16))).map (fun e =>
    (e.1, { ways := List.replicate e.2.ways.length none, plru := 0 }))

/-- R349 steps 1 to 6: everything of the fast domains ends; what the keeper domain holds stays, and under R348 the Pending Bit
Array with the messages behind it (log 22). -/
def clearBlock (s : State) (keepPcie : Bool) : State :=
  let s := refuseQueue s
  let pasids := distinct ((s.xl.pri.filter (fun p => p.group.isSome)).map (·.pasid))
  let t := resetPorts (pasids.foldl (fun t p => emit t (.stopMarker p)) s)
  let t := renumber (finishSwaps { t with qm := QueueMgr.reset, mv := { Movers.reset with movers := s.mv.movers } })
  let link (_ : Nat) (l : Link) : Link := { Link.down with holdDown := l.locked, locked := l.locked, broken := l.broken }
  let slots := s.pr.slots.filter (fun k => k.2.retired)
  let m := s.hp
  { t with
    he := HiveEngine.reset
    pr := { Propolis.reset with slots := slots.map (fun k => (k.1, { KeySlot.empty with retired := true })) }
    sw := { Swarm.reset with links := Tab.mapv s.sw.links link }
    xl := { Translation.reset with nextId := s.xl.nextId, l2 := shortSets s }
    rg := Regulator.reset
    sq := { Sequencer.reset with msgs := if keepPcie then s.sq.msgs.filter (fun x => m.pba.contains x.vector) else [] }
    hp := { HostPort.reset with
      msix := if keepPcie then m.msix else [], pba := if keepPcie then m.pba else []
      msixFunctionMask := keepPcie && m.msixFunctionMask, atsOn := keepPcie && m.atsOn, priOn := keepPcie && m.priOn
      priAlloc := if keepPcie then m.priAlloc else 0, d3hot := keepPcie && m.d3hot, nextId := m.nextId }
    vault := { s.vault with tokens := [], commonsGen := [], linkSecrets := [] }
    clk := { s.clk with ticks := 0 }
    br := { t.br with warms := satInc 32 s.br.warms, substs := t.br.substs.filter (fun x => x.sleeping) }
    kp := { s.kp with power := { s.kp.power with level := 0, overCount := 0, overRaised := false } } }

/-- R382, R396: the mailbox runs a command that blows fuses. -/
def fuseCommand (s : State) : Bool := s.kp.mbox.busy && [3, 4, 5, 6, 0xB, 0xC].contains s.kp.mbox.op

/-- R382: step 8 of a block warm reset waits for a vault command that blows fuses. -/
def vaultHolds (s : State) : Bool := s.vault.blow.isSome || fuseCommand s

/-- R372, R382: at step 1 a vault command that blows no fuses ends with ABORTED; the token that `DBG_UNLOCK` presents has
consumed the challenge. -/
def abortVaultCommand (s : State) : State :=
  let m := s.kp.mbox
  if m.busy && decide (1 ≤ m.op) && decide (m.op ≤ 0xC) && !fuseCommand s then
    mbEnd (if m.op = 8 then s.onVault (fun v => { v with challenge := none }) else s) .aborted []
  else s

/-- R291, R349, R365, R367: the DRBG is instantiated, the wrap key and the epoch counter are drawn; hive 0 is made. -/
def rebuild (s : State) : State :=
  let w := drawDrbg (s.onVault (fun v => { v with drbgOn := true, drbgRequests := 0 })) 32
  let e := drawDrbg (w.2.onVault (fun v => { v with wrapKey := w.1 })) 2
  let t := e.2.onSw (fun x => { x with epoch := leNat e.1 })
  createHive0 (t.onKp (fun k => { k with capability := capabilityWords t false }))

/-- R392, R396: a mailbox command that asked for the block warm reset that ends, ends. -/
def endAsked (s : State) : State := if s.kp.mbox.busy && s.kp.mbox.resetAsked then mbEnd s .ok [] else s

/-- R348, R349 step 8: the block is ready, without PCIe state where a cause absorbed since dropped it. -/
def finishWarm (s : State) : State :=
  let s := if (s.kp.warm.map (·.keepPcie)).getD true then s else dropPcie s
  let t := (setMbox s (fun m => { m with bootStage := stageReady, drbgFail := false })).onKp (fun k => { k with warm := none })
  endAsked (t.onVault (fun v => { v with drbgFails := 0 }))

/-- R349 step 2: every attached cluster is reset and enters CLEARING; one that is power-gated is powered for it (R452). -/
def resetClusters (old t : State) : State :=
  (List.range (clustersAttached old)).foldl (fun t n =>
    let k := clusterAt old n
    let u := setCluster t n (fun _ =>
      { Cluster.empty with state := .clearing, pwrEn := true, pwrGood := k.pwrGood, iso := !k.pwrGood, rstN := k.pwrGood,
                           spadLog2 := k.spadLog2 })
    clearPins u n) t

/-- R352: a fast clock is withdrawn. -/
def dropClock (s : State) (d : Dom) : State :=
  if (clockOf s d).req then emit (setClock s d (fun _ => .reset)) (.clockRequest d false) else s

/-- R389: the block is held at step 1 of a warm reset: no hive exists and no fast clock runs. -/
def holdBlock (s : State) : State :=
  let t := setMbox s (fun m => { m with bootStage := stageHeld })
  let t := t.onKp (fun k => { k with capability := capabilityWords t true, warm := none })
  (dropClock (dropClock t .stream) .control).onClk (fun c => { c with portsDue := false, cold := false })

/-- R389: in LOCKED and END_OF_LIFE a warm reset does not pass step 1. The command that asked for it ends (log 33). -/
def holdLocked (s : State) (keepPcie : Bool) : State := endAsked (holdBlock (clearBlock s keepPcie))

/-- R349: steps 6 and 7; step 8 at once, unless a vault command that blows fuses goes on (R382). -/
def warmRest (s : State) (keepPcie : Bool) : State :=
  let t := (rebuild s).onKp (fun k => { k with warm := some { keepPcie := keepPcie, clearing := false, stepsDone := true } })
  if vaultHolds t then t else finishWarm t

/-- R39, R349 step 6: no cluster clears any more. -/
def clustersCleared (s : State) : Bool := s.he.clusters.all (fun k => k.2.state != .clearing && k.2.state != .joining)

/-- R349: steps 1 to 5, and the others where no cluster is attached. -/
def warmSteps (s : State) (keepPcie : Bool) : State :=
  if s.vault.lc = .locked ∨ s.vault.lc = .endOfLife then holdLocked (abortVaultCommand s) keepPcie
  else
    let t := resetClusters s (clearBlock (abortVaultCommand s) keepPcie)
    let t := t.onKp (fun k => { k with warm := some { keepPcie := keepPcie, clearing := true, stepsDone := false } })
    if clustersCleared t then warmRest t keepPcie else t

/-- R349, R353: whether a block warm reset can pass its first steps: both fast clocks run, or it is held there (R389). -/
def warmReady (s : State) : Bool :=
  s.vault.lc == .locked || s.vault.lc == .endOfLife || (s.clk.control.ready && s.clk.stream.ready)

/-- R349: BLOCK_WARM_RESET: the sequence demands the fast clocks, runs, goes on once its clusters are cleared, and ends once no
vault command holds it. A block whose clock has failed twice does not leave its state (R353). -/
def execBlockWarmReset (s : State) : Host.Outcome State Fault Refusal :=
  match s.kp.warm with
  | none => .next s
  | some j =>
    if s.kp.mbox.clkFail then .next s
    else if j.stepsDone then taken (!vaultHolds s) s (finishWarm s)
    else if j.clearing then taken (clustersCleared s) s (warmRest s j.keepPcie)
    else .next (if warmReady s then warmSteps s j.keepPcie else demand s .stream)

/-! ## Cold reset and boot -/

/-- R361, R382: a cut while a fuse is pulsed leaves that copy blown or not. -/
def cutBlow (s : State) (f : Fuses → FuseBit → Fuses) : State :=
  match s.vault.blow with
  | none => s
  | some b =>
    let d := drawNat s
    match b.todo with
    | x :: _ =>
      if b.vpp ∧ d.1 % 2 = 1 then d.2.onVault (fun v => { v with fuses := f v.fuses x }) else d.2
    | [] => s

/-- R350: everything but the fuses and the flash is cleared; what the keeper state and log in flash hold stays. Every stream
port is reset (R444). -/
def coldReset (s : State) : State :=
  let t := cutBlow s Fuses.blow
  resetPorts
    { State.reset with
      pending := s.pending, free := t.free, sent := s.sent
      kp := { Keeper.reset with flash := s.kp.flash }
      vault := { Vault.reset with fuses := t.vault.fuses }
      br := { Brood.reset with
        flashLog := s.br.flashLog, savedWear := s.br.savedWear, bad := s.br.bad, boots := s.br.boots, keptNext := s.br.keptNext
        logNext := s.br.keptNext, scrapped := s.br.scrapped } }

/-- R350, R442: COLD_RESET: the reset input, or loss of supply. -/
def execColdReset (s : State) : Host.Outcome State Fault Refusal := .next (coldReset s)

/-- R402: the keeper supply leaves its tolerance: `wg_hold` is released; R350: the loss of the supply is a cold reset. -/
def execBrownOut (s : State) : Host.Outcome State Fault Refusal :=
  .next (coldReset (s.onClk (fun c => { c with wgHold := false })))

/-- R357, R385: the watchdog writes its cause into the keeper log, then a cold reset. -/
def execKeeperWatchdogExpiry (s : State) : Host.Outcome State Fault Refusal :=
  taken (!s.clk.cold || s.kp.sensed) s
    (let t := logErr s { cls := 6, ugroup := 9, cause := 0xD }
     let new := t.br.log.drop (t.br.log.length - 1)
     let all := t.br.flashLog ++ new
     let u := t.onBr (fun b => { b with flashLog := all.drop (all.length - Config.flashLogRecords) })
     coldReset (emit u (.flashWrite 0xA0000 16)))

/-- R379, R385, R415, R416: the keeper's own regions are erased: step 5 of `SCRAP` is done. -/
def eraseKeeper (s : State) : State :=
  (flashErase s 0xA0000 0x30000).onBr (fun b =>
    { b with flashLog := [], savedWear := [], bad := [], boots := 0, keptNext := 0, scrapped := true })

/-- R387, R392, R398: a settings copy is put in force, and the VOUT_MODE of its LINEAR16 devices read. -/
def applySettings (s : State) (copy : Nat) : State :=
  let h := header s 2 copy
  let k := settingsOf (bodyOf s 2 copy h)
  let modes := k.pmb.map (fun e => if e.fmt = 1 then Config.voutMode s.br.boots e.addr e.page else none)
  (setMbox s (fun m => { m with setCopy := copy == 1, setSecver := hdr h 5 1, setFail := false })).onKp (fun x =>
    { x with settings := k, haveSettings := true, power := { x.power with voutModes := modes } })

/-- R349: a block warm reset begins; the keeper does it under stage WARM_RESET (R388). -/
def beginWarm (s : State) : State :=
  (setMbox s (fun m => { m with bootStage := 3 })).onKp (fun k =>
    { k with warm := some { keepPcie := true, clearing := false, stepsDone := false } })

/-- R405: the logical unit of a group that a physical unit serves. -/
def servedBy (s : State) (cls group p : Nat) : Option Nat :=
  (List.range (logicalCount cls group)).find? (fun u => physOf s cls group u == p)

/-- R411, R413: after boot, the wear counters ask again for what a cold reset has cut. -/
def askAgain (s : State) : State :=
  s.br.wear.foldl (fun t w =>
    match servedBy t w.uclass w.group w.unit with
    | some u => if worn w.uclass w then keeperSwap t w.uclass w.group u else t
    | none => t) s

/-- R387, R388: the stage SETTINGS: the copy in force is selected, the capability block assembled and the block warm reset
begun; without a valid copy the block is held (R389). -/
def bootSettings (s : State) (sigA sigB : Bool) : State :=
  let okA := copyValid s 2 0 sigA
  let okB := copyValid s 2 1 sigB
  let s := countInvalid s 2 okA okB
  match preferred s 2 okA okB with
  | none => holdBlock (setMbox s (fun m => { m with setFail := true }))
  | some c =>
    let t := applySettings s c
    let t := (t.onKp (fun k => { k with capability := capabilityWords t false })).onClk (fun k => { k with cold := false })
    beginWarm (askAgain t)

/-- R387, R388, R403: the stage FW_LOADING: a firmware copy is selected and runs, and opens the bypass switch. Without a valid
copy the ROM serves the mailbox (log 58). -/
def bootFirmware (s : State) (sigA sigB : Bool) : State :=
  let okA := copyValid s 1 0 sigA
  let okB := copyValid s 1 1 sigB
  let first := preferred s 1 (headerOk s 1 0) (headerOk s 1 1)
  let s := countInvalid s 1 okA okB
  match preferred s 1 okA okB with
  | none => (setMbox s (fun m => { m with bootStage := stageRecovery })).onClk (fun k => { k with cold := false })
  | some c =>
    (setMbox s (fun m =>
      { m with bootStage := 2, fwCopy := c == 1, fwSecver := hdr (header s 1 c) 5 1, fwFallback := first != some c })).onClk
      (fun k => { k with wgHold := true })

/-- R387: the stages that verify an image of a kind: they wait for the control clock where the engine is asked. -/
def withEngine (s : State) (kind : Nat) (t : State) : State :=
  if asksEngine s kind 0 || asksEngine s kind 1 then inControl s t else t

/-- R384: the ROM discovers the flash: the fastest mode that its SFDP advertises, and 4-byte opcodes above 16 MiB. -/
def discoverFlash (s : State) : State :=
  let f := Config.flashSfdp
  let mode : FlashMode :=
    if leNat (f.take 4) ≠ 0x50444653 then .plain
    else if Config.flashAdvertises f 3 then .m8d8d8d
    else if Config.flashAdvertises f 2 then .m888
    else if Config.flashAdvertises f 1 then .m144
    else .m111
  emit (s.onKp (fun k => { k with flashMode := mode, flashWide := decide (2 ^ 24 < Config.flashSize) })) (.sfdpRead 0x5A 8)

/-- R359, R384, R388, R406, R415: the ROM stage: fuses and their repair, the flash, its log and its wear counts, and the spare
map. A part in END_OF_LIFE completes its erase (R379). -/
def bootRom (s : State) : State :=
  let t := repairLc (senseLc (discoverFlash (s.onKp (fun k => { k with sensed := true }))))
  let old := s.br.flashLog
  let t := t.onBr (fun b =>
    { b with
      boots := satInc 32 b.boots, bootBad := b.bad, wear := b.savedWear
      log := old.drop (old.length - Config.logRecords) })
  let t := (List.range 64).foldl (fun t m =>
    let p := physOf t 0 0 m
    setMover t m (fun x => { x with physical := p, homePhysical := p, inService := decide (m < servedUnits t 0 0) })) t
  let t := ((List.range 288).filter (fun k => decide (servedUnits t 2 0 ≤ k))).foldl (fun t k =>
    setSlot t k (fun x => { x with retired := true })) t
  if t.vault.lc = .endOfLife && !t.br.scrapped then eraseKeeper t else t

/-- R388, R389: COLD_BOOT performs the stage that the boot has reached; the operands are the verdicts of the P-384 engine on
the four signatures, of which a stage takes those of its images. A stage waits for the repair of the lifecycle fuses, and for the
control clock where the engine needs it (log 80). -/
def execColdBoot (fwA fwB setA setB : Bool) (s : State) : Host.Outcome State Fault Refusal :=
  let stage := s.kp.mbox.bootStage
  if !s.clk.cold || s.vault.blow.isSome then .next s
  else if !s.kp.sensed then .next (bootRom s)
  else if stage = 0 then .next (setMbox s (fun m => { m with bootStage := 1 }))
  else if stage = 1 then
    taken (engineSays s 1 0 fwA && engineSays s 1 1 fwB) s (withEngine s 1 (bootFirmware s fwA fwB))
  else
    taken (stage == 2 && engineSays s 2 0 setA && engineSays s 2 1 setB) s (withEngine s 2 (bootSettings s setA setB))

end Sys2Proof.Machine
end

