-- ==== Sys2Proof/Machine/Waggle.lean ====
section
/-! DEFINITION. The waggle ring (R399 to R404): frames in and out, the census, the declaration of out; and the demand
for a fast clock (R18, R353). -/

namespace Sys2Proof.Machine

/-! ## Sending -/

def onWaggle (s : State) (f : Waggle → Waggle) : State := s.onKp (fun k => { k with waggle := f k.waggle })

/-- R399: the header's word. -/
def waggleHeader (f : WFrame) : Nat :=
  f.dst <<< 48 + f.src <<< 32 + f.wtype <<< 28 + f.whops <<< 20 + f.wseq <<< 12 + f.payload.length <<< 5 + b2n f.wbcast <<< 4 +
    b2n f.wnoid <<< 3

/-- R399: the bytes of a frame: start byte, header, payload, CRC-32 (log 82). -/
def wireWaggle (f : WFrame) : List Byte :=
  let body := leBytes 8 (waggleHeader f) ++ f.payload
  0xA7 :: body ++ leBytes 4 (crc32 body)

/-- R399, R401: the frame that some bytes are; none where its length, its CRC or its RZ field is wrong. -/
def readWaggle (wire : List Byte) : Option WFrame :=
  let body := (wire.drop 1).take (wire.length - 5)
  let h := leNat (body.take 8)
  let n := fld h 5 7
  if wire.take 1 == [0xA7] && wire.length == n + 13 && decide (n ≤ 64) && crc32 body == leNat (wire.drop (n + 9)) && rz h 0 3 then
    some { dst := fld h 48 16, src := fld h 32 16, wtype := fld h 28 4, whops := fld h 20 8, wseq := fld h 12 8,
           wbcast := bit h 4, wnoid := bit h 3, payload := body.drop 8 }
  else none

/-- R401: forwarding goes ahead of the chip's own frames. -/
def flushForward (s : State) : State :=
  onWaggle (s.kp.waggle.fwd.foldl (fun t f => emit t (.waggle (wireWaggle f))) s) (fun w => { w with fwd := [] })

/-- R399, R401: a frame of the chip's own; without a valid chip ID it sends nothing but PRESENCE. -/
def sendWaggle (s : State) (wtype dst : Nat) (bcast : Bool) (payload : List Byte) : State :=
  let valid := s.kp.settings.chipIdValid
  if !valid && wtype != 0 then s
  else
    let t := flushForward s
    let f : WFrame :=
      { dst := if bcast then 0 else dst, src := chipId s, wtype := wtype, whops := 255, wseq := t.kp.waggle.wseq,
        wbcast := bcast, wnoid := !valid, payload := payload }
    onWaggle (emit t (.waggle (wireWaggle f))) (fun w => { w with wseq := (w.wseq + 1) % 256 })

/-- R403: the chip declares itself out: what it still forwards leaves, then OUT, and the switch waits for its return.
The reason byte has no codes in the spec. -/
def declareOut (s : State) : State :=
  let t := setMbox s (fun m => { m with isOut := true })
  if !s.clk.wgHold || s.kp.waggle.outDeclared then t
  else
    let d := drawBytes (flushForward t) 1
    onWaggle (sendWaggle d.2 3 0 true (d.1 ++ List.replicate 7 0)) (fun w => { w with outWait := true, outDeclared := true })

/-- R402, R403: `wg_hold` is released. -/
def releaseHold (s : State) : State := onWaggle (s.onClk (fun c => { c with wgHold := false })) (fun w => { w with outWait := false })

/-- R351: the power state, 1 KEEPER_ONLY to 3 ACTIVE. -/
def powerState (s : State) : Nat :=
  if !s.clk.control.ready then 1 else if s.clk.stream.ready then 3 else 2

/-- R400: the payload of a PRESENCE. -/
def presencePayload (s : State) : List Byte :=
  let m := s.kp.mbox
  let flags := b2n (m.bootStage == stageHeld) + 2 * b2n s.clk.osc + 4 * b2n m.setFail
  leBytes 1 s.vault.lc.report ++ leBytes 1 (powerState s) ++ leBytes 1 flags ++ leBytes 1 s.kp.power.level ++
    leBytes 2 (pfReport s) ++ leBytes 2 0 ++ leBytes 8 s.vault.fuses.serial

/-! ## Receiving -/

/-- R401: the frame is the chip's own, come back round the ring. -/
def ownWaggle (s : State) (f : WFrame) : Bool :=
  if s.kp.settings.chipIdValid then !f.wnoid && f.src == s.kp.settings.chipId
  else f.wnoid && f.wtype == 0 && leNat ((f.payload.drop 8).take 8) == s.vault.fuses.serial

def discardWaggle (s : State) : State := onWaggle s (fun w => { w with discarded := w.discarded + 1 })

/-- R400: the frame acts here. -/
def actsHere (s : State) (f : WFrame) : Bool := f.wbcast || (s.kp.settings.chipIdValid && f.dst == s.kp.settings.chipId)

/-- R401, R403: the frame goes into the forward buffer, which holds 4. -/
def forwardWaggle (s : State) (f : WFrame) : State :=
  if s.kp.waggle.outDeclared then s
  else if 4 ≤ s.kp.waggle.fwd.length then discardWaggle s
  else onWaggle s (fun w => { w with fwd := w.fwd ++ [{ f with whops := f.whops - 1 }] })

/-- R401: the checks of a frame, the strip of the chip's own, the effect (which its own step performs) and the forwarding. -/
def receiveWaggle (s : State) (wire : List Byte) : State :=
  match readWaggle wire with
  | none => discardWaggle s
  | some f =>
    if f.whops == 0 || decide (6 ≤ f.wtype) then discardWaggle s
    else if ownWaggle s f then (if s.kp.waggle.outWait && f.wtype == 3 then releaseHold s else s)
    else
      let t := if actsHere s f then onWaggle s (fun w => { w with rx := w.rx ++ [f] }) else s
      forwardWaggle t f

/-- R399, R401: WAGGLE_FRAME_RECEIVE: a frame arrives whole, as its bytes. -/
def execWaggleFrameReceive (wire : List Byte) (s : State) : Host.Outcome State Fault Refusal :=
  taken (s.clk.wgHold && !s.clk.cold) s (receiveWaggle s wire)

/-- The oldest accepted frame takes effect. -/
def onWaggleFrame (s : State) (wtype : Nat) (eff : State → WFrame → State) : Host.Outcome State Fault Refusal :=
  match s.kp.waggle.rx with
  | f :: r =>
    taken (f.wtype == wtype) s (eff (onWaggle s (fun w => { w with rx := r })) f)
  | [] => .next s

/-! ## The types of R400 -/

/-- R401: the key of a sender's census entry: its chip ID, or its serial where it has no ID. -/
def censusKey (f : WFrame) : Nat := if f.wnoid then leNat ((f.payload.drop 8).take 8) else f.src

def Census.isOf (c : Census) (f : WFrame) : Bool := c.byserial == f.wnoid && c.key == censusKey f

/-- R401: an entry is refreshed, or made while the census holds fewer than 256. -/
def refreshCensus (w : Waggle) (f : WFrame) : Waggle :=
  if w.census.any (·.isOf f) then
    { w with census := w.census.map (fun c => if c.isOf f then { c with presence := f.payload, out := false } else c) }
  else if w.census.length < 256 then
    let c : Census := { byserial := f.wnoid, key := censusKey f, out := false, presence := f.payload, echo := [] }
    { w with census := w.census ++ [c] }
  else w

/-- R400: PRESENCE. -/
def execPresence (s : State) : Host.Outcome State Fault Refusal :=
  onWaggleFrame s 0 (fun t f => onWaggle t (fun w => refreshCensus w f))

/-- R400: WAKE: a demand for the control clock, at most one in 1 ms (25,000 ticks). -/
def execWake (s : State) : Host.Outcome State Fault Refusal :=
  onWaggleFrame s 1 (fun t _ =>
    let soon := match t.kp.waggle.wakeAt with
      | some a => decide (t.clk.coldTicks < a + 25000)
      | none => false
    if soon then t else demand (onWaggle t (fun w => { w with wakeAt := some t.clk.coldTicks })) .control)

/-- R400: CAP: the waggle cap and its duration; a cap of 0 withdraws it. -/
def capFrame (s : State) (f : WFrame) : State :=
  let w := leNat (f.payload.take 2)
  let ms := leNat ((f.payload.drop 4).take 4)
  if f.payload.length ≠ 8 ∨ leNat ((f.payload.drop 2).take 2) ≠ 0 ∨ ms < 1 ∨ 60000 < ms then discardWaggle s
  else onWaggle s (fun x => { x with cap := if w = 0 then none else some (w, ms) })

def execCapFrame (s : State) : Host.Outcome State Fault Refusal := onWaggleFrame s 2 capFrame

/-- R400: OUT: the sender's entry is marked out. -/
def execOut (s : State) : Host.Outcome State Fault Refusal :=
  onWaggleFrame s 3 (fun t f => onWaggle t (fun w =>
    { w with census := w.census.map (fun c => if !c.byserial && c.key == f.src && !f.wnoid then { c with out := true } else c) }))

/-- R400: ECHO is answered to its source. -/
def execEcho (s : State) : Host.Outcome State Fault Refusal :=
  onWaggleFrame s 4 (fun t f => if f.wnoid then t else sendWaggle t 5 f.src false f.payload)

/-- R400: ECHO_REPLY is reported in the census. -/
def execEchoReply (s : State) : Host.Outcome State Fault Refusal :=
  onWaggleFrame s 5 (fun t f => onWaggle t (fun w =>
    { w with census := w.census.map (fun c => if !c.byserial && c.key == f.src && !f.wnoid then { c with echo := f.payload } else c) }))

/-! ## Timers -/

/-- R401: PRESENCE, every 100 ms. -/
def execPresenceTimer (s : State) : Host.Outcome State Fault Refusal :=
  taken (s.clk.wgHold && !s.clk.cold && !s.kp.waggle.outDeclared) s
    (sendWaggle s 0 0 true (presencePayload s))

/-- R401: a census entry ages out, 350 ms after its last PRESENCE. -/
def execCensusAgeOut (k : Nat) (s : State) : Host.Outcome State Fault Refusal :=
  taken (decide (k < s.kp.waggle.census.length)) s (onWaggle s (fun w => { w with census := w.census.eraseIdx k }))

/-- R400: the waggle cap's duration ends. -/
def execWaggleCapExpiry (s : State) : Host.Outcome State Fault Refusal :=
  taken s.kp.waggle.cap.isSome s (onWaggle s (fun w => { w with cap := none }))

/-- R403: 100 ms without the OUT frame's return. -/
def execOutWaitTimeout (s : State) : Host.Outcome State Fault Refusal :=
  taken s.kp.waggle.outWait s (releaseHold s)

/-- One frame of the forward buffer leaves. -/
def forwardOne (s : State) : State :=
  match s.kp.waggle.fwd with
  | [] => s
  | f :: r => onWaggle (emit s (.waggle (wireWaggle f))) (fun w => { w with fwd := r })

end Sys2Proof.Machine
end

