-- ==== Sys2Proof/Machine/Vault.lean ====
section
/-! DEFINITION. The vault's mailbox commands (R358 to R382), the blowing of fuses (R360, R361) and the vault's own
events. A Bool operand is the verdict of the P-384 engine on a signature. -/

namespace Sys2Proof.Machine

/-! ## Arguments and ends of mailbox commands -/

/-- Bytes and fields of the argument buffer. -/
def arg (s : State) (off n : Nat) : List Byte := cellReadN 0 s.kp.mbox.args off n
def argNat (s : State) (off n : Nat) : Nat := leNat (arg s off n)

/-- R389, R395: a mailbox command runs, by its `op`; in RECOVERY only some do. -/
def mailbox (s : State) (op : Nat) (inRecovery : Bool) (eff : State) : Host.Outcome State Fault Refusal :=
  let m := s.kp.mbox
  taken (m.busy && m.op == op && s.vault.blow.isNone && !s.clk.cold) s
    (if m.bootStage == stageRecovery && !inRecovery then mbRefuse s .state else eff)

/-- R18, R353, R387: a mailbox command that needs the vault's engines waits for the control clock, which it demands; once the
clock has failed for good it ends with HW_ERROR, in state `t`. -/
def onEngine (s t eff : State) : State := if s.kp.mbox.clkFail then mbEnd t .hwError [] else inControl s eff

/-- R8, R420: the first check that fails ends a mailbox command; with none the effect follows. -/
def mbChecked (s : State) (checks : List (Bool × Status)) (eff : State) : State :=
  match checks.find? (·.1) with
  | some c => mbRefuse s c.2
  | none => eff

/-! ## Tokens (R373 to R375) -/

def tkNat (t : List Byte) (off n : Nat) : Nat := leNat ((t.drop off).take n)
def tkPerms (t : List Byte) : Nat := tkNat t 4 2

/-- R374, DECODE. -/
def tokenForm (t : List Byte) : Bool := tkNat t 0 1 == 1 && rz (tkPerms t) 7 9 && tkNat t 6 2 == 0 && tkNat t 0x10 16 == 0

/-- R374, RIGHTS; without a challenge there is no message for the signature to cover. -/
def tokenRights (s : State) (t : List Byte) (sigOk : Bool) : Bool :=
  s.vault.lc == .production && tkNat t 8 8 == s.vault.fuses.serial && rootMatches s (tkNat t 3 1) ((t.drop 0x20).take 96) &&
    (sigOk || s.vault.challenge.isNone)

/-- R374, RANGE: scope and hive, and an owner's permission with HIVE scope. -/
def tokenScope (t : List Byte) : Bool :=
  (tkNat t 1 1 == 0 && decide (tkNat t 2 1 ≤ 254) && rz (tkPerms t) 4 3) || (tkNat t 1 1 == 1 && tkNat t 2 1 == 0xFF)

/-- R372: a token consumes the challenge, whatever its command's outcome. -/
def consume (s : State) : State := s.onVault (fun v => { v with challenge := none })

/-- R373: what the P-384 engine verifies of a token: header and challenge under the root's key. -/
def verifyToken (s : State) (t : List Byte) : State :=
  s.onVault (fun v => { v with verify := some (digest ((t.drop 0x20).take 96), digest (t.take 0x20 ++ v.challenge.getD []),
                                               (t.drop 0x80).take 96) })

/-- What the P-384 engine finds of what it was last given. -/
def verdict (s : State) : Bool :=
  match s.vault.verify with
  | some v => Config.ecdsaVerifies v.1 v.2.1 v.2.2
  | none => false

/-- R373: the operand of a command that presents a token is the verdict that the engine gives; without a challenge there is no
message to verify (log 8). -/
def tokenSays (s : State) (t : List Byte) (sigOk : Bool) : Bool :=
  s.vault.challenge.isNone || sigOk == verdict (verifyToken s t)

/-- R8, R374: the checks of a command that presents a token, with the command's own. The RIGHTS of R374 covers every state but
PRODUCTION, and comes before the STATE that R380 gives commands whose own checks pass (log 56). -/
def tokenChecks (s : State) (t : List Byte) (sigOk permOk : Bool) (form range : Bool) (own : List (Bool × Status)) :
    List (Bool × Status) :=
  [(!form || !tokenForm t, .decode), (!tokenRights s t sigOk, .rights), (!range || !tokenScope t || !permOk, .range),
   (s.vault.challenge.isNone, .state)] ++ own

/-- R375: whether a permission is in force for a hive. -/
def debugOpen (s : State) (perm hive : Nat) : Bool :=
  s.vault.lc == .test ||
    (s.vault.lc == .production && s.vault.tokens.any (fun t => bit t.perms perm && (t.device || t.hive == hive)))

/-! ## Blowing fuses (R360, R361) -/

/-- R360: lifecycle bits in rising order, each in copies 0, 1 and 2. -/
def lcBits (bits : List Nat) : List FuseBit := bits.flatMap (fun b => [.lc 0 b, .lc 1 b, .lc 2 b])

/-- R360: the lifecycle bits that END_OF_LIFE adds to the decoded word. -/
def addedBits (s : State) (code : Nat) : List Nat := (bitsOf code 32).filter (fun b => !bit (majority s.vault.fuses.lc) b)

/-- R379 step 3: the roots and trims, all ones. -/
def rootFuses : List FuseBit :=
  (List.range 384).map .drk ++ (List.range 32).map .drkChk ++
    (List.range 4).flatMap (fun r => (List.range 384).map (.owner r)) ++ (List.range 256).map .trim


/-- R360, R379 step 4: the lifecycle copies that END_OF_LIFE still lacks, by rising bit, each bit's copies in order. -/
def restOfLc (s : State) : List FuseBit :=
  (lcBits (List.range 32)).filter (fun x => match x with | .lc c b => !bit (nth s.vault.fuses.lc c 0) b | _ => true)

/-- R359, R361, R379: the last copy of a blow reads blown: `SCRAP` goes on to its next step; another command decodes the
lifecycle, has the copies blown that its code lacks, and ends. -/
def blowDone (s : State) (k : BlowKind) : State :=
  match k with
  | .scrapLock => setBlow (senseLc s) (some { kind := .scrapRoots, todo := rootFuses, pulses := 0, vpp := true })
  | .scrapRoots => setBlow s (some { kind := .scrapRest, todo := restOfLc s, pulses := 0, vpp := true })
  | .scrapRest => mbEnd (eraseKeeper (declareOut (senseLc (setBlow s none)))) .ok []
  | .bootRepair => senseLc (setBlow s none)
  | _ =>
    let t := senseLc (setBlow s none)
    let m := missingCopies t
    if m = [] ∨ k = .repair then mbEnd t .ok []
    else setBlow t (some { kind := .repair, todo := m.map (fun x => .lc x.1 x.2), pulses := 0, vpp := true })

/-- R457: a blow begins by asking for VPP; with nothing to blow the command ends at once. -/
def startBlow (s : State) (k : BlowKind) (todo : List FuseBit) : State :=
  if todo = [] then blowDone s k else setBlow s (some { kind := k, todo := todo, pulses := 0, vpp := false })

/-- R359, R361, R457: a failed blow stops where it stands: the lifecycle is decoded, and the command ends with HW_ERROR and
an error-log entry. The repair of a boot has no command. -/
def blowFailed (s : State) (k : BlowKind) : State :=
  let t := senseLc (logErr (setBlow s none)
    { cls := 2, status := if k = .bootRepair then 0 else Status.hwError.code, ugroup := 8, cause := 0xB })
  if k = .bootRepair then t else mbEnd t .hwError []

/-- R371: a root that its majority shows revoked: its tokens end. -/
def endRevoked (s : State) (k : BlowKind) : State :=
  match k with
  | .revoke r =>
    if bit (majority s.vault.fuses.revoked) r then
      s.onVault (fun v => { v with tokens := v.tokens.filter (fun t => t.root != r) })
    else s
  | _ => s

/-- R361: a copy reads blown; the next follows. -/
def copyBlown (s : State) (b : Blow) (x : FuseBit) (rest : List FuseBit) : State :=
  let t := endRevoked (s.onVault (fun v => { v with fuses := v.fuses.blow x })) b.kind
  if rest = [] then blowDone t b.kind else setBlow t (some { b with todo := rest, pulses := 0 })

/-- R361: the verify read after a pulse; the third failure ends the blow. A blown fuse reads blown. -/
def pulseEnd (s : State) (b : Blow) (blown : Bool) : State :=
  match b.todo with
  | [] => blowDone s b.kind
  | x :: rest =>
    if blown ∨ s.vault.fuses.blow x = s.vault.fuses then copyBlown s b x rest
    else if 3 ≤ b.pulses + 1 then blowFailed s b.kind
    else setBlow s (some { b with pulses := b.pulses + 1 })

/-- R361: FUSE_PULSE_END. -/
def execFusePulseEnd (blown : Bool) (s : State) : Host.Outcome State Fault Refusal :=
  match s.vault.blow with
  | some b => taken b.vpp s (pulseEnd s b blown)
  | none => .next s

/-- R457: VPP has risen; the pulses begin. -/
def execFuseVppOk (s : State) : Host.Outcome State Fault Refusal :=
  match s.vault.blow with
  | some b => taken (!b.vpp) s (setBlow s (some { b with vpp := true }))
  | none => .next s

/-- R457: no VPP within 50 µs: a failed blow. -/
def execFuseVppTimeout (s : State) : Host.Outcome State Fault Refusal :=
  match s.vault.blow with
  | some b => taken (!b.vpp) s (blowFailed s b.kind)
  | none => .next s

/-! ## Lifecycle and provisioning -/

/-- R381, R396: LC_QUERY. -/
def execLcQuery (s : State) : Host.Outcome State Fault Refusal :=
  mailbox s 0x1 true (mbEnd s .ok (leBytes 1 s.vault.lc.report ++ List.replicate 7 0 ++ leBytes 8 s.vault.fuses.serial ++
    (identityOut s ++ List.replicate 96 0).take 96))

/-- R365: a draw cannot be made: a health test has stopped the DRBG. -/
def drbgFailed (s : State) : Bool := !s.vault.drbgOn && (s.kp.warm.isSome || s.kp.mbox.drbgFail)

/-- R369: the vault's ephemeral public key. -/
def provPublic (s : State) : List Byte := sized 96 (Config.p384Public (s.vault.provKey.getD []))

/-- R369: PROV_BEGIN: an ephemeral private key, whose public key is returned. -/
def provBegin (s : State) : State :=
  let k := drawDrbg s 48
  let t := k.2.onVault (fun v => { v with provKey := some k.1 })
  mbEnd t .ok (provPublic t ++ leBytes 8 s.vault.fuses.serial)

def execProvBegin (s : State) : Host.Outcome State Fault Refusal :=
  mailbox s 0x2 false
    (mbChecked s [(s.vault.lc != .blank || s.vault.fuses.drk != 0, .state)]
      (onEngine s s (mbChecked s [(drbgFailed s, .hwError)] (provBegin s))))

/-- R369: the vendor provisioning key's signature covers both public keys and the serial. -/
def provVerify (s : State) : State :=
  s.onVault (fun v => { v with verify := some (Config.vendorKeyHash 0,
    digest (provPublic s ++ arg s 0 96 ++ leBytes 8 v.fuses.serial), arg s 96 96) })

/-- R369: the key of the seal: both ends' secret under the serial. -/
def sealKey (s : State) : List Byte :=
  Config.hkdf (leBytes 8 s.vault.fuses.serial) (Config.ecdh (s.vault.provKey.getD []) (arg s 0 96)) (ascii "HX1 prov") 32

/-- R369: the root that the seal holds. -/
def sealedRoot (s : State) : List Byte := sized 48 (Config.gcmOpen (sealKey s) (List.replicate 12 0) (arg s 192 64))

/-- R369: the operands of `PROV_INJECT` are what the engines find: of the signature, of the station's key, and of the seal's
tag; without a private key there is nothing to find (log 8). -/
def provSays (s : State) (sigOk sealOk keyOk : Bool) : Bool :=
  s.vault.provKey.isNone ||
    (sigOk == verdict (provVerify s) && sealOk == Config.gcmVerifies (sealKey s) (List.replicate 12 0) (arg s 192 64) &&
      keyOk == Config.p384Point (arg s 0 96))

/-- R369: the fuses of a device root and its check, in rising order. -/
def rootBits (drk : List Byte) : List FuseBit :=
  (bitsOf (leNat drk) 384).map .drk ++ (bitsOf (leNat ((digest drk).take 4)) 32).map .drkChk

/-- R369: PROV_INJECT: the verdicts on the signature, on the seal's tag, and on the station's key, which must be a point of the
curve for there to be a secret that opens the seal (log 8). Without the key of `PROV_BEGIN` there is no message for any. -/
def execProvInject (sigOk sealOk keyOk : Bool) (s : State) : Host.Outcome State Fault Refusal :=
  let t := (provVerify s).onVault (fun v => { v with provKey := none })
  if !provSays s sigOk sealOk keyOk then .next s
  else
    mailbox s 0x3 false
      (onEngine s t
        (mbChecked t
          [(s.vault.provKey.isSome && (!sigOk || !sealOk || !keyOk), .rights),
           (s.vault.lc != .blank || s.vault.fuses.drk != 0 || s.vault.provKey.isNone, .state)]
          (setBlow t (some { kind := .provision, todo := rootBits (sealedRoot s), pulses := 0, vpp := false }))))

/-- R381: the state directly after the present one. -/
def nextLc : LcState → Nat
  | .blank => 1
  | .test => 2
  | _ => 0

/-- R360, R380, R381: LC_ADVANCE. -/
def execLcAdvance (s : State) : Host.Outcome State Fault Refusal :=
  let g := argNat s 0 1
  let ready := if s.vault.lc = .blank then drkOk s else (List.range 4).any (rootLive s)
  mailbox s 0x4 false
    (mbChecked s [(argNat s 1 7 != 0, .decode), (g != 1 && g != 2, .range), (g != nextLc s.vault.lc || !ready, .state)]
      (startBlow s .lifecycle (lcBits (addedBits s (if g = 1 then Config.lcTest else Config.lcProduction)))))

/-! ## Owner roots -/

/-- R370: OWNER_ENROL. -/
def execOwnerEnrol (sigOk : Bool) (s : State) : Host.Outcome State Fault Refusal :=
  let i := argNat s 0 1
  let form := argNat s 1 7 == 0
  let range := decide (i < 4)
  let h := leNat (digest (arg s 8 96))
  let tk := arg s 104 224
  let free := !bit (majority s.vault.fuses.enrolled) i && nth s.vault.fuses.owner i 0 == 0
  let todo := (bitsOf h 384).map (.owner i) ++ [.enrolled 0 i, .enrolled 1 i, .enrolled 2 i]
  if s.vault.lc = .production then
    if !tokenSays s tk sigOk then .next s
    else
      let t := consume (verifyToken s tk)
      mailbox s 0x5 false
        (onEngine s t (mbChecked t (tokenChecks s tk sigOk (bit (tkPerms tk) 4) form range [(!free, .state)]) (startBlow t .enrol todo)))
  else
    mailbox s 0x5 false
      (mbChecked s [(!form, .decode), (!range, .range), (s.vault.lc != .test || !free, .state)] (startBlow s .enrol todo))

/-- R371: whether root i is the last usable root. -/
def lastRoot (s : State) (i : Nat) : Bool := (List.range 4).filter (rootLive s) == [i]

/-- R371, R380: OWNER_REVOKE, by a token of another root. -/
def execOwnerRevoke (sigOk : Bool) (s : State) : Host.Outcome State Fault Refusal :=
  let i := argNat s 0 1
  let tk := arg s 8 224
  let form := argNat s 1 7 == 0
  let t := consume (verifyToken s tk)
  let checks := tokenChecks s tk sigOk (bit (tkPerms tk) 5) form (decide (i < 4)) [(lastRoot s i, .state)]
  let same : Bool × Status := (tkNat tk 3 1 == i, .rights)
  if !tokenSays s tk sigOk then .next s
  else
    mailbox s 0x6 false
      (onEngine s t
        (mbChecked t (checks.take 2 ++ [same] ++ checks.drop 2)
          (startBlow t (.revoke i) [.revoked 0 i, .revoked 1 i, .revoked 2 i])))

/-! ## Debug -/

/-- R372: DBG_CHALLENGE: 48 bytes of the conditioned entropy source. -/
def dbgChallenge (s : State) : State :=
  let d := drawBytes s 48
  mbEnd (d.2.onVault (fun v => { v with challenge := some d.1 })) .ok d.1

def execDbgChallenge (s : State) : Host.Outcome State Fault Refusal :=
  mailbox s 0x7 false (mbChecked s [(s.vault.lc != .production, .state)] (dbgChallenge s))

/-- R375: the lowest free slot of the 8. -/
def freeSlot (s : State) : Option Nat := (List.range 8).find? (fun k => !s.vault.tokens.any (fun t => t.slot == k))

/-- R374, R375: DBG_UNLOCK. -/
def execDbgUnlock (sigOk : Bool) (s : State) : Host.Outcome State Fault Refusal :=
  let tk := arg s 0 224
  let t := consume (verifyToken s tk)
  let slot := (freeSlot s).getD 0
  let x : Token :=
    { slot := slot, device := tkNat tk 1 1 == 1, hive := tkNat tk 2 1, root := tkNat tk 3 1, perms := tkPerms tk }
  if !tokenSays s tk sigOk then .next s
  else
    mailbox s 0x8 false
      (onEngine s t
        (mbChecked t
          (tokenChecks s tk sigOk (!rz (tkPerms tk) 0 4) true true [((freeSlot s).isNone, .resource)])
          (mbEnd (t.onVault (fun v => { v with tokens := v.tokens ++ [x] })) .ok (leBytes 1 slot ++ List.replicate 7 0))))

/-- R375: DBG_RELOCK of a slot, or of all. -/
def execDbgRelock (s : State) : Host.Outcome State Fault Refusal :=
  let k := argNat s 0 1
  mailbox s 0x9 false
    (mbChecked s
      [(argNat s 1 7 != 0, .decode), (decide (7 < k) && k != 0xFF, .range),
       (k != 0xFF && !s.vault.tokens.any (fun t => t.slot == k), .state)]
      (mbEnd (s.onVault (fun v => { v with tokens := v.tokens.filter (fun t => k != 0xFF && t.slot != k) })) .ok []))

/-! ## Attestation (R376) -/

/-- SHA-384 of a flash copy's header and body. -/
def imageHash (s : State) (kind copy : Nat) : List Byte :=
  let h := header s kind copy
  digest (h ++ flashRead s ((regionOf kind copy).1 + 256) (Nat.min (bodyLen h) ((regionOf kind copy).2 - 256)))

/-- R376: the header; `spares` is the hash of the brood's spare map. -/
def attestHeader (s : State) (nonce spares : List Byte) (n : Nat) : List Byte :=
  let f := s.vault.fuses
  leBytes 2 1 ++ leBytes 1 s.vault.lc.report ++ leBytes 1 n ++ leBytes 2 (chipId s) ++ leBytes 2 0 ++ leBytes 8 f.serial ++
    leBytes 4 s.vault.lcWord ++ leBytes 1 (fld (majority f.enrolled) 0 4 + fld (majority f.revoked) 0 4 <<< 4) ++
    leBytes 1 s.kp.settings.endorseRoot ++ leBytes 1 (b2n (s.vault.tokens.any (·.device))) ++ leBytes 1 0 ++
    leBytes 4 (arbValue f.arbFw) ++ leBytes 4 (arbValue f.arbSet) ++ leBytes 8 s.clk.ticks ++ leBytes 8 0 ++ nonce ++
    imageHash s 1 (b2n s.kp.mbox.fwCopy) ++ imageHash s 2 (b2n s.kp.mbox.setCopy) ++ spares ++ leBytes 16 0

/-- R376: a hive's entry. -/
def attestEntry (s : State) (h : Nat) : List Byte :=
  let x := hiveAt s h
  let cs := (x.combs.map (·.2)).filter (·.valid)
  let granules := ((cs.filter (fun c => !c.commons)).map (·.count)).sum
  let slot := keySlotOf h
  let print := if (slotAt s slot).loaded then fingerprint s slot else List.replicate 32 0
  leBytes 1 h ++ leBytes 1 x.state.code ++
    leBytes 1 (b2n x.elastic + 2 * b2n (s.vault.tokens.any (fun t => !t.device && t.hive == h))) ++ leBytes 1 cs.length ++
    leBytes 2 (bitmapClusters s h).length ++ leBytes 2 x.vecCount ++ leBytes 4 x.keyGen ++ leBytes 3 x.colony ++ leBytes 1 0 ++
    print ++ leBytes 2 granules ++ leBytes 2 x.labelCount ++ leBytes 2 x.chGuarantee ++ leBytes 2 x.chCeiling ++ leBytes 8 0

/-- R376, R406: the map in force: every unit of the classes 0, 2 and 4, and those units of the classes 1 and 3 that another than
their own physical unit serves. -/
def mapInForce (s : State) : List (Nat × Nat × Nat × Nat) :=
  let group (cls g : Nat) : List (Nat × Nat × Nat × Nat) :=
    (List.range (logicalCount cls g)).map (fun u => (cls, g, u, physOf s cls g u))
  let touched (cls g : Nat) : Bool :=
    s.br.bootBad.any (fun b => b.1 == cls && b.2.1 == g) || s.br.map.any (fun e => e.1 == cls && e.2.1 == g) ||
      (cls == 3 && s.vault.fuses.badRow.any (fun w => fld w 16 16 == g))
  let moved (cls n : Nat) : List (Nat × Nat × Nat × Nat) :=
    (((List.range n).filter (touched cls)).flatMap (group cls)).filter (fun e => e.2.2.1 != e.2.2.2)
  group 0 0 ++ group 2 0 ++ (List.range Config.links).flatMap (group 4) ++ moved 1 2048 ++ moved 3 0x240

/-- R376, R406: SHA-384 of the spare map as fused and in force (log 37). -/
def spareHash (s : State) : List Byte :=
  let f := s.vault.fuses
  digest (Config.spareMap f.badMover f.badKeyrow f.badLane f.badRow (mapInForce s))

/-- R376: the report and its signature. -/
def attest (s : State) (nonce : List Byte) (hs : List Nat) : State :=
  let r := attestHeader s nonce (spareHash s) hs.length ++ hs.flatMap (attestEntry s)
  mbEnd s .ok (r ++ (Config.ecdsaSign (identityScalar s) (digest r) ++ List.replicate 96 0).take 96)

/-- R376: ATTEST. -/
def execAttest (s : State) : Host.Outcome State Fault Refusal :=
  let bm := argNat s 48 32
  mailbox s 0xA false
    (mbChecked s [(s.vault.lc != .test && s.vault.lc != .production, .rights), (bit bm 255, .range)]
      (onEngine s s (attest s (arg s 0 48) (bitsOf bm 255))))

/-! ## Anti-rollback and scrapping -/

/-- R378: ARB_COMMIT; the operand is the verdict on the other copy's signature. -/
def execArbCommit (otherSigOk : Bool) (s : State) : Host.Outcome State Fault Refusal :=
  let c := argNat s 0 1
  let m := s.kp.mbox
  let kind := if c = 0 then 1 else 2
  let other := 1 - b2n (if c = 0 then m.fwCopy else m.setCopy)
  let ver := if c = 0 then m.fwSecver else m.setSecver
  let v := arbValue (if c = 0 then s.vault.fuses.arbFw else s.vault.fuses.arbSet)
  let lower := copyValid s kind other otherSigOk && decide (hdr (header s kind other) 5 1 < ver)
  let bits := (List.range ver).drop v
  if !engineSays s kind other otherSigOk then .next s
  else
    mailbox s 0xB false
      (onEngine s s
        (mbChecked s
          [(argNat s 1 7 != 0, .decode), (decide (1 < c), .range),
           (s.vault.lc == .locked || s.vault.lc == .endOfLife || (c == 1 && !s.kp.haveSettings) || lower, .state)]
          (startBlow s .arb (bits.map (if c = 0 then .arbFw else .arbSet)))))

/-- R379 step 1: every key of the part is zeroised and every token ends. -/
def zeroiseAll (s : State) : State :=
  let t := (s.pr.slots.map (·.1)).foldl zeroSlot s
  let t := (t.sw.links.map (·.1)).foldl linkDown t
  t.onVault (fun v => { v with wrapKey := [], tokens := [], drbgOn := false, drbgRequests := 0 })

/-- R379: SCRAP begins: step 1, then the lowest lifecycle bit that END_OF_LIFE adds, until it has a majority. -/
def startScrap (s : State) : State :=
  let t := zeroiseAll s
  startBlow t .scrapLock (((addedBits t Config.lcEndOfLife).take 1).flatMap (fun b => [.lc 0 b, .lc 1 b]))

/-- R379, R380: SCRAP. -/
def execScrap (sigOk : Bool) (s : State) : Host.Outcome State Fault Refusal :=
  let tk := arg s 0 224
  if s.vault.lc = .production then
    if !tokenSays s tk sigOk then .next s
    else
      let t := consume (verifyToken s tk)
      mailbox s 0xC false
        (onEngine s t (mbChecked t (tokenChecks s tk sigOk (bit (tkPerms tk) 6) true true []) (startScrap t)))
  else mailbox s 0xC false (mbChecked s [(s.vault.lc == .endOfLife, .state)] (startScrap s))

/-! ## The vault's own events -/

/-- R372: 60 s after its issue a challenge expires. -/
def execChallengeExpiry (s : State) : Host.Outcome State Fault Refusal :=
  taken s.vault.challenge.isSome s (consume s)

/-- R365: the DRBG is reseeded, after 65,536 requests or 1 s. -/
def execDrbgReseed (s : State) : Host.Outcome State Fault Refusal :=
  taken s.vault.drbgOn s (s.onVault (fun v => { v with drbgRequests := 0 }))

/-- R365: instantiation fails within a block warm reset; the third in a row holds the block until a cold reset. -/
def instantiationFails (s : State) : State :=
  let t := logErr s { cls := 6, status := Status.hwError.code, cause := 0x12 }
  let t := t.onVault (fun v => { v with drbgOn := false, drbgFails := v.drbgFails + 1 })
  let t := setMbox t (fun m => { m with drbgFail := true })
  if 3 ≤ t.vault.drbgFails then endAsked (holdBlock (declareOut (clearBlock (abortVaultCommand t) true)))
  else t.onBr (fun b => { b with warms := satInc 32 b.warms })

/-- R365: DRBG_HEALTH_FAIL: the DRBG stops and a block warm reset starts, or the one in progress starts over. -/
def execDrbgHealthFail (s : State) : Host.Outcome State Fault Refusal :=
  match s.kp.warm with
  | some j => taken (!j.stepsDone) s (instantiationFails s)
  | none => taken s.vault.drbgOn s (fatal (s.onVault (fun v => { v with drbgOn := false })) 255 0 0 0x12)

end Sys2Proof.Machine
end

