-- ==== Sys2Proof/Machine/Mail.lean ====
section
/-! DEFINITION. The keeper's own mailbox commands (R389, R392, R396): resets, power caps, images, the log and the waggle
ring. -/

namespace Sys2Proof.Machine

/-! ## Resets -/

/-- R392, R396: the command in progress ends with the block warm reset that it has asked for. -/
def askReset (s : State) : State := setMbox s (fun m => { m with resetAsked := true })

/-- R348, R396: WARM_RESET; a held block absorbs it (log 33). -/
def execWarmReset (s : State) : Host.Outcome State Fault Refusal :=
  mailbox s 0x10 false (if s.kp.mbox.bootStage = stageHeld then mbEnd s .ok [] else askReset (startWarm s true))

/-- R396, R403: REBOOT: the chip declares itself out, then the cold reset. -/
def execReboot (s : State) : Host.Outcome State Fault Refusal := mailbox s 0x11 true (coldReset (declareOut s))

/-! ## Power -/

/-- R396: PWR_CAP sets or withdraws the mailbox cap. -/
def execPwrCap (s : State) : Host.Outcome State Fault Refusal :=
  let w := argNat s 0 2
  let p := s.kp.settings.pCapW
  let t := onPower s (fun x => { x with mailboxCap := w })
  mailbox s 0x12 false
    (mbChecked s [(argNat s 2 6 != 0, .decode), (p != 0 && decide (p < w), .range)]
      (mbEnd t .ok (leBytes 2 (effectiveCap t) ++ List.replicate 6 0)))

/-- R396, R397: PWR_QUERY: the last reading of each of the 8 entries; how 8 bytes give one is open (log 81). -/
def pwrQuery (s : State) : State :=
  let r (i : Nat) : List Byte := sized 8 (Config.powerReading (nth s.kp.power.readings i none))
  mbEnd s .ok (leBytes 2 (pfReport s) ++ leBytes 1 s.kp.power.level ++ leBytes 1 0 ++
    leBytes 2 (effectiveCap s) ++ leBytes 2 0 ++ (List.range 8).flatMap r)

def execPwrQuery (s : State) : Host.Outcome State Fault Refusal := mailbox s 0x13 false (pwrQuery s)

/-! ## Images (R385, R392) -/

/-- A copy that `IMG_STAGE` may not replace: the running firmware, or the settings in force. -/
def copyInUse (s : State) (kind copy : Nat) : Bool :=
  if kind = 1 then s.kp.mbox.bootStage != stageRecovery && copy == b2n s.kp.mbox.fwCopy
  else s.kp.haveSettings && copy == b2n s.kp.mbox.setCopy

def kindCopyOk (kind copy : Nat) : Bool := (kind == 1 || kind == 2) && decide (copy ≤ 1)

/-- R384, R396: the 4 KiB sectors that the data covers are erased, then the data is written. -/
def stageImage (s : State) (kind copy off n : Nat) : State :=
  let a := (regionOf kind copy).1 + off
  let t := flashErase s a ((n + 4095) / 4096 * 4096)
  mbEnd (flashWrite t a (arg s 8 n)) .ok []

/-- R392, R396: IMG_STAGE. -/
def execImgStage (s : State) : Host.Outcome State Fault Refusal :=
  let kind := argNat s 0 1
  let copy := argNat s 1 1
  let off := argNat s 4 4
  let n := s.kp.mbox.argLen - 8
  mailbox s 0x14 true
    (mbChecked s
      [(argNat s 2 2 != 0, .decode),
       (!kindCopyOk kind copy || off % 4096 != 0 || decide ((regionOf kind copy).2 < off + n), .range),
       (copyInUse s kind copy, .state)]
      (stageImage s kind copy off n))

/-- R387, R396: IMG_CHECK; the operand is the verdict on the copy's signature. -/
def execImgCheck (sigOk : Bool) (s : State) : Host.Outcome State Fault Refusal :=
  let kind := argNat s 0 1
  let copy := argNat s 1 1
  let h := header s kind copy
  let valid := copyValid s kind copy sigOk
  let t := if valid then s else refuseInput s false 9 0
  if !engineSays s kind copy sigOk then .next s
  else
    mailbox s 0x15 true
      (mbChecked s [(argNat s 2 6 != 0, .decode), (!kindCopyOk kind copy, .range)]
        (onEngine s s
          (mbEnd t .ok (leBytes 1 (b2n valid) ++ leBytes 1 (hdr h 5 1) ++ leBytes 1 (hdr h 6 1) ++
            List.replicate 5 0 ++ imageHash s kind copy))))

/-- R365: a block held for its DRBG stays held until a cold reset. -/
def drbgHeld (s : State) : Bool := s.kp.mbox.bootStage == stageHeld && s.kp.mbox.drbgFail

/-- R392: a settings copy is put in force and a block warm reset runs, from HELD too. -/
def applyAndReset (s : State) (c : Nat) : State :=
  let t := applySettings s c
  if drbgHeld s then mbEnd t .ok [] else askReset (beginWarm t)

/-- R387, R392: the selection of `SET_APPLY`, and its effect. -/
def setApply (s : State) (sigA sigB : Bool) : State :=
  let okA := copyValid s 2 0 sigA
  let okB := copyValid s 2 1 sigB
  let t := countInvalid s 2 okA okB
  match preferred s 2 okA okB with
  | none => mbRefuse t .state
  | some c => applyAndReset t c

/-- R392, R396: SET_APPLY; the operands are the verdicts on the signatures of both settings copies. It waits for a block warm
reset in progress (log 33). -/
def execSetApply (sigA sigB : Bool) (s : State) : Host.Outcome State Fault Refusal :=
  if s.kp.warm.isSome || !(engineSays s 2 0 sigA && engineSays s 2 1 sigB) then .next s
  else mailbox s 0x16 false (onEngine s s (setApply s sigA sigB))

/-! ## Log and ring -/

/-- R416: the words of an error-log record. -/
def LogRec.words (r : LogRec) : List Nat :=
  [r.index <<< 32 + r.cls <<< 28 + 3 <<< 24 + r.status <<< 16 + r.hive <<< 8 + r.ugroup,
   r.unit <<< 48 + r.sub <<< 32 + r.cause <<< 16,
   r.ctx <<< 50 + r.keySel <<< 41 + r.keyGen, r.paddr, r.count <<< 32, r.stamp, r.boots <<< 32 + r.warms, 0]

/-- R415: the records from an index on, at most 512; an index older than the oldest starts at the oldest. -/
def logFrom (s : State) (first : Nat) : List LogRec :=
  let back (i : Nat) : Nat := dist s.br.logNext i
  let span := (s.br.log.map (fun r => back r.index)).foldl Nat.max 0
  let from_ := if 2 ^ 31 ≤ back first then 0 else Nat.min (back first) span
  (s.br.log.filter (fun r => decide (back r.index ≤ from_))).take 512

/-- R415, R396: LOG_READ. -/
def execLogRead (s : State) : Host.Outcome State Fault Refusal :=
  mailbox s 0x17 true
    (mbChecked s [(argNat s 4 4 != 0, .decode)]
      (mbEnd s .ok ((logFrom s (argNat s 0 4)).flatMap (fun r => bytesOf r.words))))

/-- R396, R401: WAGGLE_QUERY: the census, as far as the reply buffer holds it; how an entry is laid out is open (log 81). -/
def waggleQuery (s : State) : State :=
  mbEnd s .ok ((s.kp.waggle.census.flatMap (fun c => Config.censusEntry c.byserial c.key c.out c.presence c.echo)).take 32768)

def execWaggleQuery (s : State) : Host.Outcome State Fault Refusal := mailbox s 0x18 false (waggleQuery s)

/-- R396: WAGGLE_SEND. -/
def execWaggleSend (s : State) : Host.Outcome State Fault Refusal :=
  let ty := argNat s 2 1
  let bc := argNat s 3 1
  let n := argNat s 4 1
  let off := !s.kp.settings.chipIdValid || !s.clk.wgHold || s.kp.waggle.outDeclared
  mailbox s 0x19 false
    (mbChecked s
      [(argNat s 5 3 != 0 || s.kp.mbox.argLen != 8 + n, .decode), (!(ty == 1 || ty == 2 || ty == 4) || decide (1 < bc), .range),
       (off, .state)]
      (mbEnd (sendWaggle s ty (argNat s 0 2) (bc == 1) (arg s 8 n)) .ok []))

end Sys2Proof.Machine
end

