-- ==== Sys2Proof/Machine/Clock.lean ====
section
/-! DEFINITION. The reference clock (R17), the fast clocks (R18, R352, R353, R443) and the gating of single units
(R354). -/

namespace Sys2Proof.Machine

/-! ## The reference clock -/

/-- R17, R420: no reference edge for 1 µs. -/
def execRefclkLoss (s : State) : Host.Outcome State Fault Refusal :=
  taken (!s.clk.osc && !s.clk.cold) s ((refuseInput s false 9 0).onClk (fun c => { c with osc := true }))

/-- R17: 1,024 good reference edges in a row. -/
def execRefclkRestore (s : State) : Host.Outcome State Fault Refusal :=
  taken (s.clk.osc && !s.clk.cold) s (s.onClk (fun c => { c with osc := false }))

/-! ## Starting -/

/-- R18: CLOCK_START_DEMAND. -/
def execClockStartDemand (d : Dom) (s : State) : Host.Outcome State Fault Refusal :=
  taken (!(clockOf s d).req && !s.clk.cold && !s.kp.mbox.clkFail) s (demand s d)

/-- R353 steps 2 and 3, R444, R448: a locked clock's domain is released and reset. The stream domain's ports are reset with it,
and it waits for their first credits. -/
def clockLocked (s : State) : Dom → State
  | .control => clockReady s .control
  | .stream => portsUp ((resetPorts s).onClk (fun c => { c with portsDue := true }))

/-- R353: whether a clock has been requested and its lock is awaited; after a second failure none is until a cold reset. -/
def lockDue (s : State) (d : Dom) : Bool :=
  (clockOf s d).req && !(clockOf s d).ready && !s.kp.mbox.clkFail && !(d == .stream && s.clk.portsDue)

/-- R353: CLOCK_LOCK. -/
def execClockLock (d : Dom) (s : State) : Host.Outcome State Fault Refusal := taken (lockDue s d) s (clockLocked s d)

/-- R353: the second attempt has failed: an error-log entry, `hx_down` and the declaration of out. -/
def clockFailed (s : State) (d : Dom) : State :=
  let t := logErr (emit (setClock s d (fun _ => .reset)) (.clockRequest d false))
    { cls := 2, status := Status.hwError.code, cause := 0xC }
  declareOut (setMbox (t.onClk (fun c => { c with hxDown := true })) (fun m => { m with clkFail := true }))

/-- R353, R420: 8 µs without lock: the request is withdrawn and made once more. -/
def execClockStartTimeout (d : Dom) (s : State) : Host.Outcome State Fault Refusal :=
  let t := refuseInput s false 9 0
  taken (lockDue s d) s
    (if (clockOf s d).second then clockFailed t d
     else emit (emit (setClock t d (fun x => { x with second := true })) (.clockRequest d false)) (.clockRequest d true))

/-! ## Stopping -/

/-- R293, R295, R355: a flow's timers run: of frames not acknowledged, of an OPEN not answered, of an ACK that is due. -/
def flowTimers (f : Flow) : Bool := f.retx != [] || f.held != [] || f.sinceAck != 0 || f.closing || (f.entry && !f.opened)

/-- R347, R352, R355: the conditions of the stream clock: a hive reset is a demand, and so is a timer of the swarm controller. -/
def streamIdle (s : State) : Bool :=
  s.clk.stream.ready && chansWhere s (fun _ => true) == [] && s.qm.cmds == [] && s.qm.records == [] && s.sw.txns == [] &&
    s.sw.rx == [] && s.sw.fwd == [] && s.hp.reads == [] && s.hp.flushes == [] && s.xl.walks == [] && s.qm.fills == [] &&
    !s.qm.sweeping && s.he.resets == [] && s.kp.warm.isNone &&
    s.ports.all (fun p => p.2.reads == [] && p.2.writes == [] && p.2.arb == [] && p.2.quarReads == [] && p.2.quarWrites == []) &&
    s.sw.links.all (fun l => l.2.state == .down && !l.2.holdDown) && s.sw.flows.all (fun f => !flowTimers f.2) &&
    s.pr.locks == [] && s.pr.lockWait == [] && s.pr.waiting == [] && s.pr.granted == [] && s.hp.queue == [] &&
    s.pr.slices.all (fun x => x.2.state != .opening)

/-- R352, R355: the conditions of the control clock. Every pin and every label's window holds it (log 34). -/
def controlIdle (s : State) : Bool :=
  s.clk.control.ready && !s.clk.cold && !s.clk.stream.req && s.hp.queue == [] &&
    s.qm.fences.all (fun f => f.2.waits == [] && !f.2.dirty) &&
    s.qm.pins == [] && s.rg.labels.all (fun l => l.2.hive == Config.noHive) && s.xl.faults == [] && s.xl.resWait == [] &&
    s.xl.timers == [] && s.xl.atsReqs == [] && s.xl.atsInvs == [] && s.xl.pri == [] && s.he.resets == [] && s.he.creates == [] &&
    s.he.resizes == [] && s.he.migrations == [] && s.qm.kills == [] && s.qm.jobs == [] && s.qm.resets == [] &&
    s.kp.warm.isNone && s.he.clusters.all (fun c => c.2.state != .joining && c.2.state != .clearing)

/-- R352: a clock stops; with the control clock the fence cache, written back, is emptied. -/
def stopClock (s : State) (d : Dom) : State :=
  let t := emit (setClock s d (fun _ => .reset)) (.clockRequest d false)
  match d with
  | .stream => t.onClk (fun c => { c with portsDue := false })
  | .control => t.onQm (fun m => { m with fences := [] })

/-- R352, R353: CLOCK_IDLE_STOP. -/
def execClockIdleStop (d : Dom) (s : State) : Host.Outcome State Fault Refusal :=
  taken (!s.kp.mbox.clkFail && (match d with | .stream => streamIdle s | .control => controlIdle s)) s
    (stopClock s d)

/-! ## Single units (R354) -/

/-- R162: the reduces and atomics that a port's unit has taken and not done. -/
def combinesAt (s : State) (p : Nat) : List HomeReq :=
  (atUnits s).filter (fun h => homePort s h.req.addr == p && (h.kind.map WriteKind.combines).getD false)

/-- R354: whether a unit may be gated. -/
def gateable (s : State) : GUnit → Bool
  | .mover m =>
    let x := moverAt s m
    decide (m < Config.moversInService) && !x.gated && !x.draining && (chansWhere s (fun _ => true)).all (fun c => c / 8 != m) &&
      (List.range Config.memPorts).all (fun p => homeMover s p != m || combinesAt s p == [])
  | .propolis p =>
    let x := portAt s p
    decide (p < Config.memPorts) && !s.pr.gated.contains p && x.reads == [] && x.writes == [] && x.arb == [] &&
      s.pr.locks.all (fun l => homePort s l.addr != p) && s.pr.lockWait.all (fun h => homePort s h.req.addr != p) &&
      s.pr.slices.all (fun x => x.1 % 64 != p || x.2.state != .opening) && s.pr.waiting.all (fun w => w.1 % 64 != p)
  | .link l => decide (l < Config.links) && !(linkAt s l).gated && (linkAt s l).state == .down && !(linkAt s l).holdDown && !(linkAt s l).locked

/-- R354: a unit is gated; a mover's first-level buffer and a propolis unit's tweak cache are emptied. -/
def gate (s : State) : GUnit → State
  | .mover m => (setMover s m (fun x => { x with gated := true })).onXl (fun x => { x with l1 := Tab.del x.l1 m })
  | .propolis p => s.onPr (fun x => { x with gated := x.gated ++ [p], tweaks := Tab.del x.tweaks p })
  | .link l => setLink s l (fun x => { x with gated := true })

def isGated (s : State) : GUnit → Bool
  | .mover m => (moverAt s m).gated
  | .propolis p => s.pr.gated.contains p
  | .link l => (linkAt s l).gated

def ungate (s : State) : GUnit → State
  | .mover m => setMover s m (fun x => { x with gated := false })
  | .propolis p => s.onPr (fun x => { x with gated := x.gated.filter (· != p) })
  | .link l => setLink s l (fun x => { x with gated := false })

/-- R354: UNIT_GATE. -/
def execUnitGate (u : GUnit) (s : State) : Host.Outcome State Fault Refusal :=
  taken (gateable s u) s (gate s u)

/-- R354: UNIT_WAKE. -/
def execUnitWake (u : GUnit) (s : State) : Host.Outcome State Fault Refusal :=
  taken (isGated s u) s (ungate s u)

end Sys2Proof.Machine
end

