-- ==== Sys2Proof/Machine/Debug.lean ====
section
/-! DEFINITION. The block's TAP segment (R458, R459). -/

namespace Sys2Proof.Machine

/-- R458: the instruction register takes an instruction. -/
def setIr (s : State) (ir : Nat) : State := { s with tap := { s.tap with ir := ir } }

/-- R459: an access of the debug window ends: its register holds the data and the status, which the next capture returns. -/
def dbgEnd (s : State) (data : Word) (st : Status) : State :=
  emit { s with tap := { s.tap with dwData := data, dwStatus := st.code } } (.tap data st)

/-- R420, R459: a refused access of the debug window. -/
def dbgRefuse (s : State) (st : Status) : State := dbgEnd (refuseInput s true 0 0) 0 st

/-- R18, R51, R459: one access to an 8-byte word of a hive's combs, under the comb's key, at SCAVENGE and uncharged. It waits for
the stream clock, and for its line's turn: until then the update is made again (log 83). -/
def dbgMemory (s : State) (write : Bool) (hive addr : Nat) (data : Word) : State :=
  match combFor s hive addr with
  | none => dbgRefuse s .rights
  | some k =>
    let line := lineOf addr
    let kind := if write then
        some (WriteKind.partialWrite ((leBytes 8 data.toNat).zipIdx.map (fun e => (addr % 128 + e.2, e.1))))
      else none
    if !k.permits (if write then .wr else .rd) then dbgRefuse s .rights
    else if !s.clk.stream.ready then demand s .stream
    else if mustWait s k.keySel line kind then s
    else
      match kind with
      | some w =>
        let r := homeWrite s hive k.keySel line w 3
        dbgEnd r.1 data r.2.1
      | none =>
        let r := homeRead s hive k.keySel line 3
        if r.2.1 = .ok then dbgEnd r.1 (BitVec.ofNat 64 (leNat ((r.2.2.drop (addr % 128)).take 8))) .ok else dbgEnd r.1 0 r.2.1

/-- R459: object state: the spec lays out no offsets, so the word read is open; nothing there can be written (R375). -/
def dbgObject (s : State) (write : Bool) (hive addr : Nat) : State :=
  if write then dbgRefuse s .rights
  else dbgEnd { s with free := s.free + 1 } (Config.objectWord hive addr s.free) .ok

/-- R8, R375, R459: the checks of an access, RIGHTS and RANGE, and its effect. -/
def dbgAccess (s : State) (op space hive addr : Nat) (data : Word) : State :=
  if space < 2 ∧ !debugOpen s space hive then dbgRefuse s .rights
  else if 2 ≤ op ∨ 2 ≤ space ∨ (space = 1 ∧ addr % 8 ≠ 0) then dbgRefuse s .range
  else if space = 0 then dbgObject s (op == 1) hive addr
  else dbgMemory s (op == 1) hive addr data

/-- R5, R459: an update of HX_DBG_WIN: the register takes the fields shifted in, but for the status, which is RO, and bits
[43:41], which are RZ and ignored; the block performs the access. -/
def dbgUpdate (s : State) (op space hive addr : Nat) (data : Word) : State :=
  let t := { s with tap := { s.tap with ir := 0x10, dwData := data, dwOp := op, dwSpace := space, dwHive := hive,
                                        dwAddr := addr % 2 ^ 41 } }
  dbgAccess t op space hive (addr % 2 ^ 41) data

/-- R459: DBG_WIN_ACCESS. -/
def execDbgWinAccess (op space hive addr : Nat) (data : Word) (s : State) : Host.Outcome State Fault Refusal :=
  taken (!s.clk.cold) s (dbgUpdate s op space hive addr data)

/-- R458: an 8-byte access at an offset of the mailbox window. -/
def tapMbox (s : State) (off : Nat) (isWrite : Bool) (data : Word) : State :=
  if off % 8 ≠ 0 ∨ 0x10000 ≤ off then emit s (.tap 0 .range)
  else if isWrite then emit (mailboxWrite s off (leBytes 8 data.toNat)) (.tap data .ok)
  else emit s (.tap (BitVec.ofNat 64 (leNat ((List.range 8).map (fun i => mailboxByte s (off + i))))) .ok)

/-- R18, R458: TAP_MBOX_ACCESS. Like every mailbox access it demands the control clock in KEEPER_ONLY, for what the mailbox
then runs. -/
def execTapMboxAccess (off : Nat) (isWrite : Bool) (data : Word) (s : State) : Host.Outcome State Fault Refusal :=
  taken (!s.clk.cold) s (demand (setIr (tapMbox s off isWrite data) 0x12) .control)

/-- R458: `block_id`, the high half of capability word 0 (R27). -/
def blockId : Word := 0x48580001

/-- R458: whether the vendor test instructions are open. -/
def vendorOpen (s : State) : Bool := s.vault.lc == .blank || s.vault.lc == .test

/-- R375, R458: a scan of the segment under an instruction: HX_IDCODE, HX_TRACE, whose words the spec does not lay out, a vendor
test instruction, which the vendor defines, or the one bit of BYPASS for every other. -/
def tapScan (s : State) (x : TapScan) : State :=
  let s := setIr s x.ir
  let next : State := { s with free := s.free + 1 }
  if x.ir = 0x01 then emit s (.tap blockId .ok)
  else if x.ir = 0x11 then
    if debugOpen s 2 x.hive then emit next (.tap (Config.traceWord s.free) .ok) else emit (refuseInput s true 0 0) (.tap 0 .rights)
  else if 0x80 ≤ x.ir ∧ x.ir < 0xC0 ∧ vendorOpen s then emit next (.tap (Config.vendorTest x.ir s.free) .ok)
  else emit s (.tap 0 .ok)

/-- R375, R458: TAP_TRACE_READ, and the scans of the other instructions that are no access of their own (log 79). -/
def execTapTraceRead (x : TapScan) (s : State) : Host.Outcome State Fault Refusal :=
  taken (!s.clk.cold) s (tapScan s x)

end Sys2Proof.Machine
end

