-- ==== Sys2Proof/Machine/Dispatch.lean ====
section
/-! DEFINITION. What each command does to everything but the queue: one arm per command, each one call of its meaning. -/

namespace Sys2Proof.Machine

def exec (i : Instr) (s : State) : Host.Outcome State Fault Refusal :=
  match i with
  | .ret c => Sys2Proof.Machine.execRet c s
  | .moveSpan c => Sys2Proof.Machine.execMoveSpan c s
  | .moveGset c => Sys2Proof.Machine.execMoveGset c s
  | .moveTset c => Sys2Proof.Machine.execMoveTset c s
  | .moveT c => Sys2Proof.Machine.execMoveT c s
  | .gather c => Sys2Proof.Machine.execGather c s
  | .scatter c => Sys2Proof.Machine.execScatter c s
  | .fill c => Sys2Proof.Machine.execFill c s
  | .reduce c => Sys2Proof.Machine.execReduce c s
  | .convert c => Sys2Proof.Machine.execConvert c s
  | .reduceCvt c => Sys2Proof.Machine.execReduceCvt c s
  | .atomAdd c => Sys2Proof.Machine.execAtomAdd c s
  | .atomMax c => Sys2Proof.Machine.execAtomMax c s
  | .atomMin c => Sys2Proof.Machine.execAtomMin c s
  | .atomXchg c => Sys2Proof.Machine.execAtomXchg c s
  | .atomCas c => Sys2Proof.Machine.execAtomCas c s
  | .signal c => Sys2Proof.Machine.execSignal c s
  | .wait c => Sys2Proof.Machine.execWait c s
  | .flush c => Sys2Proof.Machine.execFlush c s
  | .cap c => Sys2Proof.Machine.execCap c s
  | .loop c => Sys2Proof.Machine.execLoop c s
  | .br c => Sys2Proof.Machine.execBr c s
  | .setp c => Sys2Proof.Machine.execSetp c s
  | .ldG c => Sys2Proof.Machine.execLdG c s
  | .stG c => Sys2Proof.Machine.execStG c s
  | .call c => Sys2Proof.Machine.execCall c s
  | .launch c => Sys2Proof.Machine.execLaunch c s
  | .launchQuery c => Sys2Proof.Machine.execLaunchQuery c s
  | .launchReservation h => Sys2Proof.Machine.execLaunchReservation h s
  | .hiveCreate c => Sys2Proof.Machine.execHiveCreate c s
  | .hiveResize c => Sys2Proof.Machine.execHiveResize c s
  | .hiveReset c => Sys2Proof.Machine.execHiveReset c s
  | .hiveDestroy c => Sys2Proof.Machine.execHiveDestroy c s
  | .colonyJoin c => Sys2Proof.Machine.execColonyJoin c s
  | .combGrantAttach c => Sys2Proof.Machine.execCombGrantAttach c s
  | .combGrantRights c => Sys2Proof.Machine.execCombGrantRights c s
  | .combGrantDetach c => Sys2Proof.Machine.execCombGrantDetach c s
  | .keyDeriveLink c => Sys2Proof.Machine.execKeyDeriveLink c s
  | .keyDeriveFingerprint c => Sys2Proof.Machine.execKeyDeriveFingerprint c s
  | .ctxCreate c => Sys2Proof.Machine.execCtxCreate c s
  | .ctxKill c => Sys2Proof.Machine.execCtxKill c s
  | .queueBind c => Sys2Proof.Machine.execQueueBind c s
  | .queueReset c => Sys2Proof.Machine.execQueueReset c s
  | .queueUnbind c => Sys2Proof.Machine.execQueueUnbind c s
  | .labelSet c => Sys2Proof.Machine.execLabelSet c s
  | .invalidatePages c => Sys2Proof.Machine.execInvalidatePages c s
  | .invalidateContext c => Sys2Proof.Machine.execInvalidateContext c s
  | .invalidateObject c => Sys2Proof.Machine.execInvalidateObject c s
  | .invalidateFence c => Sys2Proof.Machine.execInvalidateFence c s
  | .resume c => Sys2Proof.Machine.execResume c s
  | .migrate c => Sys2Proof.Machine.execMigrate c s
  | .migrateRoundDone h => Sys2Proof.Machine.execMigrateRoundDone h s
  | .migrateDrainDone h => Sys2Proof.Machine.execMigrateDrainDone h s
  | .migrateFreezeTimeout h => Sys2Proof.Machine.execMigrateFreezeTimeout h s
  | .queryCtx c => Sys2Proof.Machine.execQueryCtx c s
  | .queryHive c => Sys2Proof.Machine.execQueryHive c s
  | .spareSwap c => Sys2Proof.Machine.execSpareSwap c s
  | .spareSwapTimeout uclass unit sub => Sys2Proof.Machine.execSpareSwapTimeout uclass unit sub s
  | .spareRetryTimer m => Sys2Proof.Machine.execSpareRetryTimer m s
  | .moverQuietPoint m => Sys2Proof.Machine.execMoverQuietPoint m s
  | .homeSideSwitch m => Sys2Proof.Machine.execHomeSideSwitch m s
  | .lcQuery => Sys2Proof.Machine.execLcQuery s
  | .provBegin => Sys2Proof.Machine.execProvBegin s
  | .provInject sigOk sealOk keyOk => Sys2Proof.Machine.execProvInject sigOk sealOk keyOk s
  | .lcAdvance => Sys2Proof.Machine.execLcAdvance s
  | .ownerEnrol sigOk => Sys2Proof.Machine.execOwnerEnrol sigOk s
  | .ownerRevoke sigOk => Sys2Proof.Machine.execOwnerRevoke sigOk s
  | .dbgChallenge => Sys2Proof.Machine.execDbgChallenge s
  | .dbgUnlock sigOk => Sys2Proof.Machine.execDbgUnlock sigOk s
  | .dbgRelock => Sys2Proof.Machine.execDbgRelock s
  | .attest => Sys2Proof.Machine.execAttest s
  | .arbCommit otherSigOk => Sys2Proof.Machine.execArbCommit otherSigOk s
  | .scrap sigOk => Sys2Proof.Machine.execScrap sigOk s
  | .warmReset => Sys2Proof.Machine.execWarmReset s
  | .reboot => Sys2Proof.Machine.execReboot s
  | .pwrCap => Sys2Proof.Machine.execPwrCap s
  | .pwrQuery => Sys2Proof.Machine.execPwrQuery s
  | .imgStage => Sys2Proof.Machine.execImgStage s
  | .imgCheck sigOk => Sys2Proof.Machine.execImgCheck sigOk s
  | .setApply sigA sigB => Sys2Proof.Machine.execSetApply sigA sigB s
  | .logRead => Sys2Proof.Machine.execLogRead s
  | .waggleQuery => Sys2Proof.Machine.execWaggleQuery s
  | .waggleSend => Sys2Proof.Machine.execWaggleSend s
  | .registerWrite bar off data => Sys2Proof.Machine.execRegisterWrite bar off data s
  | .doorbellWrite page off be data => Sys2Proof.Machine.execDoorbellWrite page off be data s
  | .faultAnswer w => Sys2Proof.Machine.execFaultAnswer w s
  | .eventConsumed w => Sys2Proof.Machine.execEventConsumed w s
  | .faultConsumed w => Sys2Proof.Machine.execFaultConsumed w s
  | .routeReload w => Sys2Proof.Machine.execRouteReload w s
  | .windowEntryWrite k w => Sys2Proof.Machine.execWindowEntryWrite k w s
  | .apertureRead off len => Sys2Proof.Machine.execApertureRead off len s
  | .apertureWrite off data => Sys2Proof.Machine.execApertureWrite off data s
  | .apertureAtomicop bar off op size operand compare => Sys2Proof.Machine.execApertureAtomicop bar off op size operand compare s
  | .fenceWindowRead off size => Sys2Proof.Machine.execFenceWindowRead off size s
  | .inboundUnsupportedRequest k => Sys2Proof.Machine.execInboundUnsupportedRequest k s
  | .msixMessageSend v => Sys2Proof.Machine.execMsixMessageSend v s
  | .atsTranslationCompletion id a => Sys2Proof.Machine.execAtsTranslationCompletion id a s
  | .atsRequestTimeout id => Sys2Proof.Machine.execAtsRequestTimeout id s
  | .atsInvalidationRequest itag pasid va sizeLog2 => Sys2Proof.Machine.execAtsInvalidationRequest itag pasid va sizeLog2 s
  | .prgResponse pasid group code => Sys2Proof.Machine.execPrgResponse pasid group code s
  | .hostFlushReadCompletion id => Sys2Proof.Machine.execHostFlushReadCompletion id s
  | .pcieConventionalReset => Sys2Proof.Machine.execPcieConventionalReset s
  | .functionLevelReset => Sys2Proof.Machine.execFunctionLevelReset s
  | .slotFetch q => Sys2Proof.Machine.execSlotFetch q s
  | .slotReadDone q idx => Sys2Proof.Machine.execSlotReadDone q idx s
  | .preTranslate q idx => Sys2Proof.Machine.execPreTranslate q idx s
  | .preTranslationTimeout q idx => Sys2Proof.Machine.execPreTranslationTimeout q idx s
  | .dispatch c => Sys2Proof.Machine.execDispatch c s
  | .commandComplete c => Sys2Proof.Machine.execCommandComplete c s
  | .abortSettleDone c => Sys2Proof.Machine.execAbortSettleDone c s
  | .streamResponse p write tag corr err poison m => Sys2Proof.Machine.execStreamResponse p write tag corr err poison m s
  | .streamRequestTimeout t => Sys2Proof.Machine.execStreamRequestTimeout t s
  | .creditReturn p req wd => Sys2Proof.Machine.execCreditReturn p req wd s
  | .initialCreditTimeout p => Sys2Proof.Machine.execInitialCreditTimeout p s
  | .tableWalkDone w => Sys2Proof.Machine.execTableWalkDone w s
  | .pageFaultServiceTimeout r => Sys2Proof.Machine.execPageFaultServiceTimeout r s
  | .queueWatchdogExpiry c => Sys2Proof.Machine.execQueueWatchdogExpiry c s
  | .waitTimeout c => Sys2Proof.Machine.execWaitTimeout c s
  | .fenceCacheFillDone f => Sys2Proof.Machine.execFenceCacheFillDone f s
  | .fenceCacheWriteback f => Sys2Proof.Machine.execFenceCacheWriteback f s
  | .fenceTableSweepDone => Sys2Proof.Machine.execFenceTableSweepDone s
  | .resetEscalation o => Sys2Proof.Machine.execResetEscalation o s
  | .clusterFault n => Sys2Proof.Machine.execClusterFault n s
  | .clusterPowerGood n => Sys2Proof.Machine.execClusterPowerGood n s
  | .clusterClearDone n spadLog2 => Sys2Proof.Machine.execClusterClearDone n spadLog2 s
  | .clusterClearTimeout n => Sys2Proof.Machine.execClusterClearTimeout n s
  | .kernelEnd n exit writes => Sys2Proof.Machine.execKernelEnd n exit writes s
  | .clusterInterrupt n => Sys2Proof.Machine.execClusterInterrupt n s
  | .resizeTimeout h => Sys2Proof.Machine.execResizeTimeout h s
  | .labelWindowBoundary l => Sys2Proof.Machine.execLabelWindowBoundary l s
  | .meterRefresh => Sys2Proof.Machine.execMeterRefresh s
  | .arbiterAgeExpiry p k => Sys2Proof.Machine.execArbiterAgeExpiry p k s
  | .powerCapSample readings => Sys2Proof.Machine.execPowerCapSample readings s
  | .propolisRead r => Sys2Proof.Machine.execPropolisRead r s
  | .propolisWrite r k => Sys2Proof.Machine.execPropolisWrite r k s
  | .sliceOpeningDone cell port => Sys2Proof.Machine.execSliceOpeningDone cell port s
  | .memoryScrub addr corr err poison m => Sys2Proof.Machine.execMemoryScrub addr corr err poison m s
  | .sramScrub a entry corr uncorr => Sys2Proof.Machine.execSramScrub a entry corr uncorr s
  | .errorReport u k => Sys2Proof.Machine.execErrorReport u k s
  | .wearBucketRoll => Sys2Proof.Machine.execWearBucketRoll s
  | .wearCountSave => Sys2Proof.Machine.execWearCountSave s
  | .logPersist => Sys2Proof.Machine.execLogPersist s
  | .swarmFrameReceive link f tagOk => Sys2Proof.Machine.execSwarmFrameReceive link f tagOk s
  | .probe link => Sys2Proof.Machine.execProbe link s
  | .ack src => Sys2Proof.Machine.execAck src s
  | .opn src => Sys2Proof.Machine.execOpn src s
  | .close src => Sys2Proof.Machine.execClose src s
  | .hello link verified => Sys2Proof.Machine.execHello link verified s
  | .keyx link => Sys2Proof.Machine.execKeyx link s
  | .write src seq => Sys2Proof.Machine.execWrite src seq s
  | .writep src seq => Sys2Proof.Machine.execWritep src seq s
  | .reduceFrame src seq => Sys2Proof.Machine.execReduceFrame src seq s
  | .atom src seq => Sys2Proof.Machine.execAtom src seq s
  | .read src seq => Sys2Proof.Machine.execRead src seq s
  | .waitFrame src seq => Sys2Proof.Machine.execWaitFrame src seq s
  | .rdata src seq => Sys2Proof.Machine.execRdata src seq s
  | .resp src seq => Sys2Proof.Machine.execResp src seq s
  | .pcsLock link => Sys2Proof.Machine.execPcsLock link s
  | .pcsLockLoss link => Sys2Proof.Machine.execPcsLockLoss link s
  | .linkSilenceTimeout link => Sys2Proof.Machine.execLinkSilenceTimeout link s
  | .holdDownEnd link => Sys2Proof.Machine.execHoldDownEnd link s
  | .helloRepeat link => Sys2Proof.Machine.execHelloRepeat link s
  | .keyxRepeat link => Sys2Proof.Machine.execKeyxRepeat link s
  | .openRepeat peer => Sys2Proof.Machine.execOpenRepeat peer s
  | .probeInterval link => Sys2Proof.Machine.execProbeInterval link s
  | .ackDelay peer => Sys2Proof.Machine.execAckDelay peer s
  | .retransmitTimeout peer seq => Sys2Proof.Machine.execRetransmitTimeout peer seq s
  | .oldKeyRetire link => Sys2Proof.Machine.execOldKeyRetire link s
  | .sprayEnter peer => Sys2Proof.Machine.execSprayEnter peer s
  | .orderedReturn peer => Sys2Proof.Machine.execOrderedReturn peer s
  | .flowIdleClose peer => Sys2Proof.Machine.execFlowIdleClose peer s
  | .flowUnreachableTimeout peer => Sys2Proof.Machine.execFlowUnreachableTimeout peer s
  | .forwardQueueTimeout k => Sys2Proof.Machine.execForwardQueueTimeout k s
  | .refclkLoss => Sys2Proof.Machine.execRefclkLoss s
  | .refclkRestore => Sys2Proof.Machine.execRefclkRestore s
  | .clockStartDemand d => Sys2Proof.Machine.execClockStartDemand d s
  | .clockLock d => Sys2Proof.Machine.execClockLock d s
  | .clockStartTimeout d => Sys2Proof.Machine.execClockStartTimeout d s
  | .clockIdleStop d => Sys2Proof.Machine.execClockIdleStop d s
  | .unitGate u => Sys2Proof.Machine.execUnitGate u s
  | .unitWake u => Sys2Proof.Machine.execUnitWake u s
  | .blockWarmReset => Sys2Proof.Machine.execBlockWarmReset s
  | .coldReset => Sys2Proof.Machine.execColdReset s
  | .coldBoot fwA fwB setA setB => Sys2Proof.Machine.execColdBoot fwA fwB setA setB s
  | .brownOut => Sys2Proof.Machine.execBrownOut s
  | .keeperWatchdogExpiry => Sys2Proof.Machine.execKeeperWatchdogExpiry s
  | .drbgReseed => Sys2Proof.Machine.execDrbgReseed s
  | .drbgHealthFail => Sys2Proof.Machine.execDrbgHealthFail s
  | .challengeExpiry => Sys2Proof.Machine.execChallengeExpiry s
  | .fuseVppTimeout => Sys2Proof.Machine.execFuseVppTimeout s
  | .presence => Sys2Proof.Machine.execPresence s
  | .wake => Sys2Proof.Machine.execWake s
  | .capFrame => Sys2Proof.Machine.execCapFrame s
  | .out => Sys2Proof.Machine.execOut s
  | .echo => Sys2Proof.Machine.execEcho s
  | .echoReply => Sys2Proof.Machine.execEchoReply s
  | .waggleFrameReceive wire => Sys2Proof.Machine.execWaggleFrameReceive wire s
  | .presenceTimer => Sys2Proof.Machine.execPresenceTimer s
  | .censusAgeOut k => Sys2Proof.Machine.execCensusAgeOut k s
  | .waggleCapExpiry => Sys2Proof.Machine.execWaggleCapExpiry s
  | .outWaitTimeout => Sys2Proof.Machine.execOutWaitTimeout s
  | .dbgWinAccess op space hive addr data => Sys2Proof.Machine.execDbgWinAccess op space hive addr data s
  | .tapMboxAccess off isWrite data => Sys2Proof.Machine.execTapMboxAccess off isWrite data s
  | .tapTraceRead x => Sys2Proof.Machine.execTapTraceRead x s
  | .hostReadCompletion id ok data => Sys2Proof.Machine.execHostReadCompletion id ok data s
  | .fusePulseEnd blown => Sys2Proof.Machine.execFusePulseEnd blown s
  | .fuseVppOk => Sys2Proof.Machine.execFuseVppOk s
  | .priEnableChange ats pri => Sys2Proof.Machine.execPriEnableChange ats pri s
  | .pciePowerStateChange d3hot => Sys2Proof.Machine.execPciePowerStateChange d3hot s

end Sys2Proof.Machine
end

