-- ==== Sys2Proof/Machine/Idle.lean ====
section
/-! DEFINITION. What the block does while no command waits: the keeper clock counts (R15, R340, R416), and the waggle
ring's forward buffer drains (R401). -/

namespace Sys2Proof.Machine

/-- One tick of the keeper clock: the two counters that R340 and R416 stamp records with, and the cycles of the control clock
that pass meanwhile where it runs (R16, R277); one forwarded waggle frame leaves, frames that a link's end left at other links'
senders go on (R293), and so does what waits for the units. -/
def idle (s : State) : State :=
  let n := if s.clk.control.ready then Config.controlCycles s.clk.coldTicks else 0
  let t := if s.kp.waggle.fwd = [] then s else forwardOne s
  let t := (onward (settleLinks t)).onClk (fun c =>
    { c with ticks := s.clk.ticks + 1, coldTicks := s.clk.coldTicks + 1, controlCycles := s.clk.controlCycles + n })
  t.onSw (fun w => { w with flows := agedFlows t n })

end Sys2Proof.Machine
end

