-- ==== Sys2Proof/Safety.lean ====
section
/-! DEFINITION. What the claims are stated in: the standing invariants of the block's memories and tables, and the reads
by which a frame is said. -/

namespace Sys2Proof.Safety

open Sys2Proof.Machine

/-- The four byte memories of the block hold their canonical form: local memory, the scratchpads and the argument buffer
over zero, the flash over erased bytes. -/
def MemoryWf (s : State) : Prop :=
  cellsWf 0 s.pr.mem = true ∧ cellsWf 0 s.mv.spads = true ∧ cellsWf 0 s.kp.mbox.args = true ∧ cellsWf 0xFF s.kp.flash = true

/-- The byte of local memory at an address, as its plaintext under the present keys. -/
def memByte (s : State) (a : Nat) : Byte := cellRead 0 s.pr.mem a

/-- The byte of the flash at an offset. -/
def flashByte (s : State) (a : Nat) : Byte := cellRead 0xFF s.kp.flash a

/-- The byte of a cluster's scratchpad. -/
def spadByte (s : State) (n off : Nat) : Byte := cellRead 0 s.mv.spads (spadKey n off) ^^^ spadBase s n off

/-! ## Steps -/

/-- The command runs: it answers a next state, of which `P` holds. -/
def Answers (o : Host.Outcome State Fault Refusal) (P : State → Prop) : Prop := ∃ t, o = .next t ∧ P t

/-- Nothing of the block's own waits for anything: no forwarded frame, no manager instruction, no sequence of a queue or a
hive, no line whose turn has come, and no host access. -/
def AtRest (s : State) : Prop :=
  s.kp.waggle.fwd = [] ∧ s.sw.fwd = [] ∧ s.qm.jobs = [] ∧ s.qm.kills = [] ∧ s.qm.resets = [] ∧ s.he.migrations = [] ∧
    s.he.resets = [] ∧ s.he.creates = [] ∧ s.he.resizes = [] ∧ s.pr.granted = [] ∧ s.hp.queue = []

/-! ## Channels -/

/-- A channel runs, its current instruction is `o`, and the instruction's predicate holds (R103). -/
def RunsOp (s : State) (c : Nat) (o : Zop) : Prop :=
  running s c (fun _ => true) = true ∧ (chanAt s c).holds = true ∧ (chanAt s c).op = o

/-- R119: what an instruction leaves in `st`: its own status under `try`, else what was there. -/
def tried (x : Channel) (st : Status) : Status := if zTry x.word then st else x.st

/-- A channel whose instruction ends OK with an effect on the channel's own registers: it goes on at the next word, and
nothing else of the block changes. -/
def ended (s : State) (c : Nat) (f : Channel → Channel) : State :=
  setChan s c (fun x => { (f x).goto x.nextPc with st := tried x .ok })

/-- What a channel's instruction has issued leaves the block as `t`, with nothing outstanding and nothing failed. -/
def Settled (u : State) (c : Nat) (t : State) : Prop :=
  t = dropForager (flushPack u c) c ∧ remoteBusy (flushPack u c) c = false ∧ (chanAt (flushPack u c) c).lineStatus = none

/-- The pieces of a channel's instruction, from its progress on, are all performed at once, which leaves the block as
`t`. -/
def Performed (s : State) (c : Nat) (ps : List Piece) (t : State) : Prop :=
  (chanAt s c).lineStatus = none ∧ ∃ u, runPieces s c [] (ps.drop (chanAt s c).prog) = (u, some .ok) ∧ Settled u c t

/-! ## Lines in reach -/

/-- R221: a mover's first level as its buffer holds it: no more entries than it has room for, none overlapping another. -/
def FirstLevelOk (s : State) (m : Nat) : Prop :=
  let l := (Tab.look s.xl.l1 m).getD []
  l.length ≤ Config.l1Entries ∧ l.Pairwise (fun a b => b.overlaps a.ctx a.va (2 ^ a.sizeLog2) = false)

/-- R25, R51, R221, R306, R312, R315, R316, R448: the line at `va` of a channel's context is in its reach for a need, at
the local address `a`: the mover's first level translates it with the right, a comb of its hive holds it with the right,
the comb's key is loaded, the line's slice OPEN, the line good, its port in use, and neither its unit nor its port holds a
request of that need back. -/
def InReach (s : State) (c va : Nat) (n : Need) (a : Nat) : Prop :=
  va < 2 ^ 57 ∧
    (∃ e ∈ (Tab.look s.xl.l1 (c / 8)).getD [], e.covers (chanAt s c).ctx va = true ∧
      ∃ pa, useTlb e va n = .dev pa ∧ paChip pa = chipId s ∧ paLocal pa = a) ∧
    (∃ k, combFor s (chanAt s c).hive a = some k ∧ k.permits n = true ∧ (slotAt s k.keySel).loaded = true ∧
      ∀ w : Option WriteKind, (w.map needOf).getD .rd = n → mustWait s k.keySel a w = false) ∧
    (sliceAt s a).state = .opened ∧ condOf s a = .good ∧ (portAt s (homePort s a)).leftOut = false ∧
    holdsTurn s (.channel c) a = false

/-- A channel begins its instruction: nothing of it has been issued, and its mover's first level stands as it must. -/
def Begins (s : State) (c : Nat) : Prop :=
  chanAt s c = (chanAt s c).fresh ∧ remoteBusy s c = false ∧ FirstLevelOk s (c / 8)

/-- The 128 bytes of a line of local memory. -/
def lineBytes (s : State) (a : Nat) : List Byte := cellReadN 0 s.pr.mem a 128

/-- Local memory after a write kind to the line at `a`. -/
def memAfter (s : State) (a : Nat) (k : WriteKind) : List Host.Cell :=
  cellWriteN 0 s.pr.mem a (writeApply k (lineBytes s a)).1

/-- The source bytes of a piece whose one source line, if it has any, stands at `sa`. -/
def pieceSource (s : State) (p : Piece) (sa : Nat) : Source :=
  let rd := byteOf (p.srcs.map (fun l => (l, lineBytes s sa)))
  { now := rd, old := rd, pick := fun _ => false, kept := fun _ => none }

/-- A piece's source line, if it has any, and its destination line are two lines in reach, at `sa` and `da`. -/
def PieceInReach (s : State) (c : Nat) (p : Piece) (sa da : Nat) : Prop :=
  (p.srcs = [] ∨ ∃ l, p.srcs = [l] ∧ l ≠ p.dst ∧ InReach s c l .rd sa) ∧ lineOf p.dst = p.dst ∧
    InReach s c p.dst (needOf (p.kind (pieceSource s p sa))) da

/-- A channel's instruction has ended OK: the channel is at the next word, its general registers as they were. -/
def WentOn (s t : State) (c : Nat) : Prop :=
  (chanAt t c).state = .running ∧ (chanAt t c).pc = (chanAt s c).nextPc ∧ (chanAt t c).st = tried (chanAt s c) .ok ∧
    (chanAt t c).g = (chanAt s c).g

/-- R187: the `n` bytes of an image at an address, where its lines are translated, lie in private combs of hive 0 and
are read at once, and no line of the instruction has failed; and the block after the reads. -/
def imageOf (s : State) (c a n : Nat) : Option (State × List Byte) :=
  if (chanAt s c).lineStatus.isSome then none
  else match imageLines s c .rd (linesOf a n) with
  | (t, .ok _) =>
    match imageRead t c (linesOf a n) [] with
    | (u, .ok bs) => some (u, (bs.drop (a % 128)).take n)
    | _ => none
  | _ => none

/-- The rows that a channel runs as its current instruction, each with its channel. -/
def channelOf : Instr → Option Nat
  | .ret c => some c
  | .moveSpan c => some c
  | .moveGset c => some c
  | .moveTset c => some c
  | .moveT c => some c
  | .gather c => some c
  | .scatter c => some c
  | .fill c => some c
  | .reduce c => some c
  | .convert c => some c
  | .reduceCvt c => some c
  | .atomAdd c => some c
  | .atomMax c => some c
  | .atomMin c => some c
  | .atomXchg c => some c
  | .atomCas c => some c
  | .signal c => some c
  | .wait c => some c
  | .flush c => some c
  | .cap c => some c
  | .loop c => some c
  | .br c => some c
  | .setp c => some c
  | .ldG c => some c
  | .stG c => some c
  | .call c => some c
  | .launch c => some c
  | .launchQuery c => some c
  | .hiveCreate c => some c
  | .hiveResize c => some c
  | .hiveReset c => some c
  | .hiveDestroy c => some c
  | .colonyJoin c => some c
  | .combGrantAttach c => some c
  | .combGrantRights c => some c
  | .combGrantDetach c => some c
  | .keyDeriveLink c => some c
  | .keyDeriveFingerprint c => some c
  | .ctxCreate c => some c
  | .ctxKill c => some c
  | .queueBind c => some c
  | .queueReset c => some c
  | .queueUnbind c => some c
  | .labelSet c => some c
  | .invalidatePages c => some c
  | .invalidateContext c => some c
  | .invalidateObject c => some c
  | .invalidateFence c => some c
  | .resume c => some c
  | .migrate c => some c
  | .queryCtx c => some c
  | .queryHive c => some c
  | .spareSwap c => some c
  | _ => none

/-- The row that runs an instruction as the current instruction of a channel. -/
def rowOf (c : Nat) : Zop → Instr
  | .ret => .ret c
  | .span .. => .moveSpan c
  | .gset .. => .moveGset c
  | .tset .. => .moveTset c
  | .moveT .. => .moveT c
  | .gather .. => .gather c
  | .scatter .. => .scatter c
  | .fillTile .. => .fill c
  | .fillSpan .. => .fill c
  | .reduce .. => .reduce c
  | .convert .. => .convert c
  | .reduceCvt .. => .reduceCvt c
  | .atom .add .. => .atomAdd c
  | .atom .max .. => .atomMax c
  | .atom .min .. => .atomMin c
  | .atom .xchg .. => .atomXchg c
  | .atom .cas .. => .atomCas c
  | .signal .. => .signal c
  | .wait .. => .wait c
  | .flush .. => .flush c
  | .cap .. => .cap c
  | .loop .. => .loop c
  | .br .. => .br c
  | .setp .. => .setp c
  | .ldG .. => .ldG c
  | .stG .. => .stG c
  | .call .. => .call c
  | .launchAny .. => .launch c
  | .launchList .. => .launch c
  | .launchQuery .. => .launchQuery c
  | .hiveCreate .. => .hiveCreate c
  | .hiveResize .. => .hiveResize c
  | .hiveReset .. => .hiveReset c
  | .hiveDestroy .. => .hiveDestroy c
  | .colonyJoin .. => .colonyJoin c
  | .combAttach .. => .combGrantAttach c
  | .combRights .. => .combGrantRights c
  | .combDetach .. => .combGrantDetach c
  | .keyLink .. => .keyDeriveLink c
  | .keyFingerprint .. => .keyDeriveFingerprint c
  | .ctxCreate .. => .ctxCreate c
  | .ctxKill .. => .ctxKill c
  | .queueBind .. => .queueBind c
  | .queueReset .. => .queueReset c
  | .queueUnbind .. => .queueUnbind c
  | .labelSet .. => .labelSet c
  | .invPages .. => .invalidatePages c
  | .invContext .. => .invalidateContext c
  | .invObject .. => .invalidateObject c
  | .invFence .. => .invalidateFence c
  | .resume .. => .resume c
  | .migrate .. => .migrate c
  | .queryCtx .. => .queryCtx c
  | .queryHive .. => .queryHive c
  | .spareSwap .. => .spareSwap c

/-- R389, R395: the mailbox runs the command of an `op`, in a boot stage other than RECOVERY. -/
def MailboxRuns (s : State) (op : Nat) : Prop :=
  s.kp.mbox.busy = true ∧ s.kp.mbox.op = op ∧ s.vault.blow = none ∧ s.clk.cold = false ∧
    s.kp.mbox.bootStage ≠ stageRecovery

/-- R18, R353: the control clock runs, and has not failed for good. -/
def EngineRuns (s : State) : Prop := s.kp.mbox.clkFail = false ∧ s.clk.control.ready = true

/-- R199: a unit that `SPARE_SWAP` can name, by its class. -/
def UnitInRange (s : State) (cls unit sub : Nat) : Prop :=
  cls = 0 ∧ unit < reportedMovers s ∧ sub = 0 ∨ cls = 1 ∧ unit < 8 ∧ sub < 2 ^ 12 ∨
    cls = 2 ∧ unit < reportedSlots s ∧ sub = 0 ∨ cls = 3 ∧ sramInstance unit = true ∧ sub < Config.sramRows unit ∨
    cls = 4 ∧ unit < 16 ∧ sub < 8

/-- R379: what `SCRAP` has done to the block `s` when it has begun: every memory key is gone, every token ended, the wrap key
zeroised and the DRBG stopped, the fuses are as they were, and two copies of a lifecycle bit are to be blown. -/
def Scrapping (s t : State) (b : Nat) : Prop :=
  (∀ k, (slotAt t k).loaded = false) ∧ t.vault.tokens = [] ∧ t.vault.wrapKey = [] ∧ t.vault.drbgOn = false ∧
    t.vault.fuses = s.vault.fuses ∧
    t.vault.blow = some { kind := .scrapLock, todo := [.lc 0 b, .lc 1 b], pulses := 0, vpp := false }

/-- R194: a comb with the six rights that a `COMB_GRANT` RIGHTS names. -/
def withRights (k : Comb) (r : Nat) : Comb :=
  { k with colAtom := bit r 6, colWr := bit r 5, colRd := bit r 4, locAtom := bit r 2, locWr := bit r 1, locRd := bit r 0 }

/-! ## Swarm -/

/-- The accepted frame of a number and a type whose turn has come (R296, R298), and whose lines nothing
holds (R312, R316). -/
def Accepted (s : State) (src seq ftype : Nat) (r : RxFrame) : Prop :=
  s.sw.rx.find? (fun x => x.frame.src == src && x.frame.seq == seq && x.frame.ftype == ftype) = some r ∧
    ready s r = true ∧ linesFree s r.frame = true

/-- The block without an accepted frame, whose room on its link is owed to the far end. -/
def received (s : State) (r : RxFrame) : State :=
  oweCredit (s.onSw (fun w => { w with rx := w.rx.erase r })) r.link r.frame

/-- The block without the oldest accepted frame that `p` holds of. -/
def popped (s : State) (p : RxFrame → Bool) : State := s.onSw (fun w => { w with rx := w.rx.eraseP p })

/-- R296 to R299: the request lies inside memory, its lines aligned and inside one 4 KiB block, and a hive's comb lets it. -/
def Admitted (s : State) (f : Frame) (n align : Nat) (need : Need) (h : Nat) (k : Comb) : Prop :=
  linesOk s (paLocal f.w4) n align = true ∧ destination s f need (paLocal f.w4) = some (h, k)

/-! ## Fuses -/

/-- Every bit that is 1 in one word is 1 in another. -/
def BitsStay (a b : Nat) : Prop := ∀ i, a.testBit i = true → b.testBit i = true

/-- R362: no fuse that reads blown in one image of the rows reads unblown in another. -/
def FusesStay (a b : Fuses) : Prop :=
  (∀ k, BitsStay (nth a.lc k 0) (nth b.lc k 0)) ∧ BitsStay a.serial b.serial ∧ BitsStay a.drk b.drk ∧
    BitsStay a.drkChk b.drkChk ∧ (∀ k, BitsStay (nth a.owner k 0) (nth b.owner k 0)) ∧
    (∀ k, BitsStay (nth a.enrolled k 0) (nth b.enrolled k 0)) ∧
    (∀ k, BitsStay (nth a.revoked k 0) (nth b.revoked k 0)) ∧ BitsStay a.arbFw b.arbFw ∧ BitsStay a.arbSet b.arbSet ∧
    BitsStay a.trim b.trim

end Sys2Proof.Safety
end

