-- ==== Sys2Proof/WellFormed.lean ====
section
/-! DEFINITION. Which commands are well formed: every operand that names a unit names one that a part can have (R3, R26,
R27), and every operand that carries bits of a field fits its field. -/

namespace Sys2Proof

/-! ## Ranges of the units -/

def chanOk (c : Nat) : Bool := decide (c < Config.channels)
def hiveOk (h : Nat) : Bool := decide (h < Config.hives)
def queueOk (q : Nat) : Bool := decide (q < Config.queues)
def indexOk (i : Nat) : Bool := decide (i < 2 ^ 32)
def ctxOk (c : Nat) : Bool := decide (c < Config.contexts)
def moverOk (m : Nat) : Bool := decide (m < Config.moversInService)
def clusterOk (n : Nat) : Bool := decide (n < Config.clustersMax)
def linkOk (l : Nat) : Bool := decide (l < Config.links)
def chipOk (p : Nat) : Bool := decide (p < 65536)
def fenceOk (f : Nat) : Bool := decide (f < Config.fences)
def labelOk (l : Nat) : Bool := decide (l < Config.labels)
/-- Stream ports: memory-side 0 to 63, core-side 64 to 95. -/
def portOk (p : Nat) : Bool := decide (p < Config.memPorts + Config.corePorts)
def memPortOk (p : Nat) : Bool := decide (p < Config.memPorts)
/-- R449: each space has 4,096 tags. -/
def tagOk (t : Nat) : Bool := decide (t < 4096)
/-- A local address has 41 bits (R209). -/
def localOk (a : Nat) : Bool := decide (a < 2 ^ 41)

/-- R284: the fields of a frame fit their bits. -/
def Frame.wf (f : Frame) : Bool :=
  chipOk f.dst && chipOk f.src && decide (f.ftype < 16) && decide (f.hops < 16) && decide (f.level < 4) &&
    decide (f.path < 2) && decide (f.kph < 2) && decide (f.plen < 128) && decide (f.lctr < 2 ^ 56) && decide (f.clevel < 4) &&
    decide (f.credit < 64) && indexOk f.seq && indexOk f.ack && indexOk f.landed && decide (f.epoch < 2 ^ 16) &&
    decide (f.w4 < 2 ^ 64) && decide (f.srcHive < 256) && decide (f.colony < 2 ^ 24) && indexOk f.opf

def LineReq.wf (r : LineReq) : Bool :=
  decide (r.hive < 256) && decide (r.keySel < 512) && labelOk r.label && decide (r.level < 4) && localOk r.addr && r.addr % 128 == 0

def WriteKind.wf : WriteKind → Bool
  | .whole d => d.length == 128
  | .partialWrite bs => bs.all (fun b => decide (b.1 < 128))
  | .reduce _ sf acc df rnd cs =>
    decide (sf < 16) && decide (acc < 16) && decide (df < 16) && decide (rnd < 4) && cs.all (fun c => decide (c.off < 128))
  | .atomic _ is64 _ off _ _ => off % (if is64 then 8 else 4) == 0 && decide (off < 128)

def RsData.wf (m : RsData) : Bool := indexOk m.rsMeta && decide (m.data.length ≤ 128)

def Requester.wf : Requester → Bool
  | .chan c => chanOk c
  | .pre q i => queueOk q && indexOk i
  | .record q i => queueOk q && indexOk i

def TimedOut.wf : TimedOut → Bool
  | .portTag p _ t => portOk p && tagOk t
  | .slotRead q i => queueOk q && indexOk i
  | .preRead q i => queueOk q && indexOk i
  | .bindRead c => chanOk c
  | .line c => chanOk c
  | .waiting _ a => localOk a
  | .remote _ => true
  | .hostFlush _ => true
  | .tableRead _ => true
  | .slotWalk q i => queueOk q && indexOk i
  | .hostRead _ => true

def Overrun.wf : Overrun → Bool
  | .commandAbort c => chanOk c
  | .queueReset q => queueOk q
  | .contextKill c => ctxOk c
  | .hiveReset h => hiveOk h
  | .warmReset => true

def GUnit.wf : GUnit → Bool
  | .mover m => moverOk m
  | .propolis p => memPortOk p
  | .link l => linkOk l

def ErrUnit.wf : ErrUnit → Bool
  | .mover m => decide (m < Config.moversBuilt)
  | .way b st w => decide (b < 8) && decide (st < 256) && decide (w < 24)
  | .keyRow k => decide (k < 512)
  | .sram _ _ => true
  | .lane l n => linkOk l && decide (n < 9)
  | .bitmapWord p _ => memPortOk p
  | .fenceCacheLine f => fenceOk f
  | .ctxOrQueueStorage _ _ h => (h.map hiveOk).getD true
  | .routeCopy c => chipOk c
  | .flowRow p => chipOk p
  | .blockStorage _ _ => true
  | .firstLevel m e => moverOk m && decide (e < Config.l1Entries)
  | .directory e => decide (e < Config.dirEntries)
  | .atsEntry e => decide (e < Config.atsEntries)
  | .spadLine n o => clusterOk n && decide (o < 2 ^ 24) && o % 128 == 0
  | .keyPath => true
  | .keeper => true

def SramArray.wf : SramArray → Bool
  | .instance_ _ => true
  | .level2 b st => decide (b < 8) && decide (st < 256)
  | .ats => true

def SharedPoint.wf : SharedPoint → Bool
  | .port p => memPortOk p
  | .linkSender l => linkOk l
  | .hostOut => true

/-- A write that arrives whole: at least one byte, at most 4,096 (one transaction-layer packet). -/
def dataOk (d : List Byte) : Bool := decide (1 ≤ d.length) && decide (d.length ≤ 4096)

/-- The well-formed commands. -/
def Instr.wf : Instr → Bool
  | .ret c => chanOk c
  | .moveSpan c => chanOk c
  | .moveGset c => chanOk c
  | .moveTset c => chanOk c
  | .moveT c => chanOk c
  | .gather c => chanOk c
  | .scatter c => chanOk c
  | .fill c => chanOk c
  | .reduce c => chanOk c
  | .convert c => chanOk c
  | .reduceCvt c => chanOk c
  | .atomAdd c => chanOk c
  | .atomMax c => chanOk c
  | .atomMin c => chanOk c
  | .atomXchg c => chanOk c
  | .atomCas c => chanOk c
  | .signal c => chanOk c
  | .wait c => chanOk c
  | .flush c => chanOk c
  | .cap c => chanOk c
  | .loop c => chanOk c
  | .br c => chanOk c
  | .setp c => chanOk c
  | .ldG c => chanOk c
  | .stG c => chanOk c
  | .call c => chanOk c
  | .launch c => chanOk c
  | .launchQuery c => chanOk c
  | .launchReservation h => hiveOk h
  | .hiveCreate c => chanOk c
  | .hiveResize c => chanOk c
  | .hiveReset c => chanOk c
  | .hiveDestroy c => chanOk c
  | .colonyJoin c => chanOk c
  | .combGrantAttach c => chanOk c
  | .combGrantRights c => chanOk c
  | .combGrantDetach c => chanOk c
  | .keyDeriveLink c => chanOk c
  | .keyDeriveFingerprint c => chanOk c
  | .ctxCreate c => chanOk c
  | .ctxKill c => chanOk c
  | .queueBind c => chanOk c
  | .queueReset c => chanOk c
  | .queueUnbind c => chanOk c
  | .labelSet c => chanOk c
  | .invalidatePages c => chanOk c
  | .invalidateContext c => chanOk c
  | .invalidateObject c => chanOk c
  | .invalidateFence c => chanOk c
  | .resume c => chanOk c
  | .migrate c => chanOk c
  | .migrateRoundDone h => hiveOk h
  | .migrateDrainDone h => hiveOk h
  | .migrateFreezeTimeout h => hiveOk h
  | .queryCtx c => chanOk c
  | .queryHive c => chanOk c
  | .spareSwap c => chanOk c
  | .spareSwapTimeout cl _ _ => decide (cl < 5)
  | .spareRetryTimer m => moverOk m
  | .moverQuietPoint m => moverOk m
  | .homeSideSwitch m => moverOk m
  | .lcQuery => true
  | .provBegin => true
  | .provInject _ _ _ => true
  | .lcAdvance => true
  | .ownerEnrol _ => true
  | .ownerRevoke _ => true
  | .dbgChallenge => true
  | .dbgUnlock _ => true
  | .dbgRelock => true
  | .attest => true
  | .arbCommit _ => true
  | .scrap _ => true
  | .warmReset => true
  | .reboot => true
  | .pwrCap => true
  | .pwrQuery => true
  | .imgStage => true
  | .imgCheck _ => true
  | .setApply _ _ => true
  | .logRead => true
  | .waggleQuery => true
  | .waggleSend => true
  | .registerWrite bar _ d => decide (bar < 6) && dataOk d
  | .doorbellWrite p _ _ d => ctxOk p && dataOk d
  | .faultAnswer _ => true
  | .eventConsumed _ => true
  | .faultConsumed _ => true
  | .routeReload _ => true
  | .windowEntryWrite _ _ => true
  | .apertureRead _ n => decide (1 ≤ n) && decide (n ≤ 4096)
  | .apertureWrite _ d => dataOk d
  | .apertureAtomicop bar _ _ size _ _ => decide (bar < 6) && (size == 4 || size == 8 || size == 16)
  | .fenceWindowRead _ n => decide (1 ≤ n) && decide (n ≤ 4096)
  | .inboundUnsupportedRequest _ => true
  | .msixMessageSend v => decide (v < Config.vectors)
  | .atsTranslationCompletion _ _ => true
  | .atsRequestTimeout _ => true
  | .atsInvalidationRequest _ p _ _ => (p.map (fun x => decide (x < 2 ^ 20))).getD true
  | .prgResponse p g _ => decide (p < 2 ^ 20) && decide (g < 512)
  | .hostFlushReadCompletion _ => true
  | .pcieConventionalReset => true
  | .functionLevelReset => true
  | .slotFetch q => queueOk q
  | .slotReadDone q i => queueOk q && indexOk i
  | .preTranslate q i => queueOk q && indexOk i
  | .preTranslationTimeout q i => queueOk q && indexOk i
  | .dispatch c => chanOk c
  | .commandComplete c => chanOk c
  | .abortSettleDone c => chanOk c
  | .streamResponse p _ t _ _ _ m => portOk p && tagOk t && m.wf
  | .streamRequestTimeout t => t.wf
  | .creditReturn p _ _ => portOk p
  | .initialCreditTimeout p => portOk p
  | .tableWalkDone _ => true
  | .pageFaultServiceTimeout r => r.wf
  | .queueWatchdogExpiry c => chanOk c
  | .waitTimeout c => chanOk c
  | .fenceCacheFillDone f => fenceOk f
  | .fenceCacheWriteback f => fenceOk f
  | .fenceTableSweepDone => true
  | .resetEscalation o => o.wf
  | .clusterFault n => clusterOk n
  | .clusterPowerGood n => clusterOk n
  | .clusterClearDone n _ => clusterOk n
  | .clusterClearTimeout n => clusterOk n
  | .kernelEnd n e ws => clusterOk n && decide (e < 2 ^ 64) && ws.all (fun w => decide (w.1 < 2 ^ 24))
  | .clusterInterrupt n => clusterOk n
  | .resizeTimeout h => hiveOk h
  | .labelWindowBoundary l => labelOk l
  | .meterRefresh => true
  | .arbiterAgeExpiry p _ => p.wf
  | .powerCapSample rs => decide (rs.length ≤ 8)
  | .propolisRead r => r.wf
  | .propolisWrite r k => r.wf && k.wf
  | .sliceOpeningDone _ p => memPortOk p
  | .memoryScrub a _ _ _ m => localOk a && a % 128 == 0 && m.all (·.wf)
  | .sramScrub a _ _ _ => a.wf
  | .errorReport u _ => u.wf
  | .wearBucketRoll => true
  | .wearCountSave => true
  | .logPersist => true
  | .swarmFrameReceive l f _ => linkOk l && f.wf
  | .probe l => linkOk l
  | .ack p => chipOk p
  | .opn p => chipOk p
  | .close p => chipOk p
  | .hello l _ => linkOk l
  | .keyx l => linkOk l
  | .write p n => chipOk p && indexOk n
  | .writep p n => chipOk p && indexOk n
  | .reduceFrame p n => chipOk p && indexOk n
  | .atom p n => chipOk p && indexOk n
  | .read p n => chipOk p && indexOk n
  | .waitFrame p n => chipOk p && indexOk n
  | .rdata p n => chipOk p && indexOk n
  | .resp p n => chipOk p && indexOk n
  | .pcsLock l => linkOk l
  | .pcsLockLoss l => linkOk l
  | .linkSilenceTimeout l => linkOk l
  | .holdDownEnd l => linkOk l
  | .helloRepeat l => linkOk l
  | .keyxRepeat l => linkOk l
  | .openRepeat p => chipOk p
  | .probeInterval l => linkOk l
  | .ackDelay p => chipOk p
  | .retransmitTimeout p n => chipOk p && indexOk n
  | .oldKeyRetire l => linkOk l
  | .sprayEnter p => chipOk p
  | .orderedReturn p => chipOk p
  | .flowIdleClose p => chipOk p
  | .flowUnreachableTimeout p => chipOk p
  | .forwardQueueTimeout _ => true
  | .refclkLoss => true
  | .refclkRestore => true
  | .clockStartDemand _ => true
  | .clockLock _ => true
  | .clockStartTimeout _ => true
  | .clockIdleStop _ => true
  | .unitGate u => u.wf
  | .unitWake u => u.wf
  | .blockWarmReset => true
  | .coldReset => true
  | .coldBoot _ _ _ _ => true
  | .brownOut => true
  | .keeperWatchdogExpiry => true
  | .drbgReseed => true
  | .drbgHealthFail => true
  | .challengeExpiry => true
  | .fuseVppTimeout => true
  | .presence => true
  | .wake => true
  | .capFrame => true
  | .out => true
  | .echo => true
  | .echoReply => true
  | .waggleFrameReceive _ => true
  | .presenceTimer => true
  | .censusAgeOut k => decide (k < 256)
  | .waggleCapExpiry => true
  | .outWaitTimeout => true
  | .dbgWinAccess op sp h a _ => decide (op < 4) && decide (sp < 4) && decide (h < 256) && decide (a < 2 ^ 44)
  | .tapMboxAccess o _ _ => decide (o < 65536)
  | .tapTraceRead x => decide (x.ir < 256) && decide (x.hive < 256)
  | .hostReadCompletion _ _ _ => true
  | .fusePulseEnd _ => true
  | .fuseVppOk => true
  | .priEnableChange _ n => n.all (fun k => decide (k < 2 ^ 32))
  | .pciePowerStateChange _ => true

end Sys2Proof
end

