-- ==== Sys2Proof/Certificates/Slice0/Obligations.lean ====
section
/-! DEFINITION. The statements about the model, each one a proposition that formalises rules of the spec. -/

open Sys2Proof Sys2Proof.Machine Sys2Proof.Safety

/-! ## The step -/

/-- A step takes the command at the front of the queue and performs it with the queue's rest (log 2). -/
def Obligations.StepRunsTheFrontCommand : Prop :=  ∀ (c : Instr) (rest : List Instr) (s : State), s.pending = c :: rest →
    step s = exec c { s with pending := rest } ∧
      step { s with pending := c :: rest } = exec c { s with pending := rest }

/-- On an empty queue one tick of the keeper clock passes: both counters rise, and where nothing of the block's own
waits, no frame, no instruction, no sequence, no line and no host access, nothing else changes but the cycle counts of
the control clock and of idle flows (log 2: the model's choice). -/
def Obligations.StepIdlesOneTick : Prop :=  ∀ s : State, s.pending = [] →
    Answers (step s) (fun t =>
      t.clk.ticks = s.clk.ticks + 1 ∧ t.clk.coldTicks = s.clk.coldTicks + 1 ∧ t.pending = [] ∧
        (AtRest s →
          let n := if s.clk.control.ready then Config.controlCycles s.clk.coldTicks else 0
          t = { s with
            clk := { s.clk with ticks := s.clk.ticks + 1, coldTicks := s.clk.coldTicks + 1
                                controlCycles := s.clk.controlCycles + n }
            sw := { s.sw with flows := Tab.mapv s.sw.flows (fun p x =>
              { x with idleFor := if flowIdle s p then x.idleFor + n else 0 }) } }))

/-- After a cold reset every field of the mailbox registers is 0 (R394), no fast clock is requested, `hx_down` is high
and `wg_hold` released (R442), every link is DOWN, every hive FREE, every queue UNBOUND, every channel FREE, every key
slot EMPTY and every slice FRESH (R350: a cold reset clears every state). That a BLANK part's fuses read 0 is R362. -/
def Obligations.ResetLeavesTheBlockCleared : Prop :=  let s := State.reset
  s.kp.mbox = { bootStage := 0, fwCopy := false, setCopy := false, vecShort := false, setFail := false,
                fwFallback := false, isOut := false, pmbFail := false, clkFail := false, drbgFail := false,
                fwSecver := 0, setSecver := 0, op := 0, argLen := 0, tag := 0, busy := false, replyStatus := 0,
                replyLen := 0, replyTag := 0, refused := 0, args := [], reply := [], rebootTag := none, resetAsked := false } ∧
    s.clk.hxDown = true ∧ s.clk.wgHold = false ∧ s.clk.control.req = false ∧ s.clk.stream.req = false ∧
    (∀ l, (linkAt s l).state = .down) ∧ (∀ h, (hiveAt s h).state = .free) ∧ (∀ q, (queueAt s q).state = .unbound) ∧
    (∀ c, (chanAt s c).state = .free) ∧ (∀ k, (slotAt s k).loaded = false) ∧ (∀ a, (sliceAt s a).state = .fresh) ∧
    (∀ n, (clusterAt s n).state = .free) ∧ s.vault.fuses.drk = 0 ∧ s.vault.lc = .blank ∧ s.pending = []

/-- The four byte memories stand in canonical form after reset. -/
def Obligations.ResetMemoryIsCanonical : Prop := MemoryWf State.reset

/-- Every step keeps the canonical form of the four byte memories. -/
def Obligations.StepsKeepMemoryCanonical : Prop :=  ∀ s t : State, MemoryWf s → step s = .next t → MemoryWf t

/-- No step unblows a fuse: not a reset, not a brown-out, not a command. -/
def Obligations.StepsNeverUnblowAFuse : Prop :=  ∀ s t : State, step s = .next t → FusesStay s.vault.fuses t.vault.fuses

/-- A command leaves the queue of the commands that wait as it was, and only adds to what the ports have carried. -/
def Obligations.CommandsLeaveTheQueue : Prop :=  ∀ (i : Instr) (s t : State), exec i s = .next t → t.pending = s.pending ∧ ∃ l, t.sent = s.sent ++ l

/-- R8, R443: every command is performed in every state and answers a next state, but a line request or a scrub at an
address at or above S × C, where there is no memory (R209). That is the one stop of the block. -/
def Obligations.EveryCommandAnswersANextState : Prop :=  ∀ (i : Instr) (s : State),
    (∀ r, i = .propolisRead r → lineOf r.addr < memBytes s) → (∀ r k, i = .propolisWrite r k → lineOf r.addr < memBytes s) →
    (∀ a co er po m, i = .memoryScrub a co er po m → lineOf a < memBytes s) → ∃ t, exec i s = .next t

/-! ## Tenant instructions -/

/-- R103: an instruction whose predicate is false has no effect: the channel goes on at the next word, `st`, every
register, the return stack and everything outside the channel as they were. A row that is not the current instruction
of its channel does not occur, and leaves the block as it is (log 6). -/
def Obligations.FalsePredicateSkips : Prop :=  (∀ (s : State) (c : Nat), running s c (fun _ => true) = true → (chanAt s c).holds = false →
    exec (rowOf c (chanAt s c).op) s = .next (setChan s c (fun x => { x.fresh with pc := x.nextPc, state := .running }))) ∧
  (∀ (i : Instr) (c : Nat) (s : State), channelOf i = some c → i ≠ rowOf c (chanAt s c).op → exec i s = .next s)

/-- R105, R106, R154: `BR` goes on at its target; `LOOP` counts down and goes on at its target while its count was
above 1, else clears it and falls through; `RET` under a `CALL` goes on after it, and at depth 0 ends the command with
OK. No other register and nothing outside the channel changes. -/
def Obligations.BranchesAndReturns : Prop :=  (∀ s c target, RunsOp s c (.br target) →
    exec (.br c) s = .next (setChan s c (fun x => { x.fresh with pc := target, state := .running, st := tried x .ok }))) ∧
  (∀ s c gc target, RunsOp s c (.loop gc target) →
    exec (.loop c) s = .next (setChan s c (fun x =>
      if 1 < (x.greg gc).toNat then
        { x.fresh with g := x.g.set gc (x.greg gc - 1), pc := target, state := .running, st := tried x .ok }
      else { x.fresh with g := x.g.set gc 0, pc := x.nextPc, state := .running, st := tried x .ok }))) ∧
  (∀ s c f r, RunsOp s c .ret → (chanAt s c).stack = f :: r →
    exec (.ret c) s = .next (setChan s c (fun x =>
      { x.fresh with pc := f.pc, state := .running, stack := r, code := f.code, base := f.base }))) ∧
  (∀ s c, RunsOp s c .ret → (chanAt s c).stack = [] →
    exec (.ret c) s = .next (setChan s c (fun x =>
      { x.fresh with state := .ending, retired := true, endStatus := .ok, endDepth := 0, endWord := x.pc })))

/-- R134, R155: `SETP` writes its predicate (a write to `p0` has none), `MOVE` GSET its general register and `MOVE`
TSET its tile register, or a general register in mode 3; the channel goes on at the next word, and no other register
and nothing outside the channel changes. R155: what each comparison of `SETP` compares: equality, order without and
with sign, and `st` against a code. -/
def Obligations.RegisterInstructions : Prop :=
  (∀ s c pd cmp ga b imm, RunsOp s c (.setp pd cmp ga b imm) →
    exec (.setp c) s = .next (ended s c (fun x => x.setP pd (setpResult x cmp ga b imm)))) ∧
  (∀ s c pd cmp ga b imm, RunsOp s c (.setp pd cmp ga b imm) → pd ≠ 0 →
    Answers (exec (.setp c) s) (fun t => (chanAt t c).p = (chanAt s c).p.set pd (setpResult (chanAt s c) cmp ga b imm) ∧
      (chanAt t c).g = (chanAt s c).g ∧ (chanAt t c).t = (chanAt s c).t)) ∧
  (∀ s c cmp ga b imm, RunsOp s c (.setp 0 cmp ga b imm) →
    exec (.setp c) s = .next (ended s c id)) ∧
  (∀ s c rop gd ga gb imm ext, RunsOp s c (.gset rop gd ga gb imm ext) →
    exec (.moveGset c) s =
      .next (ended s c (fun x => { x with g := x.g.set gd (gsetResult x rop ga gb imm ext) }))) ∧
  (∀ s c m td ts gs w w3g e, RunsOp s c (.tset m td ts gs w w3g e) →
    exec (.moveTset c) s = .next (ended s c (fun x => tsetResult x m td ts gs w w3g e))) ∧
  (∀ (x : Channel) (ga gb imm : Nat) (i : Int),
    (setpResult x 0 ga (.inr gb) imm = true ↔ x.greg ga = x.greg gb) ∧
    (setpResult x 1 ga (.inr gb) imm = true ↔ x.greg ga ≠ x.greg gb) ∧
    (setpResult x 2 ga (.inr gb) imm = true ↔ (x.greg ga).toNat < (x.greg gb).toNat) ∧
    (setpResult x 3 ga (.inr gb) imm = true ↔ ¬ (x.greg ga).toNat < (x.greg gb).toNat) ∧
    (setpResult x 4 ga (.inr gb) imm = true ↔ (x.greg ga).toInt < (x.greg gb).toInt) ∧
    (setpResult x 5 ga (.inr gb) imm = true ↔ ¬ (x.greg ga).toInt < (x.greg gb).toInt) ∧
    (setpResult x 6 ga (.inr gb) imm = true ↔ x.st.code = imm) ∧
    (setpResult x 7 ga (.inr gb) imm = true ↔ x.st.code ≠ imm) ∧
    (setpResult x 0 ga (.inl i) imm = true ↔ x.greg ga = BitVec.ofInt 64 i))

/-- R154: `LD.G` of an aligned address whose line is read loads 8 bytes into a general register, or 32 into a tile
register, and goes on at the next word; a misaligned one ends with RANGE. `ST.G` and `CAP` of an aligned address whose
line accepts the write end OK; misaligned they end with RANGE. Where the line lies in reach on this chip, `LD.G`,
`ST.G` and `CAP` run to their end at once: the load leaves memory as it was, the store writes its eight bytes and no
other. -/
def Obligations.LoadsAndStores : Prop :=  (∀ s c d ga off t l, RunsOp s c (.ldG false d ga off) → dataAddr (chanAt s c) ga off % 8 = 0 →
    (chanAt s c).lineStatus = none → readLine s c (lineOf (dataAddr (chanAt s c) ga off)) = (t, .data l) →
    exec (.ldG c) s = .next (retire (setChan t c (fun x =>
      { x with g := x.g.set d (BitVec.ofNat 64 (leNat ((l.drop (dataAddr (chanAt s c) ga off % 128)).take 8))) })) c .ok)) ∧
  (∀ s c d ga off t l, RunsOp s c (.ldG true d ga off) → dataAddr (chanAt s c) ga off % 32 = 0 →
    (chanAt s c).lineStatus = none → readLine s c (lineOf (dataAddr (chanAt s c) ga off)) = (t, .data l) →
    exec (.ldG c) s = .next (retire (setChan t c (fun x =>
      { x with t := x.t.set d (wordsOf 4 (l.drop (dataAddr (chanAt s c) ga off % 128))) })) c .ok)) ∧
  (∀ s c dt d ga off, RunsOp s c (.ldG dt d ga off) → dataAddr (chanAt s c) ga off % (if dt then 32 else 8) ≠ 0 →
    exec (.ldG c) s = .next (retire s c .range)) ∧
  (∀ s c gs ga off t b, RunsOp s c (.stG gs ga off) → dataAddr (chanAt s c) ga off % 8 = 0 →
    (chanAt s c).lineStatus = none → (chanAt s c).prog = 0 →
    writeLine s c (lineOf (dataAddr (chanAt s c) ga off))
      (word8 (dataAddr (chanAt s c) ga off) ((chanAt s c).greg gs)) false false = (t, .data b) →
    remoteBusy t c = false → (chanAt t c).lineStatus = none →
    exec (.stG c) s = .next (retire (dropForager (setChan t c (fun x => { x with prog := 1 })) c) c .ok)) ∧
  (∀ s c gs ga off, RunsOp s c (.stG gs ga off) → dataAddr (chanAt s c) ga off % 8 ≠ 0 →
    exec (.stG c) s = .next (retire s c .range)) ∧
  (∀ s c a gs t b, RunsOp s c (.cap a gs) → (chanAt s c).src a % 2 ^ 57 % 8 = 0 →
    (chanAt s c).lineStatus = none → (chanAt s c).prog = 0 →
    writeLine s c (lineOf ((chanAt s c).src a % 2 ^ 57))
      (word8 ((chanAt s c).src a % 2 ^ 57) ((chanAt s c).greg gs)) false true = (t, .data b) →
    remoteBusy t c = false → (chanAt t c).lineStatus = none →
    exec (.cap c) s = .next (retire (dropForager (setChan t c (fun x => { x with prog := 1 })) c) c .ok)) ∧
  (∀ s c a gs, RunsOp s c (.cap a gs) → (chanAt s c).src a % 2 ^ 57 % 8 ≠ 0 →
    exec (.cap c) s = .next (retire s c .range)) ∧
  (∀ s c d ga off a, RunsOp s c (.ldG false d ga off) → Begins s c → dataAddr (chanAt s c) ga off % 8 = 0 →
    InReach s c (lineOf (dataAddr (chanAt s c) ga off)) .rd a →
    Answers (exec (.ldG c) s) (fun t =>
      (chanAt t c).g = (chanAt s c).g.set d (BitVec.ofNat 64
        (leNat (((lineBytes s a).drop (dataAddr (chanAt s c) ga off % 128)).take 8))) ∧
        (chanAt t c).pc = (chanAt s c).nextPc ∧ t.pr.mem = s.pr.mem)) ∧
  (∀ s c d ga off a, RunsOp s c (.ldG true d ga off) → Begins s c → dataAddr (chanAt s c) ga off % 32 = 0 →
    InReach s c (lineOf (dataAddr (chanAt s c) ga off)) .rd a →
    Answers (exec (.ldG c) s) (fun t => WentOn s t c ∧
      (chanAt t c).t = (chanAt s c).t.set d (wordsOf 4 ((lineBytes s a).drop (dataAddr (chanAt s c) ga off % 128))) ∧
        t.pr.mem = s.pr.mem)) ∧
  (∀ s c gs ga off a, RunsOp s c (.stG gs ga off) → Begins s c → dataAddr (chanAt s c) ga off % 8 = 0 →
    InReach s c (lineOf (dataAddr (chanAt s c) ga off)) .wr a →
    Answers (exec (.stG c) s) (fun t => WentOn s t c ∧
      t.pr.mem = memAfter s a (word8 (dataAddr (chanAt s c) ga off) ((chanAt s c).greg gs)))) ∧
  (∀ s c x gs a, RunsOp s c (.cap x gs) → Begins s c → (chanAt s c).src x % 2 ^ 57 % 8 = 0 →
    InReach s c (lineOf ((chanAt s c).src x % 2 ^ 57)) .wr a →
    Answers (exec (.cap c) s) (fun t => WentOn s t c ∧
      t.pr.mem = memAfter s a (word8 ((chanAt s c).src x % 2 ^ 57) ((chanAt s c).greg gs))))

/-- R114, R119: how a running instruction ends: with OK, or with a status that `try` keeps, the channel goes on at the
next word and `st` takes the status under `try`; with DECODE, ABORTED or HW_ERROR, or without `try`, its command is
aborted with that status. -/
def Obligations.InstructionsEnd : Prop :=  (∀ s c, (chanAt s c).state = .running →
    retire s c .ok = setChan s c (fun x => { x.fresh with pc := x.nextPc, state := .running, st := tried x .ok })) ∧
  (∀ s c st, (chanAt s c).state = .running → st ≠ .ok → zTry (chanAt s c).word = true → st ≠ .decode → st ≠ .aborted →
    st ≠ .hwError →
    (chanAt (retire s c st) c).state = .running ∧ (chanAt (retire s c st) c).st = st ∧
      (chanAt (retire s c st) c).pc = (chanAt s c).nextPc ∧ (chanAt (retire s c st) c).g = (chanAt s c).g) ∧
  (∀ s c st, (chanAt s c).state = .running → (chanAt s c).retired = false → st ≠ .ok →
    (zTry (chanAt s c).word = false ∨ st = .decode ∨ st = .aborted ∨ st = .hwError) →
    (chanAt (retire s c st) c).state = .ending ∧ (chanAt (retire s c st) c).endStatus = st ∧
      (chanAt (retire s c st) c).endWord = (chanAt s c).pc ∧
      (chanAt (retire s c st) c).endDepth = (chanAt s c).stack.length)

/-- R106, R107: `CALL` of an aligned object within the return stack's four entries enters it: one fetched before in the
command at once, another once its lines are read and its words decode. A misaligned address and a full return stack end
it with RANGE. -/
def Obligations.CallEntersObjects : Prop :=  (∀ s c x e, RunsOp s c (.call x) → (chanAt s c).src x % 2 ^ 57 % 256 = 0 → (chanAt s c).stack.length < 4 →
    (chanAt s c).objects.find? (fun o => o.1 == (chanAt s c).src x % 2 ^ 57) = some e →
    exec (.call c) s = .next (setChan s c (fun y =>
      { y.fresh with
        pc := 0, state := .running, stack := { code := y.code, base := y.base, pc := y.nextPc } :: y.stack,
        code := e.2, base := (chanAt s c).src x % 2 ^ 57,
        objects := if y.objects.any (fun o => o.1 == (chanAt s c).src x % 2 ^ 57) then y.objects
                   else y.objects ++ [((chanAt s c).src x % 2 ^ 57, e.2)],
        st := tried y .ok }))) ∧
  (∀ s c x t l, RunsOp s c (.call x) → (chanAt s c).src x % 2 ^ 57 % 256 = 0 → (chanAt s c).stack.length < 4 →
    (chanAt s c).objects.find? (fun o => o.1 == (chanAt s c).src x % 2 ^ 57) = none → (chanAt s c).lineStatus = none →
    readLineAs .object s c ((chanAt s c).src x % 2 ^ 57) = (t, .data l) → needsLine2 (wordsOf 16 l) = false →
    firstBad false ((chanAt t c).q == 0) (wordsOf 16 l) = none →
    Answers (exec (.call c) s) (fun u =>
      (chanAt u c).code = wordsOf 16 l ∧ (chanAt u c).pc = 0 ∧ (chanAt u c).base = (chanAt s c).src x % 2 ^ 57 ∧
        (chanAt u c).stack.length = (chanAt t c).stack.length + 1 ∧ (chanAt u c).g = (chanAt t c).g)) ∧
  (∀ s c x a, RunsOp s c (.call x) → Begins s c → (chanAt s c).src x % 2 ^ 57 % 256 = 0 →
    (chanAt s c).stack.length < 4 →
    (chanAt s c).objects.find? (fun o => o.1 == (chanAt s c).src x % 2 ^ 57) = none →
    InReach s c ((chanAt s c).src x % 2 ^ 57) .rd a → needsLine2 (wordsOf 16 (lineBytes s a)) = false →
    firstBad false ((chanAt s c).q == 0) (wordsOf 16 (lineBytes s a)) = none →
    Answers (exec (.call c) s) (fun t =>
      (chanAt t c).code = wordsOf 16 (lineBytes s a) ∧ (chanAt t c).pc = 0 ∧ (chanAt t c).state = .running ∧
        (chanAt t c).stack.length = (chanAt s c).stack.length + 1 ∧ (chanAt t c).g = (chanAt s c).g ∧
        t.pr.mem = s.pr.mem)) ∧
  (∀ s c x, RunsOp s c (.call x) →
    ((chanAt s c).src x % 2 ^ 57 % 256 ≠ 0 ∨ 4 ≤ (chanAt s c).stack.length) →
    exec (.call c) s = .next (retire s c .range))

/-- R135, R136, R139, R142, R143: a span copy, a tile copy, a fill, a conversion and the two reduces whose operands
pass their checks and whose lines are all served at once end OK with every piece performed; a span of length 0 ends OK
at once; spans that overlap, one that passes 2^40 bytes, and a tile operand that fails its check end with the status
the rules give. Where the instruction is one piece whose lines lie in reach on this chip, `MOVE` SPAN, `MOVE.T`, `FILL`
of a tile and of a span, `CONVERT`, `REDUCE` and `REDUCE.CVT` run to their end at once: the channel is at the next
word, and the destination line alone has changed, to what the piece makes of its old bytes and of the source line.
R135: what the pieces of a span copy say: every destination byte of the span is written, by the piece of its line, with
the source byte at the same distance; and a piece writes no byte outside the span. -/
def Obligations.MovesPerformEveryPiece : Prop :=
  (∀ s c d x l t, RunsOp s c (.span d x l) → (chanAt s c).src l ≠ 0 → (chanAt s c).src l ≤ 2 ^ 40 →
    (chanAt s c).src l ≤ ((chanAt s c).src d % 2 ^ 57 + 2 ^ 57 - (chanAt s c).src x % 2 ^ 57) % 2 ^ 57 →
    (chanAt s c).src l ≤ ((chanAt s c).src x % 2 ^ 57 + 2 ^ 57 - (chanAt s c).src d % 2 ^ 57) % 2 ^ 57 →
    Performed s c (copySpan ((chanAt s c).src x % 2 ^ 57) ((chanAt s c).src d % 2 ^ 57) ((chanAt s c).src l)) t →
    exec (.moveSpan c) s = .next (retire t c .ok)) ∧
  (∀ s c d x l, RunsOp s c (.span d x l) → (chanAt s c).src l = 0 →
    exec (.moveSpan c) s = .next (retire s c .ok)) ∧
  (∀ s c d x l, RunsOp s c (.span d x l) → 2 ^ 40 < (chanAt s c).src l →
    exec (.moveSpan c) s = .next (retire s c .range)) ∧
  (∀ s c d x l, RunsOp s c (.span d x l) → (chanAt s c).src l ≠ 0 →
    (((chanAt s c).src d % 2 ^ 57 + 2 ^ 57 - (chanAt s c).src x % 2 ^ 57) % 2 ^ 57 < (chanAt s c).src l ∨
      ((chanAt s c).src x % 2 ^ 57 + 2 ^ 57 - (chanAt s c).src d % 2 ^ 57) % 2 ^ 57 < (chanAt s c).src l) →
    exec (.moveSpan c) s = .next (retire s c .range)) ∧
  (∀ s c td ts tr d x ps t, RunsOp s c (.moveT td ts tr) → Tile.ofWords ((chanAt s c).treg td) true = .ok d →
    Tile.ofWords ((chanAt s c).treg ts) true = .ok x → moveTPlan d x tr = .ok ps → Performed s c ps t →
    exec (.moveT c) s = .next (retire t c .ok)) ∧
  (∀ s c td gs d ps t, RunsOp s c (.fillTile td gs) → Tile.ofWords ((chanAt s c).treg td) true = .ok d →
    fillTilePlan d ((chanAt s c).greg gs).toNat = .ok ps → Performed s c ps t →
    exec (.fill c) s = .next (retire t c .ok)) ∧
  (∀ s c gs ga gl ps t, RunsOp s c (.fillSpan gs ga gl) →
    fillSpanPlan (((chanAt s c).greg ga).toNat % 2 ^ 57) ((chanAt s c).greg gl).toNat ((chanAt s c).greg gs).toNat = .ok ps →
    Performed s c ps t → exec (.fill c) s = .next (retire t c .ok)) ∧
  (∀ s c td ts rnd gseed d x ps t, RunsOp s c (.convert td ts rnd gseed) →
    Tile.ofWords ((chanAt s c).treg td) false = .ok d → Tile.ofWords ((chanAt s c).treg ts) false = .ok x →
    convertPlan d x rnd ((chanAt s c).greg gseed) = .ok ps → Performed s c ps t →
    exec (.convert c) s = .next (retire t c .ok)) ∧
  (∀ s c td ts op acc rnd gseed d x ps t, RunsOp s c (.reduce td ts op acc rnd gseed) →
    Tile.ofWords ((chanAt s c).treg td) (acc == 14) = .ok d → Tile.ofWords ((chanAt s c).treg ts) false = .ok x →
    reducePlan false d x op acc rnd ((chanAt s c).greg gseed) = .ok ps → Performed s c ps t →
    exec (.reduce c) s = .next (retire t c .ok)) ∧
  (∀ s c td ts op acc rnd gseed d x ps t, RunsOp s c (.reduceCvt td ts op acc rnd gseed) →
    Tile.ofWords ((chanAt s c).treg td) false = .ok d → Tile.ofWords ((chanAt s c).treg ts) false = .ok x →
    reducePlan true d x op acc rnd ((chanAt s c).greg gseed) = .ok ps → Performed s c ps t →
    exec (.reduceCvt c) s = .next (retire t c .ok)) ∧
  (∀ s c d x l p sa da, RunsOp s c (.span d x l) → Begins s c → (chanAt s c).src l ≠ 0 → (chanAt s c).src l ≤ 2 ^ 40 →
    (chanAt s c).src l ≤ ((chanAt s c).src d % 2 ^ 57 + 2 ^ 57 - (chanAt s c).src x % 2 ^ 57) % 2 ^ 57 →
    (chanAt s c).src l ≤ ((chanAt s c).src x % 2 ^ 57 + 2 ^ 57 - (chanAt s c).src d % 2 ^ 57) % 2 ^ 57 →
    copySpan ((chanAt s c).src x % 2 ^ 57) ((chanAt s c).src d % 2 ^ 57) ((chanAt s c).src l) = [p] →
    PieceInReach s c p sa da →
    Answers (exec (.moveSpan c) s) (fun t => WentOn s t c ∧ t.pr.mem = memAfter s da (p.kind (pieceSource s p sa)))) ∧
  (∀ s c td ts tr d x p sa da, RunsOp s c (.moveT td ts tr) → Begins s c →
    Tile.ofWords ((chanAt s c).treg td) true = .ok d → Tile.ofWords ((chanAt s c).treg ts) true = .ok x →
    moveTPlan d x tr = .ok [p] → PieceInReach s c p sa da →
    Answers (exec (.moveT c) s) (fun t => WentOn s t c ∧ t.pr.mem = memAfter s da (p.kind (pieceSource s p sa)))) ∧
  (∀ s c td gs d p sa da, RunsOp s c (.fillTile td gs) → Begins s c → Tile.ofWords ((chanAt s c).treg td) true = .ok d →
    fillTilePlan d ((chanAt s c).greg gs).toNat = .ok [p] → PieceInReach s c p sa da →
    Answers (exec (.fill c) s) (fun t => WentOn s t c ∧ t.pr.mem = memAfter s da (p.kind (pieceSource s p sa)))) ∧
  (∀ s c gs ga gl p sa da, RunsOp s c (.fillSpan gs ga gl) → Begins s c →
    fillSpanPlan (((chanAt s c).greg ga).toNat % 2 ^ 57) ((chanAt s c).greg gl).toNat ((chanAt s c).greg gs).toNat = .ok [p] →
    PieceInReach s c p sa da →
    Answers (exec (.fill c) s) (fun t => WentOn s t c ∧ t.pr.mem = memAfter s da (p.kind (pieceSource s p sa)))) ∧
  (∀ s c td ts rnd gseed d x p sa da, RunsOp s c (.convert td ts rnd gseed) → Begins s c →
    Tile.ofWords ((chanAt s c).treg td) false = .ok d → Tile.ofWords ((chanAt s c).treg ts) false = .ok x →
    convertPlan d x rnd ((chanAt s c).greg gseed) = .ok [p] → PieceInReach s c p sa da →
    Answers (exec (.convert c) s) (fun t => WentOn s t c ∧ t.pr.mem = memAfter s da (p.kind (pieceSource s p sa)))) ∧
  (∀ s c td ts op acc rnd gseed d x p sa da, RunsOp s c (.reduce td ts op acc rnd gseed) → Begins s c →
    Tile.ofWords ((chanAt s c).treg td) (acc == 14) = .ok d → Tile.ofWords ((chanAt s c).treg ts) false = .ok x →
    reducePlan false d x op acc rnd ((chanAt s c).greg gseed) = .ok [p] → PieceInReach s c p sa da →
    Answers (exec (.reduce c) s) (fun t => WentOn s t c ∧ t.pr.mem = memAfter s da (p.kind (pieceSource s p sa)))) ∧
  (∀ s c td ts op acc rnd gseed d x p sa da, RunsOp s c (.reduceCvt td ts op acc rnd gseed) → Begins s c →
    Tile.ofWords ((chanAt s c).treg td) false = .ok d → Tile.ofWords ((chanAt s c).treg ts) false = .ok x →
    reducePlan true d x op acc rnd ((chanAt s c).greg gseed) = .ok [p] → PieceInReach s c p sa da →
    Answers (exec (.reduceCvt c) s) (fun t => WentOn s t c ∧ t.pr.mem = memAfter s da (p.kind (pieceSource s p sa)))) ∧
  (∀ src dst len k (x : Source), dst + len ≤ 2 ^ 57 → src + len ≤ 2 ^ 57 → k < len →
    ∃ p ∈ copySpan src dst len, p.dst = lineOf (dst + k) ∧
      nth (writeApply (p.kind x) (List.replicate 128 0)).1 ((dst + k) % 128) 0 = x.now (src + k)) ∧
  (∀ src dst len (x : Source) (old : List Byte), dst + len ≤ 2 ^ 57 → src + len ≤ 2 ^ 57 → old.length = 128 →
    ∀ p ∈ copySpan src dst len, ∀ i < 128, (p.dst + i < dst ∨ dst + len ≤ p.dst + i) →
      nth (writeApply (p.kind x) old).1 i 0 = nth old i 0)

/-- R138: a `GATHER` and a `SCATTER` whose list is aligned and no longer than 2^24, and whose rows are all served at
once, end OK; a longer or a misaligned list ends them with RANGE. A `GATHER` and a plain `SCATTER` of one row that is
one piece, whose index line and whose own lines lie in reach on this chip, run to their end at once: the destination
line alone has changed. -/
def Obligations.GatherAndScatterRunTheirRows : Prop :=  (∀ s c gi gb gn gl go iw8 pitch row u t o, RunsOp s c (.gather gi gb gn gl go iw8 pitch row) →
    o = { list := ((chanAt s c).greg gi).toNat % 2 ^ 57, width := if iw8 then 8 else 4,
          count := ((chanAt s c).greg gn).toNat, limit := ((chanAt s c).greg gl).toNat,
          plan := fun k idx => .ok (copySpan ((((chanAt s c).greg gb).toNat + idx * pitch) % 2 ^ 57)
            ((((chanAt s c).greg go).toNat + k * row) % 2 ^ 57) row) : RowOp } →
    o.count ≤ 2 ^ 24 → o.list % o.width = 0 → (chanAt s c).lineStatus = none →
    runRows s c o (o.count + 1) = (u, some .ok) → Settled u c t →
    exec (.gather c) s = .next (retire t c .ok)) ∧
  (∀ s c gi gb gn gl go iw8 pitch row u t o, RunsOp s c (.scatter gi gb gn gl go iw8 0 pitch row) →
    o = { list := ((chanAt s c).greg gi).toNat % 2 ^ 57, width := if iw8 then 8 else 4,
          count := ((chanAt s c).greg gn).toNat, limit := ((chanAt s c).greg gl).toNat,
          plan := fun k idx => .ok (copySpan ((((chanAt s c).greg go).toNat + k * row) % 2 ^ 57)
            ((((chanAt s c).greg gb).toNat + idx * pitch) % 2 ^ 57) row) : RowOp } →
    o.count ≤ 2 ^ 24 → o.list % o.width = 0 → (chanAt s c).lineStatus = none →
    runRows s c o (o.count + 1) = (u, some .ok) → Settled u c t →
    exec (.scatter c) s = .next (retire t c .ok)) ∧
  (∀ s c gi gb gn gl go iw8 op pitch row u t o, RunsOp s c (.scatter gi gb gn gl go iw8 op pitch row) →
    (op = 1 ∨ op = 2) → row % (if op = 1 then 4 else 2) = 0 →
    (∀ idx, (((chanAt s c).greg gb).toNat + idx * pitch) % 2 ^ 57 % (if op = 1 then 4 else 2) = 0) →
    o = { list := ((chanAt s c).greg gi).toNat % 2 ^ 57, width := if iw8 then 8 else 4,
          count := ((chanAt s c).greg gn).toNat, limit := ((chanAt s c).greg gl).toNat,
          plan := fun k idx => .ok (scatterSum (op == 2) ((((chanAt s c).greg go).toNat + k * row) % 2 ^ 57)
            ((((chanAt s c).greg gb).toNat + idx * pitch) % 2 ^ 57) row) : RowOp } →
    o.count ≤ 2 ^ 24 → o.list % o.width = 0 → (chanAt s c).lineStatus = none →
    runRows s c o (o.count + 1) = (u, some .ok) → Settled u c t →
    exec (.scatter c) s = .next (retire t c .ok)) ∧
  (∀ s c gi gb gn gl go iw8 pitch row, RunsOp s c (.gather gi gb gn gl go iw8 pitch row) →
    (2 ^ 24 < ((chanAt s c).greg gn).toNat ∨ ((chanAt s c).greg gi).toNat % 2 ^ 57 % (if iw8 then 8 else 4) ≠ 0) →
    exec (.gather c) s = .next (retire s c .range)) ∧
  (∀ s c gi gb gn gl go iw8 op pitch row, RunsOp s c (.scatter gi gb gn gl go iw8 op pitch row) →
    (2 ^ 24 < ((chanAt s c).greg gn).toNat ∨ ((chanAt s c).greg gi).toNat % 2 ^ 57 % (if iw8 then 8 else 4) ≠ 0) →
    exec (.scatter c) s = .next (retire s c .range)) ∧
  (∀ s c gi gb gn gl go iw8 pitch row p la sa da, RunsOp s c (.gather gi gb gn gl go iw8 pitch row) → Begins s c →
    let list := ((chanAt s c).greg gi).toNat % 2 ^ 57
    let w := if iw8 then 8 else 4
    let idx := leNat (((lineBytes s la).drop (list - lineOf list)).take w)
    ((chanAt s c).greg gn).toNat = 1 → list % w = 0 → InReach s c (lineOf list) .rd la →
    idx ≠ 2 ^ (8 * w) - 1 → idx < ((chanAt s c).greg gl).toNat →
    copySpan ((((chanAt s c).greg gb).toNat + idx * pitch) % 2 ^ 57) (((chanAt s c).greg go).toNat % 2 ^ 57) row = [p] → p.srcs ≠ [lineOf list] → p.dst ≠ lineOf list →
    PieceInReach s c p sa da →
    Answers (exec (.gather c) s) (fun t => WentOn s t c ∧ t.pr.mem = memAfter s da (p.kind (pieceSource s p sa)))) ∧
  (∀ s c gi gb gn gl go iw8 pitch row p la sa da, RunsOp s c (.scatter gi gb gn gl go iw8 0 pitch row) → Begins s c →
    let list := ((chanAt s c).greg gi).toNat % 2 ^ 57
    let w := if iw8 then 8 else 4
    let idx := leNat (((lineBytes s la).drop (list - lineOf list)).take w)
    ((chanAt s c).greg gn).toNat = 1 → list % w = 0 → InReach s c (lineOf list) .rd la →
    idx ≠ 2 ^ (8 * w) - 1 → idx < ((chanAt s c).greg gl).toNat →
    copySpan (((chanAt s c).greg go).toNat % 2 ^ 57) ((((chanAt s c).greg gb).toNat + idx * pitch) % 2 ^ 57) row = [p] → p.srcs ≠ [lineOf list] → p.dst ≠ lineOf list →
    PieceInReach s c p sa da →
    Answers (exec (.scatter c) s) (fun t => WentOn s t c ∧ t.pr.mem = memAfter s da (p.kind (pieceSource s p sa))))

/-- R146: an atomic of an aligned word whose line performs it at once ends OK, and under `rv` its general register
takes the word's old value; a misaligned one ends with RANGE. Where its line lies in reach on this chip, `ATOM.ADD`,
`ATOM.MAX`, `ATOM.MIN`, `ATOM.XCHG` and `ATOM.CAS` run to their end at once. R133, R146, R312, R315: an aligned atomic
at the home of a good line writes what its operation makes of the old word and gives the old word back; the line's
other bytes and every byte outside the line stay. -/
def Obligations.AtomicsReturnTheOldValue : Prop :=
  (∀ s c op is64 sgn rv gd ga gb gc off, RunsOp s c (.atom op is64 sgn rv gd ga gb gc off) →
    let run := match op with
      | .add => exec (.atomAdd c) s
      | .max => exec (.atomMax c) s
      | .min => exec (.atomMin c) s
      | .xchg => exec (.atomXchg c) s
      | .cas => exec (.atomCas c) s
    let a := dataAddr (chanAt s c) ga off
    (∀ t old, a % (if is64 then 8 else 4) = 0 → Tab.look (chanAt s c).rob 0 = none → (chanAt s c).lineStatus = none →
      writeLine s c (lineOf a) (.atomic op is64 sgn (a % 128) ((chanAt s c).greg gb).toNat ((chanAt s c).greg gc).toNat)
        false false = (t, .data old) → remoteBusy t c = false →
      run = .next (retire (setChan t c (fun x =>
        if rv then { x with g := x.g.set gd (BitVec.ofNat 64 (leNat (old.take 8))) } else x)) c .ok)) ∧
    (a % (if is64 then 8 else 4) ≠ 0 → run = .next (retire s c .range)) ∧
    (∀ la, Begins s c → a % (if is64 then 8 else 4) = 0 → InReach s c (lineOf a) .atom la →
      let k := WriteKind.atomic op is64 sgn (a % 128) ((chanAt s c).greg gb).toNat ((chanAt s c).greg gc).toNat
      Answers run (fun t =>
        (chanAt t c).state = .running ∧ (chanAt t c).pc = (chanAt s c).nextPc ∧ t.pr.mem = memAfter s la k ∧
          (chanAt t c).g = if rv then (chanAt s c).g.set gd (BitVec.ofNat 64 (writeApply k (lineBytes s la)).2)
                           else (chanAt s c).g))) ∧
  (∀ (s : State) (hive k line level : Nat) (op : AtomOp) (is64 sg : Bool) (off v cmp : Nat) (a : Nat),
    MemoryWf s → (slotAt s k).loaded = true → (sliceAt s line).state = .opened → condOf s line = .good →
    (portAt s (homePort s line)).leftOut = false → off + (if is64 then 8 else 4) ≤ 128 →
    let n := if is64 then 8 else 4
    let r := homeWrite s hive k line (.atomic op is64 sg off v cmp) level
    let old := leNat (cellReadN 0 s.pr.mem (line + off) n)
    r.2.1 = .ok ∧ r.2.2 = old ∧
      leNat (cellReadN 0 r.1.pr.mem (line + off) n) =
        atomResult op sg (8 * n) old (v % 2 ^ (8 * n)) (cmp % 2 ^ (8 * n)) % 2 ^ (8 * n) ∧
      ((a < line + off ∨ line + off + n ≤ a) → memByte r.1 a = memByte s a))

/-- R312, R315: a whole-line write under a loaded key leaves its bytes in the line, whatever stood there, and no other
byte changed; a read of that line then gives those bytes. A read of a FRESH line gives zeros and asks its port for
nothing; one of a good line gives its bytes and one of a poisoned line POISON: it asks the port for the line (R445),
memory stays as it was, and the tweak cache alone is touched (R309). A key slot that is EMPTY ends it with HW_ERROR
(R306). R448: at a port left out, a read and a write end with TIMEOUT and change nothing; a FRESH line still reads as
zeros. Each wakes the unit (R354). -/
def Obligations.LinesReadWhatWasWritten : Prop :=  (∀ (s : State) (hive k line lv : Nat) (d : List Byte) (a : Nat), MemoryWf s → (slotAt s k).loaded = true →
    line % 128 = 0 → d.length = 128 → (sliceAt s line).state ≠ .opening → (portAt s (homePort s line)).leftOut = false →
    let t := (homeWrite s hive k line (.whole d) lv).1
    (homeWrite s hive k line (.whole d) lv).2.1 = .ok ∧ (homeRead t hive k line lv).2 = (.ok, d) ∧
      ((a < line ∨ line + 128 ≤ a) → memByte t a = memByte s a)) ∧
  (∀ (s : State) (hive k line lv : Nat), (slotAt s k).loaded = true → (sliceAt s line).state = .fresh →
    homeRead s hive k line lv = (wakeUnit s (homePort s line), .ok, List.replicate 128 0)) ∧
  (∀ (s : State) (hive k line lv : Nat), (slotAt s k).loaded = true → (sliceAt s line).state = .opened →
    (portAt s (homePort s line)).leftOut = false → condOf s line = .good →
    homeRead s hive k line lv = (useTweak (showRead (wakeUnit s (homePort s line)) line lv) k line, .ok,
      cellReadN 0 s.pr.mem line 128)) ∧
  (∀ (s : State) (hive k line lv : Nat), (slotAt s k).loaded = true → (sliceAt s line).state = .opened →
    (portAt s (homePort s line)).leftOut = false → condOf s line = .poisoned →
    homeRead s hive k line lv = (useTweak (showRead (wakeUnit s (homePort s line)) line lv) k line, .poison, [])) ∧
  (∀ (s : State) (hive k line lv : Nat), (slotAt s k).loaded = false →
    (homeRead s hive k line lv).2 = (.hwError, []) ∧ (homeRead s hive k line lv).1.pr.mem = s.pr.mem) ∧
  (∀ (s : State) (k line lv : Nat), let t := useTweak (showRead s line lv) k line
    t.pr = { s.pr with tweaks := t.pr.tweaks } ∧
      ∃ tag, t.sent = s.sent ++ [.portRequest (homePort s line) false tag (portOffset s line) lv]) ∧
  (∀ (s : State) (hive k line lv : Nat) (d : List Byte), (slotAt s k).loaded = true → (sliceAt s line).state = .opened →
    (portAt s (homePort s line)).leftOut = true →
    homeRead s hive k line lv = (wakeUnit s (homePort s line), .timeout, []) ∧
      homeWrite s hive k line (.whole d) lv = (wakeUnit s (homePort s line), .timeout, 0))

/-- R89, R93, R94, R148: a `SIGNAL` of a context that may signal, at a cached OPEN fence below the signalled value,
raises the value to it, records the signal's scope and command (R271), closes the fence where it says so, ends the
waits that this satisfies, and ends OK; where the fence holds no wait, the channel is at the next word and nothing else
has changed but the fence. At a fence that is not FREE, a signal that may not be made ends with RIGHTS, and one of 2^63
or more with RANGE; at a FREE or a CLOSED fence a signal ends with STATE; at a POISONED one it is counted and ends with
POISON. One at a fence number of 2^20 or more ends with RANGE. R91, R92, R94, R150: a `WAIT` at a cached fence of this
chip that it may wait on ends OK at once where the value has reached its target: the channel is at the next word, and
no fence has changed; at a POISONED fence it ends with the fence's error, and one that it may not wait on ends it with
RIGHTS. Where an OPEN fence has not, the channel is WAITING and the fence holds the wait. At a fence number of 2^20 or
more it ends with RANGE. R151, R253: a `FLUSH` that asks for HOST visibility while the command has host writes
unflushed issues a flush read and waits for it, at the bound of 1,024 requests (R421) until there is room for it; any
other ends OK. -/
def Obligations.SignalsWaitsAndFlushes : Prop :=
  (∀ s c v sscope shost close f fe, RunsOp s c (.signal v sscope shost close f) → (chanAt s c).lineStatus = none →
    needsFlush (chanAt s c) shost = false → (chanAt s c).src f < 2 ^ 20 →
    Tab.look s.qm.fills ((chanAt s c).src f) = none → fenceAt s ((chanAt s c).src f) = some fe →
    fe.maySignal (chanAt s c).ctx (chanAt s c).hive = true → (chanAt s c).src v < 2 ^ 63 → fe.state = .opened →
    fe.value < (chanAt s c).src v →
    let g : Fence :=
      { fe with value := (chanAt s c).src v, scope := Scope.ofCode sscope, host := shost, byQ := (chanAt s c).q,
                byIdx := (chanAt s c).idx, dirty := true, state := if close then .closed else .opened }
    exec (.signal c) s = .next (retire (signalled (wakeWaits (setFence
      (stall s c (.fence (chipId s) ((chanAt s c).src f) ((chanAt s c).src v))) ((chanAt s c).src f) (fun _ => g))
      ((chanAt s c).src f)) c) c .ok) ∧
    (fe.waits = [] → Answers (exec (.signal c) s) (fun t => WentOn s t c ∧
      fenceAt t ((chanAt s c).src f) = some g ∧ (∀ n, n ≠ (chanAt s c).src f → fenceAt t n = fenceAt s n) ∧
      t.pr = s.pr ∧ t.xl = s.xl ∧ t.he = s.he ∧ t.sent = s.sent))) ∧
  (∀ s c v sscope shost close f fe, RunsOp s c (.signal v sscope shost close f) → (chanAt s c).lineStatus = none →
    needsFlush (chanAt s c) shost = false → (chanAt s c).src f < 2 ^ 20 →
    Tab.look s.qm.fills ((chanAt s c).src f) = none → fenceAt s ((chanAt s c).src f) = some fe → fe.waits = [] →
    fe.state = .opened → fe.maySignal (chanAt s c).ctx (chanAt s c).hive = true → (chanAt s c).src v ≤ fe.value →
    (chanAt s c).src v < 2 ^ 63 →
    Answers (exec (.signal c) s) (fun t => WentOn s t c ∧ t.pr = s.pr ∧
      (fenceAt t ((chanAt s c).src f)).map (fun g => (g.value, g.state, g.dropped)) = some (fe.value,
        if close then .closed else .opened, if (chanAt s c).src v < fe.value then satInc 32 fe.dropped else fe.dropped))) ∧
  (∀ s c v sscope shost close f, RunsOp s c (.signal v sscope shost close f) → (chanAt s c).lineStatus = none →
    needsFlush (chanAt s c) shost = false → 2 ^ 20 ≤ (chanAt s c).src f →
    exec (.signal c) s = .next (retire s c .range)) ∧
  (∀ (fe : Fence) ctx hive v close sc host q idx, fe.state ≠ .free → fe.maySignal ctx hive = false →
    fe.signal ctx hive v close sc host q idx = (fe, .rights)) ∧
  (∀ (fe : Fence) ctx hive v close sc host q idx, fe.state ≠ .free → fe.maySignal ctx hive = true → 2 ^ 63 ≤ v →
    fe.signal ctx hive v close sc host q idx = (fe, .range)) ∧
  (∀ (fe : Fence) ctx hive v close sc host q idx, fe.state = .free →
    fe.signal ctx hive v close sc host q idx = (fe, .state)) ∧
  (∀ (fe : Fence) ctx hive v close sc host q idx, fe.maySignal ctx hive = true → v < 2 ^ 63 → fe.state = .closed →
    fe.signal ctx hive v close sc host q idx = (fe, .state)) ∧
  (∀ (fe : Fence) ctx hive v close sc host q idx, fe.maySignal ctx hive = true → v < 2 ^ 63 → fe.state = .poisoned →
    let r := fe.signal ctx hive v close sc host q idx
    r.2 = .poison ∧ r.1.dropped = satInc 32 fe.dropped ∧ r.1.value = fe.value ∧ r.1.err = fe.err ∧ r.1.state = .poisoned) ∧
  (∀ s c t f remote gc tmo fe, RunsOp s c (.wait t f remote gc tmo) → (chanAt s c).src f < 2 ^ 20 →
    (remote = false ∨ ((chanAt s c).greg gc).toNat % 2 ^ 16 = chipId s) →
    Tab.look s.qm.fills ((chanAt s c).src f) = none → fenceAt s ((chanAt s c).src f) = some fe →
    fe.mayWait (chanAt s c).hive = true → (chanAt s c).src t < 2 ^ 63 → (fe.state = .opened ∨ fe.state = .closed) →
    (chanAt s c).src t ≤ fe.value → smcOn s (chanAt s c).hive = false →
    exec (.wait c) s = .next (retire (holdChan s c (.fence (chipId s) ((chanAt s c).src f) ((chanAt s c).src t))) c .ok) ∧
      Answers (exec (.wait c) s) (fun u => WentOn s u c ∧ u.qm = s.qm ∧ u.pr = s.pr ∧ u.he = s.he ∧ u.sent = s.sent)) ∧
  (∀ s c t f remote gc tmo fe, RunsOp s c (.wait t f remote gc tmo) → (chanAt s c).src f < 2 ^ 20 →
    (remote = false ∨ ((chanAt s c).greg gc).toNat % 2 ^ 16 = chipId s) →
    Tab.look s.qm.fills ((chanAt s c).src f) = none → fenceAt s ((chanAt s c).src f) = some fe →
    (chanAt s c).src t < 2 ^ 63 → fe.state ≠ .free →
    let u := holdChan s c (.fence (chipId s) ((chanAt s c).src f) ((chanAt s c).src t))
    (fe.mayWait (chanAt s c).hive = false → exec (.wait c) s = .next (retire u c .rights)) ∧
    (fe.mayWait (chanAt s c).hive = true → fe.state = .poisoned → fe.err = Status.contextKilled.code →
      exec (.wait c) s = .next (retire u c .contextKilled)) ∧
    (fe.mayWait (chanAt s c).hive = true → fe.state = .closed → fe.value < (chanAt s c).src t →
      exec (.wait c) s = .next (retire u c .state))) ∧
  (∀ s c t f remote gc tmo fe, RunsOp s c (.wait t f remote gc tmo) → (chanAt s c).src f < 2 ^ 20 →
    (remote = false ∨ ((chanAt s c).greg gc).toNat % 2 ^ 16 = chipId s) →
    Tab.look s.qm.fills ((chanAt s c).src f) = none → fenceAt s ((chanAt s c).src f) = some fe →
    fe.mayWait (chanAt s c).hive = true → (chanAt s c).src t < 2 ^ 63 → fe.state = .opened →
    fe.value < (chanAt s c).src t →
    Answers (exec (.wait c) s) (fun u =>
      (chanAt u c).state = .waiting ∧
        fenceAt u ((chanAt s c).src f) = some { fe with waits := fe.waits ++ [.here c ((chanAt s c).src t)] } ∧
        (chanAt u c).g = (chanAt s c).g ∧ u.pr = s.pr)) ∧
  (∀ s c t f remote gc tmo, RunsOp s c (.wait t f remote gc tmo) → 2 ^ 20 ≤ (chanAt s c).src f →
    exec (.wait c) s = .next (retire s c .range)) ∧
  (∀ s c sc host, RunsOp s c (.flush sc host) → (chanAt s c).lineStatus = none →
    (host = false ∨ (chanAt s c).hostWritten = false) →
    exec (.flush c) s = .next (ended s c id) ∧ Answers (exec (.flush c) s) (fun t => WentOn s t c ∧ t.pr = s.pr)) ∧
  (∀ s c sc, RunsOp s c (.flush sc true) → (chanAt s c).lineStatus = none → (chanAt s c).hostWritten = true →
    hostRoom s = true →
    Answers (exec (.flush c) s) (fun t =>
      (chanAt t c).hold = .hostFlush ∧ t.hp.flushes = s.hp.flushes ++ [(s.hp.nextId, c)] ∧
        t.sent = s.sent ++ [.hostFlush s.hp.nextId (ctxAt s (chanAt s c).ctx).pasid .read] ∧ t.pr = s.pr)) ∧
  (∀ s c sc, RunsOp s c (.flush sc true) → (chanAt s c).lineStatus = none → (chanAt s c).hostWritten = true →
    hostRoom s = false → exec (.flush c) s = .next (stall s c .hostRead))

/-- R157, R158, R159: a `LAUNCH` whose clusters are free and that no other waits before reserves them and starts its
kernel once its record is written: the channel waits for the kernel, the hive's `launch_seq` rises by one, and a start
goes to each cluster with ranks rising and the count less one (R451). One that must wait enters its hive's queue. ANY
with more clusters than the hive has ends with RANGE. `LAUNCH` QUERY writes the record of the hive's ASSIGNED clusters
and ends OK. A reservation serves the first waiting launch. Where the record's line lies in reach on this chip,
`LAUNCH` and `LAUNCH` QUERY run at once: the first waits for its kernels, which have been started, the second ends OK,
and the record's line alone has changed. -/
def Obligations.LaunchesReserveAndStart : Prop :=  (∀ s c o r cl, RunsOp s c o → launchReq (chanAt s c) c = some r → (chanAt s c).kernels = [] →
    (launchArgs (chanAt s c)).2.2.1 % 64 = 0 → r.failure s (chanAt s c).hive = none →
    (hiveAt s (chanAt s c).hive).launchQ = [] → r.pick s (chanAt s c).hive = some cl →
    exec (.launch c) s = .next (launchGo (reserve s c cl) c)) ∧
  (∀ s c o r, RunsOp s c o → launchReq (chanAt s c) c = some r → (chanAt s c).kernels = [] →
    (launchArgs (chanAt s c)).2.2.1 % 64 = 0 → r.failure s (chanAt s c).hive = none →
    (r.pick s (chanAt s c).hive = none ∨ (hiveAt s (chanAt s c).hive).launchQ ≠ []) →
    Answers (exec (.launch c) s) (fun t =>
      (chanAt t c).state = .waiting ∧ (chanAt t c).hold = .launchQueued ∧
        (hiveAt t (chanAt s c).hive).launchQ = (hiveAt s (chanAt s c).hive).launchQ ++ [r])) ∧
  (∀ s c n ge ga gr gx, RunsOp s c (.launchAny n ge ga gr gx) → (chanAt s c).kernels = [] →
    (launchArgs (chanAt s c)).2.2.1 % 64 = 0 →
    (clustersOf s (chanAt s c).hive (fun st => st == .assigned)).length < n →
    exec (.launch c) s = .next (retire s c .range)) ∧
  (∀ s c, (let t := startKernels (takeSeq s c) c
    (chanAt t c).state = .waiting ∧ (chanAt t c).hold = .kernel ∧
      (hiveAt t (chanAt s c).hive).launchSeq = ((hiveAt s (chanAt s c).hive).launchSeq + 1) % 2 ^ 32 ∧
      t.sent = s.sent ++ (chanAt s c).kernels.zipIdx.map (fun n =>
        .kernelStart n.1 (launchArgs (chanAt s c)).1.toNat (launchArgs (chanAt s c)).2.1.toNat n.2
          ((chanAt s c).kernels.length - 1) (hiveAt s (chanAt s c).hive).launchSeq))) ∧
  (∀ s c gr t b, RunsOp s c (.launchQuery gr) → (launchArgs (chanAt s c)).2.2.1 % 64 = 0 →
    (chanAt s c).lineStatus = none → (chanAt s c).prog = 0 →
    writeLaunchRecord s c (clustersOf s (chanAt s c).hive (fun st => st == .assigned))
      (hiveAt s (chanAt s c).hive).launchSeq = (t, .data b) →
    remoteBusy t c = false → (chanAt t c).lineStatus = none →
    exec (.launchQuery c) s = .next (retire (dropForager t c) c .ok)) ∧
  (∀ s c o r cl a, RunsOp s c o → launchReq (chanAt s c) c = some r → Begins s c →
    let h := (chanAt s c).hive
    let gr := (launchArgs (chanAt s c)).2.2.1
    gr % 64 = 0 → r.failure s h = none → (hiveAt s h).launchQ = [] → r.pick s h = some cl → InReach s c (lineOf gr) .wr a →
    Answers (exec (.launch c) s) (fun t =>
      (chanAt t c).state = .waiting ∧ (chanAt t c).hold = .kernel ∧ (chanAt t c).kernels = cl ∧
        (hiveAt t h).launchSeq = ((hiveAt s h).launchSeq + 1) % 2 ^ 32 ∧
        (∃ l, t.sent = s.sent ++ l ++ cl.zipIdx.map (fun n => .kernelStart n.1 (launchArgs (chanAt s c)).1.toNat
          (launchArgs (chanAt s c)).2.1.toNat n.2 (cl.length - 1) (hiveAt s h).launchSeq)) ∧
        t.pr.mem = memAfter s a (.partialWrite ((launchRecord cl (hiveAt s h).launchSeq).zipIdx.map (fun e =>
          (gr - lineOf gr + e.2, e.1)))))) ∧
  (∀ s c gr a, RunsOp s c (.launchQuery gr) → Begins s c →
    let h := (chanAt s c).hive
    let ga := (launchArgs (chanAt s c)).2.2.1
    ga % 64 = 0 → InReach s c (lineOf ga) .wr a →
    Answers (exec (.launchQuery c) s) (fun t => WentOn s t c ∧
      t.pr.mem = memAfter s a (.partialWrite ((launchRecord (clustersOf s h (fun st => st == .assigned))
        (hiveAt s h).launchSeq).zipIdx.map (fun e => (ga - lineOf ga + e.2, e.1)))))) ∧
  (∀ s h r rest cl, (hiveAt s h).launchQ = r :: rest → r.pick s h = some cl →
    exec (.launchReservation h) s =
      .next (launchGo (reserve (setHive s h (fun x => { x with launchQ := rest })) r.chan cl) r.chan))

/-! ## Manager instructions -/

/-- R35, R56, R57, R187: `HIVE_CREATE` of an image that passes its checks creates the hive: it is CREATING, masked,
with the image's fields and combs and the next key generation; its clusters are JOINING; and the instruction waits for
them. It ends with RIGHTS in the lifecycle states in which no hive is created. R58, R60, R187, R193: `HIVE_RESIZE` of
an ACTIVE elastic hive whose image passes its checks starts the resize: the hive is RESIZING with the image's channel
bounds, and the instruction waits for its clusters and settings. -/
def Obligations.HiveCreateAndResize : Prop :=
  (∀ s c h ga t bs, RunsOp s c (.hiveCreate h ga) → noHives s = false → gAddr s c ga % 128 = 0 →
    imageOf s c (gAddr s c ga) 384 = some (t, bs) → hiveRz (imgWord bs) = true →
    hiveRange t h (hiveOf (imgWord bs) 0) (bitmapAt (imgWord bs) 8) = false → (hiveAt t h).state = .free →
    hiveTaken t h (hiveOf (imgWord bs) 0) (bitmapAt (imgWord bs) 8) = false → t.vault.drbgOn = true →
    exec (.hiveCreate c) s = .next (progress (createHive (stall t c .job) c h (hiveOf (imgWord bs) 0)
      (bitsOf (bitmapAt (imgWord bs) 8) 256)))) ∧
  (∀ s c h (x : Hive) cl, (hiveAt s h).keyGen < 2 ^ 32 - 1 → s.vault.wrapBad = false →
    let u := createHive s c h x cl
    (hiveAt u h).state = .creating ∧ (hiveAt u h).masked = true ∧ (hiveAt u h).combs = x.combs ∧
      (hiveAt u h).colony = x.colony ∧ (hiveAt u h).keyGen = (hiveAt s h).keyGen + 1 ∧
      (hiveAt u h).labelFirst = x.labelFirst ∧ (hiveAt u h).vecFirst = x.vecFirst ∧
      (slotAt u h).gen = (hiveAt s h).keyGen + 1 ∧ (slotAt u h).loaded = true ∧
      u.he.creates = s.he.creates ++ [{ hive := h, chan := c }] ∧
      (∀ n ∈ cl, (clusterAt u n).state = .joining ∧ (clusterAt u n).hive = h ∧ (clusterAt u n).pwrEn = true)) ∧
  (∀ s c h ga, RunsOp s c (.hiveCreate h ga) → noHives s = true → exec (.hiveCreate c) s = .next (retire s c .rights)) ∧
  (∀ s c h ga t bs u cs, RunsOp s c (.hiveResize h ga) → gAddr s c ga % 128 = 0 →
    imageOf s c (gAddr s c ga) 64 = some (t, bs) → resizeRz (imgWord bs) = true →
    fld (imgWord bs 4) 51 13 ≤ 4096 → gAddr t c ga = gAddr s c ga →
    imageOf t c (gAddr s c ga) (64 + 32 * fld (imgWord bs 4) 51 13) = some (u, cs) →
    settingsRz (imgWord cs) 8 (fld (imgWord bs 4) 51 13) = true →
    resizeRange u h (bitmapAt (imgWord cs) 0) (fld (imgWord cs 4) 32 10) (fld (imgWord cs 4) 0 10)
      (fld (imgWord bs 4) 51 13) (settingsAt (imgWord cs) 8 (fld (imgWord bs 4) 51 13)) = false →
    (hiveAt u h).state = .active → (hiveAt u h).elastic = true →
    (∀ i ∈ resizeAdds u h (bitmapAt (imgWord cs) 0), (clusterAt u i).state = .free ∧ i < clustersAttached u) →
    (fld (imgWord cs 4) 0 10 ≤ (hiveAt u h).chGuarantee ∨
      guaranteed u h + fld (imgWord cs 4) 0 10 ≤ channelsInService u) →
    exec (.hiveResize c) s = .next (progress (resizeHive (stall u c .job) c h (bitmapAt (imgWord cs) 0)
      (fld (imgWord cs 4) 32 10) (fld (imgWord cs 4) 0 10) (settingsAt (imgWord cs) 8 (fld (imgWord bs 4) 51 13)))))

/-- R55, R68, R75, R76, R95: `HIVE_RESET`, `HIVE_DESTROY`, `CTX_KILL` and `QUEUE_BIND` RESET and UNBIND of an object in
a state that admits them start their sequence and wait for its end; hive 0, context 0 and queue 0 end them with RANGE,
and any other state of the object with STATE. R62 steps 1 and 2, R55: a reset or teardown that starts puts its hive in
RESETTING or DESTROYING, with its interrupts masked, and stands among the resets at step 1. -/
def Obligations.HiveSequencesStartAndMask : Prop :=
  (∀ s c h, RunsOp s c (.hiveReset h) → h ≠ 0 →
    (hiveAt s h).state ∈ [HiveState.active, .resizing, .migrating, .frozen] →
    exec (.hiveReset c) s = .next (progress (startHiveReset (stall s c .job) h false (some c) 0 0 false))) ∧
  (∀ s c h, RunsOp s c (.hiveDestroy h) → h ≠ 0 → (hiveAt s h).state ∈ [HiveState.active, .migrating, .frozen] →
    exec (.hiveDestroy c) s = .next (progress (startHiveReset (stall s c .job) h true (some c) 0 0 false))) ∧
  (∀ s c n, RunsOp s c (.ctxKill n) → n ≠ 0 → (ctxAt s n).state = .active →
    exec (.ctxKill c) s = .next (progress (startKill (stall s c .job) n (some c) false))) ∧
  (∀ s c q, RunsOp s c (.queueReset q) → q ≠ 0 → (queueAt s q).state ∈ [QueueState.running, .stopped] →
    exec (.queueReset c) s = .next (progress (startQueueReset (stall s c .job) q (some c) false))) ∧
  (∀ s c q, RunsOp s c (.queueUnbind q) → q ≠ 0 → (queueAt s q).state ∈ [QueueState.running, .stopped] →
    exec (.queueUnbind c) s = .next (progress (startQueueReset (stall s c .job) q (some c) true))) ∧
  (∀ s c, RunsOp s c (.hiveReset 0) → exec (.hiveReset c) s = .next (retire s c .range)) ∧
  (∀ s c, RunsOp s c (.hiveDestroy 0) → exec (.hiveDestroy c) s = .next (retire s c .range)) ∧
  (∀ s c, RunsOp s c (.ctxKill 0) → exec (.ctxKill c) s = .next (retire s c .range)) ∧
  (∀ s c, RunsOp s c (.queueReset 0) → exec (.queueReset c) s = .next (retire s c .range)) ∧
  (∀ s c, RunsOp s c (.queueUnbind 0) → exec (.queueUnbind c) s = .next (retire s c .range)) ∧
  (∀ s c h, RunsOp s c (.hiveReset h) → h ≠ 0 →
    (hiveAt s h).state ∈ [HiveState.free, .creating, .resetting, .destroying] →
    exec (.hiveReset c) s = .next (retire s c .state)) ∧
  (∀ s c h, RunsOp s c (.hiveDestroy h) → h ≠ 0 →
    (hiveAt s h).state ∈ [HiveState.free, .creating, .resizing, .resetting, .destroying] →
    exec (.hiveDestroy c) s = .next (retire s c .state)) ∧
  (∀ s c n, RunsOp s c (.ctxKill n) → n ≠ 0 → (ctxAt s n).state ≠ .active →
    exec (.ctxKill c) s = .next (retire s c .state)) ∧
  (∀ s c q, RunsOp s c (.queueReset q) → q ≠ 0 → (queueAt s q).state ∉ [QueueState.running, .stopped] →
    exec (.queueReset c) s = .next (retire s c .state)) ∧
  (∀ s c q, RunsOp s c (.queueUnbind q) → q ≠ 0 → (queueAt s q).state ∉ [QueueState.running, .stopped] →
    exec (.queueUnbind c) s = .next (retire s c .state)) ∧
  (∀ s h chan cause detail noRec (down : Bool),
    let t := startHiveReset s h down chan cause detail noRec
    (hiveAt t h).state = (if down then .destroying else .resetting) ∧ (hiveAt t h).masked = true ∧
      ∃ r ∈ t.he.resets, r.hive = h ∧ r.teardown = down ∧ r.chan = chan ∧ r.step = 1)

/-- R50, R204: `COLONY_JOIN` of an ACTIVE or RESIZING hive other than 0 gives it the colony and the peer range and ends
OK; `RESUME` of a FROZEN hive makes it ACTIVE and ends OK, and ends any other with STATE. -/
def Obligations.ColonyJoinAndResume : Prop :=  (∀ s c h col lo hi, RunsOp s c (.colonyJoin h col lo hi) → h ≠ 0 →
    ((hiveAt s h).state = .active ∨ (hiveAt s h).state = .resizing) →
    exec (.colonyJoin c) s =
      .next (ended (setHive s h (fun x => { x with colony := col, peerLo := lo, peerHi := hi })) c id)) ∧
  (∀ s c h, RunsOp s c (.resume h) → (hiveAt s h).state = .frozen → (∀ m ∈ s.he.migrations, m.hive ≠ h) →
    exec (.resume c) s = .next (ended (setHive s h (fun x => { x with state := .active })) c id)) ∧
  (∀ s c h j, RunsOp s c (.resume h) → (hiveAt s h).state = .frozen →
    s.he.migrations.filter (fun m => m.hive == h) = [j] →
    exec (.resume c) s =
      .next (retire (setHive (endMigration s j .aborted .active) h (fun x => { x with state := .active })) c .ok)) ∧
  (∀ s c h, RunsOp s c (.resume h) → (hiveAt s h).state ≠ .frozen → exec (.resume c) s = .next (retire s c .state))

/-- R48, R194: `COMB_GRANT` ATTACH gives a hive a commons comb at a free entry, its key loaded and its cells fresh
where no hive held the key; RIGHTS gives an entry new rights; DETACH of a commons comb takes it away; the last two wait
for the pins that they ask to end. RIGHTS and DETACH of an entry that is not valid end with STATE. -/
def Obligations.CombGrants : Prop :=  (∀ s c h e ga t bs, RunsOp s c (.combAttach h e ga) → imageOf s c (gAddr s c ga) 16 = some (t, bs) →
    combRz (imgWord bs 0) (imgWord bs 1) = true →
    let k := Comb.ofWords (imgWord bs 0) (imgWord bs 1)
    k.valid = true → combRange t h k = false → commonsSel k.keySel = true →
    (hiveAt t h).combs.any (fun d => d.1 != e && k.meets d.2) = false → Tab.look (hiveAt t h).combs e = none →
    grantable t h = true → combTaken t k = false → (commonsHeld t k.keySel = true ∨
      (noHives t = false ∧ t.vault.drbgOn = true ∧ t.vault.wrapBad = false)) →
    exec (.combGrantAttach c) s =
      .next (retire (setHive (prepareComb t k) h (fun y => { y with combs := Tab.put y.combs e k })) c .ok)) ∧
  (∀ s c h e r k, RunsOp s c (.combRights h e false r) → Tab.look (hiveAt s h).combs e = some k → grantable s h = true →
    exec (.combGrantRights c) s = .next (progress ((stall (setHive s h (fun x =>
      { x with combs := Tab.put x.combs e (withRights k r) })) c .job).onQm (fun m =>
        { m with jobs := m.jobs ++ [{ chan := c, kind := .comb h e none [] }] })))) ∧
  (∀ s c h e r k, RunsOp s c (.combRights h e true r) → Tab.look (hiveAt s h).combs e = some k → grantable s h = true →
    let pins := (pinsIn s h k).filter (fun p => p.idx.isSome && p.q != 0)
    exec (.combGrantRights c) s = .next (progress ((evictPins (stall (setHive s h (fun x =>
      { x with combs := Tab.put x.combs e (withRights k r) })) c .job) pins).onQm (fun m =>
        { m with jobs := m.jobs ++ [{ chan := c, kind := .comb h e none pins }] })))) ∧
  (∀ s c h e k, RunsOp s c (.combDetach h e false) → Tab.look (hiveAt s h).combs e = some k → k.commons = true →
    grantable s h = true →
    exec (.combGrantDetach c) s = .next (progress ((stall (setHive s h (fun x =>
      { x with combs := Tab.del x.combs e })) c .job).onQm (fun m =>
        { m with jobs := m.jobs ++ [{ chan := c, kind := .comb h e (some k) (pinsIn s h k) }] })))) ∧
  (∀ s c h e k, RunsOp s c (.combDetach h e true) → Tab.look (hiveAt s h).combs e = some k → k.commons = true →
    grantable s h = true →
    exec (.combGrantDetach c) s = .next (progress ((evictPins (stall (setHive s h (fun x =>
      { x with combs := Tab.del x.combs e })) c .job) (pinsIn s h k)).onQm (fun m =>
        { m with jobs := m.jobs ++ [{ chan := c, kind := .comb h e (some k) (pinsIn s h k) }] })))) ∧
  (∀ s c h e r ev, RunsOp s c (.combRights h e ev r) → Tab.look (hiveAt s h).combs e = none →
    exec (.combGrantRights c) s = .next (retire s c .state)) ∧
  (∀ s c h e ev, RunsOp s c (.combDetach h e ev) → Tab.look (hiveAt s h).combs e = none →
    exec (.combGrantDetach c) s = .next (retire s c .state))

/-- R66, R67, R83, R85: `CTX_CREATE` of an image and a grant list that pass their checks makes a FREE context ACTIVE in
its hive, with its PASID mapped to it, and ends OK. -/
def Obligations.CtxCreateLoadsTheContext : Prop :=  ∀ s c n ga t bs u gs v, RunsOp s c (.ctxCreate n ga) → gAddr s c ga % 64 = 0 →
    imageOf s c (gAddr s c ga) 64 = some (t, bs) →
    let w := imgWord bs
    let h := fld (w 0) 40 8
    let k := fld (w 3) 48 16
    ctxRz w = true → h ≠ 255 → k ≤ 4096 → grantListOk t (fld (w 2) 0 57) k = true →
    readGrantList t h (fld (w 2) 0 57) k = (u, .ok gs) → (ctxAt u n).state = .free → tenantsRun u h = true →
    Tab.look u.hp.pasids (fld (w 0) 20 20) = none → ctxsOfHive u h < (hiveAt u h).ctxQuota →
    raiseHolders u h gs [] = (v, none) →
    exec (.ctxCreate c) s = .next (retire ((setCtx v n (fun o =>
      { state := .active, hive := h, pasid := fld (w 0) 20 20, acctSat := false, ptRoot := fld (w 1) 0 57,
        grantBase := fld (w 2) 0 57, grantCount := k, moverCycles := 0, clusterCycles := 0, grants := gs,
        invSeq := o.invSeq })).onHp (fun p => { p with pasids := Tab.put p.pasids (fld (w 0) 20 20) n })) c .ok)

/-- R70, R75, R78, R195: `QUEUE_BIND` BIND of an image that passes its checks and whose ring and completion area are
translated makes an UNBOUND queue RUNNING with the indices given, its areas pinned, and ends OK. -/
def Obligations.QueueBindRunsTheQueue : Prop :=  ∀ s c n ga gi t bs u, RunsOp s c (.queueBind n ga gi) → gAddr s c ga % 64 = 0 →
    imageOf s c (gAddr s c ga) 64 = some (t, bs) →
    let w := imgWord bs
    let x := queueOf w
    let k := ctxAt t x.ctx
    let h := hiveAt t k.hive
    let ix := match gi with | some r => ((chanAt t c).greg r).toNat | none => 0
    queueRz w = true → n ≠ 0 → queueRange x = false → Machine.dist (fld ix 32 32) (fld ix 0 32) ≤ 2 ^ x.ringLog2 →
    h.labelFirst ≤ x.label → x.label < h.labelFirst + h.labelCount → h.vecFirst ≤ x.vector →
    x.vector < h.vecFirst + h.vecCount → (queueAt t n).state = .unbound → k.state = .active →
    tenantsRun t k.hive = true → (queuesOfHive t k.hive).length < h.queueQuota →
    bindPages (setChan t c (fun y => { y with prog := Nat.max 1 y.prog })) c x.ctx false
      ((bindSpans x).flatMap (fun p => (pagesOf p).map (fun a => (p, a)))) (Nat.max 1 (chanAt t c).prog - 1) = (u, .good) →
    Answers (exec (.queueBind c) s) (fun v =>
      (queueAt v n).state = .running ∧ (queueAt v n).tail = fld ix 32 32 ∧ (queueAt v n).done = fld ix 0 32 ∧
        (queueAt v n).fetch = fld ix 0 32 ∧ (queueAt v n).ctx = x.ctx ∧ (queueAt v n).label = x.label ∧
        v.qm.pins = u.qm.pins ++ queuePins x n)

/-- R36, R81, R187, R192, R196, R368: `QUERY_CTX`, `QUERY_HIVE` and `KEY_DERIVE` FINGERPRINT whose record's lines are
writable write the record and end OK; a record address out of line ends each of them with RANGE, and FINGERPRINT of a
hive that holds no key ends with STATE. -/
def Obligations.QueriesWriteTheirRecords : Prop :=  (∀ s c n ga qmax t u, RunsOp s c (.queryCtx n ga qmax) → gAddr s c ga % 64 = 0 → (chanAt s c).prog = 0 →
    (chanAt s c).lineStatus = none →
    let bs := bytesOf (ctxImage s n ++ ((queuesOfCtx s n).take qmax).flatMap (queueImage s))
    imageLines s c .wr (linesOf (gAddr s c ga) bs.length) = (t, .ok ()) →
    recordWrite t c (gAddr s c ga) bs (linesOf (gAddr s c ga) bs.length) = (u, .ok ()) →
    exec (.queryCtx c) s = .next (retire u c .ok)) ∧
  (∀ s c h ga t u, RunsOp s c (.queryHive h ga) → gAddr s c ga % 128 = 0 → (chanAt s c).prog = 0 →
    (chanAt s c).lineStatus = none →
    let bs := bytesOf (hiveImage s h)
    imageLines s c .wr (linesOf (gAddr s c ga) bs.length) = (t, .ok ()) →
    recordWrite t c (gAddr s c ga) bs (linesOf (gAddr s c ga) bs.length) = (u, .ok ()) →
    exec (.queryHive c) s = .next (retire u c .ok)) ∧
  (∀ s c h ga t u, RunsOp s c (.keyFingerprint h ga) → gAddr s c ga % 64 = 0 → (chanAt s c).prog = 0 →
    (chanAt s c).lineStatus = none → (hiveAt s h).state ∈ [HiveState.active, .resizing, .migrating, .frozen] →
    let bs := fingerprintRecord s h
    imageLines s c .wr (linesOf (gAddr s c ga) bs.length) = (t, .ok ()) →
    recordWrite t c (gAddr s c ga) bs (linesOf (gAddr s c ga) bs.length) = (u, .ok ()) →
    exec (.keyDeriveFingerprint c) s = .next (retire u c .ok)) ∧
  (∀ s c n ga qmax, RunsOp s c (.queryCtx n ga qmax) → gAddr s c ga % 64 ≠ 0 →
    exec (.queryCtx c) s = .next (retire s c .range)) ∧
  (∀ s c h ga, RunsOp s c (.queryHive h ga) → gAddr s c ga % 128 ≠ 0 →
    exec (.queryHive c) s = .next (retire s c .range)) ∧
  (∀ s c h ga, RunsOp s c (.keyFingerprint h ga) → gAddr s c ga % 64 ≠ 0 →
    exec (.keyDeriveFingerprint c) s = .next (retire s c .range)) ∧
  (∀ s c h ga t, RunsOp s c (.keyFingerprint h ga) → gAddr s c ga % 64 = 0 → (chanAt s c).prog = 0 →
    (chanAt s c).lineStatus = none → (hiveAt s h).state ∈ [HiveState.free, .creating, .resetting, .destroying] →
    imageLines s c .wr (linesOf (gAddr s c ga) (fingerprintRecord s h).length) = (t, .ok ()) →
    exec (.keyDeriveFingerprint c) s = .next (retire t c .state))

/-- R197, R198, R219: `LABEL_SET` of settings that pass their checks makes each pending on its label and waits for the
boundaries; `INVALIDATE` PAGES of an ACTIVE context raises its invalidation sequence, drops its entries of the range
and waits for the pins over it; `INVALIDATE` CONTEXT replaces the grant list and ends OK. R86, R88, R468: `INVALIDATE`
OBJECT of an allocated object that no grant holds clears its state in the table; `INVALIDATE` FENCE of a cached fence
that nothing waits for and that is not OPEN clears its entry and drops it from the cache; an OPEN fence ends it with
STATE. -/
def Obligations.LabelsAndInvalidations : Prop :=
  (∀ s c h ga n t bs, RunsOp s c (.labelSet h ga n) → gAddr s c ga % 32 = 0 →
    imageOf s c (gAddr s c ga) (32 * n) = some (t, bs) → settingsRz (imgWord bs) 0 n = true →
    settingsRange t h (settingsAt (imgWord bs) 0 n) = false →
    (hiveAt t h).state ∈ [HiveState.active, .migrating, .frozen] →
    exec (.labelSet c) s = .next (progress ((pendSettings (stall t c .job) (settingsAt (imgWord bs) 0 n)).onQm (fun m =>
      { m with jobs := m.jobs ++ [{ chan := c, kind := .labels h ((settingsAt (imgWord bs) 0 n).map (·.label)) }] })))) ∧
  (∀ s c n ga gl, RunsOp s c (.invPages n ga gl) →
    let a := ((chanAt s c).greg ga).toNat
    let l := ((chanAt s c).greg gl).toNat
    a % 2 ^ 25 = 0 → 0 < l → l % 2 ^ 25 = 0 → a + l ≤ 2 ^ 57 → (ctxAt s n).state = .active →
    exec (.invalidatePages c) s = .next (progress ((shootdown (raiseInv (stall s c .job) n) n a l).onQm (fun m =>
      { m with jobs := m.jobs ++ [{ chan := c, kind := .pins n a l }] })))) ∧
  (∀ s c n ga gl t gs, RunsOp s c (.invContext n ga gl) →
    let a := ((chanAt s c).greg ga).toNat
    let k := ((chanAt s c).greg gl).toNat
    k ≤ 4096 → grantListOk s a k = true → (ctxAt s n).state = .active →
    readGrantList s (ctxAt s n).hive a k = (t, .ok gs) →
    exec (.invalidateContext c) s = .next (replaceGrants t c n (a % 2 ^ 57) k gs)) ∧
  (∀ s c n ga gl, RunsOp s c (.invPages n ga gl) → ((chanAt s c).greg ga).toNat % 2 ^ 25 ≠ 0 →
    exec (.invalidatePages c) s = .next (retire s c .range)) ∧
  (∀ s c o t w0 u, RunsOp s c (.invObject o) → objEntry s o = (t, .ok, w0, 0) → rz w0 48 6 = true → fld w0 62 2 = 1 →
    fld w0 0 16 = 0 → tableWrite t (objAddr s o) (leBytes 8 (w0 % 2 ^ 62)) = (u, .ok) →
    exec (.invalidateObject c) s = .next (retire u c .ok)) ∧
  (∀ s c f fe t, RunsOp s c (.invFence f) → Tab.look s.qm.fills f = none → fenceAt s f = some fe → fe.state ≠ .opened →
    tableWrite s (fenceAddr s f) (List.replicate 32 0) = (t, .ok) →
    exec (.invalidateFence c) s = .next (retire (t.onQm (fun m => { m with fences := Tab.del m.fences f })) c .ok)) ∧
  (∀ s c f fe, RunsOp s c (.invFence f) → Tab.look s.qm.fills f = none → fenceAt s f = some fe → fe.state = .opened →
    exec (.invalidateFence c) s = .next (retire s c .state))

/-- R200 to R204: `MIGRATE` of a plan and a fence list that pass their checks starts the migration of an ACTIVE hive; a
round whose lines are all acknowledged freezes the hive or starts the next round, as the sizes of the sets say; the
drain of a frozen hive, once no write of it is unanswered at a unit or a port (R248), copies its last set and writes
the package; a drain that outlasts its bound ends with TIMEOUT, the hive FROZEN. -/
def Obligations.MigrationsRunTheirPhases : Prop :=  (∀ s c h ga t bs u fs, RunsOp s c (.migrate h ga) → gAddr s c ga % 64 = 0 →
    imageOf s c (gAddr s c ga) 320 = some (t, bs) →
    let w := imgWord bs
    let n := fld (w 2) 32 16
    let fences := (List.range n).map (fun i => leNat ((fs.drop (4 * i)).take 4))
    planRz w = true → imageOf t c (fld (w 3) 0 57) (4 * n) = some (u, fs) → planRange u h w = false →
    (∀ f ∈ fences, f < Config.fences) → (hiveAt u h).state = .active → u.he.migrations.length < Config.migrations →
    exec (.migrate c) s = .next (progress (startMigration (stall u c .job) c h w fences))) ∧
  (∀ s h j, migAt s h = some j → j.phase = .precopy → remoteBusy s j.chan = false →
    ((logCells s h).length ≤ j.stopCells ∨ j.round + 1 = j.maxRounds ∨ j.cells.length ≤ (logCells s h).length) →
    exec (.migrateRoundDone h) s = .next (freeze s j (logCells s h).length)) ∧
  (∀ s h j, migAt s h = some j → j.phase = .precopy → remoteBusy s j.chan = false →
    j.stopCells < (logCells s h).length → j.round + 1 ≠ j.maxRounds → (logCells s h).length < j.cells.length →
    exec (.migrateRoundDone h) s = .next (startRound s h (j.round + 1) (logCells s h))) ∧
  (∀ s h j k u v p, migAt s h = some j → j.phase = .freezing → chansWhere s (fun ch => ch.hive == h) = [] →
    (∀ q ∈ queuesOfHive s h, recordOut s q = false) → writesQuiet s h = true →
    let set := logCells s h
    let t := setMig (clearLog s h) h (fun m =>
      { m with phase := .final, cells := set, cellsFinal := set.length, cellsTotal := m.cellsTotal + set.length })
    migAt t h = some k → copyCells t k set = (u, none) → package u k = p → writePackage p.1 k p.2 = (v, none) →
    exec (.migrateDrainDone h) s = .next (progress v)) ∧
  (∀ s h j k u st, migAt s h = some j → j.phase = .freezing → chansWhere s (fun ch => ch.hive == h) = [] →
    (∀ q ∈ queuesOfHive s h, recordOut s q = false) → writesQuiet s h = true →
    let set := logCells s h
    let t := setMig (clearLog s h) h (fun m =>
      { m with phase := .final, cells := set, cellsFinal := set.length, cellsTotal := m.cellsTotal + set.length })
    migAt t h = some k → copyCells t k set = (u, some st) →
    exec (.migrateDrainDone h) s = .next (copyFailed u h st)) ∧
  (∀ s h j, migAt s h = some j → j.phase = .freezing →
    exec (.migrateFreezeTimeout h) s = .next (endMigration s j .timeout .frozen)) ∧
  (∀ s (j : MigJob) st to_, (hiveAt (endMigration s j st to_) j.hive).state = to_ ∧
    ∀ m ∈ (endMigration s j st to_).he.migrations, m.hive ≠ j.hive)

/-- R199, R405, R408 to R410: `SPARE_SWAP` of a unit that is not a mover and has a spare puts it in and ends OK: the
spare serves the unit, and no substitution of it is pending, and a lane's link goes DOWN; that of a mover drains it and
waits for its quiet point. A unit out of range, of any class, ends it with RANGE, a pending substitution with STATE,
and no spare with RESOURCE, the unit retired. The home side switches once, when no home-side operation is in progress;
at the quiet point the channels' side does, and the instruction ends OK; a timeout puts the mover back and ends it with
TIMEOUT, or the keeper sleeps and tries again. -/
def Obligations.SparesTakeTheirUnitsPlace : Prop :=  (∀ s c cls unit sub p, RunsOp s c (.spareSwap cls unit sub) → UnitInRange s cls unit sub → cls ≠ 0 →
    swapPending s cls (unitOf cls unit sub).1 (unitOf cls unit sub).2 = false →
    spareOf s cls (unitOf cls unit sub).1 = some p →
    exec (.spareSwap c) s = .next (retire (swapDone s cls (unitOf cls unit sub).1 (unitOf cls unit sub).2 p) c .ok)) ∧
  (∀ s cls g u p, cls ≠ 4 →
    physOf (swapDone s cls g u p) cls g u = p ∧ swapPending (swapDone s cls g u p) cls g u = false) ∧
  (∀ s g u p, ∃ t, swapDone s 4 g u p = spareRecord (linkDown t g) 4 g u p 7 ∧ physOf t 4 g u = p ∧
    swapPending t 4 g u = false) ∧
  (∀ s c unit p, RunsOp s c (.spareSwap 0 unit 0) → unit < reportedMovers s →
    swapPending s 0 (unitOf 0 unit 0).1 (unitOf 0 unit 0).2 = false → spareOf s 0 (unitOf 0 unit 0).1 = some p →
    exec (.spareSwap c) s = .next (progress (drainMover ((stall s c .job).onQm (fun m =>
      { m with jobs := m.jobs ++ [{ chan := c, kind := .swap 0 unit 0 }] })) unit p (some c)))) ∧
  (∀ s c cls unit sub, RunsOp s c (.spareSwap cls unit sub) → ¬ UnitInRange s cls unit sub →
    exec (.spareSwap c) s = .next (retire s c .range)) ∧
  (∀ s c cls unit sub, RunsOp s c (.spareSwap cls unit sub) → UnitInRange s cls unit sub →
    swapPending s cls (unitOf cls unit sub).1 (unitOf cls unit sub).2 = true →
    exec (.spareSwap c) s = .next (retire s c .state)) ∧
  (∀ s c cls unit sub, RunsOp s c (.spareSwap cls unit sub) → UnitInRange s cls unit sub →
    swapPending s cls (unitOf cls unit sub).1 (unitOf cls unit sub).2 = false → spareOf s cls (unitOf cls unit sub).1 = none →
    exec (.spareSwap c) s = .next (retire (retireUnit s cls (unitOf cls unit sub).1 (unitOf cls unit sub).2) c .resource)) ∧
  (∀ s m x, moverSwap s m = some x → x.sleeping = false → (moverAt s m).homeWaits = true → homeBusy s m = false →
    exec (.homeSideSwitch m) s = .next (homeGoes (setMover s m (fun y =>
      { y with homePhysical := x.spare, homeWaits := false, spareAwake := true })))) ∧
  (∀ s m, homeBusy s m = true → exec (.homeSideSwitch m) s = .next s) ∧
  (∀ s m x, moverSwap s m = some x → x.sleeping = false → (moverAt s m).spareAwake = true →
    (∀ i < 8, (chanAt s (8 * m + i)).state = .free) →
    Answers (exec (.moverQuietPoint m) s) (fun t =>
      (moverAt t m).physical = x.spare ∧ (moverAt t m).draining = false ∧ (moverAt t m).spareAwake = false)) ∧
  (∀ s m x c, moverSwap s m = some x → x.sleeping = false → x.chan = some c →
    exec (.spareSwapTimeout 0 m 0) s = .next (endSwapJob ((homeGoes (setMover s m (fun y =>
      { y with draining := false, homeWaits := false, spareAwake := false, homePhysical := y.physical }))).onBr (fun b =>
        { b with substs := b.substs.filter (fun y => !(y.uclass == 0 && y.sub == m)) })) (some c) .timeout)) ∧
  (∀ s m x, moverSwap s m = some x → x.sleeping = true → s.clk.control.ready = true →
    Answers (exec (.spareRetryTimer m) s) (fun t =>
      (moverAt t m).draining = true ∧ (moverAt t m).homeWaits = true ∧
        ∀ y ∈ t.br.substs, y.uclass = 0 → y.sub = m → y.sleeping = false)) ∧
  (∀ s m x, moverSwap s m = some x → x.sleeping = true → s.clk.control.ready = false →
    exec (.spareRetryTimer m) s = .next (demand s .control))

/-! ## Mailbox commands -/

/-- R389, R395, R396, R420: in RECOVERY the ROM ends every mailbox command but `LC_QUERY`, `IMG_STAGE`, `IMG_CHECK`,
`LOG_READ` and `REBOOT` with STATE, and counts the refusal: each of them is named below. A row that gives a verdict the
engine does not give does not occur (log 8). R395, R404: a mailbox command that ends leaves `busy` 0 and its status,
reply length and tag in `mb_reply`, with the reply in the buffer, and nothing else changed; where a `REBOOT` has waited
for it, the `REBOOT` is then the command in progress. R420: one that ends with DECODE, RANGE or STATE is counted as
refused. -/
def Obligations.MailboxRunsOneCommand : Prop :=
  (∀ s, s.kp.mbox.busy = true → s.vault.blow = none → s.clk.cold = false → s.kp.mbox.bootStage = stageRecovery →
    s.kp.warm = none →
    let over_ := .next (mbEnd (refuseInput s false 9 0) .state [])
    (s.kp.mbox.op = 0x2 → exec .provBegin s = over_) ∧ (s.kp.mbox.op = 0x4 → exec .lcAdvance s = over_) ∧
    (∀ a b e, s.kp.mbox.op = 0x3 → provSays s a b e = true → exec (.provInject a b e) s = over_) ∧
    (∀ a, s.kp.mbox.op = 0x5 → (s.vault.lc = .production → tokenSays s (arg s 104 224) a = true) →
      exec (.ownerEnrol a) s = over_) ∧
    (∀ a, s.kp.mbox.op = 0x6 → tokenSays s (arg s 8 224) a = true → exec (.ownerRevoke a) s = over_) ∧
    (s.kp.mbox.op = 0x7 → exec .dbgChallenge s = over_) ∧
    (∀ a, s.kp.mbox.op = 0x8 → tokenSays s (arg s 0 224) a = true → exec (.dbgUnlock a) s = over_) ∧
    (s.kp.mbox.op = 0x9 → exec .dbgRelock s = over_) ∧ (s.kp.mbox.op = 0xA → exec .attest s = over_) ∧
    (∀ a, s.kp.mbox.op = 0xB →
      engineSays s (if argNat s 0 1 = 0 then 1 else 2)
        (1 - b2n (if argNat s 0 1 = 0 then s.kp.mbox.fwCopy else s.kp.mbox.setCopy)) a = true →
      exec (.arbCommit a) s = over_) ∧
    (∀ a, s.kp.mbox.op = 0xC → (s.vault.lc = .production → tokenSays s (arg s 0 224) a = true) → exec (.scrap a) s = over_) ∧
    (s.kp.mbox.op = 0x10 → exec .warmReset s = over_) ∧ (s.kp.mbox.op = 0x12 → exec .pwrCap s = over_) ∧
    (s.kp.mbox.op = 0x13 → exec .pwrQuery s = over_) ∧
    (∀ a b, s.kp.mbox.op = 0x16 → engineSays s 2 0 a = true → engineSays s 2 1 b = true → exec (.setApply a b) s = over_) ∧
    (s.kp.mbox.op = 0x18 → exec .waggleQuery s = over_) ∧ (s.kp.mbox.op = 0x19 → exec .waggleSend s = over_)) ∧
  (∀ s st reply, s.kp.mbox.rebootTag = none → mbEnd s st reply = { s with kp := { s.kp with mbox := { s.kp.mbox with
    busy := false, replyStatus := st.code, replyLen := reply.length, replyTag := s.kp.mbox.tag, reply := reply
    resetAsked := false } } }) ∧
  (∀ s st reply g, s.kp.mbox.rebootTag = some g →
    let m := (mbEnd s st reply).kp.mbox
    m.busy = true ∧ m.op = 0x11 ∧ m.tag = g ∧ m.rebootTag = none ∧ m.replyStatus = st.code ∧ m.replyTag = s.kp.mbox.tag) ∧
  (∀ s st, st ∈ [Status.decode, .range, .state] → mbRefuse s st = mbEnd (refuseInput s false 9 0) st [])

/-- R18, R360, R369, R380, R381, R396: `LC_QUERY` reports the lifecycle state, the serial and the identity;
`PROV_BEGIN` of a BLANK part without a root draws the ephemeral key and returns its public key, once the control clock
runs; `PROV_INJECT` with good verdicts of the engines blows the root's bits; with a bad one it ends with RIGHTS, and
without the key with STATE, and the key is zeroised in each. `LC_ADVANCE` to the state after the present one, when it
is ready, blows that state's bits; to another it ends with STATE, and to a number other than 1 and 2 with RANGE. -/
def Obligations.LifecycleCommands : Prop :=  (∀ s, MailboxRuns s 0x1 → exec .lcQuery s = .next (mbEnd s .ok (leBytes 1 s.vault.lc.report ++ List.replicate 7 0 ++
    leBytes 8 s.vault.fuses.serial ++ (identityOut s ++ List.replicate 96 0).take 96))) ∧
  (∀ s, MailboxRuns s 0x2 → EngineRuns s → s.vault.lc = .blank → s.vault.fuses.drk = 0 → drbgFailed s = false →
    Answers (exec .provBegin s) (fun t =>
      (∃ k, t.vault.provKey = some k ∧ k.length = 48 ∧
        t.kp.mbox.reply = sized 96 (Config.p384Public k) ++ leBytes 8 s.vault.fuses.serial) ∧
        t.kp.mbox.replyStatus = 0 ∧ t.vault.fuses = s.vault.fuses)) ∧
  (∀ s, MailboxRuns s 0x2 → s.vault.lc = .blank → s.vault.fuses.drk = 0 → s.kp.mbox.clkFail = false →
    s.clk.control.ready = false → exec .provBegin s = .next (demand s .control)) ∧
  (∀ s k, MailboxRuns s 0x3 → EngineRuns s → provSays s true true true = true → s.vault.lc = .blank → s.vault.fuses.drk = 0 →
    s.vault.provKey = some k →
    Answers (exec (.provInject true true true) s) (fun t =>
      t.vault.provKey = none ∧ t.vault.fuses = s.vault.fuses ∧
        t.vault.blow = some { kind := .provision, pulses := 0, vpp := false, todo := rootBits (sealedRoot s) })) ∧
  (∀ s k a b e, MailboxRuns s 0x3 → EngineRuns s → provSays s a b e = true → s.vault.provKey = some k →
    (a = false ∨ b = false ∨ e = false) →
    Answers (exec (.provInject a b e) s) (fun t => t.kp.mbox.replyStatus = 3 ∧ t.vault.provKey = none ∧
      t.vault.fuses = s.vault.fuses ∧ t.vault.blow = none)) ∧
  (∀ s a b e, MailboxRuns s 0x3 → EngineRuns s → s.vault.provKey = none →
    Answers (exec (.provInject a b e) s) (fun t => t.kp.mbox.replyStatus = 1 ∧ t.vault.fuses = s.vault.fuses ∧
      t.vault.blow = none)) ∧
  (∀ s, MailboxRuns s 0x4 → argNat s 1 7 = 0 → argNat s 0 1 = 1 → s.vault.lc = .blank → drkOk s = true →
    exec .lcAdvance s = .next (startBlow s .lifecycle (lcBits (addedBits s Config.lcTest)))) ∧
  (∀ s, MailboxRuns s 0x4 → argNat s 1 7 = 0 → argNat s 0 1 = 2 → s.vault.lc = .test → (∃ r < 4, rootLive s r = true) →
    exec .lcAdvance s = .next (startBlow s .lifecycle (lcBits (addedBits s Config.lcProduction)))) ∧
  (∀ s, MailboxRuns s 0x4 → argNat s 1 7 = 0 → argNat s 0 1 ≠ 1 → argNat s 0 1 ≠ 2 →
    exec .lcAdvance s = .next (mbRefuse s .range)) ∧
  (∀ s, MailboxRuns s 0x4 → argNat s 1 7 = 0 → (argNat s 0 1 = 1 ∧ s.vault.lc ≠ .blank ∨ argNat s 0 1 = 2 ∧ s.vault.lc ≠ .test) →
    exec .lcAdvance s = .next (mbRefuse s .state))

/-- R370 to R375, R380: in TEST `OWNER_ENROL` of a free root blows its hash and its enrolled copies; in PRODUCTION a
token whose checks pass is presented for `OWNER_ENROL`, `OWNER_REVOKE` and `DBG_UNLOCK`, and consumes the challenge
whatever comes of it; in every other state a token that is presented ends `OWNER_REVOKE` and `DBG_UNLOCK` with RIGHTS
(R374), and `DBG_CHALLENGE` ends with STATE; `DBG_CHALLENGE` draws 48 bytes; `DBG_RELOCK` ends a slot's token, or every
token. -/
def Obligations.OwnerAndDebugCommands : Prop :=  (∀ s sig, MailboxRuns s 0x5 → s.vault.lc = .test → argNat s 1 7 = 0 → argNat s 0 1 < 4 →
    bit (majority s.vault.fuses.enrolled) (argNat s 0 1) = false → nth s.vault.fuses.owner (argNat s 0 1) 0 = 0 →
    exec (.ownerEnrol sig) s = .next (startBlow s .enrol
      ((bitsOf (leNat (digest (arg s 8 96))) 384).map (.owner (argNat s 0 1)) ++
        [.enrolled 0 (argNat s 0 1), .enrolled 1 (argNat s 0 1), .enrolled 2 (argNat s 0 1)]))) ∧
  (∀ s, MailboxRuns s 0x5 → EngineRuns s → s.vault.lc = .production → argNat s 1 7 = 0 → argNat s 0 1 < 4 →
    tokenSays s (arg s 104 224) true = true → tokenForm (arg s 104 224) = true →
    tokenRights s (arg s 104 224) true = true → tokenScope (arg s 104 224) = true → bit (tkPerms (arg s 104 224)) 4 = true →
    s.vault.challenge.isSome = true → bit (majority s.vault.fuses.enrolled) (argNat s 0 1) = false →
    nth s.vault.fuses.owner (argNat s 0 1) 0 = 0 →
    Answers (exec (.ownerEnrol true) s) (fun t => t.vault.challenge = none ∧
      t.vault.blow = some { kind := .enrol, pulses := 0, vpp := false, todo :=
        (bitsOf (leNat (digest (arg s 8 96))) 384).map (.owner (argNat s 0 1)) ++
          [.enrolled 0 (argNat s 0 1), .enrolled 1 (argNat s 0 1), .enrolled 2 (argNat s 0 1)] })) ∧
  (∀ s, MailboxRuns s 0x6 → EngineRuns s → s.vault.lc = .production → argNat s 1 7 = 0 → argNat s 0 1 < 4 →
    tokenSays s (arg s 8 224) true = true →
    tokenForm (arg s 8 224) = true → tokenRights s (arg s 8 224) true = true → tkNat (arg s 8 224) 3 1 ≠ argNat s 0 1 →
    tokenScope (arg s 8 224) = true → bit (tkPerms (arg s 8 224)) 5 = true → s.vault.challenge.isSome = true →
    lastRoot s (argNat s 0 1) = false →
    Answers (exec (.ownerRevoke true) s) (fun t =>
      t.vault.challenge = none ∧
        (let r := argNat s 0 1
         let todo := [FuseBit.revoked 0 r, .revoked 1 r, .revoked 2 r]
         t.vault.blow = some { kind := .revoke r, pulses := 0, vpp := false, todo := todo }))) ∧
  (∀ s sig, MailboxRuns s 0x6 → EngineRuns s → s.vault.lc ≠ .production → tokenSays s (arg s 8 224) sig = true →
    argNat s 1 7 = 0 → tokenForm (arg s 8 224) = true →
    Answers (exec (.ownerRevoke sig) s) (fun t => t.kp.mbox.replyStatus = 3 ∧ t.vault.fuses = s.vault.fuses ∧
      t.vault.challenge = none)) ∧
  (∀ s, MailboxRuns s 0x7 → s.vault.lc = .production →
    Answers (exec .dbgChallenge s) (fun t => ∃ ch, t.vault.challenge = some ch ∧ ch.length = 48 ∧ t.kp.mbox.reply = ch ∧
      t.kp.mbox.replyStatus = 0 ∧ t.vault.tokens = s.vault.tokens)) ∧
  (∀ s, MailboxRuns s 0x7 → s.vault.lc ≠ .production → exec .dbgChallenge s = .next (mbRefuse s .state)) ∧
  (∀ s slot, MailboxRuns s 0x8 → EngineRuns s → s.vault.lc = .production → tokenSays s (arg s 0 224) true = true →
    tokenForm (arg s 0 224) = true →
    tokenRights s (arg s 0 224) true = true → tokenScope (arg s 0 224) = true → rz (tkPerms (arg s 0 224)) 0 4 = false →
    s.vault.challenge.isSome = true → freeSlot s = some slot →
    Answers (exec (.dbgUnlock true) s) (fun t => t.vault.challenge = none ∧ t.kp.mbox.replyStatus = 0 ∧
      (let tk := arg s 0 224
       let x : Token := { slot := slot, device := tkNat tk 1 1 == 1, hive := tkNat tk 2 1, root := tkNat tk 3 1, perms := tkPerms tk }
       t.vault.tokens = s.vault.tokens ++ [x]))) ∧
  (∀ s sig, MailboxRuns s 0x8 → EngineRuns s → tokenSays s (arg s 0 224) sig = true → tokenForm (arg s 0 224) = false →
    Answers (exec (.dbgUnlock sig) s) (fun t => t.vault.challenge = none ∧ t.kp.mbox.replyStatus = 9 ∧
      t.vault.tokens = s.vault.tokens)) ∧
  (∀ s sig, MailboxRuns s 0x8 → EngineRuns s → s.vault.lc ≠ .production → tokenSays s (arg s 0 224) sig = true →
    tokenForm (arg s 0 224) = true →
    Answers (exec (.dbgUnlock sig) s) (fun t => t.kp.mbox.replyStatus = 3 ∧ t.vault.tokens = s.vault.tokens ∧
      t.vault.challenge = none)) ∧
  (∀ s, MailboxRuns s 0x9 → argNat s 1 7 = 0 → argNat s 0 1 < 8 →
    (∃ k ∈ s.vault.tokens, k.slot = argNat s 0 1) →
    Answers (exec .dbgRelock s) (fun t => t.kp.mbox.replyStatus = 0 ∧
      t.vault.tokens = s.vault.tokens.filter (fun k => k.slot != argNat s 0 1))) ∧
  (∀ s, MailboxRuns s 0x9 → argNat s 1 7 = 0 → argNat s 0 1 = 0xFF →
    Answers (exec .dbgRelock s) (fun t => t.kp.mbox.replyStatus = 0 ∧ t.vault.tokens = []))

/-- R376, R378, R379: `ATTEST` in TEST or PRODUCTION answers OK with a report that begins with its version, the
lifecycle and the count of the named hives, and holds the hash of the spare map at 0xC0; `ARB_COMMIT` of the firmware
blows the anti-rollback bits up to the running version; `SCRAP` of a part that is not END_OF_LIFE, in PRODUCTION under
a token that permits it, zeroises the keys, ends the tokens and stops the DRBG at once, and begins the blow with two
copies of the lowest lifecycle bit that END_OF_LIFE adds; the roots follow once it reads blown, then the other bits; in
END_OF_LIFE it ends with STATE. -/
def Obligations.AttestArbCommitAndScrap : Prop :=  (∀ s, MailboxRuns s 0xA → EngineRuns s → (s.vault.lc = .test ∨ s.vault.lc = .production) →
    bit (argNat s 48 32) 255 = false →
    Answers (exec .attest s) (fun t => t.kp.mbox.replyStatus = 0 ∧ t.vault = s.vault ∧
      t.kp.mbox.reply.take 4 = leBytes 2 1 ++ leBytes 1 s.vault.lc.report ++
        leBytes 1 (bitsOf (argNat s 48 32) 255).length ∧ (t.kp.mbox.reply.drop 0xC0).take 48 = spareHash s)) ∧
  (∀ s, MailboxRuns s 0xA → s.vault.lc ≠ .test → s.vault.lc ≠ .production →
    exec .attest s = .next (mbEnd s .rights [])) ∧
  (∀ s, MailboxRuns s 0xB → EngineRuns s → engineSays s 1 (1 - b2n s.kp.mbox.fwCopy) false = true → argNat s 1 7 = 0 →
    argNat s 0 1 = 0 → s.vault.lc ≠ .locked → s.vault.lc ≠ .endOfLife →
    exec (.arbCommit false) s = .next (startBlow s .arb
      (((List.range s.kp.mbox.fwSecver).drop (arbValue s.vault.fuses.arbFw)).map .arbFw))) ∧
  (∀ s sig b r, MailboxRuns s 0xC → s.vault.lc ≠ .production → s.vault.lc ≠ .endOfLife →
    addedBits s Config.lcEndOfLife = b :: r →
    exec (.scrap sig) s = .next (startScrap s) ∧ Answers (exec (.scrap sig) s) (fun t => Scrapping s t b ∧ ∀ c ∈ r, b < c)) ∧
  (∀ s b r, MailboxRuns s 0xC → EngineRuns s → s.vault.lc = .production → tokenSays s (arg s 0 224) true = true →
    tokenForm (arg s 0 224) = true → tokenRights s (arg s 0 224) true = true → tokenScope (arg s 0 224) = true →
    bit (tkPerms (arg s 0 224)) 6 = true → s.vault.challenge.isSome = true → addedBits s Config.lcEndOfLife = b :: r →
    Answers (exec (.scrap true) s) (fun t => Scrapping s t b ∧ t.vault.challenge = none)) ∧
  (∀ s sig, MailboxRuns s 0xC → s.vault.lc = .endOfLife → exec (.scrap sig) s = .next (mbRefuse s .state)) ∧
  (∀ s, (blowDone s .scrapLock).vault.blow = some { kind := .scrapRoots, todo := rootFuses, pulses := 0, vpp := true } ∧
    (blowDone s .scrapRoots).vault.blow = some { kind := .scrapRest, todo := restOfLc s, pulses := 0, vpp := true })

/-- R348, R385, R387, R392, R396, R403, R415: `WARM_RESET` starts a block warm reset that keeps PCIe state and ends
with it; `REBOOT` is a cold reset after the chip has declared itself out; `PWR_CAP` within the settings' cap sets the
mailbox cap, above it ends with RANGE; `PWR_QUERY` answers with the median, the cap level and the cap in force;
`IMG_STAGE` of a copy not in use writes the argument's data there; `IMG_CHECK` answers; `SET_APPLY` puts the preferred
copy in force and starts a block warm reset, and waits while one runs; `LOG_READ` answers the records; `WAGGLE_QUERY`
answers with the census; `WAGGLE_SEND` on the ring sends its frame. Those that verify a signature do so once the
control clock runs (R18), and the operand is what the engine finds (log 8). -/
def Obligations.KeeperCommands : Prop :=  (∀ s, MailboxRuns s 0x10 → s.kp.mbox.bootStage ≠ stageHeld → exec .warmReset s = .next (askReset (startWarm s true))) ∧
  (∀ s, MailboxRuns s 0x10 → s.kp.mbox.bootStage = stageHeld → exec .warmReset s = .next (mbEnd s .ok [])) ∧
  (∀ s, MailboxRuns s 0x11 → exec .reboot s = .next (coldReset (declareOut s))) ∧
  (∀ s, MailboxRuns s 0x12 → argNat s 2 6 = 0 → (s.kp.settings.pCapW = 0 ∨ argNat s 0 2 ≤ s.kp.settings.pCapW) →
    Answers (exec .pwrCap s) (fun t => t.kp.power.mailboxCap = argNat s 0 2 ∧ t.kp.mbox.replyStatus = 0 ∧
      t.kp.power.level = s.kp.power.level)) ∧
  (∀ s, MailboxRuns s 0x12 → argNat s 2 6 = 0 → s.kp.settings.pCapW ≠ 0 → s.kp.settings.pCapW < argNat s 0 2 →
    exec .pwrCap s = .next (mbRefuse s .range)) ∧
  (∀ s, MailboxRuns s 0x13 → Answers (exec .pwrQuery s) (fun t => t.kp.mbox.replyStatus = 0 ∧
    t.kp.mbox.reply.length = 72 ∧ t.kp.mbox.reply.take 8 = leBytes 2 (pfReport s) ++
      leBytes 1 s.kp.power.level ++ leBytes 1 0 ++ leBytes 2 (effectiveCap s) ++ leBytes 2 0)) ∧
  (∀ s, MailboxRuns s 0x14 → argNat s 2 2 = 0 → kindCopyOk (argNat s 0 1) (argNat s 1 1) = true →
    argNat s 4 4 % 4096 = 0 → argNat s 4 4 + (s.kp.mbox.argLen - 8) ≤ (regionOf (argNat s 0 1) (argNat s 1 1)).2 →
    copyInUse s (argNat s 0 1) (argNat s 1 1) = false →
    exec .imgStage s =
      .next (stageImage s (argNat s 0 1) (argNat s 1 1) (argNat s 4 4) (s.kp.mbox.argLen - 8))) ∧
  (∀ s sig, MailboxRuns s 0x15 → EngineRuns s → engineSays s (argNat s 0 1) (argNat s 1 1) sig = true → argNat s 2 6 = 0 →
    kindCopyOk (argNat s 0 1) (argNat s 1 1) = true →
    Answers (exec (.imgCheck sig) s) (fun t => t.kp.mbox.replyStatus = 0 ∧ t.kp.flash = s.kp.flash ∧
      t.kp.mbox.reply.take 1 = leBytes 1 (b2n (copyValid s (argNat s 0 1) (argNat s 1 1) sig)))) ∧
  (∀ s a b c, MailboxRuns s 0x16 → EngineRuns s → s.kp.warm = none → engineSays s 2 0 a = true → engineSays s 2 1 b = true →
    preferred s 2 (copyValid s 2 0 a) (copyValid s 2 1 b) = some c → drbgHeld s = false →
    Answers (exec (.setApply a b) s) (fun t => t.kp.warm = some { keepPcie := true, clearing := false, stepsDone := false } ∧
      t.kp.settings = settingsOf (bodyOf s 2 c (header s 2 c)) ∧ t.kp.haveSettings = true ∧ t.kp.mbox.resetAsked = true)) ∧
  (∀ s a b, MailboxRuns s 0x16 → EngineRuns s → s.kp.warm = none → engineSays s 2 0 a = true → engineSays s 2 1 b = true →
    preferred s 2 (copyValid s 2 0 a) (copyValid s 2 1 b) = none →
    exec (.setApply a b) s = .next (mbRefuse (countInvalid s 2 (copyValid s 2 0 a) (copyValid s 2 1 b)) .state)) ∧
  (∀ s a b, s.kp.warm.isSome = true → exec (.setApply a b) s = .next s) ∧
  (∀ s, MailboxRuns s 0x17 → argNat s 4 4 = 0 →
    exec .logRead s = .next (mbEnd s .ok ((logFrom s (argNat s 0 4)).flatMap (fun r => bytesOf r.words)))) ∧
  (∀ s, MailboxRuns s 0x18 → Answers (exec .waggleQuery s) (fun t => t.kp.mbox.replyStatus = 0 ∧
    t.kp.waggle = s.kp.waggle ∧ t.kp.mbox.reply.length ≤ 32768)) ∧
  (∀ s, MailboxRuns s 0x19 → argNat s 5 3 = 0 → s.kp.mbox.argLen = 8 + argNat s 4 1 →
    (argNat s 2 1 = 1 ∨ argNat s 2 1 = 2 ∨ argNat s 2 1 = 4) → argNat s 3 1 ≤ 1 → s.kp.settings.chipIdValid = true →
    s.clk.wgHold = true → s.kp.waggle.outDeclared = false →
    exec .waggleSend s = .next (mbEnd (sendWaggle s (argNat s 2 1) (argNat s 0 2) (argNat s 3 1 == 1)
      (arg s 8 (argNat s 4 1))) .ok []))

/-! ## The vault's own events -/

/-- R361, R365, R372, R457: a pulse after which its copy reads blown goes on to the next copy, and the last one ends
the command; a copy that reads unblown is pulsed again, and its third failure ends the command with HW_ERROR, and is
logged; a command that has set the lifecycle has the copies blown that its code lacks before it ends, and a `REBOOT`
that waited for a blow starts at its end (R404); VPP that rises begins the pulses, VPP that does not fails the blow; a
challenge expires; a reseed starts the count of requests anew; a failed health test stops the DRBG. R359, R361, R362:
blowing one fuse copy sets exactly its bit: it then reads blown, blowing it again changes nothing, and every other copy
of every row reads as before. -/
def Obligations.FusesAndVaultEvents : Prop :=
  (∀ s b x rest, s.vault.blow = some b → b.vpp = true → b.todo = x :: rest → rest ≠ [] → (∀ r, b.kind ≠ .revoke r) →
    Answers (exec (.fusePulseEnd true) s) (fun t => t.vault.fuses = s.vault.fuses.blow x ∧
      t.vault.blow = some { b with todo := rest, pulses := 0 })) ∧
  (∀ s b x, s.vault.blow = some b → b.vpp = true → b.todo = [x] → b.kind ∈ [BlowKind.lifecycle, .provision, .enrol, .arb] →
    (let u := senseLc (setBlow (s.onVault (fun v => { v with fuses := v.fuses.blow x })) none)
     (missingCopies u = [] → exec (.fusePulseEnd true) s = .next (mbEnd u .ok [])) ∧
     (missingCopies u ≠ [] → exec (.fusePulseEnd true) s = .next (setBlow u (some
       { kind := .repair, todo := (missingCopies u).map (fun y => .lc y.1 y.2), pulses := 0, vpp := true }))))) ∧
  (∀ s b x rest, s.vault.blow = some b → b.vpp = true → b.todo = x :: rest → s.vault.fuses.blow x ≠ s.vault.fuses →
    b.pulses < 2 →
    Answers (exec (.fusePulseEnd false) s) (fun t => t.vault.fuses = s.vault.fuses ∧
      t.vault.blow = some { b with pulses := b.pulses + 1 })) ∧
  (∀ s b x rest, s.vault.blow = some b → b.vpp = true → b.todo = x :: rest → s.vault.fuses.blow x ≠ s.vault.fuses →
    2 ≤ b.pulses →
    Answers (exec (.fusePulseEnd false) s) (fun t => t.vault.blow = none ∧ t.vault.fuses = s.vault.fuses ∧
      (b.kind ≠ .bootRepair → t.kp.mbox.replyStatus = 13 ∧ (s.kp.mbox.rebootTag = none → t.kp.mbox.busy = false) ∧
        (∀ g, s.kp.mbox.rebootTag = some g → t.kp.mbox.busy = true ∧ t.kp.mbox.op = 0x11 ∧ t.kp.mbox.tag = g)))) ∧
  (∀ s b, s.vault.blow = some b → b.vpp = false →
    exec .fuseVppOk s = .next (s.onVault (fun v => { v with blow := some { b with vpp := true } }))) ∧
  (∀ s b, s.vault.blow = some b → b.vpp = false →
    Answers (exec .fuseVppTimeout s) (fun t => t.vault.blow = none ∧ t.vault.fuses = s.vault.fuses ∧
      (b.kind ≠ .bootRepair → t.kp.mbox.replyStatus = 13))) ∧
  (∀ s, s.vault.challenge.isSome = true →
    exec .challengeExpiry s = .next (s.onVault (fun v => { v with challenge := none }))) ∧
  (∀ s, s.vault.drbgOn = true → exec .drbgReseed s = .next (s.onVault (fun v => { v with drbgRequests := 0 }))) ∧
  (∀ s, s.vault.drbgOn = true → s.kp.warm = none →
    Answers (exec .drbgHealthFail s) (fun t => t.vault.drbgOn = false)) ∧
  (∀ s j, s.kp.warm = some j → j.stepsDone = false →
    Answers (exec .drbgHealthFail s) (fun t => t.vault.drbgOn = false)) ∧
  (∀ (f : Fuses) (x : FuseBit), (f.blow x).blow x = f.blow x ∧ FusesStay f (f.blow x) ∧
    (f.blow x).serial = f.serial ∧
    (∀ i b, x = .drk b → ((f.blow x).drk.testBit i = true ↔ f.drk.testBit i = true ∨ i = b)) ∧
    (∀ c i b, x = .lc c b → c < f.lc.length →
      ((nth (f.blow x).lc c 0).testBit i = true ↔ (nth f.lc c 0).testBit i = true ∨ i = b)) ∧
    (∀ c d b, x = .lc c b → d ≠ c → nth (f.blow x).lc d 0 = nth f.lc d 0) ∧
    (∀ b, x = .drk b → (f.blow x).lc = f.lc ∧ (f.blow x).owner = f.owner ∧ (f.blow x).enrolled = f.enrolled ∧
      (f.blow x).revoked = f.revoked))

/-! ## Host port -/

/-- R71, R257, R427, R435: a doorbell on a bound queue of its page, by a word within the ring and not behind the tail,
moves the tail to it and nothing else; one behind the tail is counted as stale; one past the ring's room is counted as
an overrun, leaves the tail and raises a hive event; one on a queue of another page, or an unbound one, is sunk and
counted. A doorbell write with none waiting before it acts at once: a word whose byte enables cover its low half is one
doorbell, whole words are one for each word in rising order, and one of any other form is sunk, counted and logged.
Behind a host access that waits it waits in turn. R281, R339, R342, R426, R429, R239: the words of page 0, where the
host reaches the block: an event-consumed word between the two indices advances the index, and one past the next index
is counted; a window entry within the table and below the memory's size is written whole, and one whose granule lies at
or above it is not stored, and is counted and logged; a route reload loads its entries from the route area; a write of
the mailbox's argument buffer writes its bytes. -/
def Obligations.DoorbellPageWrites : Prop :=
  (∀ s page q d, blockReady s = true → pageLive s page = true → q < Config.queues →
    ((queueAt s q).state = .running ∨ (queueAt s q).state = .stopped) → (queueAt s q).ctx = page →
    Machine.dist d (queueAt s q).tail < 2 ^ 31 → Machine.dist d (queueAt s q).done ≤ 2 ^ (queueAt s q).ringLog2 →
    doorbell s page q d = setQueue s q (fun y => { y with tail := d })) ∧
  (∀ s page q d, blockReady s = true → pageLive s page = true → q < Config.queues →
    ((queueAt s q).state = .running ∨ (queueAt s q).state = .stopped) → (queueAt s q).ctx = page →
    2 ^ 31 ≤ Machine.dist d (queueAt s q).tail →
    doorbell s page q d = setQueue s q (fun y => { y with staleDb := satInc 32 y.staleDb })) ∧
  (∀ s page q d, blockReady s = true → pageLive s page = true → q < Config.queues →
    ((queueAt s q).state = .running ∨ (queueAt s q).state = .stopped) → (queueAt s q).ctx = page →
    Machine.dist d (queueAt s q).tail < 2 ^ 31 → 2 ^ (queueAt s q).ringLog2 < Machine.dist d (queueAt s q).done →
    doorbell s page q d = hiveEvent (setQueue s q (fun y => { y with overrunDb := satInc 32 y.overrunDb })) 0x01
      (ctxAt s page).hive q d) ∧
  (∀ s page q d, ((queueAt s q).ctx ≠ page ∨ (queueAt s q).state = .unbound) →
    doorbell s page q d = count s (fun c => { c with sunkDb := satInc 32 c.sunkDb })) ∧
  (∀ s page off be data, hostOpen s = true → s.hp.queue = [] → (data.length = 4 ∨ data.length = 8) → be % 16 = 15 →
    off % 8 = 0 → off < 0x8000 →
    exec (.doorbellWrite page off be data) s = .next (doorbell s page (off / 8) (leNat (data.take 4)))) ∧
  (∀ s page off data n, hostOpen s = true → s.hp.queue = [] → data.length = 8 * n → 0 < n → off % 8 = 0 →
    off + 8 * n ≤ 0x8000 →
    exec (.doorbellWrite page off (2 ^ (8 * n) - 1) data) s = .next ((List.range n).foldl (fun t i =>
      doorbell t page (off / 8 + i) (leNat ((data.drop (8 * i)).take 4))) s)) ∧
  (∀ s page off be data, hostOpen s = true → s.hp.queue = [] →
    (off % 8 ≠ 0 ∨ be % 16 ≠ 15 ∨ (data.length ≠ 4 ∧ data.length % 8 ≠ 0) ∨ data.length = 0) →
    exec (.doorbellWrite page off be data) s = .next (sinkWrite s true)) ∧
  (∀ s page off be data op r, hostOpen s = true → s.hp.queue = op :: r → hostCan s op = false →
    Answers (exec (.doorbellWrite page off be data) s) (fun t =>
      t.hp.queue = s.hp.queue ++ [.doorbell page off be data] ∧ t.qm.queues = s.qm.queues)) ∧
  (∀ s (w : Word), hostOpen s = true → blockReady s = true → s.sq.eventLost = 0 →
    Machine.dist (fld w.toNat 0 32) s.sq.eventConsumed ≤ Machine.dist s.sq.eventNext s.sq.eventConsumed →
    exec (.eventConsumed w) s = .next (s.onSq (fun q => { q with eventConsumed := fld w.toNat 0 32 }))) ∧
  (∀ s (w : Word), hostOpen s = true → blockReady s = true →
    Machine.dist s.sq.eventNext s.sq.eventConsumed < Machine.dist (fld w.toNat 0 32) s.sq.eventConsumed →
    exec (.eventConsumed w) s = .next (count s (fun c => { c with badConsumed := satInc 32 c.badConsumed }))) ∧
  (∀ s i (w : Word), hostOpen s = true → blockReady s = true → i < 512 → fld w.toNat 32 10 < memBytes s / 2 ^ 30 →
    Answers (exec (.windowEntryWrite i w) s) (fun t =>
      windowAt t i = { valid := bit w.toNat 63, whive := fld w.toNat 42 8, granule := fld w.toNat 32 10 } ∧
        (∀ j, j ≠ i → windowAt t j = windowAt s j) ∧ t.pr = s.pr)) ∧
  (∀ s i (w : Word), hostOpen s = true → blockReady s = true → i < 512 → memBytes s / 2 ^ 30 ≤ fld w.toNat 32 10 →
    exec (.windowEntryWrite i w) s = .next (sinkWrite s true) ∧ ∀ j, windowAt (sinkWrite s true) j = windowAt s j) ∧
  (∀ s (w : Word), hostOpen s = true → s.clk.stream.ready = true → blockReady s = true → fld w.toNat 48 16 + fld w.toNat 32 16 < 2 ^ 16 →
    exec (.routeReload w) s = .next (loadRoutes s
      ((List.range (fld w.toNat 32 16 + 1)).map (fun i => fld w.toNat 48 16 + i)))) ∧
  (∀ s off data, hostOpen s = true → s.hp.d3hot = false → 0x9000 ≤ off → off < 0xD000 →
    wordAccess off data.length = true →
    exec (.registerWrite 0 off data) s = .next (s.onKp (fun k =>
      { k with mbox := { k.mbox with args := cellWriteN 0 k.mbox.args (off - 0x9000) data } }))) ∧
  (∀ s off data, hostOpen s = true → s.hp.d3hot = true → off < 0x10000 →
    exec (.registerWrite 0 off data) s = .next (sinkWrite s false)) ∧
  (∀ s w i off data, hostOpen s = false →
    exec (.windowEntryWrite i w) s = .next (hostWaits s) ∧ exec (.eventConsumed w) s = .next (hostWaits s) ∧
      exec (.faultConsumed w) s = .next (hostWaits s) ∧ exec (.faultAnswer w) s = .next (hostWaits s) ∧
      exec (.routeReload w) s = .next (hostWaits s) ∧ exec (.registerWrite 0 off data) s = .next (hostWaits s)) ∧
  (∀ s, s.clk.hxDown = true → hostWaits s = s) ∧
  (∀ s, s.clk.hxDown = false → s.kp.mbox.clkFail = false → s.clk.control.req = false →
    (hostWaits s).clk.control.req = true ∧ (hostWaits s).sent = s.sent ++ [.clockRequest .control true])

/-- R18, R257, R274, R430, R432, R434, R435: an aperture access that its window, its hive and its comb admit, that none
waits before and whose lines nothing holds, reads or writes the hive's lines; a read that none admits is answered with
Unsupported Request and counted; the atomic returns the old value; I/O requests and messages are answered with
Unsupported Request, logged and reported; where the host does not reach the block none of them does; where a line of it
is held the access takes its place and waits, and where the stream clock does not run it waits and demands it. -/
def Obligations.ApertureAccesses : Prop :=  (∀ s off len h k a, hostOpen s = true → s.hp.queue = [] → hostCan s (.read off len) = true → blockReady s = true →
    apertureTarget s off len .rd = .ok (h, k, a) →
    exec (.apertureRead off len) s =
      .next (emit (apertureLines s h k (linesOf a len) ([], [])).1
        (.readDone (((apertureLines s h k (linesOf a len) ([], [])).2.1.drop (a % 128)).take len)
          (apertureLines s h k (linesOf a len) ([], [])).2.2))) ∧
  (∀ s off len b, hostOpen s = true → s.hp.queue = [] → blockReady s = true → apertureTarget s off len .rd = .error b →
    Answers (exec (.apertureRead off len) s) (fun t =>
      t.sent = s.sent ++ .unsupported :: (if b then [.aerReport] else []) ∧
        t.hp.counters.urReads = satInc 32 s.hp.counters.urReads ∧ t.pr = s.pr)) ∧
  (∀ s off data h k a, hostOpen s = true → s.hp.queue = [] → hostCan s (.write off data) = true → blockReady s = true →
    apertureTarget s off data.length .wr = .ok (h, k, a) →
    exec (.apertureWrite off data) s = .next ((linesOf a data.length).foldl (fun t l =>
      (apertureLine t h k l (lineWrite a data l)).1) s)) ∧
  (∀ s off op size v w h k a r old, hostOpen s = true → s.hp.queue = [] → hostCan s (.atomic off op size v w) = true →
    blockReady s = true → (size = 4 ∨ size = 8) → off % size = 0 → apertureTarget s off size .atom = .ok (h, k, a) →
    apertureLine s h k (lineOf a)
      (.atomic (match op with | .fetchAdd => AtomOp.add | .swap => .xchg | .cas => .cas) (size == 8) false (a % 128) v w) =
      (r, .ok, old) →
    exec (.apertureAtomicop 4 off op size v w) s = .next (emit r (.atomicDone old false))) ∧
  (∀ s off size fe, hostOpen s = true → blockReady s = true → (size = 8 ∨ size = 16) → off % size = 0 →
    off < 16 * Config.fences → fenceAt s (off / 16) = some fe →
    exec (.fenceWindowRead off size) s =
      .next (emit s (.readDone (((bytesOf (fe.words.take 2)).drop (off % 16)).take size) []))) ∧
  (∀ s read, hostOpen s = true →
    Answers (exec (.inboundUnsupportedRequest (.ioRequest read)) s) (fun t =>
      t.sent = s.sent ++ [.unsupported, .aerReport] ∧ t.br.refused = s.br.refused + 1 ∧
        t.hp.counters.urReads = if read then satInc 32 s.hp.counters.urReads else s.hp.counters.urReads) ∧
    Answers (exec (.inboundUnsupportedRequest .message) s) (fun t =>
      t.sent = s.sent ++ [.unsupported, .aerReport] ∧ t.br.refused = s.br.refused + 1)) ∧
  (∀ s off len data, hostOpen s = false →
    exec (.apertureRead off len) s = .next (hostWaits s) ∧ exec (.apertureWrite off data) s = .next (hostWaits s) ∧
      exec (.fenceWindowRead off len) s = .next (hostWaits s)) ∧
  (∀ s off len, hostOpen s = true → s.hp.queue = [] → hostCan s (.read off len) = false →
    Answers (exec (.apertureRead off len) s) (fun t => t.hp.queue = [.read off len] ∧ t.pr.mem = s.pr.mem)) ∧
  (∀ s off data, hostOpen s = true → s.hp.queue = [] → hostCan s (.write off data) = false →
    Answers (exec (.apertureWrite off data) s) (fun t => t.hp.queue = [.write off data] ∧ t.pr.mem = s.pr.mem)) ∧
  (∀ s off len h k a, hostOpen s = true → s.hp.queue = [] → s.clk.stream.ready = false → blockReady s = true → 0 < len →
    apertureTarget s off len .rd = .ok (h, k, a) →
    exec (.apertureRead off len) s = .next (demand (s.onHp (fun x => { x with queue := [.read off len] })) .stream))

/-- R329, R335, R337, R433: a pending message past the mask and the budget is sent with its entry's address and data
where the entry is not masked, and no longer pends; a masked entry sets its pending bit; a message of a masked hive
waits as it is. R346, R348: a PCIe Conventional Reset and a Function Level Reset start a block warm reset that does not
keep PCIe state, and one in progress takes that on; in a held block and in RECOVERY the PCIe state goes alone; a move
between D0 and D3hot changes nothing but the state of the function. -/
def Obligations.HostMessagesAndResets : Prop :=
  (∀ s v m, s.sq.msgs.find? (fun x => x.vector == v) = some m → m.charged = true → (msixAt s v).masked = false →
    s.hp.msixFunctionMask = false → (msixAt s v).addr % 4 = 0 →
    Answers (exec (.msixMessageSend v) s) (fun t =>
      t.sent = s.sent ++ [.msix v (msixAt s v).addr (msixAt s v).data .ordered] ∧ (∀ x ∈ t.sq.msgs, x.vector ≠ v) ∧
        v ∉ t.hp.pba ∧ t.pr = s.pr)) ∧
  (∀ s v m, s.sq.msgs.find? (fun x => x.vector == v) = some m → m.charged = true → (msixAt s v).masked = true →
    Answers (exec (.msixMessageSend v) s) (fun t => t.sent = s.sent ∧ v ∈ t.hp.pba ∧ t.sq.msgs = s.sq.msgs)) ∧
  (∀ s v m h, s.sq.msgs.find? (fun x => x.vector == v) = some m → m.charged = false → vectorOwner s v = some h →
    (hiveAt s h).masked = true → exec (.msixMessageSend v) s = .next s) ∧
  (∀ s vector hive, (hiveAt s hive).masked = false → s.sq.msgs.any (fun m => m.vector == vector) = true →
    raiseIrq s hive vector = s) ∧
  (∀ s i, i = Instr.pcieConventionalReset ∨ i = Instr.functionLevelReset → s.clk.cold = false →
    s.kp.mbox.bootStage ≠ stageHeld → s.kp.mbox.bootStage ≠ stageRecovery →
    Answers (exec i s) (fun t => (∃ j, t.kp.warm = some j ∧ j.keepPcie = false) ∧ t.pr = s.pr ∧ t.vault = s.vault)) ∧
  (∀ s i, i = Instr.pcieConventionalReset ∨ i = Instr.functionLevelReset → s.clk.cold = false →
    (s.kp.mbox.bootStage = stageHeld ∨ s.kp.mbox.bootStage = stageRecovery) →
    Answers (exec i s) (fun t => t.kp = s.kp ∧ t.hp.msix = [] ∧ t.hp.pba = [] ∧ t.hp.atsOn = false ∧ t.hp.d3hot = false)) ∧
  (∀ s b, exec (.pciePowerStateChange b) s = .next (s.onHp (fun h => { h with d3hot := b })))

/-! ## The path of a command -/

/-- R20, R69, R464: the slot of a RUNNING queue with an index to fetch and room for it leaves: the fetch index moves on
and the command stands in the reading stage. R105, R465: its words decode to a FETCHED command, or end it at the word
that fails; a slot whose line fails ends with that status. R20, R23, R226, R227, R228: a FETCHED command at its turn
whose static spans are all translated pins them and is PRE_TRANSLATED; one whose pre-translation outlasts its bound
ends with TIMEOUT. R77, R99, R109: a FREE channel of a mover in service takes the head command of the queue that is
served: it is RUNNING at word 0, with its registers zero, and the command no longer waits; a mover that is awake comes
before a gated one (R354). R73, R115, R121: a command whose last instruction has retired, with nothing outstanding and
no flush owed, ends, and an aborted command with nothing outstanding the same way with its own status: its channel
waits for its record. A record whose page has no translation waits for its walk; one whose completion area lies on this
chip is written there, once its line's turn has come; one on a chip that its hive may not reach is logged and lost. A
record that is written, or lost, makes its channel FREE and releases its command's pins. -/
def Obligations.CommandsGoTheirPath : Prop :=
  (∀ s q, (queueAt s q).state = .running → (queueAt s q).fetch ≠ (queueAt s q).tail → fetchRoom s q = true →
    hiveRuns s (ctxAt s (queueAt s q).ctx).hive = true → s.clk.stream.ready = true →
    Answers (exec (.slotFetch q) s) (fun t =>
      (queueAt t q).fetch = ((queueAt s q).fetch + 1) % 2 ^ 32 ∧ (queueAt t q).tail = (queueAt s q).tail ∧
        ∃ k ∈ t.qm.cmds, k.q = q ∧ k.idx = (queueAt s q).fetch ∧ k.stage = .reading)) ∧
  (∀ s q idx k t ws, cmdAt s q idx = some k → k.stage = .reading → k.words = [] →
    s.hp.reads.any (fun r => r.who == .pre q idx) = false →
    s.xl.atsReqs.any (fun a => a.wants.any (fun w => w.r == .pre q idx)) = false →
    readSlot s q idx = (t, .ok (some ws)) → firstBad true (q == 0) ws = none →
    exec (.slotReadDone q idx) s = .next (setCmd t q idx (fun x =>
      { x with words := ws, owed := owedOf ws, stage := .fetched }))) ∧
  (∀ s q idx k t ws w st, cmdAt s q idx = some k → k.stage = .reading → k.words = [] →
    s.hp.reads.any (fun r => r.who == .pre q idx) = false →
    s.xl.atsReqs.any (fun a => a.wants.any (fun w => w.r == .pre q idx)) = false →
    readSlot s q idx = (t, .ok (some ws)) → firstBad true (q == 0) ws = some (w, st) →
    exec (.slotReadDone q idx) s = .next (discard (setCmd t q idx (fun x =>
      { x with words := ws, owed := owedOf ws, stage := .fetched })) q idx st w)) ∧
  (∀ s q idx k t st, cmdAt s q idx = some k → k.stage = .reading → k.words = [] →
    s.hp.reads.any (fun r => r.who == .pre q idx) = false →
    s.xl.atsReqs.any (fun a => a.wants.any (fun w => w.r == .pre q idx)) = false →
    readSlot s q idx = (t, .error st) →
    exec (.slotReadDone q idx) s = .next (progress (discard t q idx st 0))) ∧
  (∀ s q idx k, cmdAt s q idx = some k → k.stage = .fetched → preTurn s k = true →
    (s.qm.pins.filter (fun p => p.idx.isSome)).length + (cmdSpans k).length ≤ Config.commandPins →
    ∀ t, prePages s q idx k.ctx false (cmdPages k) k.hostDone = (t, .good) →
    Answers (exec (.preTranslate q idx) s) (fun u =>
      u.qm.pins = t.qm.pins ++ (cmdSpans k).map (fun p =>
        { ctx := k.ctx, pages := (pagesOf p).map (fun a => a / 2 ^ 25), need := p.need, parts := p.parts, q := q
          idx := some idx }) ∧
      u.qm.cmds = t.qm.cmds.map (fun j => if j.q == q && j.idx == idx then { j with stage := .preTranslated } else j))) ∧
  (∀ s q idx k, cmdAt s q idx = some k → k.stage = .fetched → preTurn s k = true → cmdSpans k = [] →
    s.qm.pins.length ≤ Config.commandPins →
    Answers (exec (.preTranslate q idx) s) (fun u => u.qm.pins = s.qm.pins ∧ u.pr = s.pr ∧ u.xl = s.xl ∧
      u.qm.cmds = s.qm.cmds.map (fun j => if j.q == q && j.idx == idx then { j with stage := .preTranslated } else j))) ∧
  (∀ s q idx k, cmdAt s q idx = some k → k.stage = .fetched →
    exec (.preTranslationTimeout q idx) s = .next (progress (discard s q idx .timeout 0))) ∧
  (∀ s c q k, (pickHive s).bind (pickQueue s) = some q → headCmd s q = some k → c < Config.channels →
    (chanAt s c).state = .free → (moverAt s (c / 8)).inService = true → (moverAt s (c / 8)).draining = false →
    ((moverAt s (c / 8)).gated = false ∨ ∀ d < Config.channels, mayGrant s d = true → (moverAt s (d / 8)).gated = true) →
    Answers (exec (.dispatch c) s) (fun t =>
      chanAt t c = dispatched s k ∧ (chanAt t c).state = .running ∧ (chanAt t c).pc = 0 ∧ (chanAt t c).code = k.words ∧
        (chanAt t c).q = k.q ∧ (chanAt t c).idx = k.idx ∧ t.qm.lastHive = (ctxAt s k.ctx).hive ∧
        (moverAt t (c / 8)).gated = false ∧
        t.qm.cmds = s.qm.cmds.filter (fun j => !(j.q == q && j.idx == k.idx)) ∧ t.pr = s.pr)) ∧
  (∀ s c, (chanAt s c).state = .ending → (chanAt s c).retired = true → (chanAt s c).hold = .none →
    remoteBusy s c = false → ((chanAt s c).host = false ∨ (chanAt s c).hostWritten = false) →
    let st := (chanAt s c).lineStatus.getD (chanAt s c).endStatus
    exec (.commandComplete c) s = .next (progress (endCommand s c st (chanAt s c).endDepth (chanAt s c).endWord))) ∧
  (∀ s c, (chanAt s c).state = .ending → (chanAt s c).retired = false → (chanAt s c).hold = .none → remoteBusy s c = false →
    s.hp.reads.any (fun r => r.who == .chan c) = false → s.hp.flushes.any (fun f => f.2 == c) = false →
    exec (.abortSettleDone c) s =
      .next (progress (endCommand s c (chanAt s c).endStatus (chanAt s c).endDepth (chanAt s c).endWord))) ∧
  (∀ (s : State) (r : PendRec) i j e,
    let qu := queueAt s r.q
    let pa := e.frame + recordVa s r % 2 ^ e.sizeLog2
    let hive := (ctxAt s qu.ctx).hive
    let k : WriteKind := .partialWrite (r.bytes.zipIdx.map (fun b => (pa - lineOf pa + b.2, b.1)))
    let o : Origin := .record r.q r.idx
    let h : HomeReq :=
      { req := { origin := o, hive := hive, keySel := keySelAt s hive (paLocal pa), label := qu.label,
                 level := levelOf s qu.label, addr := paLocal (lineOf pa) }
        kind := some k, second := none, raw := [], ticket := true }
    l2Find s qu.ctx (recordVa s r) = some (i, j, e) → e.permits .wr = true → e.host = false →
    (paChip pa = chipId s → lineGoes s h = true →
      let w := homeWrite s hive h.req.keySel (paLocal (lineOf pa)) k h.req.level qu.ctx (pa - lineOf pa)
      startRecord s r = recordDone (lostRecord (redeem w.1 o (paLocal (lineOf pa))) qu.ctx pa w.2.1 true) r) ∧
    (paChip pa = chipId s → lineGoes s h = false → startRecord s r = takePlace s h) ∧
    (paChip pa ≠ chipId s → remoteOk s hive (paChip pa) = false →
      let l : LogIn := { cls := 4, status := Status.rights.code, hive := hive, ugroup := 1, unit := r.chan.getD 0 / 8, cause := 6,
                         ctx := qu.ctx, paddr := pa }
      startRecord s r = recordDone (logErr s l) r)) ∧
  (∀ (s : State) (r : PendRec), l2Find s (queueAt s r.q).ctx (recordVa s r) = none →
    startRecord s r = askWalk s (queueAt s r.q).ctx (recordVa s r)
      [{ r := .record r.q r.idx, access := .write, va := recordVa s r }] []) ∧
  (∀ (s : State) (r : PendRec) c, r.chan = some c → chanAt (recordDone s r) c = Channel.empty ∧
    ∀ p ∈ (recordDone s r).qm.pins, ¬ (p.q = (chanAt s c).q ∧ p.idx = some (chanAt s c).idx)) ∧
  (∀ idx st depth word m cc, (recordBytes idx st depth word m cc).length = 16 ∧
    leNat ((recordBytes idx st depth word m cc).take 8) =
      (idx * 2 ^ 32 + st.code * 2 ^ 24 + depth % 8 * 2 ^ 21 + word % 32 * 2 ^ 16) % 2 ^ 64)

/-! ## Propolis and the stream ports -/

/-- R306, R312, R315, R445, R448: a line request at its unit: under an empty key slot it is answered HW_ERROR; a read
of a FRESH slice is answered OK with zeros; the first write of one opens the slice, whose fill the unit begins where it
fills fewer than 8, and waits; without the stream clock it demands it; a request to a line of an OPEN slice with
credits, a tag and nothing before it leaves on the port; at or above S × C there is no memory (R209). -/
def Obligations.LineRequestsAtTheirUnit : Prop :=  (∀ s r, s.clk.stream.ready = true → lineOf r.addr < memBytes s → (slotAt s r.keySel).loaded = true → (sliceAt s (lineOf r.addr)).state = .fresh →
    Answers (exec (.propolisRead r) s) (fun t =>
      t.sent = s.sent ++ [.lineAnswer r.origin .ok (List.replicate 128 0)] ∧ t.pr.mem = s.pr.mem ∧ t.ports = s.ports)) ∧
  (∀ s r, s.clk.stream.ready = true → lineOf r.addr < memBytes s → (slotAt s r.keySel).loaded = false →
    Answers (exec (.propolisRead r) s) (fun t =>
      t.sent = s.sent ++ [.lineAnswer r.origin .hwError []] ∧ t.pr.mem = s.pr.mem ∧ t.ports = s.ports)) ∧
  (∀ s r k, s.clk.stream.ready = true → lineOf r.addr < memBytes s → (slotAt s r.keySel).loaded = true → (sliceAt s (lineOf r.addr)).state = .fresh →
    (sliceAt s (lineOf r.addr)).filling = false → (portAt s (homePort s (lineOf r.addr))).leftOut = false →
    Answers (exec (.propolisWrite r k) s) (fun t =>
      (sliceAt t (lineOf r.addr)).state = .opening ∧
        t.sent = s.sent ++
          (if fillsOf s (homePort s (lineOf r.addr)) < Config.openings then
            [.sliceFill (sliceKey s (lineOf r.addr) % 64) (sliceKey s (lineOf r.addr) / 64) r.level
              (fillLines s (sliceKey s (lineOf r.addr)) r.keySel)] else []) ∧
        t.pr.mem = s.pr.mem ∧
        t.pr.waiting = s.pr.waiting ++
          [(sliceKey s (lineOf r.addr),
            { req := { r with addr := lineOf r.addr }, kind := some k, second := none, raw := [], ticket := false })])) ∧
  (∀ s r, s.clk.stream.ready = false → lineOf r.addr < memBytes s → exec (.propolisRead r) s = .next (demand s .stream)) ∧
  (∀ s r tag, s.clk.stream.ready = true → lineOf r.addr < memBytes s → (slotAt s r.keySel).loaded = true → (sliceAt s (lineOf r.addr)).state = .opened →
    let p := homePort s (lineOf r.addr)
    (portAt s p).leftOut = false → s.pr.locks = [] → s.pr.lockWait = [] → onLine s (lineOf r.addr) = [] →
    (portAt s p).arb = [] → (portAt s p).aged = [] → r.level < 4 →
    (portAt s p).creditReq ≠ 0 → freeTag (portAt s p).reads (portAt s p).quarReads = some tag →
    Answers (exec (.propolisRead r) s) (fun t =>
      t.sent = s.sent ++ [.portRequest p false tag (portOffset s (lineOf r.addr)) r.level] ∧ t.pr.mem = s.pr.mem ∧
        (portAt t p).creditReq = (portAt s p).creditReq - 1)) ∧
  (∀ s r k, memBytes s ≤ lineOf r.addr →
    exec (.propolisRead r) s = .fault (.noMemory (lineOf r.addr)) ∧
      exec (.propolisWrite r k) s = .fault (.noMemory (lineOf r.addr))) ∧
  (∀ s cell port sl, port < 64 → Tab.look s.pr.slices (cell * 64 + port) = some sl → sl.state = .opening → sl.filling = true →
    s.pr.waiting = [] → s.pr.fillQ = [] →
    Answers (exec (.sliceOpeningDone cell port) s) (fun t => ∃ u, t = onward u ∧
      (Tab.look u.pr.slices (cell * 64 + port)).map (·.state) = some (if sl.markFresh then .fresh else .opened) ∧
        u.pr.mem = s.pr.mem ∧ u.sent = s.sent))

/-- R310, R311, R315, R447, R448, R449, R450: a response whose tag is outstanding frees the tag; the data of a read
whose tag matches under the DATA tag goes to its origin decrypted, one under the POISON tag is answered POISON, and an
acknowledged whole-line write leaves its bytes in the line; a response with a tag that is not outstanding is refused
and counted, and changes nothing of the port; credits add up to 255; a port without initial credits is left out; a
request unanswered is answered TIMEOUT and its tag quarantined. After each, what waited for it goes on. R18, R315,
R319, R419: the scrub of a line of a FRESH slice, or of one that no comb holds, changes nothing, and one whose stream
clock stands still demands it; one of an OPEN slice is a read at SCAVENGE under the key of its comb, of nobody's label;
its answer, in the row or after it, says that the line is good, or poisoned. -/
def Obligations.PortsCarryLines : Prop :=
  (∀ s p tag h l o data, (portAt s p).reads = [{ tag := tag, home := h, line := l, old := o }] → (portAt s p).writes = [] →
    (portAt s p).arb = [] → (portAt s p).aged = [] → s.pr.locks = [] → s.pr.lockWait = [] → s.pr.granted = [] → h.kind = none →
    homePort s h.req.addr = p → (sliceAt s h.req.addr).state = .opened → data.length = 128 →
    let k := slotAt s h.req.keySel
    Answers (exec (.streamResponse p false tag false false false ⟨lineTag k.material k.hashKey h.req.addr false data, data⟩) s)
      (fun t => ∃ u, t = onward u ∧
        u.sent = s.sent ++ [.lineAnswer h.req.origin .ok (sized 128 (decryptLine k.material h.req.addr data))] ∧
        (portAt u p).reads = [] ∧ condOf u h.req.addr = .good ∧
        u.pr.mem = cellWriteN 0 s.pr.mem h.req.addr (sized 128 (decryptLine k.material h.req.addr data)))) ∧
  (∀ s p tag h l o data, (portAt s p).reads = [{ tag := tag, home := h, line := l, old := o }] → (portAt s p).writes = [] →
    (portAt s p).arb = [] → (portAt s p).aged = [] → s.pr.locks = [] → s.pr.lockWait = [] → s.pr.granted = [] →
    homePort s h.req.addr = p → (sliceAt s h.req.addr).state = .opened → data.length = 128 →
    let k := slotAt s h.req.keySel
    lineTag k.material k.hashKey h.req.addr true data ≠ lineTag k.material k.hashKey h.req.addr false data →
    Answers (exec (.streamResponse p false tag false false false ⟨lineTag k.material k.hashKey h.req.addr true data, data⟩) s)
      (fun t => ∃ u, t = onward u ∧ u.sent = s.sent ++ [.lineAnswer h.req.origin .poison []] ∧
        (portAt u p).reads = [] ∧ condOf u h.req.addr = .poisoned ∧ u.pr.mem = s.pr.mem)) ∧
  (∀ s p tag h d l o a m, MemoryWf s → (portAt s p).writes = [{ tag := tag, home := h, line := l, old := o }] →
    (portAt s p).reads = [] → (portAt s p).arb = [] → (portAt s p).aged = [] → s.pr.locks = [] → s.pr.lockWait = [] → s.pr.granted = [] →
    h.kind = some (.whole d) → h.second = none → h.req.origin ≠ .scrubber → l.length = 128 →
    (sliceAt s h.req.addr).state = .opened → homePort s h.req.addr = p →
    Answers (exec (.streamResponse p true tag false false false m) s) (fun t => ∃ u, t = onward u ∧
      (portAt u p).writes = [] ∧ u.sent = s.sent ++ [.lineAnswer h.req.origin .ok []] ∧
        memByte u a = if h.req.addr ≤ a ∧ a < h.req.addr + 128 then nth l (a - h.req.addr) 0 else memByte s a)) ∧
  (∀ s p write tag corr err poison m, p < 96 →
    (if write then (portAt s p).writes else (portAt s p).reads).find? (fun r => r.tag == tag) = none →
    Answers (exec (.streamResponse p write tag corr err poison m) s) (fun t =>
      t.br.refused = s.br.refused + 1 ∧ t.ports = s.ports ∧ t.pr = s.pr ∧ t.sent = s.sent)) ∧
  (∀ s p req wd, p < 96 → req ≤ 15 → wd ≤ 15 → (portAt s p).arb = [] → (portAt s p).aged = [] →
    (portAt s p).creditReq + req ≤ 255 →
    (portAt s p).creditWd + wd ≤ 255 →
    s.clk.portsDue = false →
    Answers (exec (.creditReturn p req wd) s) (fun t => ∃ u, t = onward u ∧
      (portAt u p).creditReq = (portAt s p).creditReq + req ∧ (portAt u p).creditWd = (portAt s p).creditWd + wd ∧
        u.br = s.br ∧ ∀ j, j ≠ p → portAt u j = portAt s j)) ∧
  (∀ s p, p < fld s.kp.settings.integ 16 8 → (portAt s p).initial = false → (portAt s p).leftOut = false →
    (portAt s p).creditReq = 0 → (portAt s p).creditWd = 0 → (portAt s p).arb = [] →
    s.clk.portsDue = false →
    Answers (exec (.initialCreditTimeout p) s) (fun t => ∃ u, t = onward u ∧ (portAt u p).leftOut = true ∧ u.pr = s.pr)) ∧
  (∀ s p tag h l o, (portAt s p).reads = [{ tag := tag, home := h, line := l, old := o }] → (portAt s p).writes = [] →
    (portAt s p).arb = [] → (portAt s p).aged = [] → s.pr.locks = [] → s.pr.lockWait = [] → s.pr.granted = [] → homePort s h.req.addr = p →
    Answers (exec (.streamRequestTimeout (.portTag p false tag)) s) (fun t => ∃ u, t = onward u ∧
      (portAt u p).reads = [] ∧ (portAt u p).quarReads = (portAt s p).quarReads ++ [tag] ∧ u.pr.mem = s.pr.mem ∧
        u.sent = s.sent ++ [.lineAnswer h.req.origin .timeout []])) ∧
  (∀ s id x, s.sw.txns.find? (fun t => t.id == id && t.kind != .wait) = some x →
    exec (.streamRequestTimeout (.remote id)) s = .next (endTxn s x .timeout)) ∧
  (∀ s p k h, (portAt s p).arb = [h] → homePort s h.req.addr = p → k = 0 → (portAt s p).creditReq = 0 → (portAt s p).aged = [] →
    Answers (exec (.arbiterAgeExpiry (.port p) k) s) (fun t =>
      (portAt t p).arb = [h] ∧ (portAt t p).aged = [h] ∧ t.sent = s.sent)) ∧
  (∀ s addr co er po m, lineOf addr < memBytes s → s.clk.stream.ready = true → (sliceAt s (lineOf addr)).state ≠ .opened →
    exec (.memoryScrub addr co er po m) s = .next s) ∧
  (∀ s addr co er po m, lineOf addr < memBytes s → s.clk.stream.ready = false →
    exec (.memoryScrub addr co er po m) s = .next (demand s .stream)) ∧
  (∀ s addr co er po m, lineOf addr < memBytes s → s.clk.stream.ready = true →
    s.he.hives.findSome? (fun h => (combFor s h.1 (lineOf addr)).map (·.keySel)) = none →
    exec (.memoryScrub addr co er po m) s = .next s) ∧
  (∀ s addr k tag co er po, s.clk.stream.ready = true → lineOf addr < memBytes s → (sliceAt s (lineOf addr)).state = .opened →
    s.he.hives.findSome? (fun h => (combFor s h.1 (lineOf addr)).map (·.keySel)) = some k → (slotAt s k).loaded = true →
    let p := homePort s (lineOf addr)
    onLine s (lineOf addr) = [] → s.pr.locks = [] → s.pr.lockWait = [] → s.pr.granted = [] → (portAt s p).leftOut = false →
    (portAt s p).arb = [] → (portAt s p).aged = [] → (portAt s p).creditReq ≠ 0 →
    freeTag (portAt s p).reads (portAt s p).quarReads = some tag →
    Answers (exec (.memoryScrub addr co er po none) s) (fun t =>
      t.sent = s.sent ++ [.portRequest p false tag (portOffset s (lineOf addr)) 3] ∧ t.pr.mem = s.pr.mem ∧ t.rg = s.rg ∧
        (scrubRead t (lineOf addr)).map (·.tag) = some tag ∧
        ∀ d, exec (.memoryScrub addr co er po (some d)) s = exec (.streamResponse p false tag co er po d) t)) ∧
  (∀ s p tag h l o data (good : Bool), (portAt s p).reads = [{ tag := tag, home := h, line := l, old := o }] →
    (portAt s p).writes = [] → (portAt s p).arb = [] → (portAt s p).aged = [] → s.pr.locks = [] → s.pr.lockWait = [] → s.pr.granted = [] →
    h.kind = none → h.req.origin = .scrubber → homePort s h.req.addr = p → (sliceAt s h.req.addr).state = .opened →
    data.length = 128 →
    let k := slotAt s h.req.keySel
    lineTag k.material k.hashKey h.req.addr true data ≠ lineTag k.material k.hashKey h.req.addr false data →
    Answers (exec (.streamResponse p false tag false false false
        ⟨lineTag k.material k.hashKey h.req.addr (!good) data, data⟩) s)
      (fun t => ∃ u, t = onward u ∧ condOf u h.req.addr = (if good then .good else .poisoned) ∧ (portAt u p).reads = []))

/-! ## Faults and the host's translations -/

/-- R242 to R245: the fault-answer word acts on the outstanding record with its index: RETRY has its requesters walk
again, TERMINATE ends them with FAULT and DENY with RIGHTS; a word that finds no record, or another answer, is counted;
a block that is not ready sinks it. The fault-consumed word moves the ring within what has been written, and else is
counted. A requester whose fault has stood for 2 s ends with FAULT. -/
def Obligations.FaultRecordsAreAnswered : Prop :=  (∀ s w, hostOpen s = true → blockReady s = false → exec (.faultAnswer w) s = .next (sinkWrite s false)) ∧
  (∀ s w f, hostOpen s = true → blockReady s = true → s.xl.faults.find? (fun f => f.index == fld w.toNat 32 32) = some f →
    (fld w.toNat 0 8 = 0 → exec (.faultAnswer w) s = .next (progress (drainAll (retryRec (endPri s f) f)))) ∧
    (fld w.toNat 0 8 = 1 → exec (.faultAnswer w) s =
      .next (progress (drainAll (f.reqs.foldl (fun t r => endReq t .fault r) (dropRec (endPri s f) f))))) ∧
    (fld w.toNat 0 8 = 2 → exec (.faultAnswer w) s =
      .next (progress (drainAll (f.reqs.foldl (fun t r => endReq t .rights r) (dropRec (endPri s f) f))))) ∧
    (3 ≤ fld w.toNat 0 8 → exec (.faultAnswer w) s = .next (dupResponse s))) ∧
  (∀ s w, hostOpen s = true → blockReady s = true →
    s.xl.faults.find? (fun f => f.index == fld w.toNat 32 32) = none →
    Answers (exec (.faultAnswer w) s) (fun t =>
      t.hp.counters.dupResp = satInc 32 s.hp.counters.dupResp ∧ t.xl = s.xl ∧ t.mv = s.mv ∧ t.qm = s.qm ∧ t.pr = s.pr)) ∧
  (∀ s w, hostOpen s = true → blockReady s = true →
    Machine.dist (fld w.toNat 0 32) s.xl.faultConsumed ≤ Machine.dist s.xl.faultNext s.xl.faultConsumed →
    s.xl.permWait = [] → s.xl.resWait = [] →
    exec (.faultConsumed w) s = .next (s.onXl (fun x => { x with faultConsumed := fld w.toNat 0 32 }))) ∧
  (∀ s w, hostOpen s = true → blockReady s = true →
    Machine.dist s.xl.faultNext s.xl.faultConsumed < Machine.dist (fld w.toNat 0 32) s.xl.faultConsumed →
    Answers (exec (.faultConsumed w) s) (fun t =>
      t.xl = s.xl ∧ t.hp.counters.badConsumed = satInc 32 s.hp.counters.badConsumed)) ∧
  (∀ s w, hostOpen s = true → blockReady s = true →
    Machine.dist (fld w.toNat 0 32) s.xl.faultConsumed ≤ Machine.dist s.xl.faultNext s.xl.faultConsumed →
    exec (.faultConsumed w) s = .next (drainAll (s.onXl (fun x => { x with faultConsumed := fld w.toNat 0 32 })))) ∧
  (∀ s r va, (r, va) ∈ s.xl.timers →
    exec (.pageFaultServiceTimeout r) s = .next (progress (endReq s .fault r))) ∧
  (∀ s r, (∀ x ∈ s.xl.timers, x.1 ≠ r) → exec (.pageFaultServiceTimeout r) s = .next s)

/-- R232 to R236, R437: the host's answer to a translation request enters the ATS cache and lets its requesters go on
where it carries the right they need, brings a page request where it does not, and ends them with FAULT where it is an
error; one whose leaf was read before an invalidation of its context is discarded, and they look up again (R219); one
unanswered for 100 µs ends them with TIMEOUT. A Page Request Group Response for no outstanding group is counted;
Success has the group's requesters go on. R232, R234, R235, R253, R437: an ATS invalidation of a PASID in use drops the
host translations of its range from the ATS cache; of a PASID not in use it is counted and completed at once. PRI
enabled again ends the state after a Response Failure; PRI disabled denies the records whose page request has not left
(the model's choice, log 73); a change of ATS drops the host translations. A host read's data reaches the channel that
waits for it; a flush read's completion clears the channel's mark of host writes not yet flushed. -/
def Obligations.HostAnswersTranslationsAndReads : Prop :=
  (∀ s id a, s.xl.atsReqs.find? (fun r => r.id == id) = none →
    exec (.atsTranslationCompletion id a) s = .next (s.onXl (fun x => { x with atsLost := x.atsLost + 1 }))) ∧
  (∀ s id q, s.xl.atsReqs.find? (fun r => r.id == id) = some q → q.seq ≠ (ctxAt s q.ctx).invSeq →
    ∀ a, exec (.atsTranslationCompletion id a) s = .next (progress (sendWaiting (q.wants.foldl (fun t w => retryReq t w.r)
      (s.onXl (fun x => { x with atsReqs := x.atsReqs.filter (fun r => r.id != id) })))))) ∧
  (∀ s id q, s.xl.atsReqs.find? (fun r => r.id == id) = some q → q.seq = (ctxAt s q.ctx).invSeq →
    let t := s.onXl (fun x => { x with atsReqs := x.atsReqs.filter (fun r => r.id != id) })
    exec (.atsTranslationCompletion id .error) s =
      .next (progress (sendWaiting (faultAll t .hostDenied .fault 0 q.ctx q.wants))) ∧
    exec (.atsRequestTimeout id) s =
      .next (progress (sendWaiting (q.wants.foldl (fun t w => endReq t .timeout w.r) t))) ∧
    (∀ sz frame r w, 12 ≤ sz →
      let e : Tlb :=
        { ctx := q.ctx, va := q.va / 2 ^ sz * 2 ^ sz, sizeLog2 := sz, frame := frame / 2 ^ sz * 2 ^ sz, host := true,
          translated := true, rd := r, wr := w, atom := false, nopf := false, hive := (ctxAt t q.ctx).hive }
      ((∀ x ∈ q.wants, e.permits (needOfAccess x.access) = true) → (r = true ∨ w = true) → q.wants ≠ [] →
        exec (.atsTranslationCompletion id (.translation sz frame r w)) s =
          .next (progress (sendWaiting (q.wants.foldl (fun t x => (hostWant t q.leaf x).getD t) (atsPut t e))))) ∧
      (r = false → w = false →
        exec (.atsTranslationCompletion id (.translation sz frame r w)) s =
          .next (progress (sendWaiting ((byAccess q.wants).foldl (fun t g => pageRequest t q.ctx g.2.1 g.1 g.2.2) t)))) ∧
      (q.wants = [] → q.forager = [] →
        exec (.atsTranslationCompletion id (.translation sz frame r w)) s = .next (progress (sendWaiting t))))) ∧
  (∀ s pasid group code, hostOpen s = true →
    s.xl.pri.find? (fun p => p.group == some group && p.pasid == pasid) = none →
    exec (.prgResponse pasid group code) s = .next (dupResponse s)) ∧
  (∀ s pasid group p x, hostOpen s = true →
    s.xl.pri.find? (fun p => p.group == some group && p.pasid == pasid) = some p →
    Tab.look s.hp.pasids pasid = some x →
    let t := s.onXl (fun x => { x with pri := x.pri.filter (fun y => y != p) })
    (p.answered = false → exec (.prgResponse pasid group .success) s =
      .next (progress (sendPri (drainAll ((recsOf t p.ctx p.page).foldl retryRec t))))) ∧
    (p.answered = false → exec (.prgResponse pasid group .invalidRequest) s =
      .next (progress (sendPri (drainAll ((recsOf t p.ctx p.page).foldl denyRec t))))) ∧
    (p.answered = true → exec (.prgResponse pasid group .success) s = .next (sendPri (dupResponse t)) ∧
      exec (.prgResponse pasid group .invalidRequest) s = .next (sendPri (dupResponse t)))) ∧
  (∀ s pasid group p x, hostOpen s = true →
    s.xl.pri.find? (fun p => p.group == some group && p.pasid == pasid) = some p →
    Tab.look s.hp.pasids pasid = some x → s.xl.faults = [] → s.xl.resWait = [] → s.xl.permWait = [] →
    exec (.prgResponse pasid group .responseFailure) s =
      .next (progress ((s.onXl (fun x => { x with pri := [] })).onHp (fun h => { h with priFailed := true })))) ∧
  (∀ s itag pasid va n ctx, hostOpen s = true → Tab.look s.hp.pasids pasid = some ctx → s.hp.reads = [] → s.xl.atsInvs = [] →
    Answers (exec (.atsInvalidationRequest itag (some pasid) va n) s) (fun t =>
      t.sent = s.sent ++ [.atsInvalidationDone itag] ∧ t.xl.atsInvs = [] ∧
        (∀ e, e ∈ t.xl.ats ↔ e ∈ s.xl.ats ∧ (e.host = false ∨ e.overlaps ctx (va / 2 ^ n * 2 ^ n) (2 ^ n) = false)) ∧
        t.pr = s.pr ∧ t.qm = s.qm ∧ t.hp = s.hp)) ∧
  (∀ s itag va n, hostOpen s = true → exec (.atsInvalidationRequest itag none va n) s =
    .next (emit (count s (fun c => { c with staleInv := satInc 32 c.staleInv })) (.atsInvalidationDone itag))) ∧
  (∀ s n, s.hp.atsOn = true → exec (.priEnableChange true (some n)) s = .next (sendPri (s.onHp (fun h =>
    { h with atsOn := true, priOn := true, priAlloc := n, priFailed := h.priFailed && h.priOn })))) ∧
  (∀ s, s.hp.atsOn = true →
    let t := s.onHp (fun h => { h with atsOn := true, priOn := false })
    let unsent := (s.xl.pri.filter (fun p => p.group.isNone)).flatMap (fun p => recsOf t p.ctx p.page)
    exec (.priEnableChange true none) s = .next (progress (drainAll (unsent.foldl denyRec
      (t.onXl (fun x => { x with pri := x.pri.filter (fun p => p.group.isSome) })))))) ∧
  (∀ s ats n, ats ≠ s.hp.atsOn → Answers (exec (.priEnableChange ats (some n)) s) (fun t =>
    t.hp.atsOn = ats ∧ t.hp.priOn = true ∧ t.hp.priAlloc = n ∧ t.xl.ats = [] ∧ t.xl.dir = s.xl.dir ∧ t.qm = s.qm)) ∧
  (∀ s ats, ats ≠ s.hp.atsOn → s.xl.pri = [] → Answers (exec (.priEnableChange ats none) s) (fun t =>
    ∃ u, t = progress (drainAll u) ∧ u.hp.atsOn = ats ∧ u.hp.priOn = false ∧ u.hp.priAlloc = s.hp.priAlloc ∧ u.xl.ats = [] ∧
      u.xl.dir = s.xl.dir ∧ u.qm = s.qm)) ∧
  (∀ s id r c data, s.hp.reads = [r] → r.id = id → r.who = .chan c → (chanAt s c).state = .running → s.xl.atsInvs = [] →
    data.length = r.len →
    Answers (exec (.hostReadCompletion id true data) s) (fun t =>
      t.hp.reads = [] ∧ (chanAt t c).rob = Tab.put (chanAt s c).rob r.va data ∧ (chanAt t c).hold = .none ∧ t.pr = s.pr)) ∧
  (∀ s id data ok, s.hp.reads.find? (fun r => r.id == id) = none →
    exec (.hostReadCompletion id ok data) s = .next s) ∧
  (∀ s id c, s.hp.flushes = [(id, c)] → (chanAt s c).state = .running →
    Answers (exec (.hostFlushReadCompletion id) s) (fun t => t.hp.flushes = [] ∧
      chanAt t c = { chanAt s c with hold := .none, hostWritten := false } ∧ t.pr = s.pr ∧ t.qm = s.qm ∧ t.xl = s.xl))

/-- R214, R219, R225: the walk that ends, one of those that the 32 walkers serve, is settled under the tables as they
stand; one that began before an invalidation of its context walks again. R80: a command that outlasts its watchdog
raises the event and, where its queue says so, is aborted with TIMEOUT. R150: a `WAIT` that reaches its timeout ends
with TIMEOUT. R93: a fill brings the table's entry into the cache, and what waited for it is performed in order; a FREE
entry ends each with STATE, one with a nonzero RZ field with DECODE (R6), and a line that fails leaves the fence
POISONED with its code (R90), as does one that a running sweep is to poison (R469). A write-back leaves the entry
clean, or, where its line fails, POISONED. A line of the sweep has its uncached bound entry poisoned in the table; the
sweep's end lets the resets go on. R345: a reset that has not ended by twice its bound escalates to the next rung. -/
def Obligations.WalksWatchdogsAndEscalations : Prop :=  (∀ s w k, (served s).find? (fun k => k.id == w) = some k → k.seq = (ctxAt s k.ctx).invSeq →
    exec (.tableWalkDone w) s = .next (progress (settleWalk s k))) ∧
  (∀ s w k, (served s).find? (fun k => k.id == w) = some k → k.seq ≠ (ctxAt s k.ctx).invSeq →
    exec (.tableWalkDone w) s = .next (s.onXl (fun x =>
      { x with walks := x.walks.map (fun y => if y.id == w then { y with seq := (ctxAt s k.ctx).invSeq } else y) }))) ∧
  (∀ s w, (served s).find? (fun k => k.id == w) = none → exec (.tableWalkDone w) s = .next s) ∧
  (∀ s c, (chanAt s c).state ≠ .free → (queueAt s (chanAt s c).q).wdAbort = false →
    exec (.queueWatchdogExpiry c) s =
      .next (hiveEvent (setQueue s (chanAt s c).q (fun q => { q with wdFired := true })) 0x02 (chanAt s c).hive (chanAt s c).q
        (chanAt s c).idx)) ∧
  (∀ s c, (chanAt s c).state ≠ .free → (queueAt s (chanAt s c).q).wdAbort = true →
    exec (.queueWatchdogExpiry c) s =
      .next (abortChan (hiveEvent (setQueue s (chanAt s c).q (fun q => { q with wdFired := true })) 0x02 (chanAt s c).hive
        (chanAt s c).q (chanAt s c).idx) c .timeout false)) ∧
  (∀ s c cap f gv m tmo, (chanAt s c).state = .waiting → (chanAt s c).op = .wait cap f gv m tmo → tmo ≠ 0 →
    exec (.waitTimeout c) s = .next (retire s c .timeout)) ∧
  (∀ s f ops, s.clk.stream.ready = true → Tab.look s.qm.fills f = some ops → fenceAt s f = none →
    s.qm.fences.length < Config.fenceCacheSize →
    let a := fenceAddr s f
    let r := tableLine s (lineOf a)
    let w (i : Nat) : Nat := leNat ((r.2.2.drop (a - lineOf a + 8 * i)).take 8)
    let fe := Fence.ofWords (w 0) (w 1) (w 2)
    let rz := fld (w 1) 32 21 = 0 ∧ fld (w 2) 0 32 = 0 ∧ w 3 = 0
    let ran (P : Fence → Prop) := Answers (exec (.fenceCacheFillDone f) s) (fun t =>
      ∃ u x, t = drainOps u f ops ∧ fenceAt u f = some x ∧ P x ∧ Tab.look u.qm.fills f = none ∧ u.pr = r.1.pr)
    let failed (st : Status) := exec (.fenceCacheFillDone f) s =
      .next (ops.foldl (fun t o => failOp t o st) (r.1.onQm (fun m => { m with fills := Tab.del m.fills f })))
    (r.2.1 = .ok → rz → fe.state ≠ .free → sweepErr r.1 fe = none → ran (fun x => x = fe)) ∧
    (∀ e, r.2.1 = .ok → rz → fe.state ≠ .free → sweepErr r.1 fe = some e →
      ran (fun x => x = { fe with state := .poisoned, value := allOnes, err := e, dirty := true })) ∧
    (r.2.1 = .ok → rz → fe.state = .free → failed .state) ∧ (r.2.1 = .ok → ¬ rz → failed .decode) ∧
    (r.2.1 ≠ .ok → ran (fun x => x.state = .poisoned ∧ x.value = allOnes ∧ x.err = r.2.1.code))) ∧
  (∀ s f e u st, s.clk.stream.ready = true → fenceAt s f = some e → e.dirty = true →
    tableWrite s (fenceAddr s f) (bytesOf e.words) = (u, st) →
    (st = .ok → Answers (exec (.fenceCacheWriteback f) s) (fun t =>
      t.qm.fences = Tab.mod u.qm.fences f (fun x => { x with dirty := false }) ∧ t.pr = u.pr)) ∧
    (∀ x, st ≠ .ok → fenceAt u f = some x → x.state = .opened → Answers (exec (.fenceCacheWriteback f) s) (fun t =>
      ∃ v, t = wakeWaits v f ∧ v.pr = u.pr ∧
        fenceAt v f = some { x with state := .poisoned, value := allOnes, err := st.code, dirty := true })) ∧
    (∀ x, st ≠ .ok → fenceAt u f = some x → x.state ≠ .opened → exec (.fenceCacheWriteback f) s = .next u)) ∧
  (∀ s line i, i < 4 →
    let r := tableLine s (fenceAddr s (4 * line))
    let f := 4 * line + i
    let w (j : Nat) : Nat := leNat ((r.2.2.drop (32 * i + 8 * j)).take 8)
    let fe := Fence.ofWords (w 0) (w 1) (w 2)
    (∀ j < 4, j ≠ i → (fenceAt r.1 (4 * line + j)).isSome = true) → fenceAt r.1 f = none → r.2.1 = .ok →
    (sweepErr r.1 fe = none → sweepLine s line = r.1) ∧
    (∀ e t st, sweepErr r.1 fe = some e →
      tableWrite r.1 (fenceAddr r.1 f) (bytesOf { fe with state := .poisoned, value := allOnes, err := e }.words) = (t, st) →
      (∀ j < 4, j ≠ i → (fenceAt t (4 * line + j)).isSome = true) → sweepLine s line = t)) ∧
  (∀ s, s.qm.sweeping = true → Answers (exec .fenceTableSweepDone s) (fun t => ∃ u, t = progress u ∧
    (∀ r ∈ u.he.resets, r.step ≠ 2) ∧
      ((s.qm.kills = [] ∧ s.he.resets = []) →
        (List.range (Config.fences / 4)).foldl sweepLine s = s → u = s.onQm (fun m => { m with sweeping := false })))) ∧
  (∀ s c, (chanAt s c).state = .ending → (chanAt s c).retired = false →
    exec (.resetEscalation (.commandAbort c)) s =
      .next (progress (hwHiveReset (logEscalation s (chanAt s c).hive) (chanAt s c).hive 2 2))) ∧
  (∀ s q r, r ∈ s.qm.resets → r.1 = q →
    let h := (ctxAt s (queueAt s q).ctx).hive
    exec (.resetEscalation (.queueReset q)) s = .next (progress (hwHiveReset (logEscalation s h) h 2 3))) ∧
  (∀ s x k, k ∈ s.qm.kills → k.ctx = x →
    let h := (ctxAt s x).hive
    exec (.resetEscalation (.contextKill x)) s = .next (progress (hwHiveReset (logEscalation s h) h 2 4))) ∧
  (∀ s h r, r ∈ s.he.resets → r.hive = h →
    exec (.resetEscalation (.hiveReset h)) s = .next (startWarm (logEscalation s h) true)) ∧
  (∀ s j, s.kp.warm = some j → j.stepsDone = false →
    exec (.resetEscalation .warmReset) s =
      .next ((logEscalation s 255).onKp (fun k => { k with watchdogStarved := true })))

/-! ## Clusters, regulator, errors and wear -/

/-- R38 to R40, R60, R158, R335, R346, R451 to R454: what a cluster's port reports. An isolated cluster is not heard. A
fault sends the cluster to FAILED, power-gated; supply in tolerance ends its isolation and starts its clearing; clear
done brings it to ASSIGNED or FREE with its scratchpad zero, and a clearing that fails to FAILED; a kernel's end stores
the kernel's scratchpad bytes and reaches its `LAUNCH`; an interrupt raises the hive's first vector. A resize that has
reached its bound ends with TIMEOUT. -/
def Obligations.ClusterPortsAreHeard : Prop :=  (∀ s n k e w, n < clustersAttached s → (clusterAt s n).iso = true →
    exec (.clusterFault n) s = .next s ∧ exec (.clusterClearDone n k) s = .next s ∧
      exec (.kernelEnd n e w) s = .next s ∧ exec (.clusterInterrupt n) s = .next s) ∧
  (∀ s n, n < clustersAttached s → (clusterAt s n).iso = false →
    let t := hiveEvent (failCluster s n) 0x0E (clusterAt s n).hive n (clusterAt s n).state.code
    ((clusterAt s n).state = .assigned ∨ (clusterAt s n).state = .leaving →
      exec (.clusterFault n) s = .next (clusterMoved (hwHiveReset t (clusterAt s n).hive 1 n) (clusterAt s n).hive)) ∧
    ((clusterAt s n).state ≠ .assigned → (clusterAt s n).state ≠ .leaving →
      exec (.clusterFault n) s = .next (clusterMoved t (clusterAt s n).hive))) ∧
  (∀ s n, (clusterAt (failCluster s n) n).state = .failed ∧ (clusterAt (failCluster s n) n).pwrEn = false ∧
    (clusterAt (failCluster s n) n).iso = true ∧ (clusterAt (failCluster s n) n).rstN = false ∧
    (∀ j, j ≠ n → clusterAt (failCluster s n) j = clusterAt s j) ∧
    (∀ r ∈ (failCluster s n).he.resizes, n ∉ r.removed)) ∧
  (∀ s n, ∀ r ∈ (leftResize s n).he.resizes, n ∉ r.removed) ∧
  (∀ s n, (clusterAt s n).pwrEn = true → (clusterAt s n).pwrGood = false →
    Answers (exec (.clusterPowerGood n) s) (fun t =>
      clusterAt t n = { clusterAt s n with pwrGood := true, iso := false, rstN := true } ∧
        t.sent = s.sent ++ [.clusterClear n] ∧ t.pr = s.pr ∧ t.mv = s.mv ∧ ∀ j, j ≠ n → clusterAt t j = clusterAt s j)) ∧
  (∀ s n k, n < clustersAttached s → (clusterAt s n).iso = false → 10 ≤ k → k ≤ 24 →
    ((clusterAt s n).state = .joining ∨ (clusterAt s n).state = .clearing ∧ (clusterAt s n).clearTo = .assigned →
      exec (.clusterClearDone n k) s = .next (clusterMoved (setCluster (spadClear s n) n (fun x =>
        { x with state := .assigned, kernel := none, spadLog2 := k })) (clusterAt s n).hive)) ∧
    ((clusterAt s n).state = .clearing → (clusterAt s n).clearTo ≠ .assigned → (clusterAt s n).late = false →
      exec (.clusterClearDone n k) s = .next (clusterMoved (setCluster (leftResize (spadClear s n) n) n (fun x =>
        { x.gated with state := .free, hive := 255, spadLog2 := k })) (clusterAt s n).hive))) ∧
  (∀ s n off, off < 2 ^ 24 → spadByte (spadClear s n) n off = 0) ∧
  (∀ s n k, n < clustersAttached s → (clusterAt s n).iso = false → (k < 10 ∨ 24 < k) →
    ((clusterAt s n).state = .joining ∨ (clusterAt s n).state = .clearing) →
    exec (.clusterClearDone n k) s = .next (clearFailed s n)) ∧
  (∀ s n, ((clusterAt s n).state = .joining ∨ (clusterAt s n).state = .clearing) →
    exec (.clusterClearTimeout n) s = .next (clearFailed s n)) ∧
  (∀ s n e w c, n < clustersAttached s → (clusterAt s n).iso = false → (clusterAt s n).kernel = some c →
    (chanAt s c).hold = .kernel → (chanAt s c).kernels.contains n = true →
    exec (.kernelEnd n e w) s = .next (clusterMoved (freeKernel (collectEnd
      (spadWrite s n (w.filter (fun x => decide (x.1 < 2 ^ (clusterAt s n).spadLog2)))) c n e) n) (clusterAt s n).hive)) ∧
  (∀ s n, n < clustersAttached s → (clusterAt s n).iso = false →
    ((clusterAt s n).state = .assigned ∨ (clusterAt s n).state = .leaving) → (hiveAt s (clusterAt s n).hive).vecCount ≠ 0 →
    exec (.clusterInterrupt n) s =
      .next (raiseIrq s (clusterAt s n).hive (hiveAt s (clusterAt s n).hive).vecFirst)) ∧
  (∀ s h j, s.he.resizes.find? (fun r => r.hive == h) = some j → j.removed = [] →
    exec (.resizeTimeout h) s = .next (endResize s j .timeout)) ∧
  (∀ s h j, s.he.resizes.find? (fun r => r.hive == h) = some j →
    exec (.resizeTimeout h) s = .next (endResize ((j.removed.filter (fun n => (clusterAt s n).state == .leaving)).foldl
      (fun t n => setCluster t n (fun k => { k with late := true })) s) j .timeout))

/-- R323 to R325, R330 to R334, R397: at its boundary a bound label applies the pending setting and the cap level, and
its meter and counts begin anew; the copies are refreshed with every meter; a power sample is failed where a device
does not answer or its PEC does not hold, is counted, and the eighth in a row raises POWER_READ; a good one is filtered
by the median and moves the cap level by one step between 0 and 15; the level stays during a block warm reset. R324:
the level of a request of a label: the label's guaranteed level while its meter's copy is under the guarantee, 2 under
the ceiling, else 3. -/
def Obligations.WindowsLevelsAndPower : Prop :=
  (∀ s l, l < Config.labels → (labelAt s l).hive ≠ Config.noHive →
    let t := closeWindow s l
    let u := if (labelAt t l).stat then (writeRecord t (statusAddr t l) (statusRecord l (labelAt t l))).1 else t
    exec (.labelWindowBoundary l) s =
      .next (progress (hiveWindow (settingApplied (setLabel u l (fun x => x.open_ u.kp.power.level)) l) l))) ∧
  (∀ x cap, let y := Label.open_ x cap
    y.meter = 0 ∧ y.linesPrio = 0 ∧ y.linesBulk = 0 ∧ y.linesScav = 0 ∧ y.held = 0 ∧ y.cap = cap ∧
      y.wseq = (x.wseq + 1) % 2 ^ 32 ∧ y.pendingSet = none ∧ y.hive = x.hive ∧ y.misses = x.misses ∧
      (x.pendingSet = none → y.guar = x.guar ∧ y.ceil = x.ceil ∧ y.irqMax = x.irqMax ∧ y.win = x.win) ∧
      ∀ p, x.pendingSet = some p → y.guar = p.guar ∧ y.ceil = p.ceil ∧ y.prio = p.prio ∧ y.win = p.win ∧ y.irqMax = p.irqMax) ∧
  (∀ s, exec .meterRefresh s = .next (s.onRg (fun r => { r with copies := r.labels.map (fun e => (e.1, e.2.meter)) }))) ∧
  (∀ s answers, s.clk.cold = false → s.kp.haveSettings = true → s.kp.warm = none →
    inputPower ((readingsOf s answers).take (pmbOf s 0).length) = none →
    exec (.powerCapSample answers) s = .next (failedSample (keepReadings s answers))) ∧
  (∀ s answers p, s.clk.cold = false → s.kp.haveSettings = true → s.kp.warm = none →
    inputPower ((readingsOf s answers).take (pmbOf s 0).length) = some p → 0 ≤ p →
    (effectiveCap s = 0 ∨ p ≤ 2 * ((wattUnit * effectiveCap s : Nat) : Int)) →
    Answers (exec (.powerCapSample answers) s) (fun t =>
      t.kp.power.good = (p.toNat :: s.kp.power.good).take 3 ∧ t.kp.power.fails = 0 ∧ t.kp.mbox.pmbFail = false ∧
        t.kp.power.level =
          (if effectiveCap s = 0 then 0
           else if wattUnit * effectiveCap s < median ((p.toNat :: s.kp.power.good).take 3) then Nat.min 15 (s.kp.power.level + 1)
           else if 16 * median ((p.toNat :: s.kp.power.good).take 3) < 15 * (wattUnit * effectiveCap s) then s.kp.power.level - 1
           else s.kp.power.level))) ∧
  (∀ s answers, s.clk.cold = false → s.kp.haveSettings = true → s.kp.warm.isSome = true →
    Answers (exec (.powerCapSample answers) s) (fun t =>
      t.kp.power.level = s.kp.power.level ∧ t.kp.power.good = s.kp.power.good ∧ t.pr = s.pr ∧ t.rg = s.rg)) ∧
  (∀ s i e lo hi x, s.kp.settings.pmb[i]? = some e →
    (readPec e lo hi ≠ x.toNat → readingOf s i (.bytes lo hi x) = none) ∧
    (readPec e lo hi = x.toNat → e.fmt = 0 → readingOf s i (.bytes lo hi x) = some (linear11 (leNat [lo, hi])))) ∧
  (∀ s, s.kp.power.fails < 7 → failedSample s = onPower s (fun p => { p with fails := p.fails + 1 })) ∧
  (∀ s lab,
    ((Tab.look s.rg.copies lab).getD 0 < budgetG (labelAt s lab) → levelOf s lab = (labelAt s lab).prio) ∧
    (budgetG (labelAt s lab) ≤ (Tab.look s.rg.copies lab).getD 0 →
      (Tab.look s.rg.copies lab).getD 0 < budgetC (labelAt s lab) → levelOf s lab = 2) ∧
    (budgetG (labelAt s lab) ≤ (Tab.look s.rg.copies lab).getD 0 →
      budgetC (labelAt s lab) ≤ (Tab.look s.rg.copies lab).getD 0 → levelOf s lab = 3))

/-- R409, R412, R413, R415, R418, R419: an error report is logged and counted for its unit, and an uncorrectable one
told to its owner, as of a row of its array (R412); one of the block's own storage is fatal, with the record of class
FATAL alone (R414); an hour's roll opens a new bucket of each count; the wear counts and the new log records go to the
flash; the scrub of a good SRAM row or cache entry changes nothing, and a gated unit's rows are left until it wakes. -/
def Obligations.ErrorsAreLoggedAndCounted : Prop :=  (∀ s u k, exec (.errorReport u k) s = .next (progress (reportError s u k))) ∧
  (∀ s m, m < 64 → reportError s (.mover m) .corrected = wearError (errorRecord s .corrected true 255 1 m 0) 0 0 m true) ∧
  (∀ s m k, m < 64 → k ≠ .corrected →
    reportError s (.mover m) k = abortMover (wearError (errorRecord s k true 255 1 m 0) 0 0 m false) m) ∧
  (∀ s inst row k, k ≠ .corrected → blockWide inst = true →
    reportError s (.blockStorage inst row) k = fatal (wearError s 3 inst row false) 255 4 inst 2) ∧
  (∀ s a e, scrubReads s a = true →
    exec (.sramScrub a e false false) s = .next s ∧
    exec (.sramScrub a e true false) s = .next (progress (reportError s (scrubUnit a e) .corrected)) ∧
    exec (.sramScrub a e false true) s = .next (progress (reportError s (scrubUnit a e) .uncorrectable))) ∧
  (∀ s p e x y, p < 64 → p ∈ s.pr.gated → exec (.sramScrub (.instance_ (0x100 + p)) e x y) s = .next s) ∧
  (∀ s m e x y, m < 64 → (moverAt s m).gated = true → exec (.sramScrub (.instance_ m) e x y) s = .next s) ∧
  (∀ s, Answers (exec .wearBucketRoll s) (fun t =>
    t.br.wear = s.br.wear.map (fun w =>
      { w with corrHours := (0 :: w.corrHours).take 24, uncHours := (0 :: w.uncHours).take 24 }) ∧
      t.br.log = s.br.log ∧ t.pr = s.pr ∧ t.kp = s.kp ∧ t.sent = s.sent)) ∧
  (∀ s, Answers (exec .wearCountSave s) (fun t =>
    t.br.savedWear = s.br.wear ∧ t.br.wear = s.br.wear ∧ t.sent = s.sent ++ [.flashWrite 0xC0000 0x10000] ∧ t.pr = s.pr)) ∧
  (∀ s, s.br.flashLog.length + (s.br.log.filter (fun r => s.br.unsaved.contains r.index)).length ≤ Config.flashLogRecords →
    Answers (exec .logPersist s) (fun t =>
      t.br.flashLog = s.br.flashLog ++ s.br.log.filter (fun r => s.br.unsaved.contains r.index) ∧ t.br.unsaved = [] ∧
        t.br.log = s.br.log ∧ t.sent = s.sent ++ [.flashWrite 0xA0000 0x20000]))

/-! ## Frames of the swarm -/

/-- R283 to R286, R289, R294: a frame on a link that is not DOWN: one of bad form, tag, key or state is discarded and
counted; a good one for another chip goes on with `hops` decreased, or is dropped with `hops` at 0; a good sequenced
one for this chip meets its flow; a good control frame waits for its effect. -/
def Obligations.FramesAreCheckedAndRouted : Prop :=  (∀ s l f tagOk, (linkAt s l).state = .down → (linkAt s l).locked = false → exec (.swarmFrameReceive l f tagOk) s = .next s) ∧
  ∀ s l f tagOk, ((linkAt s l).state ≠ .down ∨ (linkAt s l).locked = true) →
    let t := acceptLink s l f
    let r : RxFrame := { link := l, frame := f }
    (frameOk s l f tagOk = false →
      exec (.swarmFrameReceive l f tagOk) s = .next (discardFrame s l) ∧
        ((discardsAt s l).length < 64 →
          (discardFrame s l).sw.discarded = s.sw.discarded + 1 ∧ (discardFrame s l).pr = s.pr ∧
            (discardFrame s l).sw.rx = s.sw.rx ∧ (discardFrame s l).sent = s.sent)) ∧
    ((rzOk f = false ∨ plenOk f = false ∨ (tagOk = false ∧ f.ftype ≠ 4) ∨ keyOk (linkAt s l) f = false ∨
      stateOk (linkAt s l) f = false) → frameOk s l f tagOk = false) ∧
    (frameOk s l f tagOk = true → (linkAt s l).state ≠ .down → counterSpent (linkAt t l) = true →
      exec (.swarmFrameReceive l f tagOk) s = .next (linkDown t l)) ∧
    (frameOk s l f tagOk = true → (linkAt s l).state ≠ .down → counterSpent (linkAt t l) = false →
      (f.ftype = 0 ∨ f.ftype = 4 ∨ f.ftype = 5 →
        exec (.swarmFrameReceive l f tagOk) s = .next (t.onSw (fun w => { w with rx := w.rx ++ [r] }))) ∧
      (f.ftype ≠ 0 → f.ftype ≠ 4 → f.ftype ≠ 5 →
        (f.dst ≠ chipId t → f.hops = 0 → exec (.swarmFrameReceive l f tagOk) s = .next (dropForward t l f)) ∧
        (f.dst ≠ chipId t → f.hops ≠ 0 →
          exec (.swarmFrameReceive l f tagOk) s = .next (forward t { link := l, frame := { f with hops := f.hops - 1 } })) ∧
        (f.dst = chipId t → sequenced f.ftype = true →
          exec (.swarmFrameReceive l f tagOk) s = .next (receiveSeq (keepOpen t f) r)) ∧
        (f.dst = chipId t → sequenced f.ftype = false →
          exec (.swarmFrameReceive l f tagOk) s = .next ((keepOpen t f).onSw (fun w => { w with rx := w.rx ++ [r] })))))

/-- R285 to R288, R290, R291, R293, R295: the effect of an accepted control frame: the first PROBE under generation 0
brings a link UP; an ACK of the flow's epoch is taken; the reply to an OPEN opens the flow; a CLOSE frees an idle half;
a phase-1 HELLO is answered with the signature over both payloads; a HELLO whose signatures, endorser or chip ID do not
hold takes the link DOWN; a KEYX of the next generation is answered, and its reply moves this end to the new key. The
keys are loaded wrapped; a load that fails takes the link DOWN (R367; the model's choice, log 78). -/
def Obligations.ControlFramesAct : Prop :=  (∀ s l r, s.sw.rx.find? (fun r => r.link == l && r.frame.ftype == 0) = some r →
    let u := headerAck (popped s (fun r => r.link == l && r.frame.ftype == 0)) r.frame
    ((linkAt u l).state = .auth → (linkAt u l).genRx = 0 →
      Answers (exec (.probe l) s) (fun t => linkAt t l = { linkAt u l with state := .up } ∧
        (∀ j, j ≠ l → linkAt t j = linkAt u j) ∧ t.pr = u.pr ∧ t.sent = u.sent)) ∧
    (¬ ((linkAt u l).state = .auth ∧ (linkAt u l).genRx = 0) → exec (.probe l) s = .next u)) ∧
  (∀ s f, flowAt s f.src = none → headerAck s f = s) ∧
  (∀ s f fl, flowAt s f.src = some fl → fl.opened = true → fl.closing = false → fl.epoch = f.epoch → f.dst = chipId s →
    headerAck s f = takeAck s f.src f.ack f.landed []) ∧
  (∀ s src r fl, s.sw.rx.find? (fun r => r.frame.src == src && r.frame.ftype == 1) = some r → flowAt s src = some fl →
    let t := popped s (fun r => r.frame.src == src && r.frame.ftype == 1)
    (fl.opened = true → fl.closing = false → fl.epoch = r.frame.epoch →
      exec (.ack src) s = .next (takeAck t src r.frame.ack r.frame.landed
        ((bitsOf (leNat r.frame.payload) 1024).map (fun i => (r.frame.ack + 1 + i) % 2 ^ 32)))) ∧
    (fl.opened = false ∨ fl.closing = true ∨ fl.epoch ≠ r.frame.epoch → exec (.ack src) s = .next t)) ∧
  (∀ s src r, s.sw.rx.find? (fun r => r.frame.src == src && r.frame.ftype == 2) = some r →
    let t := headerAck (popped s (fun r => r.frame.src == src && r.frame.ftype == 2)) r.frame
    (bit r.frame.opf 31 = true → flowAt t src = none → exec (.opn src) s = .next t) ∧
    (∀ fl, bit r.frame.opf 31 = true → flowAt t src = some fl → fl.entry = true → fl.opened = false →
      fl.epoch = r.frame.epoch → exec (.opn src) s = .next (openFlow t src r.frame.epoch)) ∧
    (∀ fl, bit r.frame.opf 31 = false → flowAt t src = some fl → fl.entry = true → fl.opened = true →
      fl.closing = false → fl.epoch = r.frame.epoch → exec (.opn src) s = .next (sendOpen t src true)) ∧
    (bit r.frame.opf 31 = false → flowAt t src = none → entryFree t = true →
      exec (.opn src) s = .next (sendOpen (t.onSw (fun w =>
        { w with flows := Tab.put w.flows src { Flow.new r.frame.epoch with opened := true } })) src true))) ∧
  (∀ s src r, s.sw.rx.find? (fun r => r.frame.src == src && r.frame.ftype == 3) = some r →
    let t := headerAck (popped s (fun r => r.frame.src == src && r.frame.ftype == 3)) r.frame
    (bit r.frame.opf 31 = true ∨ (flowIdle t src = false ∧ (flowAt t src).any (·.closing) = false) →
      exec (.close src) s = .next t) ∧
    (bit r.frame.opf 31 = false → flowIdle t src = true ∨ (flowAt t src).any (·.closing) = true →
      Answers (exec (.close src) s) (fun u => flowAt u src = none ∧ u.pr = t.pr ∧ u.sent = t.sent))) ∧
  (∀ s l v r, s.sw.rx.find? (fun r => r.link == l && r.frame.ftype == 4) = some r →
    let t := popped s (fun r => r.link == l && r.frame.ftype == 4)
    let p := (linkAt s l).peerHello
    ((linkAt s l).state ≠ .training → exec (.hello l v) s = .next t) ∧
    ((linkAt s l).state = .training → r.frame.opf / 2 ^ 30 = 1 →
      exec (.hello l v) s = .next (sendHello (setLink t l (fun x => { x with peerHello := r.frame.payload })) l 2
        (sized 96 (Config.ecdsaSign (identityScalar s) (digest ((linkAt s l).ownHello ++ r.frame.payload)))))) ∧
    ((linkAt s l).state = .training → r.frame.opf / 2 ^ 30 ≠ 1 →
      (v = false ∨ p = [] ∨ leNat (p.take 2) = chipId s ∨
        rootUsable s (leNat ((p.drop 3).take 1)) ((p.drop 0x70).take 96) = false) →
      exec (.hello l v) s = .next (linkDown t l)) ∧
    ((linkAt s l).state = .training → r.frame.opf / 2 ^ 30 ≠ 1 → v = true → p ≠ [] → leNat (p.take 2) ≠ chipId s →
      rootUsable s (leNat ((p.drop 3).take 1)) ((p.drop 0x70).take 96) = true →
      (s.vault.wrapBad = false → Answers (exec (.hello l v) s) (fun u => (linkAt u l).state = .auth ∧
        (linkAt u l).neighbour = leNat (p.take 2) ∧ linkLs u l = linkSecret s (linkAt s l).ownHello p ∧
        (linkAt u l).txKey = linkKey s (linkSecret s (linkAt s l).ownHello p) (leNat (p.take 2)) 0 true ∧
        (linkAt u l).rxKey = linkKey s (linkSecret s (linkAt s l).ownHello p) (leNat (p.take 2)) 0 false ∧
        (linkAt u l).txWrapped = Config.keyWrap s.vault.wrapKey (linkAt u l).txKey ∧
        (linkAt u l).rxWrapped = Config.keyWrap s.vault.wrapKey (linkAt u l).rxKey)) ∧
      (s.vault.wrapBad = true → Answers (exec (.hello l v) s) (fun u => ∃ w, u = linkKeyFailed w l ∧ w.vault.wrapBad = false ∧
        w.sw = t.sw ∧ w.pr = t.pr)))) ∧
  (∀ s l r, s.sw.rx.find? (fun r => r.link == l && r.frame.ftype == 5) = some r →
    let t := headerAck (popped s (fun r => r.link == l && r.frame.ftype == 5)) r.frame
    let k := linkAt t l
    let g := leNat (r.frame.payload.take 4)
    let tx := linkKey t (linkLs t l) k.neighbour g true
    let rx := linkKey t (linkLs t l) k.neighbour g false
    let wrap := Config.keyWrap t.vault.wrapKey
    (k.carries = true → bit r.frame.opf 31 = false → g = k.genRx + 1 →
      (t.vault.wrapBad = false → exec (.keyx l) s = .next (sendKeyx (setLink t l (fun x =>
        { installNext tx (wrap tx) rx (wrap rx) x with replied := true, state := .rekey })) l g true)) ∧
      (t.vault.wrapBad = true → Answers (exec (.keyx l) s) (fun u => ∃ w, u = linkKeyFailed w l ∧ w.vault.wrapBad = false ∧
        w.sw = t.sw ∧ w.pr = t.pr))) ∧
    (bit r.frame.opf 31 = true → k.state = .rekey → k.initiated = true → g = k.genTx + 1 → g = k.genRx + 1 →
      t.vault.wrapBad = false → Answers (exec (.keyx l) s) (fun u => (linkAt u l).genTx = g ∧ (linkAt u l).genRx = g ∧
        (linkAt u l).lctrTx = 0 ∧ (linkAt u l).txKey = tx ∧ (linkAt u l).rxKey = rx ∧ (linkAt u l).oldKey = k.rxKey ∧
        (linkAt u l).initiated = false ∧ u.sent = t.sent)) ∧
    (bit r.frame.opf 31 = true → k.state = .rekey → k.initiated = true → g = k.genTx + 1 → g = k.genRx →
      Answers (exec (.keyx l) s) (fun u => (linkAt u l).genTx = g ∧ (linkAt u l).lctrTx = 0 ∧
        (linkAt u l).txKey = k.nextKey ∧ (linkAt u l).initiated = false ∧ u.sent = t.sent)))

/-- R142, R146, R296 to R300: an accepted request that R49 lets, and whose lines nothing holds, is performed at its
lines' home and its answer sent: a WRITE of one line, a WRITEP under its byte mask, an ATOM with the old value, a READ
with the line; a failure answers with its status. Requests of several lines and REDUCE frames are performed line by
line. A frame whose lines must wait takes its places at the units (R316), which it gives back when it leaves. R300,
R301: an accepted RDATA or RESP ends the transaction that it answers with its status, and each line of a read, or an
atomic's old value, reaches the channel; one that answers no transaction is counted. -/
def Obligations.FramesArePerformed : Prop :=
  (∀ s src seq r, Accepted s src seq 6 r →
    exec (.write src seq) s = .next (frameLeaves (writeLines (received s r) r.frame .wr true
      ((List.range (r.frame.plen / 8)).map (fun i => (i, .whole ((r.frame.payload.drop (128 * i)).take 128))))) r.frame)) ∧
  (∀ s f h k u d n, Admitted s f 1 128 .wr h k → homeWrite s h k.keySel (paLocal f.w4) (.whole d) f.level = (u, .ok, n) →
    writeLines s f .wr true [(0, .whole d)] = countPerformed u f.src f.seq) ∧
  (∀ s src seq r h k u n, Accepted s src seq 7 r → Admitted (received s r) r.frame 1 128 .wr h k →
    homeWrite (received s r) h k.keySel (paLocal r.frame.w4)
      (.partialWrite ((bitsOf (leNat (r.frame.payload.take 16)) 128).map (fun i => (i, nth r.frame.payload (16 + i) 0))))
        r.frame.level = (u, .ok, n) →
    exec (.writep src seq) s = .next (frameLeaves (countPerformed u r.frame.src r.frame.seq) r.frame)) ∧
  (∀ s f ks need ok, destination s f need (paLocal f.w4) = none → writeLines s f need ok ks = refuseFrame s f .rights) ∧
  (∀ s f ks need ok, (destination s f need (paLocal f.w4)).isSome = true →
    (ok = false ∨ linesOk s (paLocal f.w4) ks.length 128 = false) → writeLines s f need ok ks = refuseFrame s f .range) ∧
  (∀ s src seq r h k u old, Accepted s src seq 9 r → r.frame.opf / 2 ^ 29 = 0 →
    Admitted (received s r) r.frame 1 (if bit r.frame.opf 28 then 8 else 4) .atom h k →
    homeWrite (received s r) h k.keySel (lineOf (paLocal r.frame.w4))
      (.atomic .add (bit r.frame.opf 28) (bit r.frame.opf 27) (paLocal r.frame.w4 % 128) (leNat (r.frame.payload.take 8))
        (leNat (r.frame.payload.drop 8))) r.frame.level = (u, .ok, old) →
    exec (.atom src seq) s =
      .next (frameLeaves (countPerformed (sendResp u r.frame.src r.frame.seq r.frame.level .ok old) r.frame.src r.frame.seq)
        r.frame)) ∧
  (∀ s src seq r h k u d, Accepted s src seq 0xA r → r.frame.opf / 2 ^ 29 = 0 →
    Admitted (received s r) r.frame 1 128 .rd h k →
    homeRead (received s r) h k.keySel (paLocal r.frame.w4) r.frame.level = (u, .ok, d) → d.length = 128 →
    exec (.read src seq) s =
      .next (frameLeaves (countPerformed (sendRdata u r.frame.src r.frame.seq r.frame.level .ok d) r.frame.src r.frame.seq)
        r.frame)) ∧
  (∀ s src seq r, Accepted s src seq 0xA r → (destination (received s r) r.frame .rd (paLocal r.frame.w4)).isSome = true →
    linesOk (received s r) (paLocal r.frame.w4) (r.frame.opf / 2 ^ 29 + 1) 128 = false →
    exec (.read src seq) s = .next (frameLeaves (refuseFrame (received s r) r.frame .range) r.frame)) ∧
  (∀ s src seq r x a y n, Accepted s src seq 8 r → Fmt.ofNat? (fld r.frame.opf 27 5) = some x →
    Fmt.ofNat? (fld r.frame.opf 22 5) = some a → Fmt.ofNat? (fld r.frame.opf 17 5) = some y →
    Rnd.ofNat? (fld r.frame.opf 13 2) = some n → fld r.frame.opf 15 2 = 0 → 128 % y.size = 0 →
    exec (.reduceFrame src seq) s = .next (frameLeaves (writeLines (received s r) r.frame .atom true
      ((List.range (if bit r.frame.opf 12 then 1 else fld r.frame.opf 6 6 + 1)).map (fun i =>
        (i, .reduce .sum (fld r.frame.opf 27 5) (fld r.frame.opf 22 5) (fld r.frame.opf 17 5) (fld r.frame.opf 13 2)
          (((frameElements r.frame x.size y.size).filter (fun e => e.1 / (128 / y.size) == i)).map (fun e =>
            { off := e.1 % (128 / y.size) * y.size, bits := e.2.1, draw := e.2.2 })))))) r.frame)) ∧
  (∀ s src seq r, s.sw.rx.find? (fun x => x.frame.src == src && x.frame.seq == seq && x.frame.ftype == 7) = some r →
    ready s r = true → linesFree s r.frame = false → exec (.writep src seq) s = .next (frameClaim s r.frame)) ∧
  (∀ s src seq r, Accepted s src seq 8 r → reduceKinds r.frame = none →
    (destination (received s r) r.frame .atom (paLocal r.frame.w4)).isSome = true →
    exec (.reduceFrame src seq) s = .next (frameLeaves (refuseFrame (received s r) r.frame .range) r.frame)) ∧
  (∀ s src seq r, Accepted s src seq 0xB r →
    (bit r.frame.opf 31 = true → exec (.waitFrame src seq) s = .next (countPerformed
      (cancelWait (received s r) r.frame.w4 r.frame.src r.frame.srcHive (leNat (r.frame.payload.take 8)))
      r.frame.src r.frame.seq)) ∧
    (bit r.frame.opf 31 = false → exec (.waitFrame src seq) s = .next (fenceOp (received s r) r.frame.w4
      (.rwait r.frame.src r.frame.seq r.frame.srcHive r.frame.colony (leNat (r.frame.payload.take 8)) r.frame.level)))) ∧
  (∀ s src seq r, Accepted s src seq 0xC r →
    let t := countPerformed (received s r) r.frame.src r.frame.seq
    (∀ x va n, t.sw.txns.find? (fun x => x.peer == r.frame.src && x.seq == fld r.frame.w4 32 32) = some x →
      x.kind = .read va n → fld r.frame.w4 24 8 = 0 →
      exec (.rdata src seq) s = .next (endTxn ((List.range (n / 128)).foldl (fun u i =>
        keepData u x.chan (va + 128 * i) ((r.frame.payload.drop (128 * i)).take 128)) t) x .ok)) ∧
    (∀ x, t.sw.txns.find? (fun x => x.peer == r.frame.src && x.seq == fld r.frame.w4 32 32) = some x →
      (∀ va n, x.kind ≠ .read va n) → fld r.frame.w4 24 8 = 0 → exec (.rdata src seq) s = .next (endTxn t x .ok)) ∧
    (∀ x, t.sw.txns.find? (fun x => x.peer == r.frame.src && x.seq == fld r.frame.w4 32 32) = some x →
      fld r.frame.w4 24 8 ≠ 0 →
      exec (.rdata src seq) s = .next (endTxn t x (Status.ofCode (fld r.frame.w4 24 8)))) ∧
    (t.sw.txns.find? (fun x => x.peer == r.frame.src && x.seq == fld r.frame.w4 32 32) = none →
      exec (.rdata src seq) s = .next (t.onSw (fun w => { w with responsesLost := w.responsesLost + 1 })))) ∧
  (∀ s src seq r, Accepted s src seq 0xD r →
    let t := countPerformed (received s r) r.frame.src r.frame.seq
    (∀ x, t.sw.txns.find? (fun x => x.peer == r.frame.src && x.seq == fld r.frame.w4 32 32) = some x →
      x.kind = .atomic → fld r.frame.w4 24 8 = 0 →
      exec (.resp src seq) s = .next (endTxn (keepData t x.chan 0 (r.frame.payload.take 8)) x .ok)) ∧
    (∀ x, t.sw.txns.find? (fun x => x.peer == r.frame.src && x.seq == fld r.frame.w4 32 32) = some x →
      x.kind ≠ .atomic → fld r.frame.w4 24 8 = 0 → exec (.resp src seq) s = .next (endTxn t x .ok)) ∧
    (∀ x, t.sw.txns.find? (fun x => x.peer == r.frame.src && x.seq == fld r.frame.w4 32 32) = some x →
      fld r.frame.w4 24 8 ≠ 0 →
      exec (.resp src seq) s = .next (endTxn t x (Status.ofCode (fld r.frame.w4 24 8)))) ∧
    (t.sw.txns.find? (fun x => x.peer == r.frame.src && x.seq == fld r.frame.w4 32 32) = none →
      exec (.resp src seq) s = .next (t.onSw (fun w => { w with responsesLost := w.responsesLost + 1 }))))

/-! ## Links and flows in time -/

/-- R19, R286 to R290: lock lets a link train that the rules let; loss of lock, silence and the end of a hold-down; a
HELLO or KEYX without its answer is sent again; a link with keys sends a PROBE; the old receive key is zeroised once
the new one is in use. R196: `KEY_DERIVE` LINK of connected links in UP or REKEY starts their rekeys and waits for
them. -/
def Obligations.LinksTrainRekeyAndFall : Prop :=  (∀ s l, l < Config.links → (linkAt s l).locked = false → s.clk.cold = false →
    exec (.pcsLock l) s = .next (train (demand (setLink s l (fun x => { x with locked := true, gated := false })) .stream) l)) ∧
  (∀ s l, (s.clk.stream.ready = false ∨ s.clk.control.ready = false) → mayTrain s l = false) ∧
  (∀ s l, mayTrain s l = false → train s l = s) ∧
  (∀ s l, mayTrain s l = true → counterSpent (linkAt s l) = false → (linkAt (train s l) l).state = .training ∧ (train s l).sent.length = s.sent.length + 1 ∧
    ∀ j, j ≠ l → linkAt (train s l) j = linkAt s j) ∧
  (∀ s l, (linkAt s l).locked = true →
    exec (.pcsLockLoss l) s = .next (linkDown (setLink s l (fun x => { x with locked := false })) l)) ∧
  (∀ s l, (linkAt s l).state ≠ .down → exec (.linkSilenceTimeout l) s = .next (linkDown s l)) ∧
  (∀ s l, (linkAt s l).state ≠ .down → s.sw.flows = [] → s.sw.fwd = [] → s.qm.jobs = [] →
    Answers (exec (.linkSilenceTimeout l) s) (fun t =>
      linkAt t l = { Link.down with holdDown := true, locked := (linkAt s l).locked, broken := (linkAt s l).broken } ∧
        (∀ j, j ≠ l → linkAt t j = linkAt s j) ∧ t.pr = s.pr ∧ t.mv = s.mv ∧ t.sent = s.sent)) ∧
  (∀ s l, (linkAt s l).holdDown = true →
    exec (.holdDownEnd l) s = .next (train (setLink s l (fun x => { x with holdDown := false })) l)) ∧
  (∀ s l, (linkAt s l).state = .training → (linkAt s l).peerHello = [] →
    exec (.helloRepeat l) s = .next (sendHello s l 1 (linkAt s l).ownHello)) ∧
  (∀ s l, (linkAt s l).state = .rekey → (linkAt s l).initiated = true →
    exec (.keyxRepeat l) s = .next (sendKeyx s l ((linkAt s l).genTx + 1) false)) ∧
  (∀ s l, ((linkAt s l).carries = true ∨ (linkAt s l).state = .auth) →
    exec (.probeInterval l) s = .next (drainForward (putFrame s l (ctlFrame s (linkAt s l).neighbour 0 0 [])))) ∧
  (∀ s l f, f.ftype ≠ 4 → counterSpent { linkAt s l with lctrTx := (linkAt s l).lctrTx + 1 } = true → s.sw.flows = [] →
    s.sw.fwd = [] → (linkAt (putFrame s l f) l).state = .down) ∧
  (∀ s l, (linkAt s l).oldRx = true → 0 < (linkAt s l).lctrRx →
    exec (.oldKeyRetire l) s = .next (setLink s l (fun x => { x with oldRx := false, lctrOld := 0, oldKey := [] }))) ∧
  (∀ s c ls, RunsOp s c (.keyLink ls) → ls ≠ 0 → (bitsOf ls 16).any (fun l => !bit (linksConnected s) l) = false →
    (bitsOf ls 16).any (fun l => !(linkAt s l).carries) = false →
    exec (.keyDeriveLink c) s = .next (await s c (fun t =>
      (bitsOf ls 16).foldl startRekey (t.onQm (fun m => { m with jobs := m.jobs ++ [{ chan := c, kind := .links (bitsOf ls 16) }] }))))) ∧
  (∀ s c ls, RunsOp s c (.keyLink ls) → (ls = 0 ∨ (bitsOf ls 16).any (fun l => !bit (linksConnected s) l) = true) →
    exec (.keyDeriveLink c) s = .next (retire s c .range)) ∧
  (∀ s c ls, RunsOp s c (.keyLink ls) → ls ≠ 0 → (bitsOf ls 16).any (fun l => !bit (linksConnected s) l) = false →
    (bitsOf ls 16).any (fun l => !(linkAt s l).carries) = true →
    exec (.keyDeriveLink c) s = .next (retire s c .state))

/-- R283, R291 to R296: the timers of a flow: an OPEN without its reply is sent again; an acknowledgement is sent for
what has arrived; an unacknowledged frame is sent again; a flow goes to SPRAY when every primary link is short of
credit at the level of a frame to send and back when one has it; an idle flow is closed and its entry given up, an
unreachable peer's is reset with its transactions ended; a frame that has waited too long to be forwarded is dropped
and counted. -/
def Obligations.FlowTimersAct : Prop :=  (∀ s p fl, flowAt s p = some fl → fl.opened = false →
    (fl.entry = true → exec (.openRepeat p) s = .next (sendOpen s p false)) ∧
    (fl.entry = false → exec (.openRepeat p) s = .next (enterFlow s p))) ∧
  (∀ s p fl, flowAt s p = some fl → 0 < fl.sinceAck →
    Answers (exec (.ackDelay p) s) (fun t => t = sendAck s p ∧ (flowAt t p).map (·.sinceAck) = some 0)) ∧
  (∀ s p seq fl e, flowAt s p = some fl → fl.retx.find? (fun e => e.seq == seq) = some e →
    exec (.retransmitTimeout p seq) s = .next (transmit s p e.frame)) ∧
  (∀ s p fl f, flowAt s p = some fl → fl.spray = false → f ∈ toSend s p fl →
    (∀ l ∈ primarySet s p, nth (linkAt s l).credit f.level 0 + (linkAt s l).shared < 16) →
    exec (.sprayEnter p) s = .next (setFlow s p (fun x => { x with spray := true }))) ∧
  (∀ s p fl l, flowAt s p = some fl → fl.spray = true → l ∈ primarySet s p →
    64 ≤ (linkAt s l).credit.foldl (· + ·) (linkAt s l).shared →
    exec (.orderedReturn p) s = .next (setFlow s p (fun x => { x with spray := false }))) ∧
  (∀ s p, flowIdle s p = true →
    Answers (exec (.flowIdleClose p) s) (fun t => t = closeFlow s p ∧
      (flowAt t p).map (fun x => (x.entry, x.closing)) = some (false, true) ∧ t.pr = s.pr ∧ t.sw.txns = s.sw.txns)) ∧
  (∀ s p fl, flowAt s p = some fl → reachable s p = false →
    exec (.flowUnreachableTimeout p) s = .next (killFlow s p)) ∧
  (∀ s p fl, flowAt s p = some fl → reachable s p = false → s.sw.txns = [] →
    Answers (exec (.flowUnreachableTimeout p) s) (fun t => flowAt t p = none ∧ t.pr = s.pr ∧ t.sent = s.sent)) ∧
  (∀ s k r, s.sw.fwd[k]? = some r → r.link ≠ Config.ownLink →
    Answers (exec (.forwardQueueTimeout k) s) (fun t =>
      t.sw.discarded = s.sw.discarded + 1 ∧ t.sw.fwd = s.sw.fwd.eraseIdx k ∧ t.sent = s.sent ∧ t.pr = s.pr))

/-! ## Clocks, power and resets -/

/-- R17, R18, R352 to R354, R420, R443, R444: the keeper's clock source; a demand requests a clock that neither runs
nor starts, the stream clock's also the control clock; lock makes the control clock ready and takes `hx_down` low, and
resets the stream domain's ports, whose first credits make it ready (R448); a first start timeout asks once more, a
second ends with the clock off, `hx_down` high and the failure marked, after which none moves again until a cold reset;
an idle clock stops; an idle unit is gated and woken, its own buffers emptied. -/
def Obligations.ClocksAndGatesMove : Prop :=  (∀ s, s.clk.cold = false → s.clk.osc = false →
    exec .refclkLoss s = .next
      { s with clk := { s.clk with osc := true }, br := { s.br with refused := s.br.refused + 1 } }) ∧
  (∀ s, s.clk.cold = false → s.clk.osc = true →
    exec .refclkRestore s = .next { s with clk := { s.clk with osc := false } }) ∧
  (∀ s, s.clk.cold = false → s.kp.mbox.clkFail = false → s.clk.control.req = false →
    Answers (exec (.clockStartDemand .control) s) (fun t =>
      t.clk = { s.clk with control := { req := true, second := false, ready := false } } ∧
        t.sent = s.sent ++ [.clockRequest .control true] ∧ t.kp = s.kp ∧ t.pr = s.pr)) ∧
  (∀ s, s.clk.cold = false → s.kp.mbox.clkFail = false → s.clk.stream.req = false → s.clk.control.req = true →
    Answers (exec (.clockStartDemand .stream) s) (fun t =>
      t.clk = { s.clk with stream := { req := true, second := false, ready := false } } ∧
        t.sent = s.sent ++ [.clockRequest .stream true] ∧ t.kp = s.kp ∧ t.pr = s.pr)) ∧
  (∀ s, s.clk.cold = false → s.kp.mbox.clkFail = false → s.clk.stream.req = false → s.clk.control.req = false →
    Answers (exec (.clockStartDemand .stream) s) (fun t =>
      t.clk.control.req = true ∧ t.clk.stream.req = true ∧
        t.sent = s.sent ++ [.clockRequest .control true, .clockRequest .stream true])) ∧
  (∀ s, s.kp.mbox.clkFail = false → s.clk.control.req = true → s.clk.control.ready = false → s.clk.stream.ready = false →
    Answers (exec (.clockLock .control) s) (fun t => ∃ u, t = onward u ∧
      u.clk.control.ready = true ∧ u.clk.hxDown = false ∧ u.clk.stream = s.clk.stream ∧ u.ports = s.ports ∧ u.pr = s.pr)) ∧
  (∀ s, s.kp.mbox.clkFail = false → s.clk.stream.req = true → s.clk.stream.ready = false → s.clk.portsDue = false →
    fld s.kp.settings.integ 16 8 ≠ 0 →
    Answers (exec (.clockLock .stream) s) (fun t =>
      t.clk.stream = s.clk.stream ∧ t.clk.portsDue = true ∧ t.clk.control = s.clk.control ∧
        t.ports = Tab.mapv s.ports (fun _ _ => Port.reset) ∧ t.pr = s.pr ∧
        t.sent = s.sent ++ (List.range 96).map .portReset)) ∧
  (∀ s, s.clk.portsDue = true → portsReady s = true → (s.clk.control.ready = false ∨ s.sw.links = []) →
    ∃ u, portsUp s = onward u ∧ u.clk.stream.ready = true ∧ u.clk.portsDue = false ∧ u.clk.control = s.clk.control ∧
      u.ports = s.ports ∧ u.pr = s.pr) ∧
  (∀ s, (s.clk.portsDue = false ∨ portsReady s = false) → portsUp s = s) ∧
  (∀ s d, lockDue s d = true → (clockOf s d).second = false →
    Answers (exec (.clockStartTimeout d) s) (fun t =>
      (clockOf t d).second = true ∧ (clockOf t d).req = true ∧ t.kp = s.kp ∧
        t.sent = s.sent ++ [.clockRequest d false, .clockRequest d true])) ∧
  (∀ s d, lockDue s d = true → (clockOf s d).second = true →
    Answers (exec (.clockStartTimeout d) s) (fun t =>
      (clockOf t d).req = false ∧ t.clk.hxDown = true ∧ t.kp.mbox.clkFail = true ∧ t.kp.mbox.isOut = true)) ∧
  (∀ s, s.kp.mbox.clkFail = false → streamIdle s = true →
    exec (.clockIdleStop .stream) s = .next (emit (s.onClk (fun c => { c with stream := .reset, portsDue := false })) (.clockRequest .stream false))) ∧
  (∀ s, s.kp.mbox.clkFail = false → controlIdle s = true →
    Answers (exec (.clockIdleStop .control) s) (fun t =>
      t.clk.control.req = false ∧ t.qm.fences = [] ∧ t.qm.queues = s.qm.queues ∧ t.pr = s.pr)) ∧
  (∀ s d, s.kp.mbox.clkFail = true → exec (.clockLock d) s = .next s ∧ exec (.clockStartTimeout d) s = .next s ∧
    exec (.clockIdleStop d) s = .next s ∧ exec (.clockStartDemand d) s = .next s ∧ exec .blockWarmReset s = .next s) ∧
  (∀ s m, gateable s (.mover m) = true →
    Answers (exec (.unitGate (.mover m)) s) (fun t =>
      moverAt t m = { moverAt s m with gated := true } ∧ Tab.look t.xl.l1 m = none ∧ t.pr = s.pr)) ∧
  (∀ s p, gateable s (.propolis p) = true →
    Answers (exec (.unitGate (.propolis p)) s) (fun t =>
      t.pr.gated = s.pr.gated ++ [p] ∧ Tab.look t.pr.tweaks p = none ∧ t.pr.mem = s.pr.mem)) ∧
  (∀ s l, gateable s (.link l) = true →
    exec (.unitGate (.link l)) s = .next (setLink s l (fun x => { x with gated := true }))) ∧
  (∀ s u, isGated s u = true → Answers (exec (.unitWake u) s) (fun t => isGated t u = false ∧ t.pr.mem = s.pr.mem ∧ t.xl = s.xl))

/-- R348 to R350, R357, R382, R388, R389, R402, R442: a block warm reset runs its steps, waits for its clusters to
clear and ends READY, unless a fuse blow goes on, and in LOCKED and END_OF_LIFE the block is held; the fuses, the flash
and the settings stay. A cold reset leaves the reset state but for the fuses and the flash. A boot goes through its
stages: the ROM senses the fuses and begins the repair of the lifecycle copies (R359), then firmware is loaded, and
without a valid copy the boot ends in RECOVERY; then the settings are put in force and a block warm reset begins, and
without a valid copy the block is held. The stages that ask the engine wait for the control clock. -/
def Obligations.ResetsAndBootRun : Prop :=  (∀ s j, s.kp.warm = some j → s.kp.mbox.clkFail = false → j.stepsDone = false → j.clearing = false → warmReady s = false →
    exec .blockWarmReset s = .next (demand s .stream)) ∧
  (∀ s j, s.kp.warm = some j → s.kp.mbox.clkFail = false → j.stepsDone = false → j.clearing = false → vaultHolds s = false →
    s.vault.lc ≠ .locked → s.vault.lc ≠ .endOfLife → s.clk.control.ready = true → s.clk.stream.ready = true →
    clustersAttached s = 0 →
    Answers (exec .blockWarmReset s) (fun t =>
      t.kp.mbox.bootStage = stageReady ∧ t.kp.warm = none ∧ t.clk.control = s.clk.control ∧ t.clk.stream = s.clk.stream ∧
        t.vault.fuses = s.vault.fuses ∧ t.kp.flash = s.kp.flash ∧ t.kp.settings = s.kp.settings ∧
        (j.keepPcie = true → t.hp.d3hot = s.hp.d3hot))) ∧
  (∀ s j n, s.kp.warm = some j → s.kp.mbox.clkFail = false → j.stepsDone = false → j.clearing = false →
    s.vault.lc ≠ .locked → s.vault.lc ≠ .endOfLife → s.clk.control.ready = true → s.clk.stream.ready = true →
    n < clustersAttached s →
    Answers (exec .blockWarmReset s) (fun t =>
      t.kp.warm = some { keepPcie := j.keepPcie, clearing := true, stepsDone := false } ∧
        (clusterAt t n).state = .clearing ∧ (clusterAt t n).hive = 255 ∧ t.he.hives = [] ∧ t.pr.mem = [])) ∧
  (∀ s j, s.kp.warm = some j → s.kp.mbox.clkFail = false → j.stepsDone = false → j.clearing = true →
    (clustersCleared s = true → exec .blockWarmReset s = .next (warmRest s j.keepPcie)) ∧
    (clustersCleared s = false → exec .blockWarmReset s = .next s)) ∧
  (∀ s j, s.kp.warm = some j → s.kp.mbox.clkFail = false → j.stepsDone = false → j.clearing = false →
    (s.vault.lc = .locked ∨ s.vault.lc = .endOfLife) →
    Answers (exec .blockWarmReset s) (fun t =>
      t.kp.mbox.bootStage = stageHeld ∧ t.kp.warm = none ∧ t.clk.control.req = false ∧ t.he.hives = [] ∧ t.pr.mem = [] ∧
        t.vault.fuses = s.vault.fuses)) ∧
  (∀ s j, s.kp.warm = some j → s.kp.mbox.clkFail = false → j.stepsDone = true →
    (vaultHolds s = false → exec .blockWarmReset s = .next (finishWarm s)) ∧
    (vaultHolds s = true → exec .blockWarmReset s = .next s)) ∧
  (∀ s, s.vault.blow = none → exec .coldReset s = .next (resetPorts
    { State.reset with
      pending := s.pending, free := s.free, sent := s.sent
      kp := { Keeper.reset with flash := s.kp.flash }
      vault := { Vault.reset with fuses := s.vault.fuses }
      br := { Brood.reset with
        flashLog := s.br.flashLog, savedWear := s.br.savedWear, bad := s.br.bad, boots := s.br.boots, keptNext := s.br.keptNext
        logNext := s.br.keptNext, scrapped := s.br.scrapped } })) ∧
  (∀ s, exec .brownOut s = exec .coldReset s) ∧
  (∀ s, s.clk.cold = false → s.br.flashLog.length < Config.flashLogRecords → s.br.log.length < Config.logRecords →
    Answers (exec .keeperWatchdogExpiry s) (fun t =>
      t.clk.cold = true ∧ t.kp.flash = s.kp.flash ∧ FusesStay s.vault.fuses t.vault.fuses ∧
        ∃ r, t.br.flashLog = s.br.flashLog ++ [r] ∧ r.cls = 6 ∧ r.ugroup = 9 ∧ r.cause = 0xD)) ∧
  (∀ s fwA fwB setA setB, (s.clk.cold = false ∨ s.vault.blow.isSome = true) →
    exec (.coldBoot fwA fwB setA setB) s = .next s) ∧
  (∀ s fwA fwB setA setB, s.clk.cold = true → s.vault.blow = none → s.kp.sensed = false →
    exec (.coldBoot fwA fwB setA setB) s = .next (bootRom s) ∧ (bootRom s).kp.sensed = true) ∧
  (∀ s, missingCopies s = [] → repairLc s = s) ∧
  (∀ s, missingCopies s ≠ [] → (repairLc s).vault.blow =
    some { kind := .bootRepair, todo := (missingCopies s).map (fun x => .lc x.1 x.2), pulses := 0, vpp := false } ∧
      (repairLc s).vault.fuses = s.vault.fuses) ∧
  (∀ s fwA fwB setA setB, s.clk.cold = true → s.vault.blow = none → s.kp.sensed = true → s.kp.mbox.bootStage = 0 →
    exec (.coldBoot fwA fwB setA setB) s = .next (setMbox s (fun m => { m with bootStage := 1 }))) ∧
  (∀ s fwA fwB setA setB, s.clk.cold = true → s.vault.blow = none → s.kp.sensed = true → s.kp.mbox.bootStage = 1 →
    engineSays s 1 0 fwA = true → engineSays s 1 1 fwB = true →
    let okA := copyValid s 1 0 fwA
    let okB := copyValid s 1 1 fwB
    let u := countInvalid s 1 okA okB
    ((asksEngine s 1 0 = true ∨ asksEngine s 1 1 = true) → s.clk.control.ready = false →
      exec (.coldBoot fwA fwB setA setB) s = .next (demand s .control)) ∧
    ((asksEngine s 1 0 = false ∧ asksEngine s 1 1 = false ∨ s.clk.control.ready = true) →
      (preferred s 1 okA okB = none → exec (.coldBoot fwA fwB setA setB) s =
        .next ((setMbox u (fun m => { m with bootStage := stageRecovery })).onClk (fun k => { k with cold := false }))) ∧
      (∀ c, preferred s 1 okA okB = some c → Answers (exec (.coldBoot fwA fwB setA setB) s) (fun t =>
        t.kp.mbox.bootStage = 2 ∧ t.kp.mbox.fwCopy = (c == 1) ∧ t.clk.wgHold = true ∧ t.clk.cold = true ∧
          t.kp.flash = u.kp.flash ∧ t.vault = u.vault)))) ∧
  (∀ s fwA fwB setA setB, s.clk.cold = true → s.vault.blow = none → s.kp.sensed = true → s.kp.mbox.bootStage = 2 →
    engineSays s 2 0 setA = true → engineSays s 2 1 setB = true →
    let okA := copyValid s 2 0 setA
    let okB := copyValid s 2 1 setB
    let u := countInvalid s 2 okA okB
    ((asksEngine s 2 0 = true ∨ asksEngine s 2 1 = true) → s.clk.control.ready = false →
      exec (.coldBoot fwA fwB setA setB) s = .next (demand s .control)) ∧
    ((asksEngine s 2 0 = false ∧ asksEngine s 2 1 = false ∨ s.clk.control.ready = true) →
      (preferred s 2 okA okB = none → exec (.coldBoot fwA fwB setA setB) s =
        .next (holdBlock (setMbox u (fun m => { m with setFail := true })))) ∧
      (∀ c, preferred s 2 okA okB = some c → ∃ v, exec (.coldBoot fwA fwB setA setB) s = .next (beginWarm (askAgain v)) ∧
        v.clk.cold = false ∧ v.kp.settings = (applySettings u c).kp.settings ∧ v.kp.haveSettings = true))) ∧
  (∀ s, (beginWarm s).kp.mbox.bootStage = 3 ∧
    (beginWarm s).kp.warm = some { keepPcie := true, clearing := false, stepsDone := false })

/-! ## Waggle ring and debug -/

/-- R399 to R401, R403: the bytes of a frame read as that frame, and no other bytes do (the byte order of the CRC is
the model's, log 82); bytes that are no frame, and a frame of no type or without hops left, are discarded and counted;
the chip's own is stripped, and its OUT ends the declaration; another acts here where it is meant for this chip, and
goes on with `whops` decreased while the forward buffer has room. R400, R401, R403: the effect of each type of waggle
frame: PRESENCE refreshes or makes a census entry; WAKE demands the control clock, once in 1 ms; CAP sets or withdraws
the waggle cap; OUT marks its sender; ECHO is answered; ECHO_REPLY is kept. The timers send PRESENCE, age an entry out,
and end the cap and the wait of a declaration. -/
def Obligations.WaggleFramesAct : Prop :=
  (∀ s wire, s.clk.wgHold = true → s.clk.cold = false → readWaggle wire = none →
    Answers (exec (.waggleFrameReceive wire) s) (fun t =>
      t.kp.waggle = { s.kp.waggle with discarded := s.kp.waggle.discarded + 1 } ∧ t.clk = s.clk ∧ t.sent = s.sent)) ∧
  (∀ s wire f, s.clk.wgHold = true → s.clk.cold = false → readWaggle wire = some f →
    ((f.whops = 0 ∨ 6 ≤ f.wtype) →
      Answers (exec (.waggleFrameReceive wire) s) (fun t =>
        t.kp.waggle = { s.kp.waggle with discarded := s.kp.waggle.discarded + 1 } ∧ t.clk = s.clk ∧ t.sent = s.sent)) ∧
    (f.whops ≠ 0 → f.wtype < 6 →
      (ownWaggle s f = true → (s.kp.waggle.outWait = false ∨ f.wtype ≠ 3) → exec (.waggleFrameReceive wire) s = .next s) ∧
      (ownWaggle s f = true → s.kp.waggle.outWait = true → f.wtype = 3 →
        Answers (exec (.waggleFrameReceive wire) s) (fun t => t.clk.wgHold = false ∧ t.kp.waggle.outWait = false)) ∧
      (ownWaggle s f = false → s.kp.waggle.outDeclared = false → s.kp.waggle.fwd.length < 4 →
        Answers (exec (.waggleFrameReceive wire) s) (fun t =>
          t.kp.waggle.fwd = s.kp.waggle.fwd ++ [{ f with whops := f.whops - 1 }] ∧
            t.kp.waggle.rx = (if actsHere s f then s.kp.waggle.rx ++ [f] else s.kp.waggle.rx) ∧ t.sent = s.sent)) ∧
      (ownWaggle s f = false → s.kp.waggle.outDeclared = false → 4 ≤ s.kp.waggle.fwd.length →
        Answers (exec (.waggleFrameReceive wire) s) (fun t =>
          t.kp.waggle.fwd = s.kp.waggle.fwd ∧ t.kp.waggle.discarded = s.kp.waggle.discarded + 1)))) ∧
  (∀ f : WFrame, f.dst < 2 ^ 16 → f.src < 2 ^ 16 → f.wtype < 2 ^ 4 → f.whops < 2 ^ 8 → f.wseq < 2 ^ 8 → f.payload.length ≤ 64 →
    readWaggle (wireWaggle f) = some f) ∧
  (∀ wire f, readWaggle wire = some f → wire = wireWaggle f) ∧
  (∀ s f r, s.kp.waggle.rx = f :: r → f.wtype = 0 →
    exec .presence s = .next (onWaggle s (fun w => refreshCensus { w with rx := r } f))) ∧
  (∀ s f r, s.kp.waggle.rx = f :: r → f.wtype = 1 →
    (s.kp.waggle.wakeAt = none → s.kp.mbox.clkFail = false → s.clk.control.req = false →
      Answers (exec .wake s) (fun t => t.clk.control.req = true ∧ t.kp.waggle.wakeAt = some s.clk.coldTicks ∧
        t.kp.waggle.rx = r ∧ t.sent = s.sent ++ [.clockRequest .control true])) ∧
    (∀ a, s.kp.waggle.wakeAt = some a → s.clk.coldTicks < a + 25000 →
      exec .wake s = .next (onWaggle s (fun w => { w with rx := r })))) ∧
  (∀ s f r, s.kp.waggle.rx = f :: r → f.wtype = 2 → f.payload.length = 8 → leNat ((f.payload.drop 2).take 2) = 0 →
    1 ≤ leNat ((f.payload.drop 4).take 4) → leNat ((f.payload.drop 4).take 4) ≤ 60000 →
    exec .capFrame s = .next (onWaggle s (fun w =>
      { w with rx := r, cap := if leNat (f.payload.take 2) = 0 then none
                 else some (leNat (f.payload.take 2), leNat ((f.payload.drop 4).take 4)) }))) ∧
  (∀ s f r, s.kp.waggle.rx = f :: r → f.wtype = 3 →
    Answers (exec .out s) (fun t => t.kp.waggle.rx = r ∧ t.kp.waggle.census = s.kp.waggle.census.map (fun c =>
      if !c.byserial && c.key == f.src && !f.wnoid then { c with out := true } else c) ∧ t.clk = s.clk ∧ t.sent = s.sent)) ∧
  (∀ s f r, s.kp.waggle.rx = f :: r → f.wtype = 4 → s.kp.settings.chipIdValid = true → f.wnoid = false →
    s.kp.waggle.fwd = [] →
    Answers (exec .echo s) (fun t =>
      t.sent = s.sent ++ [.waggle (wireWaggle
        { dst := f.src, src := chipId s, wtype := 5, whops := 255, wseq := s.kp.waggle.wseq, wbcast := false, wnoid := false,
          payload := f.payload })] ∧ t.kp.waggle.wseq = (s.kp.waggle.wseq + 1) % 256)) ∧
  (∀ s f r, s.kp.waggle.rx = f :: r → f.wtype = 4 → (s.kp.settings.chipIdValid = false ∨ f.wnoid = true) →
    exec .echo s = .next (onWaggle s (fun w => { w with rx := r }))) ∧
  (∀ s f r, s.kp.waggle.rx = f :: r → f.wtype = 5 →
    Answers (exec .echoReply s) (fun t => t.kp.waggle.rx = r ∧ t.kp.waggle.census = s.kp.waggle.census.map (fun c =>
      if !c.byserial && c.key == f.src && !f.wnoid then { c with echo := f.payload } else c) ∧ t.sent = s.sent)) ∧
  (∀ s, s.clk.wgHold = true → s.clk.cold = false → s.kp.waggle.outDeclared = false → s.kp.waggle.fwd = [] →
    Answers (exec .presenceTimer s) (fun t =>
      t.sent = s.sent ++ [.waggle (wireWaggle
        { dst := 0, src := chipId s, wtype := 0, whops := 255, wseq := s.kp.waggle.wseq, wbcast := true,
          wnoid := !s.kp.settings.chipIdValid, payload := presencePayload s })])) ∧
  (∀ s k, k < s.kp.waggle.census.length →
    exec (.censusAgeOut k) s = .next (onWaggle s (fun w => { w with census := w.census.eraseIdx k }))) ∧
  (∀ s c, s.kp.waggle.cap = some c → exec .waggleCapExpiry s = .next (onWaggle s (fun w => { w with cap := none }))) ∧
  (∀ s, s.kp.waggle.outWait = true → Answers (exec .outWaitTimeout s) (fun t =>
    t.clk.wgHold = false ∧ t.kp.waggle.outWait = false ∧ t.kp.waggle.rx = s.kp.waggle.rx))

/-- R375, R458, R459: an access of the TAP segment runs while the block is out of cold reset: the debug window's
register takes what is shifted in, its RZ bits [43:41] ignored (R6); an access without an open debug right ends with
RIGHTS, an out-of-form one with RANGE; a read inside a readable comb answers the word of its line, a write inside a
writable one stores its eight bytes, each once the stream clock runs and its line's turn has come; a trace read without
its right is refused; HX_IDCODE reads `block_id`, and an instruction of no use is BYPASS; a mailbox access reads and
writes the window's words. -/
def Obligations.DebugAccessesAreChecked : Prop :=  (∀ s op space h a d, exec (.dbgWinAccess op space h a d) s = exec (.dbgWinAccess op space h (a % 2 ^ 41) d) s) ∧
  (∀ s op space h a d, s.clk.cold = false → a < 2 ^ 41 →
    let line := lineOf a
    let w : WriteKind := .partialWrite ((leBytes 8 d.toNat).zipIdx.map (fun e => (a % 128 + e.2, e.1)))
    let u := { s with tap := { s.tap with ir := 0x10, dwData := d, dwOp := op, dwSpace := space, dwHive := h, dwAddr := a } }
    (space < 2 → debugOpen s space h = false → exec (.dbgWinAccess op space h a d) s = .next (dbgRefuse u .rights)) ∧
    ((2 ≤ space ∨ debugOpen s space h = true) → (2 ≤ op ∨ 2 ≤ space ∨ (space = 1 ∧ a % 8 ≠ 0)) →
      exec (.dbgWinAccess op space h a d) s = .next (dbgRefuse u .range)) ∧
    (∀ k v bs, op = 0 → space = 1 → a % 8 = 0 → debugOpen s 1 h = true → combFor s h a = some k → k.permits .rd = true →
      (s.clk.stream.ready = true → mustWait s k.keySel line none = false →
        homeRead u h k.keySel line 3 = (v, .ok, bs) → Answers (exec (.dbgWinAccess op space h a d) s) (fun t =>
          t.tap.dwData = BitVec.ofNat 64 (leNat ((bs.drop (a % 128)).take 8)) ∧ t.tap.dwStatus = 0 ∧ t.pr = v.pr ∧
            t.sent = v.sent ++ [.tap t.tap.dwData .ok])) ∧
      (s.clk.stream.ready = false → exec (.dbgWinAccess op space h a d) s = .next (demand u .stream)) ∧
      (s.clk.stream.ready = true → mustWait s k.keySel line none = true → exec (.dbgWinAccess op space h a d) s = .next u)) ∧
    (∀ k v st n, op = 1 → space = 1 → a % 8 = 0 → debugOpen s 1 h = true → combFor s h a = some k → k.permits .wr = true →
      s.clk.stream.ready = true → mustWait s k.keySel line (some w) = false →
      homeWrite u h k.keySel line w 3 = (v, st, n) →
      Answers (exec (.dbgWinAccess op space h a d) s) (fun t =>
        t.tap.dwData = d ∧ t.tap.dwStatus = st.code ∧ t.pr = v.pr ∧ t.sent = v.sent ++ [.tap d st])) ∧
    (op = 0 → space = 0 → debugOpen s 0 h = true → Answers (exec (.dbgWinAccess op space h a d) s) (fun t =>
      t.pr = s.pr ∧ t.mv = s.mv ∧ t.sent.length = s.sent.length + 1)) ∧
    (op = 1 → space = 0 → debugOpen s 0 h = true →
      exec (.dbgWinAccess op space h a d) s = .next (dbgRefuse u .rights))) ∧
  (∀ s st, (dbgRefuse s st).tap.dwData = 0 ∧ (dbgRefuse s st).tap.dwStatus = st.code ∧ (dbgRefuse s st).pr = s.pr) ∧
  (∀ s off w d, s.clk.cold = false → (off % 8 ≠ 0 ∨ 0x10000 ≤ off) →
    exec (.tapMboxAccess off w d) s = .next (demand (setIr (emit s (.tap 0 .range)) 0x12) .control)) ∧
  (∀ s off d, s.clk.cold = false → off % 8 = 0 → off < 0x10000 →
    exec (.tapMboxAccess off true d) s =
      .next (demand (setIr (emit (mailboxWrite s off (leBytes 8 d.toNat)) (.tap d .ok)) 0x12) .control) ∧
    exec (.tapMboxAccess off false d) s = .next (demand (setIr
      (emit s (.tap (BitVec.ofNat 64 (leNat ((List.range 8).map (fun i => mailboxByte s (off + i))))) .ok)) 0x12) .control)) ∧
  (∀ s x, s.clk.cold = false → x.ir = 0x11 → debugOpen s 2 x.hive = false →
    exec (.tapTraceRead x) s = .next (emit (refuseInput (setIr s 0x11) true 0 0) (.tap 0 .rights))) ∧
  (∀ s x, s.clk.cold = false → x.ir = 0x11 → debugOpen s 2 x.hive = true →
    Answers (exec (.tapTraceRead x) s) (fun t => t.pr = s.pr ∧ t.kp = s.kp ∧ t.sent.length = s.sent.length + 1)) ∧
  (∀ s x, s.clk.cold = false → x.ir = 0x01 →
    exec (.tapTraceRead x) s = .next (emit (setIr s 0x01) (.tap 0x48580001 .ok))) ∧
  (∀ s x, s.clk.cold = false → x.ir ≠ 0x01 → x.ir ≠ 0x11 → (x.ir < 0x80 ∨ 0xC0 ≤ x.ir ∨ vendorOpen s = false) →
    exec (.tapTraceRead x) s = .next (emit (setIr s x.ir) (.tap 0 .ok)))

/-! ## Placement, admission and roots -/

/-- R41, R42: S is the largest power of two not above `mem_stacks`; a striped line's port is the fold of its address
over 8 × S ports, a band line's the fold of its offset in the band over its stack's eight; and the function is a
bijection between the local addresses with memory and the 8 × S ports' C / 8 offsets. The settings that the spec calls
valid are the premises. -/
def Obligations.LinesAreSpreadOverThePorts : Prop :=  (∀ s : State, fld s.kp.settings.integ 24 8 ≠ 0 →
    (∃ m, stackCount s = 2 ^ m) ∧ stackCount s ≤ fld s.kp.settings.integ 24 8 ∧
      fld s.kp.settings.integ 24 8 < 2 * stackCount s) ∧
  (∀ x k, k ∈ [3, 4, 5, 6] →
    foldPort x k = (((List.range 28).filter (fun i => i % k == 0)).map (fun i => x / 2 ^ (12 + i) % 2 ^ k)).foldl Nat.xor 0) ∧
  (∀ s : State, 1 ≤ fld s.kp.settings.integ 24 8 → fld s.kp.settings.integ 24 8 ≤ 8 → 30 ≤ fld s.kp.settings.integ 8 8 →
    memBytes s ≤ 2 ^ 40 → bandBytes s ≤ stackBytes s →
    (∀ a, a < stripedEnd s → homePort s a = foldPort a (8 * stackCount s).log2 ∧
      portOffset s a = a / (4096 * (8 * stackCount s)) * 4096 + a % 4096) ∧
    (∀ n x, n < stackCount s → x < bandBytes s →
      homePort s (stripedEnd s + n * bandBytes s + x) = 8 * n + foldPort x 3 ∧
        portOffset s (stripedEnd s + n * bandBytes s + x) =
          x / 32768 * 4096 + x % 4096 + (stackBytes s - bandBytes s) / 8) ∧
    (∀ a, a < memBytes s → homePort s a < 8 * stackCount s ∧ portOffset s a < stackBytes s / 8) ∧
    (∀ a b, a < memBytes s → b < memBytes s → homePort s a = homePort s b → portOffset s a = portOffset s b → a = b) ∧
    (∀ p o, p < 8 * stackCount s → o < stackBytes s / 8 → ∃ a, a < memBytes s ∧ homePort s a = p ∧ portOffset s a = o))

/-- R49: a remote request carries its chip, its hive and the hive's colony, and a hive performs it only if the hive is
ACTIVE, RESIZING or MIGRATING, its colony is nonzero and the request's, the chip lies in its peer range and the comb
that holds the address permits the operation; hive 0 of the manager colony may also write a comb of a FROZEN hive that
takes a migration in. A hive of which all of this holds makes the request pass. -/
def Obligations.RemoteRequestsAreAdmitted : Prop :=  (∀ s dst t h level w4 opf p,
    (requestFrame s dst t h level w4 opf p).src = chipId s ∧ (requestFrame s dst t h level w4 opf p).srcHive = h ∧
      (requestFrame s dst t h level w4 opf p).colony = (hiveAt s h).colony) ∧
  (∀ s f need a h k, destination s f need a = some (h, k) →
    combFor s h a = some k ∧ k.holds a = true ∧
      (((hiveAt s h).state ∈ [HiveState.active, .resizing, .migrating] ∧ (hiveAt s h).colony ≠ 0 ∧
          (hiveAt s h).colony = f.colony ∧ (hiveAt s h).peerLo ≤ f.src ∧ f.src ≤ (hiveAt s h).peerHi ∧
          k.colonyPermits need = true) ∨
       (f.colony = Config.managerColony ∧ f.srcHive = 0 ∧ need = .wr ∧ (hiveAt s h).state = .frozen ∧
          (hiveAt s h).incoming = true))) ∧
  (∀ s f need a e k, e ∈ s.he.hives → combFor s e.1 a = some k →
    (((hiveAt s e.1).state ∈ [HiveState.active, .resizing, .migrating] ∧ (hiveAt s e.1).colony ≠ 0 ∧
        (hiveAt s e.1).colony = f.colony ∧ (hiveAt s e.1).peerLo ≤ f.src ∧ f.src ≤ (hiveAt s e.1).peerHi ∧
        k.colonyPermits need = true) ∨
     (f.colony = Config.managerColony ∧ f.srcHive = 0 ∧ need = .wr ∧ (hiveAt s e.1).state = .frozen ∧
        (hiveAt s e.1).incoming = true)) →
    ∃ p, destination s f need a = some p)

/-- R363: the device root reads as one when its hash begins with the check and it is neither all zeros nor all ones; an
owner root is usable when it is enrolled, not revoked, and its key's hash is the root's. -/
def Obligations.RootsAreChecked : Prop :=  (∀ s : State, drkOk s = true ↔
    leNat ((digest (leBytes 48 s.vault.fuses.drk)).take 4) = s.vault.fuses.drkChk ∧ s.vault.fuses.drk ≠ 0 ∧
      s.vault.fuses.drk ≠ 2 ^ 384 - 1) ∧
  (∀ (s : State) i key, rootMatches s i key = true ↔
    i < 4 ∧ bit (majority s.vault.fuses.enrolled) i = true ∧ bit (majority s.vault.fuses.revoked) i = false ∧
      leNat (digest key) = nth s.vault.fuses.owner i 0) ∧
  (∀ a b c i, bit (majority [a, b, c]) i = true ↔
    (bit a i = true ∧ bit b i = true) ∨ (bit a i = true ∧ bit c i = true) ∨ (bit b i = true ∧ bit c i = true))
end

