-- ==== Sys2Proof/Laws/State.lean ====
section
/-! SUPPORT. What each update of a part of the state leaves in each part: one lemma for each part and update, so that no
later proof unfolds a record update. -/

namespace Sys2Proof.Machine

variable (s : State)

@[simp] theorem State.onClk_pending (f : Clocks → Clocks) : (s.onClk f).pending = s.pending := rfl
@[simp] theorem State.onClk_free (f : Clocks → Clocks) : (s.onClk f).free = s.free := rfl
@[simp] theorem State.onClk_sent (f : Clocks → Clocks) : (s.onClk f).sent = s.sent := rfl
@[simp] theorem State.onClk_clk (f : Clocks → Clocks) : (s.onClk f).clk = f s.clk := rfl
@[simp] theorem State.onClk_kp (f : Clocks → Clocks) : (s.onClk f).kp = s.kp := rfl
@[simp] theorem State.onClk_vault (f : Clocks → Clocks) : (s.onClk f).vault = s.vault := rfl
@[simp] theorem State.onClk_hp (f : Clocks → Clocks) : (s.onClk f).hp = s.hp := rfl
@[simp] theorem State.onClk_he (f : Clocks → Clocks) : (s.onClk f).he = s.he := rfl
@[simp] theorem State.onClk_qm (f : Clocks → Clocks) : (s.onClk f).qm = s.qm := rfl
@[simp] theorem State.onClk_mv (f : Clocks → Clocks) : (s.onClk f).mv = s.mv := rfl
@[simp] theorem State.onClk_xl (f : Clocks → Clocks) : (s.onClk f).xl = s.xl := rfl
@[simp] theorem State.onClk_pr (f : Clocks → Clocks) : (s.onClk f).pr = s.pr := rfl
@[simp] theorem State.onClk_ports (f : Clocks → Clocks) : (s.onClk f).ports = s.ports := rfl
@[simp] theorem State.onClk_sw (f : Clocks → Clocks) : (s.onClk f).sw = s.sw := rfl
@[simp] theorem State.onClk_rg (f : Clocks → Clocks) : (s.onClk f).rg = s.rg := rfl
@[simp] theorem State.onClk_sq (f : Clocks → Clocks) : (s.onClk f).sq = s.sq := rfl
@[simp] theorem State.onClk_br (f : Clocks → Clocks) : (s.onClk f).br = s.br := rfl
@[simp] theorem State.onClk_tap (f : Clocks → Clocks) : (s.onClk f).tap = s.tap := rfl

@[simp] theorem State.onKp_pending (f : Keeper → Keeper) : (s.onKp f).pending = s.pending := rfl
@[simp] theorem State.onKp_free (f : Keeper → Keeper) : (s.onKp f).free = s.free := rfl
@[simp] theorem State.onKp_sent (f : Keeper → Keeper) : (s.onKp f).sent = s.sent := rfl
@[simp] theorem State.onKp_clk (f : Keeper → Keeper) : (s.onKp f).clk = s.clk := rfl
@[simp] theorem State.onKp_kp (f : Keeper → Keeper) : (s.onKp f).kp = f s.kp := rfl
@[simp] theorem State.onKp_vault (f : Keeper → Keeper) : (s.onKp f).vault = s.vault := rfl
@[simp] theorem State.onKp_hp (f : Keeper → Keeper) : (s.onKp f).hp = s.hp := rfl
@[simp] theorem State.onKp_he (f : Keeper → Keeper) : (s.onKp f).he = s.he := rfl
@[simp] theorem State.onKp_qm (f : Keeper → Keeper) : (s.onKp f).qm = s.qm := rfl
@[simp] theorem State.onKp_mv (f : Keeper → Keeper) : (s.onKp f).mv = s.mv := rfl
@[simp] theorem State.onKp_xl (f : Keeper → Keeper) : (s.onKp f).xl = s.xl := rfl
@[simp] theorem State.onKp_pr (f : Keeper → Keeper) : (s.onKp f).pr = s.pr := rfl
@[simp] theorem State.onKp_ports (f : Keeper → Keeper) : (s.onKp f).ports = s.ports := rfl
@[simp] theorem State.onKp_sw (f : Keeper → Keeper) : (s.onKp f).sw = s.sw := rfl
@[simp] theorem State.onKp_rg (f : Keeper → Keeper) : (s.onKp f).rg = s.rg := rfl
@[simp] theorem State.onKp_sq (f : Keeper → Keeper) : (s.onKp f).sq = s.sq := rfl
@[simp] theorem State.onKp_br (f : Keeper → Keeper) : (s.onKp f).br = s.br := rfl
@[simp] theorem State.onKp_tap (f : Keeper → Keeper) : (s.onKp f).tap = s.tap := rfl

@[simp] theorem State.onVault_pending (f : Vault → Vault) : (s.onVault f).pending = s.pending := rfl
@[simp] theorem State.onVault_free (f : Vault → Vault) : (s.onVault f).free = s.free := rfl
@[simp] theorem State.onVault_sent (f : Vault → Vault) : (s.onVault f).sent = s.sent := rfl
@[simp] theorem State.onVault_clk (f : Vault → Vault) : (s.onVault f).clk = s.clk := rfl
@[simp] theorem State.onVault_kp (f : Vault → Vault) : (s.onVault f).kp = s.kp := rfl
@[simp] theorem State.onVault_vault (f : Vault → Vault) : (s.onVault f).vault = f s.vault := rfl
@[simp] theorem State.onVault_hp (f : Vault → Vault) : (s.onVault f).hp = s.hp := rfl
@[simp] theorem State.onVault_he (f : Vault → Vault) : (s.onVault f).he = s.he := rfl
@[simp] theorem State.onVault_qm (f : Vault → Vault) : (s.onVault f).qm = s.qm := rfl
@[simp] theorem State.onVault_mv (f : Vault → Vault) : (s.onVault f).mv = s.mv := rfl
@[simp] theorem State.onVault_xl (f : Vault → Vault) : (s.onVault f).xl = s.xl := rfl
@[simp] theorem State.onVault_pr (f : Vault → Vault) : (s.onVault f).pr = s.pr := rfl
@[simp] theorem State.onVault_ports (f : Vault → Vault) : (s.onVault f).ports = s.ports := rfl
@[simp] theorem State.onVault_sw (f : Vault → Vault) : (s.onVault f).sw = s.sw := rfl
@[simp] theorem State.onVault_rg (f : Vault → Vault) : (s.onVault f).rg = s.rg := rfl
@[simp] theorem State.onVault_sq (f : Vault → Vault) : (s.onVault f).sq = s.sq := rfl
@[simp] theorem State.onVault_br (f : Vault → Vault) : (s.onVault f).br = s.br := rfl
@[simp] theorem State.onVault_tap (f : Vault → Vault) : (s.onVault f).tap = s.tap := rfl

@[simp] theorem State.onHp_pending (f : HostPort → HostPort) : (s.onHp f).pending = s.pending := rfl
@[simp] theorem State.onHp_free (f : HostPort → HostPort) : (s.onHp f).free = s.free := rfl
@[simp] theorem State.onHp_sent (f : HostPort → HostPort) : (s.onHp f).sent = s.sent := rfl
@[simp] theorem State.onHp_clk (f : HostPort → HostPort) : (s.onHp f).clk = s.clk := rfl
@[simp] theorem State.onHp_kp (f : HostPort → HostPort) : (s.onHp f).kp = s.kp := rfl
@[simp] theorem State.onHp_vault (f : HostPort → HostPort) : (s.onHp f).vault = s.vault := rfl
@[simp] theorem State.onHp_hp (f : HostPort → HostPort) : (s.onHp f).hp = f s.hp := rfl
@[simp] theorem State.onHp_he (f : HostPort → HostPort) : (s.onHp f).he = s.he := rfl
@[simp] theorem State.onHp_qm (f : HostPort → HostPort) : (s.onHp f).qm = s.qm := rfl
@[simp] theorem State.onHp_mv (f : HostPort → HostPort) : (s.onHp f).mv = s.mv := rfl
@[simp] theorem State.onHp_xl (f : HostPort → HostPort) : (s.onHp f).xl = s.xl := rfl
@[simp] theorem State.onHp_pr (f : HostPort → HostPort) : (s.onHp f).pr = s.pr := rfl
@[simp] theorem State.onHp_ports (f : HostPort → HostPort) : (s.onHp f).ports = s.ports := rfl
@[simp] theorem State.onHp_sw (f : HostPort → HostPort) : (s.onHp f).sw = s.sw := rfl
@[simp] theorem State.onHp_rg (f : HostPort → HostPort) : (s.onHp f).rg = s.rg := rfl
@[simp] theorem State.onHp_sq (f : HostPort → HostPort) : (s.onHp f).sq = s.sq := rfl
@[simp] theorem State.onHp_br (f : HostPort → HostPort) : (s.onHp f).br = s.br := rfl
@[simp] theorem State.onHp_tap (f : HostPort → HostPort) : (s.onHp f).tap = s.tap := rfl

@[simp] theorem State.onHe_pending (f : HiveEngine → HiveEngine) : (s.onHe f).pending = s.pending := rfl
@[simp] theorem State.onHe_free (f : HiveEngine → HiveEngine) : (s.onHe f).free = s.free := rfl
@[simp] theorem State.onHe_sent (f : HiveEngine → HiveEngine) : (s.onHe f).sent = s.sent := rfl
@[simp] theorem State.onHe_clk (f : HiveEngine → HiveEngine) : (s.onHe f).clk = s.clk := rfl
@[simp] theorem State.onHe_kp (f : HiveEngine → HiveEngine) : (s.onHe f).kp = s.kp := rfl
@[simp] theorem State.onHe_vault (f : HiveEngine → HiveEngine) : (s.onHe f).vault = s.vault := rfl
@[simp] theorem State.onHe_hp (f : HiveEngine → HiveEngine) : (s.onHe f).hp = s.hp := rfl
@[simp] theorem State.onHe_he (f : HiveEngine → HiveEngine) : (s.onHe f).he = f s.he := rfl
@[simp] theorem State.onHe_qm (f : HiveEngine → HiveEngine) : (s.onHe f).qm = s.qm := rfl
@[simp] theorem State.onHe_mv (f : HiveEngine → HiveEngine) : (s.onHe f).mv = s.mv := rfl
@[simp] theorem State.onHe_xl (f : HiveEngine → HiveEngine) : (s.onHe f).xl = s.xl := rfl
@[simp] theorem State.onHe_pr (f : HiveEngine → HiveEngine) : (s.onHe f).pr = s.pr := rfl
@[simp] theorem State.onHe_ports (f : HiveEngine → HiveEngine) : (s.onHe f).ports = s.ports := rfl
@[simp] theorem State.onHe_sw (f : HiveEngine → HiveEngine) : (s.onHe f).sw = s.sw := rfl
@[simp] theorem State.onHe_rg (f : HiveEngine → HiveEngine) : (s.onHe f).rg = s.rg := rfl
@[simp] theorem State.onHe_sq (f : HiveEngine → HiveEngine) : (s.onHe f).sq = s.sq := rfl
@[simp] theorem State.onHe_br (f : HiveEngine → HiveEngine) : (s.onHe f).br = s.br := rfl
@[simp] theorem State.onHe_tap (f : HiveEngine → HiveEngine) : (s.onHe f).tap = s.tap := rfl

@[simp] theorem State.onQm_pending (f : QueueMgr → QueueMgr) : (s.onQm f).pending = s.pending := rfl
@[simp] theorem State.onQm_free (f : QueueMgr → QueueMgr) : (s.onQm f).free = s.free := rfl
@[simp] theorem State.onQm_sent (f : QueueMgr → QueueMgr) : (s.onQm f).sent = s.sent := rfl
@[simp] theorem State.onQm_clk (f : QueueMgr → QueueMgr) : (s.onQm f).clk = s.clk := rfl
@[simp] theorem State.onQm_kp (f : QueueMgr → QueueMgr) : (s.onQm f).kp = s.kp := rfl
@[simp] theorem State.onQm_vault (f : QueueMgr → QueueMgr) : (s.onQm f).vault = s.vault := rfl
@[simp] theorem State.onQm_hp (f : QueueMgr → QueueMgr) : (s.onQm f).hp = s.hp := rfl
@[simp] theorem State.onQm_he (f : QueueMgr → QueueMgr) : (s.onQm f).he = s.he := rfl
@[simp] theorem State.onQm_qm (f : QueueMgr → QueueMgr) : (s.onQm f).qm = f s.qm := rfl
@[simp] theorem State.onQm_mv (f : QueueMgr → QueueMgr) : (s.onQm f).mv = s.mv := rfl
@[simp] theorem State.onQm_xl (f : QueueMgr → QueueMgr) : (s.onQm f).xl = s.xl := rfl
@[simp] theorem State.onQm_pr (f : QueueMgr → QueueMgr) : (s.onQm f).pr = s.pr := rfl
@[simp] theorem State.onQm_ports (f : QueueMgr → QueueMgr) : (s.onQm f).ports = s.ports := rfl
@[simp] theorem State.onQm_sw (f : QueueMgr → QueueMgr) : (s.onQm f).sw = s.sw := rfl
@[simp] theorem State.onQm_rg (f : QueueMgr → QueueMgr) : (s.onQm f).rg = s.rg := rfl
@[simp] theorem State.onQm_sq (f : QueueMgr → QueueMgr) : (s.onQm f).sq = s.sq := rfl
@[simp] theorem State.onQm_br (f : QueueMgr → QueueMgr) : (s.onQm f).br = s.br := rfl
@[simp] theorem State.onQm_tap (f : QueueMgr → QueueMgr) : (s.onQm f).tap = s.tap := rfl

@[simp] theorem State.onMv_pending (f : Movers → Movers) : (s.onMv f).pending = s.pending := rfl
@[simp] theorem State.onMv_free (f : Movers → Movers) : (s.onMv f).free = s.free := rfl
@[simp] theorem State.onMv_sent (f : Movers → Movers) : (s.onMv f).sent = s.sent := rfl
@[simp] theorem State.onMv_clk (f : Movers → Movers) : (s.onMv f).clk = s.clk := rfl
@[simp] theorem State.onMv_kp (f : Movers → Movers) : (s.onMv f).kp = s.kp := rfl
@[simp] theorem State.onMv_vault (f : Movers → Movers) : (s.onMv f).vault = s.vault := rfl
@[simp] theorem State.onMv_hp (f : Movers → Movers) : (s.onMv f).hp = s.hp := rfl
@[simp] theorem State.onMv_he (f : Movers → Movers) : (s.onMv f).he = s.he := rfl
@[simp] theorem State.onMv_qm (f : Movers → Movers) : (s.onMv f).qm = s.qm := rfl
@[simp] theorem State.onMv_mv (f : Movers → Movers) : (s.onMv f).mv = f s.mv := rfl
@[simp] theorem State.onMv_xl (f : Movers → Movers) : (s.onMv f).xl = s.xl := rfl
@[simp] theorem State.onMv_pr (f : Movers → Movers) : (s.onMv f).pr = s.pr := rfl
@[simp] theorem State.onMv_ports (f : Movers → Movers) : (s.onMv f).ports = s.ports := rfl
@[simp] theorem State.onMv_sw (f : Movers → Movers) : (s.onMv f).sw = s.sw := rfl
@[simp] theorem State.onMv_rg (f : Movers → Movers) : (s.onMv f).rg = s.rg := rfl
@[simp] theorem State.onMv_sq (f : Movers → Movers) : (s.onMv f).sq = s.sq := rfl
@[simp] theorem State.onMv_br (f : Movers → Movers) : (s.onMv f).br = s.br := rfl
@[simp] theorem State.onMv_tap (f : Movers → Movers) : (s.onMv f).tap = s.tap := rfl

@[simp] theorem State.onXl_pending (f : Translation → Translation) : (s.onXl f).pending = s.pending := rfl
@[simp] theorem State.onXl_free (f : Translation → Translation) : (s.onXl f).free = s.free := rfl
@[simp] theorem State.onXl_sent (f : Translation → Translation) : (s.onXl f).sent = s.sent := rfl
@[simp] theorem State.onXl_clk (f : Translation → Translation) : (s.onXl f).clk = s.clk := rfl
@[simp] theorem State.onXl_kp (f : Translation → Translation) : (s.onXl f).kp = s.kp := rfl
@[simp] theorem State.onXl_vault (f : Translation → Translation) : (s.onXl f).vault = s.vault := rfl
@[simp] theorem State.onXl_hp (f : Translation → Translation) : (s.onXl f).hp = s.hp := rfl
@[simp] theorem State.onXl_he (f : Translation → Translation) : (s.onXl f).he = s.he := rfl
@[simp] theorem State.onXl_qm (f : Translation → Translation) : (s.onXl f).qm = s.qm := rfl
@[simp] theorem State.onXl_mv (f : Translation → Translation) : (s.onXl f).mv = s.mv := rfl
@[simp] theorem State.onXl_xl (f : Translation → Translation) : (s.onXl f).xl = f s.xl := rfl
@[simp] theorem State.onXl_pr (f : Translation → Translation) : (s.onXl f).pr = s.pr := rfl
@[simp] theorem State.onXl_ports (f : Translation → Translation) : (s.onXl f).ports = s.ports := rfl
@[simp] theorem State.onXl_sw (f : Translation → Translation) : (s.onXl f).sw = s.sw := rfl
@[simp] theorem State.onXl_rg (f : Translation → Translation) : (s.onXl f).rg = s.rg := rfl
@[simp] theorem State.onXl_sq (f : Translation → Translation) : (s.onXl f).sq = s.sq := rfl
@[simp] theorem State.onXl_br (f : Translation → Translation) : (s.onXl f).br = s.br := rfl
@[simp] theorem State.onXl_tap (f : Translation → Translation) : (s.onXl f).tap = s.tap := rfl

@[simp] theorem State.onPr_pending (f : Propolis → Propolis) : (s.onPr f).pending = s.pending := rfl
@[simp] theorem State.onPr_free (f : Propolis → Propolis) : (s.onPr f).free = s.free := rfl
@[simp] theorem State.onPr_sent (f : Propolis → Propolis) : (s.onPr f).sent = s.sent := rfl
@[simp] theorem State.onPr_clk (f : Propolis → Propolis) : (s.onPr f).clk = s.clk := rfl
@[simp] theorem State.onPr_kp (f : Propolis → Propolis) : (s.onPr f).kp = s.kp := rfl
@[simp] theorem State.onPr_vault (f : Propolis → Propolis) : (s.onPr f).vault = s.vault := rfl
@[simp] theorem State.onPr_hp (f : Propolis → Propolis) : (s.onPr f).hp = s.hp := rfl
@[simp] theorem State.onPr_he (f : Propolis → Propolis) : (s.onPr f).he = s.he := rfl
@[simp] theorem State.onPr_qm (f : Propolis → Propolis) : (s.onPr f).qm = s.qm := rfl
@[simp] theorem State.onPr_mv (f : Propolis → Propolis) : (s.onPr f).mv = s.mv := rfl
@[simp] theorem State.onPr_xl (f : Propolis → Propolis) : (s.onPr f).xl = s.xl := rfl
@[simp] theorem State.onPr_pr (f : Propolis → Propolis) : (s.onPr f).pr = f s.pr := rfl
@[simp] theorem State.onPr_ports (f : Propolis → Propolis) : (s.onPr f).ports = s.ports := rfl
@[simp] theorem State.onPr_sw (f : Propolis → Propolis) : (s.onPr f).sw = s.sw := rfl
@[simp] theorem State.onPr_rg (f : Propolis → Propolis) : (s.onPr f).rg = s.rg := rfl
@[simp] theorem State.onPr_sq (f : Propolis → Propolis) : (s.onPr f).sq = s.sq := rfl
@[simp] theorem State.onPr_br (f : Propolis → Propolis) : (s.onPr f).br = s.br := rfl
@[simp] theorem State.onPr_tap (f : Propolis → Propolis) : (s.onPr f).tap = s.tap := rfl

@[simp] theorem State.onSw_pending (f : Swarm → Swarm) : (s.onSw f).pending = s.pending := rfl
@[simp] theorem State.onSw_free (f : Swarm → Swarm) : (s.onSw f).free = s.free := rfl
@[simp] theorem State.onSw_sent (f : Swarm → Swarm) : (s.onSw f).sent = s.sent := rfl
@[simp] theorem State.onSw_clk (f : Swarm → Swarm) : (s.onSw f).clk = s.clk := rfl
@[simp] theorem State.onSw_kp (f : Swarm → Swarm) : (s.onSw f).kp = s.kp := rfl
@[simp] theorem State.onSw_vault (f : Swarm → Swarm) : (s.onSw f).vault = s.vault := rfl
@[simp] theorem State.onSw_hp (f : Swarm → Swarm) : (s.onSw f).hp = s.hp := rfl
@[simp] theorem State.onSw_he (f : Swarm → Swarm) : (s.onSw f).he = s.he := rfl
@[simp] theorem State.onSw_qm (f : Swarm → Swarm) : (s.onSw f).qm = s.qm := rfl
@[simp] theorem State.onSw_mv (f : Swarm → Swarm) : (s.onSw f).mv = s.mv := rfl
@[simp] theorem State.onSw_xl (f : Swarm → Swarm) : (s.onSw f).xl = s.xl := rfl
@[simp] theorem State.onSw_pr (f : Swarm → Swarm) : (s.onSw f).pr = s.pr := rfl
@[simp] theorem State.onSw_ports (f : Swarm → Swarm) : (s.onSw f).ports = s.ports := rfl
@[simp] theorem State.onSw_sw (f : Swarm → Swarm) : (s.onSw f).sw = f s.sw := rfl
@[simp] theorem State.onSw_rg (f : Swarm → Swarm) : (s.onSw f).rg = s.rg := rfl
@[simp] theorem State.onSw_sq (f : Swarm → Swarm) : (s.onSw f).sq = s.sq := rfl
@[simp] theorem State.onSw_br (f : Swarm → Swarm) : (s.onSw f).br = s.br := rfl
@[simp] theorem State.onSw_tap (f : Swarm → Swarm) : (s.onSw f).tap = s.tap := rfl

@[simp] theorem State.onRg_pending (f : Regulator → Regulator) : (s.onRg f).pending = s.pending := rfl
@[simp] theorem State.onRg_free (f : Regulator → Regulator) : (s.onRg f).free = s.free := rfl
@[simp] theorem State.onRg_sent (f : Regulator → Regulator) : (s.onRg f).sent = s.sent := rfl
@[simp] theorem State.onRg_clk (f : Regulator → Regulator) : (s.onRg f).clk = s.clk := rfl
@[simp] theorem State.onRg_kp (f : Regulator → Regulator) : (s.onRg f).kp = s.kp := rfl
@[simp] theorem State.onRg_vault (f : Regulator → Regulator) : (s.onRg f).vault = s.vault := rfl
@[simp] theorem State.onRg_hp (f : Regulator → Regulator) : (s.onRg f).hp = s.hp := rfl
@[simp] theorem State.onRg_he (f : Regulator → Regulator) : (s.onRg f).he = s.he := rfl
@[simp] theorem State.onRg_qm (f : Regulator → Regulator) : (s.onRg f).qm = s.qm := rfl
@[simp] theorem State.onRg_mv (f : Regulator → Regulator) : (s.onRg f).mv = s.mv := rfl
@[simp] theorem State.onRg_xl (f : Regulator → Regulator) : (s.onRg f).xl = s.xl := rfl
@[simp] theorem State.onRg_pr (f : Regulator → Regulator) : (s.onRg f).pr = s.pr := rfl
@[simp] theorem State.onRg_ports (f : Regulator → Regulator) : (s.onRg f).ports = s.ports := rfl
@[simp] theorem State.onRg_sw (f : Regulator → Regulator) : (s.onRg f).sw = s.sw := rfl
@[simp] theorem State.onRg_rg (f : Regulator → Regulator) : (s.onRg f).rg = f s.rg := rfl
@[simp] theorem State.onRg_sq (f : Regulator → Regulator) : (s.onRg f).sq = s.sq := rfl
@[simp] theorem State.onRg_br (f : Regulator → Regulator) : (s.onRg f).br = s.br := rfl
@[simp] theorem State.onRg_tap (f : Regulator → Regulator) : (s.onRg f).tap = s.tap := rfl

@[simp] theorem State.onSq_pending (f : Sequencer → Sequencer) : (s.onSq f).pending = s.pending := rfl
@[simp] theorem State.onSq_free (f : Sequencer → Sequencer) : (s.onSq f).free = s.free := rfl
@[simp] theorem State.onSq_sent (f : Sequencer → Sequencer) : (s.onSq f).sent = s.sent := rfl
@[simp] theorem State.onSq_clk (f : Sequencer → Sequencer) : (s.onSq f).clk = s.clk := rfl
@[simp] theorem State.onSq_kp (f : Sequencer → Sequencer) : (s.onSq f).kp = s.kp := rfl
@[simp] theorem State.onSq_vault (f : Sequencer → Sequencer) : (s.onSq f).vault = s.vault := rfl
@[simp] theorem State.onSq_hp (f : Sequencer → Sequencer) : (s.onSq f).hp = s.hp := rfl
@[simp] theorem State.onSq_he (f : Sequencer → Sequencer) : (s.onSq f).he = s.he := rfl
@[simp] theorem State.onSq_qm (f : Sequencer → Sequencer) : (s.onSq f).qm = s.qm := rfl
@[simp] theorem State.onSq_mv (f : Sequencer → Sequencer) : (s.onSq f).mv = s.mv := rfl
@[simp] theorem State.onSq_xl (f : Sequencer → Sequencer) : (s.onSq f).xl = s.xl := rfl
@[simp] theorem State.onSq_pr (f : Sequencer → Sequencer) : (s.onSq f).pr = s.pr := rfl
@[simp] theorem State.onSq_ports (f : Sequencer → Sequencer) : (s.onSq f).ports = s.ports := rfl
@[simp] theorem State.onSq_sw (f : Sequencer → Sequencer) : (s.onSq f).sw = s.sw := rfl
@[simp] theorem State.onSq_rg (f : Sequencer → Sequencer) : (s.onSq f).rg = s.rg := rfl
@[simp] theorem State.onSq_sq (f : Sequencer → Sequencer) : (s.onSq f).sq = f s.sq := rfl
@[simp] theorem State.onSq_br (f : Sequencer → Sequencer) : (s.onSq f).br = s.br := rfl
@[simp] theorem State.onSq_tap (f : Sequencer → Sequencer) : (s.onSq f).tap = s.tap := rfl

@[simp] theorem State.onBr_pending (f : Brood → Brood) : (s.onBr f).pending = s.pending := rfl
@[simp] theorem State.onBr_free (f : Brood → Brood) : (s.onBr f).free = s.free := rfl
@[simp] theorem State.onBr_sent (f : Brood → Brood) : (s.onBr f).sent = s.sent := rfl
@[simp] theorem State.onBr_clk (f : Brood → Brood) : (s.onBr f).clk = s.clk := rfl
@[simp] theorem State.onBr_kp (f : Brood → Brood) : (s.onBr f).kp = s.kp := rfl
@[simp] theorem State.onBr_vault (f : Brood → Brood) : (s.onBr f).vault = s.vault := rfl
@[simp] theorem State.onBr_hp (f : Brood → Brood) : (s.onBr f).hp = s.hp := rfl
@[simp] theorem State.onBr_he (f : Brood → Brood) : (s.onBr f).he = s.he := rfl
@[simp] theorem State.onBr_qm (f : Brood → Brood) : (s.onBr f).qm = s.qm := rfl
@[simp] theorem State.onBr_mv (f : Brood → Brood) : (s.onBr f).mv = s.mv := rfl
@[simp] theorem State.onBr_xl (f : Brood → Brood) : (s.onBr f).xl = s.xl := rfl
@[simp] theorem State.onBr_pr (f : Brood → Brood) : (s.onBr f).pr = s.pr := rfl
@[simp] theorem State.onBr_ports (f : Brood → Brood) : (s.onBr f).ports = s.ports := rfl
@[simp] theorem State.onBr_sw (f : Brood → Brood) : (s.onBr f).sw = s.sw := rfl
@[simp] theorem State.onBr_rg (f : Brood → Brood) : (s.onBr f).rg = s.rg := rfl
@[simp] theorem State.onBr_sq (f : Brood → Brood) : (s.onBr f).sq = s.sq := rfl
@[simp] theorem State.onBr_br (f : Brood → Brood) : (s.onBr f).br = f s.br := rfl
@[simp] theorem State.onBr_tap (f : Brood → Brood) : (s.onBr f).tap = s.tap := rfl

@[simp] theorem emit_pending (o : Output) : (emit s o).pending = s.pending := rfl
@[simp] theorem emit_free (o : Output) : (emit s o).free = s.free := rfl
@[simp] theorem emit_sent (o : Output) : (emit s o).sent = s.sent ++ [o] := rfl
@[simp] theorem emit_clk (o : Output) : (emit s o).clk = s.clk := rfl
@[simp] theorem emit_kp (o : Output) : (emit s o).kp = s.kp := rfl
@[simp] theorem emit_vault (o : Output) : (emit s o).vault = s.vault := rfl
@[simp] theorem emit_hp (o : Output) : (emit s o).hp = s.hp := rfl
@[simp] theorem emit_he (o : Output) : (emit s o).he = s.he := rfl
@[simp] theorem emit_qm (o : Output) : (emit s o).qm = s.qm := rfl
@[simp] theorem emit_mv (o : Output) : (emit s o).mv = s.mv := rfl
@[simp] theorem emit_xl (o : Output) : (emit s o).xl = s.xl := rfl
@[simp] theorem emit_pr (o : Output) : (emit s o).pr = s.pr := rfl
@[simp] theorem emit_ports (o : Output) : (emit s o).ports = s.ports := rfl
@[simp] theorem emit_sw (o : Output) : (emit s o).sw = s.sw := rfl
@[simp] theorem emit_rg (o : Output) : (emit s o).rg = s.rg := rfl
@[simp] theorem emit_sq (o : Output) : (emit s o).sq = s.sq := rfl
@[simp] theorem emit_br (o : Output) : (emit s o).br = s.br := rfl
@[simp] theorem emit_tap (o : Output) : (emit s o).tap = s.tap := rfl

@[simp] theorem drawNat_pending : (drawNat s).2.pending = s.pending := rfl
@[simp] theorem drawNat_free : (drawNat s).2.free = s.free + 1 := rfl
@[simp] theorem drawNat_sent : (drawNat s).2.sent = s.sent := rfl
@[simp] theorem drawNat_clk : (drawNat s).2.clk = s.clk := rfl
@[simp] theorem drawNat_kp : (drawNat s).2.kp = s.kp := rfl
@[simp] theorem drawNat_vault : (drawNat s).2.vault = s.vault := rfl
@[simp] theorem drawNat_hp : (drawNat s).2.hp = s.hp := rfl
@[simp] theorem drawNat_he : (drawNat s).2.he = s.he := rfl
@[simp] theorem drawNat_qm : (drawNat s).2.qm = s.qm := rfl
@[simp] theorem drawNat_mv : (drawNat s).2.mv = s.mv := rfl
@[simp] theorem drawNat_xl : (drawNat s).2.xl = s.xl := rfl
@[simp] theorem drawNat_pr : (drawNat s).2.pr = s.pr := rfl
@[simp] theorem drawNat_ports : (drawNat s).2.ports = s.ports := rfl
@[simp] theorem drawNat_sw : (drawNat s).2.sw = s.sw := rfl
@[simp] theorem drawNat_rg : (drawNat s).2.rg = s.rg := rfl
@[simp] theorem drawNat_sq : (drawNat s).2.sq = s.sq := rfl
@[simp] theorem drawNat_br : (drawNat s).2.br = s.br := rfl
@[simp] theorem drawNat_tap : (drawNat s).2.tap = s.tap := rfl

@[simp] theorem drawBytes_pending (n : Nat) : (drawBytes s n).2.pending = s.pending := rfl
@[simp] theorem drawBytes_free (n : Nat) : (drawBytes s n).2.free = s.free + 1 := rfl
@[simp] theorem drawBytes_sent (n : Nat) : (drawBytes s n).2.sent = s.sent := rfl
@[simp] theorem drawBytes_clk (n : Nat) : (drawBytes s n).2.clk = s.clk := rfl
@[simp] theorem drawBytes_kp (n : Nat) : (drawBytes s n).2.kp = s.kp := rfl
@[simp] theorem drawBytes_vault (n : Nat) : (drawBytes s n).2.vault = s.vault := rfl
@[simp] theorem drawBytes_hp (n : Nat) : (drawBytes s n).2.hp = s.hp := rfl
@[simp] theorem drawBytes_he (n : Nat) : (drawBytes s n).2.he = s.he := rfl
@[simp] theorem drawBytes_qm (n : Nat) : (drawBytes s n).2.qm = s.qm := rfl
@[simp] theorem drawBytes_mv (n : Nat) : (drawBytes s n).2.mv = s.mv := rfl
@[simp] theorem drawBytes_xl (n : Nat) : (drawBytes s n).2.xl = s.xl := rfl
@[simp] theorem drawBytes_pr (n : Nat) : (drawBytes s n).2.pr = s.pr := rfl
@[simp] theorem drawBytes_ports (n : Nat) : (drawBytes s n).2.ports = s.ports := rfl
@[simp] theorem drawBytes_sw (n : Nat) : (drawBytes s n).2.sw = s.sw := rfl
@[simp] theorem drawBytes_rg (n : Nat) : (drawBytes s n).2.rg = s.rg := rfl
@[simp] theorem drawBytes_sq (n : Nat) : (drawBytes s n).2.sq = s.sq := rfl
@[simp] theorem drawBytes_br (n : Nat) : (drawBytes s n).2.br = s.br := rfl
@[simp] theorem drawBytes_tap (n : Nat) : (drawBytes s n).2.tap = s.tap := rfl

end Sys2Proof.Machine
end

