-- ==== Sys2Proof/Laws/Tables.lean ====
section
/-! SUPPORT. The laws of the three containers of Machine/Bits.lean: a finite table reads back what it was given, a byte
memory reads back what was written and keeps its canonical form, a list used as a vector keeps its length. -/

namespace Sys2Proof.Machine

/-! ## Finite tables -/

section tab
variable {α : Type} (t : Tab α) (k j : Nat) (v w : α)

@[simp] theorem Tab.look_nil : Tab.look ([] : Tab α) k = none := rfl

@[simp] theorem Tab.look_put : Tab.look (Tab.put t k v) k = some v := by
  induction t with
  | nil => simp [Tab.put, Tab.look]
  | cons e r ih =>
    obtain ⟨k', v'⟩ := e
    simp only [Tab.put]
    split
    · simp [Tab.look]
    · split
      · simp [Tab.look]
      · rename_i h; simp [Tab.look, h, ih]

theorem Tab.look_put_ne (h : j ≠ k) : Tab.look (Tab.put t k v) j = Tab.look t j := by
  induction t with
  | nil => simp [Tab.put, Tab.look, h]
  | cons e r ih =>
    obtain ⟨k', v'⟩ := e
    simp only [Tab.put]
    split
    · simp [Tab.look, h]
    · split
      · rename_i h'; subst h'; simp [Tab.look, h]
      · simp [Tab.look, ih]

@[simp] theorem Tab.put_put : Tab.put (Tab.put t k v) k w = Tab.put t k w := by
  induction t with
  | nil => simp [Tab.put]
  | cons e r ih =>
    obtain ⟨k', v'⟩ := e
    simp only [Tab.put]
    split
    · simp [Tab.put]
    · split
      · simp [Tab.put]
      · rename_i h1 h2; simp [Tab.put, h1, h2, ih]

/-- A changed key reads as its changed value; an absent one stays absent. -/
theorem Tab.look_mod (f : α → α) : Tab.look (Tab.mod t k f) k = (Tab.look t k).map f := by
  unfold Tab.mod
  split <;> rename_i h
  · simp [h]
  · simp [h]

theorem Tab.look_mod_ne (f : α → α) (h : j ≠ k) : Tab.look (Tab.mod t k f) j = Tab.look t j := by
  unfold Tab.mod
  split
  · rfl
  · exact Tab.look_put_ne t k j _ h

theorem Tab.look_mapv (f : Nat → α → α) : Tab.look (Tab.mapv t f) j = (Tab.look t j).map (f j) := by
  unfold Tab.mapv
  induction t with
  | nil => rfl
  | cons e r ih =>
    simp only [List.map_cons, Tab.look]
    split
    · rename_i h; subst h; rfl
    · exact ih

theorem Tab.look_del_ne (h : j ≠ k) : Tab.look (Tab.del t k) j = Tab.look t j := by
  unfold Tab.del
  induction t with
  | nil => rfl
  | cons e r ih =>
    obtain ⟨k', v'⟩ := e
    by_cases hk : k' = k
    · subst hk; simpa [Tab.look, h] using ih
    · simp only [ne_eq, decide_not] at ih; simp [hk, Tab.look, ih]

@[simp] theorem Tab.look_del : Tab.look (Tab.del t k) k = none := by
  unfold Tab.del
  induction t with
  | nil => rfl
  | cons e r ih =>
    obtain ⟨k', v'⟩ := e
    by_cases hk : k' = k
    · subst hk; simpa using ih
    · simp only [ne_eq, decide_not] at ih; simp [hk, Tab.look, Ne.symm hk, ih]

end tab

/-! ## Byte memories -/

section cells
variable (d v : Byte) (m : List Host.Cell) (x a lo : Nat)

theorem cellsFrom_le (h : cellsFrom d lo m = true) (hl : a ≤ lo) : cellsFrom d a m = true := by
  cases m with
  | nil => rfl
  | cons e r =>
    obtain ⟨k, b⟩ := e
    simp only [cellsFrom, Bool.and_eq_true, decide_eq_true_eq] at h ⊢
    exact ⟨⟨Nat.le_trans hl h.1.1, h.1.2⟩, h.2⟩

/-- Writing a byte keeps the canonical form. -/
theorem cellsFrom_cellWrite (h : cellsFrom d lo m = true) (hx : lo ≤ x) :
    cellsFrom d lo (cellWrite d m x v) = true := by
  induction m generalizing lo with
  | nil =>
    simp only [cellWrite]
    split
    · rfl
    · rename_i hv; simp [cellsFrom, hv, hx]
  | cons e r ih =>
    obtain ⟨k, b⟩ := e
    simp only [cellsFrom, Bool.and_eq_true, decide_eq_true_eq] at h
    simp only [cellWrite]
    split
    · rename_i hlt
      split
      · simp [cellsFrom, h]
      · rename_i hv
        simp only [cellsFrom, Bool.and_eq_true, decide_eq_true_eq]
        exact ⟨⟨hx, hv⟩, ⟨hlt, h.1.2⟩, h.2⟩
    · split
      · rename_i h1 he
        split
        · exact cellsFrom_le d r lo (k + 1) h.2 (by omega)
        · rename_i hv
          simp only [cellsFrom, Bool.and_eq_true, decide_eq_true_eq]
          subst he
          exact ⟨⟨hx, hv⟩, h.2⟩
      · rename_i h1 h2
        simp only [cellsFrom, Bool.and_eq_true, decide_eq_true_eq]
        exact ⟨h.1, ih (k + 1) h.2 (by omega)⟩

theorem cellsWf_cellWrite (h : cellsWf d m = true) : cellsWf d (cellWrite d m x v) = true :=
  cellsFrom_cellWrite d v m x 0 h (Nat.zero_le _)

theorem cellsWf_cellWriteN (bs : List Byte) (h : cellsWf d m = true) : cellsWf d (cellWriteN d m x bs) = true := by
  induction bs generalizing m x with
  | nil => exact h
  | cons b r ih => exact ih _ _ (cellsWf_cellWrite d b m x h)

theorem cellsWf_cellWriteAll (bs : List (Nat × Byte)) (h : cellsWf d m = true) :
    cellsWf d (cellWriteAll d m bs) = true := by
  induction bs generalizing m with
  | nil => exact h
  | cons e r ih => exact ih _ (cellsWf_cellWrite d e.2 m e.1 h)

theorem cellsFrom_filter (p : Host.Cell → Bool) (h : cellsFrom d lo m = true) : cellsFrom d lo (m.filter p) = true := by
  induction m generalizing lo with
  | nil => rfl
  | cons e r ih =>
    obtain ⟨k, b⟩ := e
    simp only [cellsFrom, Bool.and_eq_true, decide_eq_true_eq] at h
    have hr := ih (k + 1) h.2
    simp only [List.filter_cons]
    split
    · simp only [cellsFrom, Bool.and_eq_true, decide_eq_true_eq]; exact ⟨h.1, hr⟩
    · exact cellsFrom_le d _ lo (k + 1) hr (by omega)

theorem cellsWf_filter (p : Host.Cell → Bool) (h : cellsWf d m = true) : cellsWf d (m.filter p) = true :=
  cellsFrom_filter d m 0 p h

/-- Below every listed address a memory reads as unlisted. -/
theorem cellRead_low (h : cellsFrom d lo m = true) (hx : x < lo) : cellRead d m x = d := by
  cases m with
  | nil => rfl
  | cons e r =>
    obtain ⟨k, b⟩ := e
    simp only [cellsFrom, Bool.and_eq_true, decide_eq_true_eq] at h
    have hk : x < k := by omega
    simp [cellRead, hk, Nat.ne_of_lt hk]

/-- A written byte reads back. -/
theorem cellRead_cellWrite (h : cellsFrom d lo m = true) : cellRead d (cellWrite d m x v) x = v := by
  induction m generalizing lo with
  | nil =>
    simp only [cellWrite]
    split
    · rename_i hv; simp [cellRead, hv]
    · simp [cellRead]
  | cons e r ih =>
    obtain ⟨k, b⟩ := e
    simp only [cellsFrom, Bool.and_eq_true, decide_eq_true_eq] at h
    simp only [cellWrite]
    split
    · rename_i hlt
      split
      · rename_i hv; simp [cellRead, hlt, Nat.ne_of_lt hlt, hv]
      · simp [cellRead]
    · split
      · rename_i h1 he
        subst he
        split
        · rename_i hv; rw [hv]; exact cellRead_low d r x (x + 1) h.2 (by omega)
        · simp [cellRead]
      · rename_i h1 h2
        simp only [cellRead, if_neg h2, if_neg h1]
        exact ih (k + 1) h.2

/-- A write leaves every other byte alone. -/
theorem cellRead_cellWrite_ne (h : cellsFrom d lo m = true) (ha : a ≠ x) :
    cellRead d (cellWrite d m x v) a = cellRead d m a := by
  induction m generalizing lo with
  | nil =>
    simp only [cellWrite]
    split <;> simp [cellRead, ha]
  | cons e r ih =>
    obtain ⟨k, b⟩ := e
    simp only [cellsFrom, Bool.and_eq_true, decide_eq_true_eq] at h
    simp only [cellWrite]
    split
    · rename_i hlt
      split
      · rfl
      · by_cases hax : a < x
        · have : a < k := by omega
          simp [cellRead, ha, hax, this, Nat.ne_of_lt this]
        · simp [cellRead, ha, hax]
    · split
      · rename_i h1 he
        subst he
        have key : cellRead d r a = if a < x then d else cellRead d r a := by
          split
          · exact cellRead_low d r a (x + 1) h.2 (by omega)
          · rfl
        split
        · simp only [cellRead, if_neg ha]; exact key
        · simp only [cellRead, if_neg ha]
      · simp only [cellRead]
        rw [ih (k + 1) h.2]

theorem cellRead_cellWriteN (bs : List Byte) (h : cellsWf d m = true) :
    cellRead d (cellWriteN d m x bs) a =
      if x ≤ a ∧ a < x + bs.length then nth bs (a - x) 0 else cellRead d m a := by
  induction bs generalizing m x with
  | nil => rw [if_neg (by simp)]; rfl
  | cons b r ih =>
    simp only [cellWriteN]
    rw [ih _ _ (cellsWf_cellWrite d b m x h)]
    simp only [List.length_cons]
    by_cases h1 : a = x
    · subst h1
      rw [if_neg (by omega), if_pos (by omega), cellRead_cellWrite d b m a 0 h]
      simp [nth]
    · by_cases h2 : x + 1 ≤ a ∧ a < x + 1 + r.length
      · rw [if_pos h2, if_pos (by omega)]
        obtain ⟨n, hn⟩ : ∃ n, a - x = n + 1 := ⟨a - x - 1, by omega⟩
        have : a - (x + 1) = n := by omega
        simp [nth, hn, this]
      · rw [if_neg h2, if_neg (by omega), cellRead_cellWrite_ne d b m x a 0 h h1]

end cells

/-! ## Vectors held as lists -/

theorem nth_set {α : Type} (l : List α) (i j : Nat) (v d : α) :
    nth (l.set i v) j d = if j = i ∧ i < l.length then v else nth l j d := by
  simp only [nth, List.getElem?_set]
  by_cases h : i = j
  · subst h
    by_cases hl : i < l.length
    · simp [hl]
    · simp [hl]
  · simp [h, Ne.symm h]

end Sys2Proof.Machine
end

