-- ==== Sys2Proof/Laws/Access.lean ====
section
/-! SUPPORT. Each numbered unit of the block reads back what it was set to, leaves its fellows alone, and stays apart from
every other kind of unit: what a later proof cites instead of unfolding an accessor. -/

namespace Sys2Proof.Machine

variable (s : State)

/-! ## Hive -/

@[simp] theorem hiveAt_setHive (k : Nat) (f : Hive → Hive) : hiveAt (setHive s k f) k = f (hiveAt s k) := by
  simp [hiveAt, setHive]

theorem hiveAt_setHive_ne (k j : Nat) (f : Hive → Hive) (h : j ≠ k) : hiveAt (setHive s k f) j = hiveAt s j := by
  simp [hiveAt, setHive, Tab.look_put_ne _ _ _ _ h]

@[simp] theorem setHive_setHive (k : Nat) (f g : Hive → Hive) :
    setHive (setHive s k f) k g = setHive s k (fun x => g (f x)) := by
  simp [setHive, hiveAt, State.onHe]

@[simp] theorem setHive_pending (k : Nat) (f : Hive → Hive) : (setHive s k f).pending = s.pending := rfl
@[simp] theorem setHive_free (k : Nat) (f : Hive → Hive) : (setHive s k f).free = s.free := rfl
@[simp] theorem setHive_sent (k : Nat) (f : Hive → Hive) : (setHive s k f).sent = s.sent := rfl
@[simp] theorem setHive_clk (k : Nat) (f : Hive → Hive) : (setHive s k f).clk = s.clk := rfl
@[simp] theorem setHive_kp (k : Nat) (f : Hive → Hive) : (setHive s k f).kp = s.kp := rfl
@[simp] theorem setHive_vault (k : Nat) (f : Hive → Hive) : (setHive s k f).vault = s.vault := rfl
@[simp] theorem setHive_hp (k : Nat) (f : Hive → Hive) : (setHive s k f).hp = s.hp := rfl
@[simp] theorem setHive_qm (k : Nat) (f : Hive → Hive) : (setHive s k f).qm = s.qm := rfl
@[simp] theorem setHive_mv (k : Nat) (f : Hive → Hive) : (setHive s k f).mv = s.mv := rfl
@[simp] theorem setHive_xl (k : Nat) (f : Hive → Hive) : (setHive s k f).xl = s.xl := rfl
@[simp] theorem setHive_pr (k : Nat) (f : Hive → Hive) : (setHive s k f).pr = s.pr := rfl
@[simp] theorem setHive_ports (k : Nat) (f : Hive → Hive) : (setHive s k f).ports = s.ports := rfl
@[simp] theorem setHive_sw (k : Nat) (f : Hive → Hive) : (setHive s k f).sw = s.sw := rfl
@[simp] theorem setHive_rg (k : Nat) (f : Hive → Hive) : (setHive s k f).rg = s.rg := rfl
@[simp] theorem setHive_sq (k : Nat) (f : Hive → Hive) : (setHive s k f).sq = s.sq := rfl
@[simp] theorem setHive_br (k : Nat) (f : Hive → Hive) : (setHive s k f).br = s.br := rfl

@[simp] theorem clusterAt_setHive (k j : Nat) (f : Hive → Hive) : clusterAt (setHive s k f) j = clusterAt s j := rfl
@[simp] theorem ctxAt_setHive (k j : Nat) (f : Hive → Hive) : ctxAt (setHive s k f) j = ctxAt s j := rfl
@[simp] theorem queueAt_setHive (k j : Nat) (f : Hive → Hive) : queueAt (setHive s k f) j = queueAt s j := rfl
@[simp] theorem labelAt_setHive (k j : Nat) (f : Hive → Hive) : labelAt (setHive s k f) j = labelAt s j := rfl
@[simp] theorem chanAt_setHive (k j : Nat) (f : Hive → Hive) : chanAt (setHive s k f) j = chanAt s j := rfl
@[simp] theorem moverAt_setHive (k j : Nat) (f : Hive → Hive) : moverAt (setHive s k f) j = moverAt s j := rfl
@[simp] theorem slotAt_setHive (k j : Nat) (f : Hive → Hive) : slotAt (setHive s k f) j = slotAt s j := rfl
@[simp] theorem linkAt_setHive (k j : Nat) (f : Hive → Hive) : linkAt (setHive s k f) j = linkAt s j := rfl
@[simp] theorem portAt_setHive (k j : Nat) (f : Hive → Hive) : portAt (setHive s k f) j = portAt s j := rfl

/-! ## Cluster -/

@[simp] theorem clusterAt_setCluster (k : Nat) (f : Cluster → Cluster) : clusterAt (setCluster s k f) k = f (clusterAt s k) := by
  simp [clusterAt, setCluster]

theorem clusterAt_setCluster_ne (k j : Nat) (f : Cluster → Cluster) (h : j ≠ k) : clusterAt (setCluster s k f) j = clusterAt s j := by
  simp [clusterAt, setCluster, Tab.look_put_ne _ _ _ _ h]

@[simp] theorem setCluster_setCluster (k : Nat) (f g : Cluster → Cluster) :
    setCluster (setCluster s k f) k g = setCluster s k (fun x => g (f x)) := by
  simp [setCluster, clusterAt, State.onHe]

@[simp] theorem setCluster_pending (k : Nat) (f : Cluster → Cluster) : (setCluster s k f).pending = s.pending := rfl
@[simp] theorem setCluster_free (k : Nat) (f : Cluster → Cluster) : (setCluster s k f).free = s.free := rfl
@[simp] theorem setCluster_sent (k : Nat) (f : Cluster → Cluster) : (setCluster s k f).sent = s.sent := rfl
@[simp] theorem setCluster_clk (k : Nat) (f : Cluster → Cluster) : (setCluster s k f).clk = s.clk := rfl
@[simp] theorem setCluster_kp (k : Nat) (f : Cluster → Cluster) : (setCluster s k f).kp = s.kp := rfl
@[simp] theorem setCluster_vault (k : Nat) (f : Cluster → Cluster) : (setCluster s k f).vault = s.vault := rfl
@[simp] theorem setCluster_hp (k : Nat) (f : Cluster → Cluster) : (setCluster s k f).hp = s.hp := rfl
@[simp] theorem setCluster_qm (k : Nat) (f : Cluster → Cluster) : (setCluster s k f).qm = s.qm := rfl
@[simp] theorem setCluster_mv (k : Nat) (f : Cluster → Cluster) : (setCluster s k f).mv = s.mv := rfl
@[simp] theorem setCluster_xl (k : Nat) (f : Cluster → Cluster) : (setCluster s k f).xl = s.xl := rfl
@[simp] theorem setCluster_pr (k : Nat) (f : Cluster → Cluster) : (setCluster s k f).pr = s.pr := rfl
@[simp] theorem setCluster_ports (k : Nat) (f : Cluster → Cluster) : (setCluster s k f).ports = s.ports := rfl
@[simp] theorem setCluster_sw (k : Nat) (f : Cluster → Cluster) : (setCluster s k f).sw = s.sw := rfl
@[simp] theorem setCluster_rg (k : Nat) (f : Cluster → Cluster) : (setCluster s k f).rg = s.rg := rfl
@[simp] theorem setCluster_sq (k : Nat) (f : Cluster → Cluster) : (setCluster s k f).sq = s.sq := rfl
@[simp] theorem setCluster_br (k : Nat) (f : Cluster → Cluster) : (setCluster s k f).br = s.br := rfl

@[simp] theorem hiveAt_setCluster (k j : Nat) (f : Cluster → Cluster) : hiveAt (setCluster s k f) j = hiveAt s j := rfl
@[simp] theorem ctxAt_setCluster (k j : Nat) (f : Cluster → Cluster) : ctxAt (setCluster s k f) j = ctxAt s j := rfl
@[simp] theorem queueAt_setCluster (k j : Nat) (f : Cluster → Cluster) : queueAt (setCluster s k f) j = queueAt s j := rfl
@[simp] theorem labelAt_setCluster (k j : Nat) (f : Cluster → Cluster) : labelAt (setCluster s k f) j = labelAt s j := rfl
@[simp] theorem chanAt_setCluster (k j : Nat) (f : Cluster → Cluster) : chanAt (setCluster s k f) j = chanAt s j := rfl
@[simp] theorem moverAt_setCluster (k j : Nat) (f : Cluster → Cluster) : moverAt (setCluster s k f) j = moverAt s j := rfl
@[simp] theorem slotAt_setCluster (k j : Nat) (f : Cluster → Cluster) : slotAt (setCluster s k f) j = slotAt s j := rfl
@[simp] theorem linkAt_setCluster (k j : Nat) (f : Cluster → Cluster) : linkAt (setCluster s k f) j = linkAt s j := rfl
@[simp] theorem portAt_setCluster (k j : Nat) (f : Cluster → Cluster) : portAt (setCluster s k f) j = portAt s j := rfl

/-! ## Ctx -/

@[simp] theorem ctxAt_setCtx (k : Nat) (f : Ctx → Ctx) : ctxAt (setCtx s k f) k = f (ctxAt s k) := by
  simp [ctxAt, setCtx]

theorem ctxAt_setCtx_ne (k j : Nat) (f : Ctx → Ctx) (h : j ≠ k) : ctxAt (setCtx s k f) j = ctxAt s j := by
  simp [ctxAt, setCtx, Tab.look_put_ne _ _ _ _ h]

@[simp] theorem setCtx_setCtx (k : Nat) (f g : Ctx → Ctx) :
    setCtx (setCtx s k f) k g = setCtx s k (fun x => g (f x)) := by
  simp [setCtx, ctxAt, State.onQm]

@[simp] theorem setCtx_pending (k : Nat) (f : Ctx → Ctx) : (setCtx s k f).pending = s.pending := rfl
@[simp] theorem setCtx_free (k : Nat) (f : Ctx → Ctx) : (setCtx s k f).free = s.free := rfl
@[simp] theorem setCtx_sent (k : Nat) (f : Ctx → Ctx) : (setCtx s k f).sent = s.sent := rfl
@[simp] theorem setCtx_clk (k : Nat) (f : Ctx → Ctx) : (setCtx s k f).clk = s.clk := rfl
@[simp] theorem setCtx_kp (k : Nat) (f : Ctx → Ctx) : (setCtx s k f).kp = s.kp := rfl
@[simp] theorem setCtx_vault (k : Nat) (f : Ctx → Ctx) : (setCtx s k f).vault = s.vault := rfl
@[simp] theorem setCtx_hp (k : Nat) (f : Ctx → Ctx) : (setCtx s k f).hp = s.hp := rfl
@[simp] theorem setCtx_he (k : Nat) (f : Ctx → Ctx) : (setCtx s k f).he = s.he := rfl
@[simp] theorem setCtx_mv (k : Nat) (f : Ctx → Ctx) : (setCtx s k f).mv = s.mv := rfl
@[simp] theorem setCtx_xl (k : Nat) (f : Ctx → Ctx) : (setCtx s k f).xl = s.xl := rfl
@[simp] theorem setCtx_pr (k : Nat) (f : Ctx → Ctx) : (setCtx s k f).pr = s.pr := rfl
@[simp] theorem setCtx_ports (k : Nat) (f : Ctx → Ctx) : (setCtx s k f).ports = s.ports := rfl
@[simp] theorem setCtx_sw (k : Nat) (f : Ctx → Ctx) : (setCtx s k f).sw = s.sw := rfl
@[simp] theorem setCtx_rg (k : Nat) (f : Ctx → Ctx) : (setCtx s k f).rg = s.rg := rfl
@[simp] theorem setCtx_sq (k : Nat) (f : Ctx → Ctx) : (setCtx s k f).sq = s.sq := rfl
@[simp] theorem setCtx_br (k : Nat) (f : Ctx → Ctx) : (setCtx s k f).br = s.br := rfl

@[simp] theorem hiveAt_setCtx (k j : Nat) (f : Ctx → Ctx) : hiveAt (setCtx s k f) j = hiveAt s j := rfl
@[simp] theorem clusterAt_setCtx (k j : Nat) (f : Ctx → Ctx) : clusterAt (setCtx s k f) j = clusterAt s j := rfl
@[simp] theorem queueAt_setCtx (k j : Nat) (f : Ctx → Ctx) : queueAt (setCtx s k f) j = queueAt s j := rfl
@[simp] theorem labelAt_setCtx (k j : Nat) (f : Ctx → Ctx) : labelAt (setCtx s k f) j = labelAt s j := rfl
@[simp] theorem chanAt_setCtx (k j : Nat) (f : Ctx → Ctx) : chanAt (setCtx s k f) j = chanAt s j := rfl
@[simp] theorem moverAt_setCtx (k j : Nat) (f : Ctx → Ctx) : moverAt (setCtx s k f) j = moverAt s j := rfl
@[simp] theorem slotAt_setCtx (k j : Nat) (f : Ctx → Ctx) : slotAt (setCtx s k f) j = slotAt s j := rfl
@[simp] theorem linkAt_setCtx (k j : Nat) (f : Ctx → Ctx) : linkAt (setCtx s k f) j = linkAt s j := rfl
@[simp] theorem portAt_setCtx (k j : Nat) (f : Ctx → Ctx) : portAt (setCtx s k f) j = portAt s j := rfl

/-! ## Queue -/

@[simp] theorem queueAt_setQueue (k : Nat) (f : Queue → Queue) : queueAt (setQueue s k f) k = f (queueAt s k) := by
  simp [queueAt, setQueue]

theorem queueAt_setQueue_ne (k j : Nat) (f : Queue → Queue) (h : j ≠ k) : queueAt (setQueue s k f) j = queueAt s j := by
  simp [queueAt, setQueue, Tab.look_put_ne _ _ _ _ h]

@[simp] theorem setQueue_setQueue (k : Nat) (f g : Queue → Queue) :
    setQueue (setQueue s k f) k g = setQueue s k (fun x => g (f x)) := by
  simp [setQueue, queueAt, State.onQm]

@[simp] theorem setQueue_pending (k : Nat) (f : Queue → Queue) : (setQueue s k f).pending = s.pending := rfl
@[simp] theorem setQueue_free (k : Nat) (f : Queue → Queue) : (setQueue s k f).free = s.free := rfl
@[simp] theorem setQueue_sent (k : Nat) (f : Queue → Queue) : (setQueue s k f).sent = s.sent := rfl
@[simp] theorem setQueue_clk (k : Nat) (f : Queue → Queue) : (setQueue s k f).clk = s.clk := rfl
@[simp] theorem setQueue_kp (k : Nat) (f : Queue → Queue) : (setQueue s k f).kp = s.kp := rfl
@[simp] theorem setQueue_vault (k : Nat) (f : Queue → Queue) : (setQueue s k f).vault = s.vault := rfl
@[simp] theorem setQueue_hp (k : Nat) (f : Queue → Queue) : (setQueue s k f).hp = s.hp := rfl
@[simp] theorem setQueue_he (k : Nat) (f : Queue → Queue) : (setQueue s k f).he = s.he := rfl
@[simp] theorem setQueue_mv (k : Nat) (f : Queue → Queue) : (setQueue s k f).mv = s.mv := rfl
@[simp] theorem setQueue_xl (k : Nat) (f : Queue → Queue) : (setQueue s k f).xl = s.xl := rfl
@[simp] theorem setQueue_pr (k : Nat) (f : Queue → Queue) : (setQueue s k f).pr = s.pr := rfl
@[simp] theorem setQueue_ports (k : Nat) (f : Queue → Queue) : (setQueue s k f).ports = s.ports := rfl
@[simp] theorem setQueue_sw (k : Nat) (f : Queue → Queue) : (setQueue s k f).sw = s.sw := rfl
@[simp] theorem setQueue_rg (k : Nat) (f : Queue → Queue) : (setQueue s k f).rg = s.rg := rfl
@[simp] theorem setQueue_sq (k : Nat) (f : Queue → Queue) : (setQueue s k f).sq = s.sq := rfl
@[simp] theorem setQueue_br (k : Nat) (f : Queue → Queue) : (setQueue s k f).br = s.br := rfl

@[simp] theorem hiveAt_setQueue (k j : Nat) (f : Queue → Queue) : hiveAt (setQueue s k f) j = hiveAt s j := rfl
@[simp] theorem clusterAt_setQueue (k j : Nat) (f : Queue → Queue) : clusterAt (setQueue s k f) j = clusterAt s j := rfl
@[simp] theorem ctxAt_setQueue (k j : Nat) (f : Queue → Queue) : ctxAt (setQueue s k f) j = ctxAt s j := rfl
@[simp] theorem labelAt_setQueue (k j : Nat) (f : Queue → Queue) : labelAt (setQueue s k f) j = labelAt s j := rfl
@[simp] theorem chanAt_setQueue (k j : Nat) (f : Queue → Queue) : chanAt (setQueue s k f) j = chanAt s j := rfl
@[simp] theorem moverAt_setQueue (k j : Nat) (f : Queue → Queue) : moverAt (setQueue s k f) j = moverAt s j := rfl
@[simp] theorem slotAt_setQueue (k j : Nat) (f : Queue → Queue) : slotAt (setQueue s k f) j = slotAt s j := rfl
@[simp] theorem linkAt_setQueue (k j : Nat) (f : Queue → Queue) : linkAt (setQueue s k f) j = linkAt s j := rfl
@[simp] theorem portAt_setQueue (k j : Nat) (f : Queue → Queue) : portAt (setQueue s k f) j = portAt s j := rfl

/-! ## Label -/

@[simp] theorem labelAt_setLabel (k : Nat) (f : Label → Label) : labelAt (setLabel s k f) k = f (labelAt s k) := by
  simp [labelAt, setLabel]

theorem labelAt_setLabel_ne (k j : Nat) (f : Label → Label) (h : j ≠ k) : labelAt (setLabel s k f) j = labelAt s j := by
  simp [labelAt, setLabel, Tab.look_put_ne _ _ _ _ h]

@[simp] theorem setLabel_setLabel (k : Nat) (f g : Label → Label) :
    setLabel (setLabel s k f) k g = setLabel s k (fun x => g (f x)) := by
  simp [setLabel, labelAt, State.onRg]

@[simp] theorem setLabel_pending (k : Nat) (f : Label → Label) : (setLabel s k f).pending = s.pending := rfl
@[simp] theorem setLabel_free (k : Nat) (f : Label → Label) : (setLabel s k f).free = s.free := rfl
@[simp] theorem setLabel_sent (k : Nat) (f : Label → Label) : (setLabel s k f).sent = s.sent := rfl
@[simp] theorem setLabel_clk (k : Nat) (f : Label → Label) : (setLabel s k f).clk = s.clk := rfl
@[simp] theorem setLabel_kp (k : Nat) (f : Label → Label) : (setLabel s k f).kp = s.kp := rfl
@[simp] theorem setLabel_vault (k : Nat) (f : Label → Label) : (setLabel s k f).vault = s.vault := rfl
@[simp] theorem setLabel_hp (k : Nat) (f : Label → Label) : (setLabel s k f).hp = s.hp := rfl
@[simp] theorem setLabel_he (k : Nat) (f : Label → Label) : (setLabel s k f).he = s.he := rfl
@[simp] theorem setLabel_qm (k : Nat) (f : Label → Label) : (setLabel s k f).qm = s.qm := rfl
@[simp] theorem setLabel_mv (k : Nat) (f : Label → Label) : (setLabel s k f).mv = s.mv := rfl
@[simp] theorem setLabel_xl (k : Nat) (f : Label → Label) : (setLabel s k f).xl = s.xl := rfl
@[simp] theorem setLabel_pr (k : Nat) (f : Label → Label) : (setLabel s k f).pr = s.pr := rfl
@[simp] theorem setLabel_ports (k : Nat) (f : Label → Label) : (setLabel s k f).ports = s.ports := rfl
@[simp] theorem setLabel_sw (k : Nat) (f : Label → Label) : (setLabel s k f).sw = s.sw := rfl
@[simp] theorem setLabel_sq (k : Nat) (f : Label → Label) : (setLabel s k f).sq = s.sq := rfl
@[simp] theorem setLabel_br (k : Nat) (f : Label → Label) : (setLabel s k f).br = s.br := rfl

@[simp] theorem hiveAt_setLabel (k j : Nat) (f : Label → Label) : hiveAt (setLabel s k f) j = hiveAt s j := rfl
@[simp] theorem clusterAt_setLabel (k j : Nat) (f : Label → Label) : clusterAt (setLabel s k f) j = clusterAt s j := rfl
@[simp] theorem ctxAt_setLabel (k j : Nat) (f : Label → Label) : ctxAt (setLabel s k f) j = ctxAt s j := rfl
@[simp] theorem queueAt_setLabel (k j : Nat) (f : Label → Label) : queueAt (setLabel s k f) j = queueAt s j := rfl
@[simp] theorem chanAt_setLabel (k j : Nat) (f : Label → Label) : chanAt (setLabel s k f) j = chanAt s j := rfl
@[simp] theorem moverAt_setLabel (k j : Nat) (f : Label → Label) : moverAt (setLabel s k f) j = moverAt s j := rfl
@[simp] theorem slotAt_setLabel (k j : Nat) (f : Label → Label) : slotAt (setLabel s k f) j = slotAt s j := rfl
@[simp] theorem linkAt_setLabel (k j : Nat) (f : Label → Label) : linkAt (setLabel s k f) j = linkAt s j := rfl
@[simp] theorem portAt_setLabel (k j : Nat) (f : Label → Label) : portAt (setLabel s k f) j = portAt s j := rfl

/-! ## Channel -/

@[simp] theorem chanAt_setChan (k : Nat) (f : Channel → Channel) : chanAt (setChan s k f) k = f (chanAt s k) := by
  simp [chanAt, setChan]

theorem chanAt_setChan_ne (k j : Nat) (f : Channel → Channel) (h : j ≠ k) : chanAt (setChan s k f) j = chanAt s j := by
  simp [chanAt, setChan, Tab.look_put_ne _ _ _ _ h]

@[simp] theorem setChan_setChan (k : Nat) (f g : Channel → Channel) :
    setChan (setChan s k f) k g = setChan s k (fun x => g (f x)) := by
  simp [setChan, chanAt, State.onMv]

@[simp] theorem setChan_pending (k : Nat) (f : Channel → Channel) : (setChan s k f).pending = s.pending := rfl
@[simp] theorem setChan_free (k : Nat) (f : Channel → Channel) : (setChan s k f).free = s.free := rfl
@[simp] theorem setChan_sent (k : Nat) (f : Channel → Channel) : (setChan s k f).sent = s.sent := rfl
@[simp] theorem setChan_clk (k : Nat) (f : Channel → Channel) : (setChan s k f).clk = s.clk := rfl
@[simp] theorem setChan_kp (k : Nat) (f : Channel → Channel) : (setChan s k f).kp = s.kp := rfl
@[simp] theorem setChan_vault (k : Nat) (f : Channel → Channel) : (setChan s k f).vault = s.vault := rfl
@[simp] theorem setChan_hp (k : Nat) (f : Channel → Channel) : (setChan s k f).hp = s.hp := rfl
@[simp] theorem setChan_he (k : Nat) (f : Channel → Channel) : (setChan s k f).he = s.he := rfl
@[simp] theorem setChan_qm (k : Nat) (f : Channel → Channel) : (setChan s k f).qm = s.qm := rfl
@[simp] theorem setChan_xl (k : Nat) (f : Channel → Channel) : (setChan s k f).xl = s.xl := rfl
@[simp] theorem setChan_pr (k : Nat) (f : Channel → Channel) : (setChan s k f).pr = s.pr := rfl
@[simp] theorem setChan_ports (k : Nat) (f : Channel → Channel) : (setChan s k f).ports = s.ports := rfl
@[simp] theorem setChan_sw (k : Nat) (f : Channel → Channel) : (setChan s k f).sw = s.sw := rfl
@[simp] theorem setChan_rg (k : Nat) (f : Channel → Channel) : (setChan s k f).rg = s.rg := rfl
@[simp] theorem setChan_sq (k : Nat) (f : Channel → Channel) : (setChan s k f).sq = s.sq := rfl
@[simp] theorem setChan_br (k : Nat) (f : Channel → Channel) : (setChan s k f).br = s.br := rfl

@[simp] theorem hiveAt_setChan (k j : Nat) (f : Channel → Channel) : hiveAt (setChan s k f) j = hiveAt s j := rfl
@[simp] theorem clusterAt_setChan (k j : Nat) (f : Channel → Channel) : clusterAt (setChan s k f) j = clusterAt s j := rfl
@[simp] theorem ctxAt_setChan (k j : Nat) (f : Channel → Channel) : ctxAt (setChan s k f) j = ctxAt s j := rfl
@[simp] theorem queueAt_setChan (k j : Nat) (f : Channel → Channel) : queueAt (setChan s k f) j = queueAt s j := rfl
@[simp] theorem labelAt_setChan (k j : Nat) (f : Channel → Channel) : labelAt (setChan s k f) j = labelAt s j := rfl
@[simp] theorem moverAt_setChan (k j : Nat) (f : Channel → Channel) : moverAt (setChan s k f) j = moverAt s j := rfl
@[simp] theorem slotAt_setChan (k j : Nat) (f : Channel → Channel) : slotAt (setChan s k f) j = slotAt s j := rfl
@[simp] theorem linkAt_setChan (k j : Nat) (f : Channel → Channel) : linkAt (setChan s k f) j = linkAt s j := rfl
@[simp] theorem portAt_setChan (k j : Nat) (f : Channel → Channel) : portAt (setChan s k f) j = portAt s j := rfl

/-! ## Mover -/

@[simp] theorem moverAt_setMover (k : Nat) (f : Mover → Mover) : moverAt (setMover s k f) k = f (moverAt s k) := by
  simp [moverAt, setMover]

theorem moverAt_setMover_ne (k j : Nat) (f : Mover → Mover) (h : j ≠ k) : moverAt (setMover s k f) j = moverAt s j := by
  simp [moverAt, setMover, Tab.look_put_ne _ _ _ _ h]

@[simp] theorem setMover_setMover (k : Nat) (f g : Mover → Mover) :
    setMover (setMover s k f) k g = setMover s k (fun x => g (f x)) := by
  simp [setMover, moverAt, State.onMv]

@[simp] theorem setMover_pending (k : Nat) (f : Mover → Mover) : (setMover s k f).pending = s.pending := rfl
@[simp] theorem setMover_free (k : Nat) (f : Mover → Mover) : (setMover s k f).free = s.free := rfl
@[simp] theorem setMover_sent (k : Nat) (f : Mover → Mover) : (setMover s k f).sent = s.sent := rfl
@[simp] theorem setMover_clk (k : Nat) (f : Mover → Mover) : (setMover s k f).clk = s.clk := rfl
@[simp] theorem setMover_kp (k : Nat) (f : Mover → Mover) : (setMover s k f).kp = s.kp := rfl
@[simp] theorem setMover_vault (k : Nat) (f : Mover → Mover) : (setMover s k f).vault = s.vault := rfl
@[simp] theorem setMover_hp (k : Nat) (f : Mover → Mover) : (setMover s k f).hp = s.hp := rfl
@[simp] theorem setMover_he (k : Nat) (f : Mover → Mover) : (setMover s k f).he = s.he := rfl
@[simp] theorem setMover_qm (k : Nat) (f : Mover → Mover) : (setMover s k f).qm = s.qm := rfl
@[simp] theorem setMover_xl (k : Nat) (f : Mover → Mover) : (setMover s k f).xl = s.xl := rfl
@[simp] theorem setMover_pr (k : Nat) (f : Mover → Mover) : (setMover s k f).pr = s.pr := rfl
@[simp] theorem setMover_ports (k : Nat) (f : Mover → Mover) : (setMover s k f).ports = s.ports := rfl
@[simp] theorem setMover_sw (k : Nat) (f : Mover → Mover) : (setMover s k f).sw = s.sw := rfl
@[simp] theorem setMover_rg (k : Nat) (f : Mover → Mover) : (setMover s k f).rg = s.rg := rfl
@[simp] theorem setMover_sq (k : Nat) (f : Mover → Mover) : (setMover s k f).sq = s.sq := rfl
@[simp] theorem setMover_br (k : Nat) (f : Mover → Mover) : (setMover s k f).br = s.br := rfl

@[simp] theorem hiveAt_setMover (k j : Nat) (f : Mover → Mover) : hiveAt (setMover s k f) j = hiveAt s j := rfl
@[simp] theorem clusterAt_setMover (k j : Nat) (f : Mover → Mover) : clusterAt (setMover s k f) j = clusterAt s j := rfl
@[simp] theorem ctxAt_setMover (k j : Nat) (f : Mover → Mover) : ctxAt (setMover s k f) j = ctxAt s j := rfl
@[simp] theorem queueAt_setMover (k j : Nat) (f : Mover → Mover) : queueAt (setMover s k f) j = queueAt s j := rfl
@[simp] theorem labelAt_setMover (k j : Nat) (f : Mover → Mover) : labelAt (setMover s k f) j = labelAt s j := rfl
@[simp] theorem chanAt_setMover (k j : Nat) (f : Mover → Mover) : chanAt (setMover s k f) j = chanAt s j := rfl
@[simp] theorem slotAt_setMover (k j : Nat) (f : Mover → Mover) : slotAt (setMover s k f) j = slotAt s j := rfl
@[simp] theorem linkAt_setMover (k j : Nat) (f : Mover → Mover) : linkAt (setMover s k f) j = linkAt s j := rfl
@[simp] theorem portAt_setMover (k j : Nat) (f : Mover → Mover) : portAt (setMover s k f) j = portAt s j := rfl

/-! ## KeySlot -/

@[simp] theorem slotAt_setSlot (k : Nat) (f : KeySlot → KeySlot) : slotAt (setSlot s k f) k = f (slotAt s k) := by
  simp [slotAt, setSlot]

theorem slotAt_setSlot_ne (k j : Nat) (f : KeySlot → KeySlot) (h : j ≠ k) : slotAt (setSlot s k f) j = slotAt s j := by
  simp [slotAt, setSlot, Tab.look_put_ne _ _ _ _ h]

@[simp] theorem setSlot_setSlot (k : Nat) (f g : KeySlot → KeySlot) :
    setSlot (setSlot s k f) k g = setSlot s k (fun x => g (f x)) := by
  simp [setSlot, slotAt, State.onPr]

@[simp] theorem setSlot_pending (k : Nat) (f : KeySlot → KeySlot) : (setSlot s k f).pending = s.pending := rfl
@[simp] theorem setSlot_free (k : Nat) (f : KeySlot → KeySlot) : (setSlot s k f).free = s.free := rfl
@[simp] theorem setSlot_sent (k : Nat) (f : KeySlot → KeySlot) : (setSlot s k f).sent = s.sent := rfl
@[simp] theorem setSlot_clk (k : Nat) (f : KeySlot → KeySlot) : (setSlot s k f).clk = s.clk := rfl
@[simp] theorem setSlot_kp (k : Nat) (f : KeySlot → KeySlot) : (setSlot s k f).kp = s.kp := rfl
@[simp] theorem setSlot_vault (k : Nat) (f : KeySlot → KeySlot) : (setSlot s k f).vault = s.vault := rfl
@[simp] theorem setSlot_hp (k : Nat) (f : KeySlot → KeySlot) : (setSlot s k f).hp = s.hp := rfl
@[simp] theorem setSlot_he (k : Nat) (f : KeySlot → KeySlot) : (setSlot s k f).he = s.he := rfl
@[simp] theorem setSlot_qm (k : Nat) (f : KeySlot → KeySlot) : (setSlot s k f).qm = s.qm := rfl
@[simp] theorem setSlot_mv (k : Nat) (f : KeySlot → KeySlot) : (setSlot s k f).mv = s.mv := rfl
@[simp] theorem setSlot_xl (k : Nat) (f : KeySlot → KeySlot) : (setSlot s k f).xl = s.xl := rfl
@[simp] theorem setSlot_ports (k : Nat) (f : KeySlot → KeySlot) : (setSlot s k f).ports = s.ports := rfl
@[simp] theorem setSlot_sw (k : Nat) (f : KeySlot → KeySlot) : (setSlot s k f).sw = s.sw := rfl
@[simp] theorem setSlot_rg (k : Nat) (f : KeySlot → KeySlot) : (setSlot s k f).rg = s.rg := rfl
@[simp] theorem setSlot_sq (k : Nat) (f : KeySlot → KeySlot) : (setSlot s k f).sq = s.sq := rfl
@[simp] theorem setSlot_br (k : Nat) (f : KeySlot → KeySlot) : (setSlot s k f).br = s.br := rfl

@[simp] theorem hiveAt_setSlot (k j : Nat) (f : KeySlot → KeySlot) : hiveAt (setSlot s k f) j = hiveAt s j := rfl
@[simp] theorem clusterAt_setSlot (k j : Nat) (f : KeySlot → KeySlot) : clusterAt (setSlot s k f) j = clusterAt s j := rfl
@[simp] theorem ctxAt_setSlot (k j : Nat) (f : KeySlot → KeySlot) : ctxAt (setSlot s k f) j = ctxAt s j := rfl
@[simp] theorem queueAt_setSlot (k j : Nat) (f : KeySlot → KeySlot) : queueAt (setSlot s k f) j = queueAt s j := rfl
@[simp] theorem labelAt_setSlot (k j : Nat) (f : KeySlot → KeySlot) : labelAt (setSlot s k f) j = labelAt s j := rfl
@[simp] theorem chanAt_setSlot (k j : Nat) (f : KeySlot → KeySlot) : chanAt (setSlot s k f) j = chanAt s j := rfl
@[simp] theorem moverAt_setSlot (k j : Nat) (f : KeySlot → KeySlot) : moverAt (setSlot s k f) j = moverAt s j := rfl
@[simp] theorem linkAt_setSlot (k j : Nat) (f : KeySlot → KeySlot) : linkAt (setSlot s k f) j = linkAt s j := rfl
@[simp] theorem portAt_setSlot (k j : Nat) (f : KeySlot → KeySlot) : portAt (setSlot s k f) j = portAt s j := rfl

/-! ## Link -/

@[simp] theorem linkAt_setLink (k : Nat) (f : Link → Link) : linkAt (setLink s k f) k = f (linkAt s k) := by
  simp [linkAt, setLink]

theorem linkAt_setLink_ne (k j : Nat) (f : Link → Link) (h : j ≠ k) : linkAt (setLink s k f) j = linkAt s j := by
  simp [linkAt, setLink, Tab.look_put_ne _ _ _ _ h]

@[simp] theorem setLink_setLink (k : Nat) (f g : Link → Link) :
    setLink (setLink s k f) k g = setLink s k (fun x => g (f x)) := by
  simp [setLink, linkAt, State.onSw]

@[simp] theorem setLink_pending (k : Nat) (f : Link → Link) : (setLink s k f).pending = s.pending := rfl
@[simp] theorem setLink_free (k : Nat) (f : Link → Link) : (setLink s k f).free = s.free := rfl
@[simp] theorem setLink_sent (k : Nat) (f : Link → Link) : (setLink s k f).sent = s.sent := rfl
@[simp] theorem setLink_clk (k : Nat) (f : Link → Link) : (setLink s k f).clk = s.clk := rfl
@[simp] theorem setLink_kp (k : Nat) (f : Link → Link) : (setLink s k f).kp = s.kp := rfl
@[simp] theorem setLink_vault (k : Nat) (f : Link → Link) : (setLink s k f).vault = s.vault := rfl
@[simp] theorem setLink_hp (k : Nat) (f : Link → Link) : (setLink s k f).hp = s.hp := rfl
@[simp] theorem setLink_he (k : Nat) (f : Link → Link) : (setLink s k f).he = s.he := rfl
@[simp] theorem setLink_qm (k : Nat) (f : Link → Link) : (setLink s k f).qm = s.qm := rfl
@[simp] theorem setLink_mv (k : Nat) (f : Link → Link) : (setLink s k f).mv = s.mv := rfl
@[simp] theorem setLink_xl (k : Nat) (f : Link → Link) : (setLink s k f).xl = s.xl := rfl
@[simp] theorem setLink_pr (k : Nat) (f : Link → Link) : (setLink s k f).pr = s.pr := rfl
@[simp] theorem setLink_ports (k : Nat) (f : Link → Link) : (setLink s k f).ports = s.ports := rfl
@[simp] theorem setLink_rg (k : Nat) (f : Link → Link) : (setLink s k f).rg = s.rg := rfl
@[simp] theorem setLink_sq (k : Nat) (f : Link → Link) : (setLink s k f).sq = s.sq := rfl
@[simp] theorem setLink_br (k : Nat) (f : Link → Link) : (setLink s k f).br = s.br := rfl

@[simp] theorem hiveAt_setLink (k j : Nat) (f : Link → Link) : hiveAt (setLink s k f) j = hiveAt s j := rfl
@[simp] theorem clusterAt_setLink (k j : Nat) (f : Link → Link) : clusterAt (setLink s k f) j = clusterAt s j := rfl
@[simp] theorem ctxAt_setLink (k j : Nat) (f : Link → Link) : ctxAt (setLink s k f) j = ctxAt s j := rfl
@[simp] theorem queueAt_setLink (k j : Nat) (f : Link → Link) : queueAt (setLink s k f) j = queueAt s j := rfl
@[simp] theorem labelAt_setLink (k j : Nat) (f : Link → Link) : labelAt (setLink s k f) j = labelAt s j := rfl
@[simp] theorem chanAt_setLink (k j : Nat) (f : Link → Link) : chanAt (setLink s k f) j = chanAt s j := rfl
@[simp] theorem moverAt_setLink (k j : Nat) (f : Link → Link) : moverAt (setLink s k f) j = moverAt s j := rfl
@[simp] theorem slotAt_setLink (k j : Nat) (f : Link → Link) : slotAt (setLink s k f) j = slotAt s j := rfl
@[simp] theorem portAt_setLink (k j : Nat) (f : Link → Link) : portAt (setLink s k f) j = portAt s j := rfl

/-! ## Port -/

@[simp] theorem portAt_setPort (k : Nat) (f : Port → Port) : portAt (setPort s k f) k = f (portAt s k) := by
  simp [portAt, setPort]

theorem portAt_setPort_ne (k j : Nat) (f : Port → Port) (h : j ≠ k) : portAt (setPort s k f) j = portAt s j := by
  simp [portAt, setPort, Tab.look_put_ne _ _ _ _ h]

@[simp] theorem setPort_setPort (k : Nat) (f g : Port → Port) :
    setPort (setPort s k f) k g = setPort s k (fun x => g (f x)) := by
  simp [setPort, portAt]

@[simp] theorem setPort_pending (k : Nat) (f : Port → Port) : (setPort s k f).pending = s.pending := rfl
@[simp] theorem setPort_free (k : Nat) (f : Port → Port) : (setPort s k f).free = s.free := rfl
@[simp] theorem setPort_sent (k : Nat) (f : Port → Port) : (setPort s k f).sent = s.sent := rfl
@[simp] theorem setPort_clk (k : Nat) (f : Port → Port) : (setPort s k f).clk = s.clk := rfl
@[simp] theorem setPort_kp (k : Nat) (f : Port → Port) : (setPort s k f).kp = s.kp := rfl
@[simp] theorem setPort_vault (k : Nat) (f : Port → Port) : (setPort s k f).vault = s.vault := rfl
@[simp] theorem setPort_hp (k : Nat) (f : Port → Port) : (setPort s k f).hp = s.hp := rfl
@[simp] theorem setPort_he (k : Nat) (f : Port → Port) : (setPort s k f).he = s.he := rfl
@[simp] theorem setPort_qm (k : Nat) (f : Port → Port) : (setPort s k f).qm = s.qm := rfl
@[simp] theorem setPort_mv (k : Nat) (f : Port → Port) : (setPort s k f).mv = s.mv := rfl
@[simp] theorem setPort_xl (k : Nat) (f : Port → Port) : (setPort s k f).xl = s.xl := rfl
@[simp] theorem setPort_pr (k : Nat) (f : Port → Port) : (setPort s k f).pr = s.pr := rfl
@[simp] theorem setPort_sw (k : Nat) (f : Port → Port) : (setPort s k f).sw = s.sw := rfl
@[simp] theorem setPort_rg (k : Nat) (f : Port → Port) : (setPort s k f).rg = s.rg := rfl
@[simp] theorem setPort_sq (k : Nat) (f : Port → Port) : (setPort s k f).sq = s.sq := rfl
@[simp] theorem setPort_br (k : Nat) (f : Port → Port) : (setPort s k f).br = s.br := rfl

@[simp] theorem hiveAt_setPort (k j : Nat) (f : Port → Port) : hiveAt (setPort s k f) j = hiveAt s j := rfl
@[simp] theorem clusterAt_setPort (k j : Nat) (f : Port → Port) : clusterAt (setPort s k f) j = clusterAt s j := rfl
@[simp] theorem ctxAt_setPort (k j : Nat) (f : Port → Port) : ctxAt (setPort s k f) j = ctxAt s j := rfl
@[simp] theorem queueAt_setPort (k j : Nat) (f : Port → Port) : queueAt (setPort s k f) j = queueAt s j := rfl
@[simp] theorem labelAt_setPort (k j : Nat) (f : Port → Port) : labelAt (setPort s k f) j = labelAt s j := rfl
@[simp] theorem chanAt_setPort (k j : Nat) (f : Port → Port) : chanAt (setPort s k f) j = chanAt s j := rfl
@[simp] theorem moverAt_setPort (k j : Nat) (f : Port → Port) : moverAt (setPort s k f) j = moverAt s j := rfl
@[simp] theorem slotAt_setPort (k j : Nat) (f : Port → Port) : slotAt (setPort s k f) j = slotAt s j := rfl
@[simp] theorem linkAt_setPort (k j : Nat) (f : Port → Port) : linkAt (setPort s k f) j = linkAt s j := rfl

/-! ## An update depends on the unit's present content alone -/

theorem setHive_congr (k : Nat) (f g : Hive → Hive) (h : f (hiveAt s k) = g (hiveAt s k)) : setHive s k f = setHive s k g := by
  simp [setHive, h]

theorem setCluster_congr (k : Nat) (f g : Cluster → Cluster) (h : f (clusterAt s k) = g (clusterAt s k)) : setCluster s k f = setCluster s k g := by
  simp [setCluster, h]

theorem setCtx_congr (k : Nat) (f g : Ctx → Ctx) (h : f (ctxAt s k) = g (ctxAt s k)) : setCtx s k f = setCtx s k g := by
  simp [setCtx, h]

theorem setQueue_congr (k : Nat) (f g : Queue → Queue) (h : f (queueAt s k) = g (queueAt s k)) : setQueue s k f = setQueue s k g := by
  simp [setQueue, h]

theorem setLabel_congr (k : Nat) (f g : Label → Label) (h : f (labelAt s k) = g (labelAt s k)) : setLabel s k f = setLabel s k g := by
  simp [setLabel, h]

theorem setChan_congr (k : Nat) (f g : Channel → Channel) (h : f (chanAt s k) = g (chanAt s k)) : setChan s k f = setChan s k g := by
  simp [setChan, h]

theorem setMover_congr (k : Nat) (f g : Mover → Mover) (h : f (moverAt s k) = g (moverAt s k)) : setMover s k f = setMover s k g := by
  simp [setMover, h]

theorem setSlot_congr (k : Nat) (f g : KeySlot → KeySlot) (h : f (slotAt s k) = g (slotAt s k)) : setSlot s k f = setSlot s k g := by
  simp [setSlot, h]

theorem setLink_congr (k : Nat) (f g : Link → Link) (h : f (linkAt s k) = g (linkAt s k)) : setLink s k f = setLink s k g := by
  simp [setLink, h]

theorem setPort_congr (k : Nat) (f g : Port → Port) (h : f (portAt s k) = g (portAt s k)) : setPort s k f = setPort s k g := by
  simp [setPort, h]

/-! ## The end of a mailbox command -/

@[simp] theorem mbEnd_vault (st : Status) (r : List Byte) : (mbEnd s st r).vault = s.vault := rfl
@[simp] theorem mbEnd_clk (st : Status) (r : List Byte) : (mbEnd s st r).clk = s.clk := rfl
@[simp] theorem mbEnd_br (st : Status) (r : List Byte) : (mbEnd s st r).br = s.br := rfl
@[simp] theorem mbEnd_sent (st : Status) (r : List Byte) : (mbEnd s st r).sent = s.sent := rfl

@[simp] theorem mbEnd_replyStatus (st : Status) (r : List Byte) : (mbEnd s st r).kp.mbox.replyStatus = st.code := by
  unfold mbEnd setMbox; cases h : s.kp.mbox.rebootTag <;> simp [h]

@[simp] theorem mbEnd_reply (st : Status) (r : List Byte) : (mbEnd s st r).kp.mbox.reply = r := by
  unfold mbEnd setMbox; cases h : s.kp.mbox.rebootTag <;> simp [h]

end Sys2Proof.Machine
end

