-- ==== Sys2Proof/Laws/Reads.lean ====
section
/-! SUPPORT. A read of one part of the state is blind to an update of another: one lemma for each numbered unit and each
update, so that no later proof unfolds either. -/

namespace Sys2Proof.Machine

variable (s : State)

/-! ## Two updates of one part -/

@[simp] theorem State.onClk_onClk (f g : Clocks → Clocks) : (s.onClk f).onClk g = s.onClk (fun x => g (f x)) := rfl
@[simp] theorem State.onKp_onKp (f g : Keeper → Keeper) : (s.onKp f).onKp g = s.onKp (fun x => g (f x)) := rfl
@[simp] theorem State.onVault_onVault (f g : Vault → Vault) : (s.onVault f).onVault g = s.onVault (fun x => g (f x)) := rfl
@[simp] theorem State.onHp_onHp (f g : HostPort → HostPort) : (s.onHp f).onHp g = s.onHp (fun x => g (f x)) := rfl
@[simp] theorem State.onHe_onHe (f g : HiveEngine → HiveEngine) : (s.onHe f).onHe g = s.onHe (fun x => g (f x)) := rfl
@[simp] theorem State.onQm_onQm (f g : QueueMgr → QueueMgr) : (s.onQm f).onQm g = s.onQm (fun x => g (f x)) := rfl
@[simp] theorem State.onMv_onMv (f g : Movers → Movers) : (s.onMv f).onMv g = s.onMv (fun x => g (f x)) := rfl
@[simp] theorem State.onXl_onXl (f g : Translation → Translation) : (s.onXl f).onXl g = s.onXl (fun x => g (f x)) := rfl
@[simp] theorem State.onPr_onPr (f g : Propolis → Propolis) : (s.onPr f).onPr g = s.onPr (fun x => g (f x)) := rfl
@[simp] theorem State.onSw_onSw (f g : Swarm → Swarm) : (s.onSw f).onSw g = s.onSw (fun x => g (f x)) := rfl
@[simp] theorem State.onRg_onRg (f g : Regulator → Regulator) : (s.onRg f).onRg g = s.onRg (fun x => g (f x)) := rfl
@[simp] theorem State.onSq_onSq (f g : Sequencer → Sequencer) : (s.onSq f).onSq g = s.onSq (fun x => g (f x)) := rfl
@[simp] theorem State.onBr_onBr (f g : Brood → Brood) : (s.onBr f).onBr g = s.onBr (fun x => g (f x)) := rfl

/-! ## `hiveAt` -/

@[simp] theorem hiveAt_onClk (h : Nat) (u : Clocks → Clocks) : hiveAt (s.onClk u) h = hiveAt s h := rfl
@[simp] theorem hiveAt_onKp (h : Nat) (u : Keeper → Keeper) : hiveAt (s.onKp u) h = hiveAt s h := rfl
@[simp] theorem hiveAt_onVault (h : Nat) (u : Vault → Vault) : hiveAt (s.onVault u) h = hiveAt s h := rfl
@[simp] theorem hiveAt_onHp (h : Nat) (u : HostPort → HostPort) : hiveAt (s.onHp u) h = hiveAt s h := rfl
@[simp] theorem hiveAt_onQm (h : Nat) (u : QueueMgr → QueueMgr) : hiveAt (s.onQm u) h = hiveAt s h := rfl
@[simp] theorem hiveAt_onMv (h : Nat) (u : Movers → Movers) : hiveAt (s.onMv u) h = hiveAt s h := rfl
@[simp] theorem hiveAt_onXl (h : Nat) (u : Translation → Translation) : hiveAt (s.onXl u) h = hiveAt s h := rfl
@[simp] theorem hiveAt_onPr (h : Nat) (u : Propolis → Propolis) : hiveAt (s.onPr u) h = hiveAt s h := rfl
@[simp] theorem hiveAt_onSw (h : Nat) (u : Swarm → Swarm) : hiveAt (s.onSw u) h = hiveAt s h := rfl
@[simp] theorem hiveAt_onRg (h : Nat) (u : Regulator → Regulator) : hiveAt (s.onRg u) h = hiveAt s h := rfl
@[simp] theorem hiveAt_onSq (h : Nat) (u : Sequencer → Sequencer) : hiveAt (s.onSq u) h = hiveAt s h := rfl
@[simp] theorem hiveAt_onBr (h : Nat) (u : Brood → Brood) : hiveAt (s.onBr u) h = hiveAt s h := rfl
@[simp] theorem hiveAt_emit (h : Nat) (o : Output) : hiveAt (emit s o) h = hiveAt s h := rfl
@[simp] theorem hiveAt_drawNat (h : Nat) : hiveAt (drawNat s).2 h = hiveAt s h := rfl
@[simp] theorem hiveAt_drawBytes (h len : Nat) : hiveAt (drawBytes s len).2 h = hiveAt s h := rfl

/-! ## `clusterAt` -/

@[simp] theorem clusterAt_onClk (n : Nat) (u : Clocks → Clocks) : clusterAt (s.onClk u) n = clusterAt s n := rfl
@[simp] theorem clusterAt_onKp (n : Nat) (u : Keeper → Keeper) : clusterAt (s.onKp u) n = clusterAt s n := rfl
@[simp] theorem clusterAt_onVault (n : Nat) (u : Vault → Vault) : clusterAt (s.onVault u) n = clusterAt s n := rfl
@[simp] theorem clusterAt_onHp (n : Nat) (u : HostPort → HostPort) : clusterAt (s.onHp u) n = clusterAt s n := rfl
@[simp] theorem clusterAt_onQm (n : Nat) (u : QueueMgr → QueueMgr) : clusterAt (s.onQm u) n = clusterAt s n := rfl
@[simp] theorem clusterAt_onMv (n : Nat) (u : Movers → Movers) : clusterAt (s.onMv u) n = clusterAt s n := rfl
@[simp] theorem clusterAt_onXl (n : Nat) (u : Translation → Translation) : clusterAt (s.onXl u) n = clusterAt s n := rfl
@[simp] theorem clusterAt_onPr (n : Nat) (u : Propolis → Propolis) : clusterAt (s.onPr u) n = clusterAt s n := rfl
@[simp] theorem clusterAt_onSw (n : Nat) (u : Swarm → Swarm) : clusterAt (s.onSw u) n = clusterAt s n := rfl
@[simp] theorem clusterAt_onRg (n : Nat) (u : Regulator → Regulator) : clusterAt (s.onRg u) n = clusterAt s n := rfl
@[simp] theorem clusterAt_onSq (n : Nat) (u : Sequencer → Sequencer) : clusterAt (s.onSq u) n = clusterAt s n := rfl
@[simp] theorem clusterAt_onBr (n : Nat) (u : Brood → Brood) : clusterAt (s.onBr u) n = clusterAt s n := rfl
@[simp] theorem clusterAt_emit (n : Nat) (o : Output) : clusterAt (emit s o) n = clusterAt s n := rfl
@[simp] theorem clusterAt_drawNat (n : Nat) : clusterAt (drawNat s).2 n = clusterAt s n := rfl
@[simp] theorem clusterAt_drawBytes (n len : Nat) : clusterAt (drawBytes s len).2 n = clusterAt s n := rfl

/-! ## `ctxAt` -/

@[simp] theorem ctxAt_onClk (c : Nat) (u : Clocks → Clocks) : ctxAt (s.onClk u) c = ctxAt s c := rfl
@[simp] theorem ctxAt_onKp (c : Nat) (u : Keeper → Keeper) : ctxAt (s.onKp u) c = ctxAt s c := rfl
@[simp] theorem ctxAt_onVault (c : Nat) (u : Vault → Vault) : ctxAt (s.onVault u) c = ctxAt s c := rfl
@[simp] theorem ctxAt_onHp (c : Nat) (u : HostPort → HostPort) : ctxAt (s.onHp u) c = ctxAt s c := rfl
@[simp] theorem ctxAt_onHe (c : Nat) (u : HiveEngine → HiveEngine) : ctxAt (s.onHe u) c = ctxAt s c := rfl
@[simp] theorem ctxAt_onMv (c : Nat) (u : Movers → Movers) : ctxAt (s.onMv u) c = ctxAt s c := rfl
@[simp] theorem ctxAt_onXl (c : Nat) (u : Translation → Translation) : ctxAt (s.onXl u) c = ctxAt s c := rfl
@[simp] theorem ctxAt_onPr (c : Nat) (u : Propolis → Propolis) : ctxAt (s.onPr u) c = ctxAt s c := rfl
@[simp] theorem ctxAt_onSw (c : Nat) (u : Swarm → Swarm) : ctxAt (s.onSw u) c = ctxAt s c := rfl
@[simp] theorem ctxAt_onRg (c : Nat) (u : Regulator → Regulator) : ctxAt (s.onRg u) c = ctxAt s c := rfl
@[simp] theorem ctxAt_onSq (c : Nat) (u : Sequencer → Sequencer) : ctxAt (s.onSq u) c = ctxAt s c := rfl
@[simp] theorem ctxAt_onBr (c : Nat) (u : Brood → Brood) : ctxAt (s.onBr u) c = ctxAt s c := rfl
@[simp] theorem ctxAt_emit (c : Nat) (o : Output) : ctxAt (emit s o) c = ctxAt s c := rfl
@[simp] theorem ctxAt_drawNat (c : Nat) : ctxAt (drawNat s).2 c = ctxAt s c := rfl
@[simp] theorem ctxAt_drawBytes (c len : Nat) : ctxAt (drawBytes s len).2 c = ctxAt s c := rfl

/-! ## `queueAt` -/

@[simp] theorem queueAt_onClk (q : Nat) (u : Clocks → Clocks) : queueAt (s.onClk u) q = queueAt s q := rfl
@[simp] theorem queueAt_onKp (q : Nat) (u : Keeper → Keeper) : queueAt (s.onKp u) q = queueAt s q := rfl
@[simp] theorem queueAt_onVault (q : Nat) (u : Vault → Vault) : queueAt (s.onVault u) q = queueAt s q := rfl
@[simp] theorem queueAt_onHp (q : Nat) (u : HostPort → HostPort) : queueAt (s.onHp u) q = queueAt s q := rfl
@[simp] theorem queueAt_onHe (q : Nat) (u : HiveEngine → HiveEngine) : queueAt (s.onHe u) q = queueAt s q := rfl
@[simp] theorem queueAt_onMv (q : Nat) (u : Movers → Movers) : queueAt (s.onMv u) q = queueAt s q := rfl
@[simp] theorem queueAt_onXl (q : Nat) (u : Translation → Translation) : queueAt (s.onXl u) q = queueAt s q := rfl
@[simp] theorem queueAt_onPr (q : Nat) (u : Propolis → Propolis) : queueAt (s.onPr u) q = queueAt s q := rfl
@[simp] theorem queueAt_onSw (q : Nat) (u : Swarm → Swarm) : queueAt (s.onSw u) q = queueAt s q := rfl
@[simp] theorem queueAt_onRg (q : Nat) (u : Regulator → Regulator) : queueAt (s.onRg u) q = queueAt s q := rfl
@[simp] theorem queueAt_onSq (q : Nat) (u : Sequencer → Sequencer) : queueAt (s.onSq u) q = queueAt s q := rfl
@[simp] theorem queueAt_onBr (q : Nat) (u : Brood → Brood) : queueAt (s.onBr u) q = queueAt s q := rfl
@[simp] theorem queueAt_emit (q : Nat) (o : Output) : queueAt (emit s o) q = queueAt s q := rfl
@[simp] theorem queueAt_drawNat (q : Nat) : queueAt (drawNat s).2 q = queueAt s q := rfl
@[simp] theorem queueAt_drawBytes (q len : Nat) : queueAt (drawBytes s len).2 q = queueAt s q := rfl

/-! ## `fenceAt` -/

@[simp] theorem fenceAt_onClk (f : Nat) (u : Clocks → Clocks) : fenceAt (s.onClk u) f = fenceAt s f := rfl
@[simp] theorem fenceAt_onKp (f : Nat) (u : Keeper → Keeper) : fenceAt (s.onKp u) f = fenceAt s f := rfl
@[simp] theorem fenceAt_onVault (f : Nat) (u : Vault → Vault) : fenceAt (s.onVault u) f = fenceAt s f := rfl
@[simp] theorem fenceAt_onHp (f : Nat) (u : HostPort → HostPort) : fenceAt (s.onHp u) f = fenceAt s f := rfl
@[simp] theorem fenceAt_onHe (f : Nat) (u : HiveEngine → HiveEngine) : fenceAt (s.onHe u) f = fenceAt s f := rfl
@[simp] theorem fenceAt_onMv (f : Nat) (u : Movers → Movers) : fenceAt (s.onMv u) f = fenceAt s f := rfl
@[simp] theorem fenceAt_onXl (f : Nat) (u : Translation → Translation) : fenceAt (s.onXl u) f = fenceAt s f := rfl
@[simp] theorem fenceAt_onPr (f : Nat) (u : Propolis → Propolis) : fenceAt (s.onPr u) f = fenceAt s f := rfl
@[simp] theorem fenceAt_onSw (f : Nat) (u : Swarm → Swarm) : fenceAt (s.onSw u) f = fenceAt s f := rfl
@[simp] theorem fenceAt_onRg (f : Nat) (u : Regulator → Regulator) : fenceAt (s.onRg u) f = fenceAt s f := rfl
@[simp] theorem fenceAt_onSq (f : Nat) (u : Sequencer → Sequencer) : fenceAt (s.onSq u) f = fenceAt s f := rfl
@[simp] theorem fenceAt_onBr (f : Nat) (u : Brood → Brood) : fenceAt (s.onBr u) f = fenceAt s f := rfl
@[simp] theorem fenceAt_emit (f : Nat) (o : Output) : fenceAt (emit s o) f = fenceAt s f := rfl
@[simp] theorem fenceAt_drawNat (f : Nat) : fenceAt (drawNat s).2 f = fenceAt s f := rfl
@[simp] theorem fenceAt_drawBytes (f len : Nat) : fenceAt (drawBytes s len).2 f = fenceAt s f := rfl

/-! ## `labelAt` -/

@[simp] theorem labelAt_onClk (l : Nat) (u : Clocks → Clocks) : labelAt (s.onClk u) l = labelAt s l := rfl
@[simp] theorem labelAt_onKp (l : Nat) (u : Keeper → Keeper) : labelAt (s.onKp u) l = labelAt s l := rfl
@[simp] theorem labelAt_onVault (l : Nat) (u : Vault → Vault) : labelAt (s.onVault u) l = labelAt s l := rfl
@[simp] theorem labelAt_onHp (l : Nat) (u : HostPort → HostPort) : labelAt (s.onHp u) l = labelAt s l := rfl
@[simp] theorem labelAt_onHe (l : Nat) (u : HiveEngine → HiveEngine) : labelAt (s.onHe u) l = labelAt s l := rfl
@[simp] theorem labelAt_onQm (l : Nat) (u : QueueMgr → QueueMgr) : labelAt (s.onQm u) l = labelAt s l := rfl
@[simp] theorem labelAt_onMv (l : Nat) (u : Movers → Movers) : labelAt (s.onMv u) l = labelAt s l := rfl
@[simp] theorem labelAt_onXl (l : Nat) (u : Translation → Translation) : labelAt (s.onXl u) l = labelAt s l := rfl
@[simp] theorem labelAt_onPr (l : Nat) (u : Propolis → Propolis) : labelAt (s.onPr u) l = labelAt s l := rfl
@[simp] theorem labelAt_onSw (l : Nat) (u : Swarm → Swarm) : labelAt (s.onSw u) l = labelAt s l := rfl
@[simp] theorem labelAt_onSq (l : Nat) (u : Sequencer → Sequencer) : labelAt (s.onSq u) l = labelAt s l := rfl
@[simp] theorem labelAt_onBr (l : Nat) (u : Brood → Brood) : labelAt (s.onBr u) l = labelAt s l := rfl
@[simp] theorem labelAt_emit (l : Nat) (o : Output) : labelAt (emit s o) l = labelAt s l := rfl
@[simp] theorem labelAt_drawNat (l : Nat) : labelAt (drawNat s).2 l = labelAt s l := rfl
@[simp] theorem labelAt_drawBytes (l len : Nat) : labelAt (drawBytes s len).2 l = labelAt s l := rfl

/-! ## `chanAt` -/

@[simp] theorem chanAt_onClk (c : Nat) (u : Clocks → Clocks) : chanAt (s.onClk u) c = chanAt s c := rfl
@[simp] theorem chanAt_onKp (c : Nat) (u : Keeper → Keeper) : chanAt (s.onKp u) c = chanAt s c := rfl
@[simp] theorem chanAt_onVault (c : Nat) (u : Vault → Vault) : chanAt (s.onVault u) c = chanAt s c := rfl
@[simp] theorem chanAt_onHp (c : Nat) (u : HostPort → HostPort) : chanAt (s.onHp u) c = chanAt s c := rfl
@[simp] theorem chanAt_onHe (c : Nat) (u : HiveEngine → HiveEngine) : chanAt (s.onHe u) c = chanAt s c := rfl
@[simp] theorem chanAt_onQm (c : Nat) (u : QueueMgr → QueueMgr) : chanAt (s.onQm u) c = chanAt s c := rfl
@[simp] theorem chanAt_onXl (c : Nat) (u : Translation → Translation) : chanAt (s.onXl u) c = chanAt s c := rfl
@[simp] theorem chanAt_onPr (c : Nat) (u : Propolis → Propolis) : chanAt (s.onPr u) c = chanAt s c := rfl
@[simp] theorem chanAt_onSw (c : Nat) (u : Swarm → Swarm) : chanAt (s.onSw u) c = chanAt s c := rfl
@[simp] theorem chanAt_onRg (c : Nat) (u : Regulator → Regulator) : chanAt (s.onRg u) c = chanAt s c := rfl
@[simp] theorem chanAt_onSq (c : Nat) (u : Sequencer → Sequencer) : chanAt (s.onSq u) c = chanAt s c := rfl
@[simp] theorem chanAt_onBr (c : Nat) (u : Brood → Brood) : chanAt (s.onBr u) c = chanAt s c := rfl
@[simp] theorem chanAt_emit (c : Nat) (o : Output) : chanAt (emit s o) c = chanAt s c := rfl
@[simp] theorem chanAt_drawNat (c : Nat) : chanAt (drawNat s).2 c = chanAt s c := rfl
@[simp] theorem chanAt_drawBytes (c len : Nat) : chanAt (drawBytes s len).2 c = chanAt s c := rfl

/-! ## `moverAt` -/

@[simp] theorem moverAt_onClk (m : Nat) (u : Clocks → Clocks) : moverAt (s.onClk u) m = moverAt s m := rfl
@[simp] theorem moverAt_onKp (m : Nat) (u : Keeper → Keeper) : moverAt (s.onKp u) m = moverAt s m := rfl
@[simp] theorem moverAt_onVault (m : Nat) (u : Vault → Vault) : moverAt (s.onVault u) m = moverAt s m := rfl
@[simp] theorem moverAt_onHp (m : Nat) (u : HostPort → HostPort) : moverAt (s.onHp u) m = moverAt s m := rfl
@[simp] theorem moverAt_onHe (m : Nat) (u : HiveEngine → HiveEngine) : moverAt (s.onHe u) m = moverAt s m := rfl
@[simp] theorem moverAt_onQm (m : Nat) (u : QueueMgr → QueueMgr) : moverAt (s.onQm u) m = moverAt s m := rfl
@[simp] theorem moverAt_onXl (m : Nat) (u : Translation → Translation) : moverAt (s.onXl u) m = moverAt s m := rfl
@[simp] theorem moverAt_onPr (m : Nat) (u : Propolis → Propolis) : moverAt (s.onPr u) m = moverAt s m := rfl
@[simp] theorem moverAt_onSw (m : Nat) (u : Swarm → Swarm) : moverAt (s.onSw u) m = moverAt s m := rfl
@[simp] theorem moverAt_onRg (m : Nat) (u : Regulator → Regulator) : moverAt (s.onRg u) m = moverAt s m := rfl
@[simp] theorem moverAt_onSq (m : Nat) (u : Sequencer → Sequencer) : moverAt (s.onSq u) m = moverAt s m := rfl
@[simp] theorem moverAt_onBr (m : Nat) (u : Brood → Brood) : moverAt (s.onBr u) m = moverAt s m := rfl
@[simp] theorem moverAt_emit (m : Nat) (o : Output) : moverAt (emit s o) m = moverAt s m := rfl
@[simp] theorem moverAt_drawNat (m : Nat) : moverAt (drawNat s).2 m = moverAt s m := rfl
@[simp] theorem moverAt_drawBytes (m len : Nat) : moverAt (drawBytes s len).2 m = moverAt s m := rfl

/-! ## `slotAt` -/

@[simp] theorem slotAt_onClk (k : Nat) (u : Clocks → Clocks) : slotAt (s.onClk u) k = slotAt s k := rfl
@[simp] theorem slotAt_onKp (k : Nat) (u : Keeper → Keeper) : slotAt (s.onKp u) k = slotAt s k := rfl
@[simp] theorem slotAt_onVault (k : Nat) (u : Vault → Vault) : slotAt (s.onVault u) k = slotAt s k := rfl
@[simp] theorem slotAt_onHp (k : Nat) (u : HostPort → HostPort) : slotAt (s.onHp u) k = slotAt s k := rfl
@[simp] theorem slotAt_onHe (k : Nat) (u : HiveEngine → HiveEngine) : slotAt (s.onHe u) k = slotAt s k := rfl
@[simp] theorem slotAt_onQm (k : Nat) (u : QueueMgr → QueueMgr) : slotAt (s.onQm u) k = slotAt s k := rfl
@[simp] theorem slotAt_onMv (k : Nat) (u : Movers → Movers) : slotAt (s.onMv u) k = slotAt s k := rfl
@[simp] theorem slotAt_onXl (k : Nat) (u : Translation → Translation) : slotAt (s.onXl u) k = slotAt s k := rfl
@[simp] theorem slotAt_onSw (k : Nat) (u : Swarm → Swarm) : slotAt (s.onSw u) k = slotAt s k := rfl
@[simp] theorem slotAt_onRg (k : Nat) (u : Regulator → Regulator) : slotAt (s.onRg u) k = slotAt s k := rfl
@[simp] theorem slotAt_onSq (k : Nat) (u : Sequencer → Sequencer) : slotAt (s.onSq u) k = slotAt s k := rfl
@[simp] theorem slotAt_onBr (k : Nat) (u : Brood → Brood) : slotAt (s.onBr u) k = slotAt s k := rfl
@[simp] theorem slotAt_emit (k : Nat) (o : Output) : slotAt (emit s o) k = slotAt s k := rfl
@[simp] theorem slotAt_drawNat (k : Nat) : slotAt (drawNat s).2 k = slotAt s k := rfl
@[simp] theorem slotAt_drawBytes (k len : Nat) : slotAt (drawBytes s len).2 k = slotAt s k := rfl

/-! ## `linkAt` -/

@[simp] theorem linkAt_onClk (l : Nat) (u : Clocks → Clocks) : linkAt (s.onClk u) l = linkAt s l := rfl
@[simp] theorem linkAt_onKp (l : Nat) (u : Keeper → Keeper) : linkAt (s.onKp u) l = linkAt s l := rfl
@[simp] theorem linkAt_onVault (l : Nat) (u : Vault → Vault) : linkAt (s.onVault u) l = linkAt s l := rfl
@[simp] theorem linkAt_onHp (l : Nat) (u : HostPort → HostPort) : linkAt (s.onHp u) l = linkAt s l := rfl
@[simp] theorem linkAt_onHe (l : Nat) (u : HiveEngine → HiveEngine) : linkAt (s.onHe u) l = linkAt s l := rfl
@[simp] theorem linkAt_onQm (l : Nat) (u : QueueMgr → QueueMgr) : linkAt (s.onQm u) l = linkAt s l := rfl
@[simp] theorem linkAt_onMv (l : Nat) (u : Movers → Movers) : linkAt (s.onMv u) l = linkAt s l := rfl
@[simp] theorem linkAt_onXl (l : Nat) (u : Translation → Translation) : linkAt (s.onXl u) l = linkAt s l := rfl
@[simp] theorem linkAt_onPr (l : Nat) (u : Propolis → Propolis) : linkAt (s.onPr u) l = linkAt s l := rfl
@[simp] theorem linkAt_onRg (l : Nat) (u : Regulator → Regulator) : linkAt (s.onRg u) l = linkAt s l := rfl
@[simp] theorem linkAt_onSq (l : Nat) (u : Sequencer → Sequencer) : linkAt (s.onSq u) l = linkAt s l := rfl
@[simp] theorem linkAt_onBr (l : Nat) (u : Brood → Brood) : linkAt (s.onBr u) l = linkAt s l := rfl
@[simp] theorem linkAt_emit (l : Nat) (o : Output) : linkAt (emit s o) l = linkAt s l := rfl
@[simp] theorem linkAt_drawNat (l : Nat) : linkAt (drawNat s).2 l = linkAt s l := rfl
@[simp] theorem linkAt_drawBytes (l len : Nat) : linkAt (drawBytes s len).2 l = linkAt s l := rfl

/-! ## `flowAt` -/

@[simp] theorem flowAt_onClk (p : Nat) (u : Clocks → Clocks) : flowAt (s.onClk u) p = flowAt s p := rfl
@[simp] theorem flowAt_onKp (p : Nat) (u : Keeper → Keeper) : flowAt (s.onKp u) p = flowAt s p := rfl
@[simp] theorem flowAt_onVault (p : Nat) (u : Vault → Vault) : flowAt (s.onVault u) p = flowAt s p := rfl
@[simp] theorem flowAt_onHp (p : Nat) (u : HostPort → HostPort) : flowAt (s.onHp u) p = flowAt s p := rfl
@[simp] theorem flowAt_onHe (p : Nat) (u : HiveEngine → HiveEngine) : flowAt (s.onHe u) p = flowAt s p := rfl
@[simp] theorem flowAt_onQm (p : Nat) (u : QueueMgr → QueueMgr) : flowAt (s.onQm u) p = flowAt s p := rfl
@[simp] theorem flowAt_onMv (p : Nat) (u : Movers → Movers) : flowAt (s.onMv u) p = flowAt s p := rfl
@[simp] theorem flowAt_onXl (p : Nat) (u : Translation → Translation) : flowAt (s.onXl u) p = flowAt s p := rfl
@[simp] theorem flowAt_onPr (p : Nat) (u : Propolis → Propolis) : flowAt (s.onPr u) p = flowAt s p := rfl
@[simp] theorem flowAt_onRg (p : Nat) (u : Regulator → Regulator) : flowAt (s.onRg u) p = flowAt s p := rfl
@[simp] theorem flowAt_onSq (p : Nat) (u : Sequencer → Sequencer) : flowAt (s.onSq u) p = flowAt s p := rfl
@[simp] theorem flowAt_onBr (p : Nat) (u : Brood → Brood) : flowAt (s.onBr u) p = flowAt s p := rfl
@[simp] theorem flowAt_emit (p : Nat) (o : Output) : flowAt (emit s o) p = flowAt s p := rfl
@[simp] theorem flowAt_drawNat (p : Nat) : flowAt (drawNat s).2 p = flowAt s p := rfl
@[simp] theorem flowAt_drawBytes (p len : Nat) : flowAt (drawBytes s len).2 p = flowAt s p := rfl

/-! ## `routeAt` -/

@[simp] theorem routeAt_onClk (c : Nat) (u : Clocks → Clocks) : routeAt (s.onClk u) c = routeAt s c := rfl
@[simp] theorem routeAt_onKp (c : Nat) (u : Keeper → Keeper) : routeAt (s.onKp u) c = routeAt s c := rfl
@[simp] theorem routeAt_onVault (c : Nat) (u : Vault → Vault) : routeAt (s.onVault u) c = routeAt s c := rfl
@[simp] theorem routeAt_onHp (c : Nat) (u : HostPort → HostPort) : routeAt (s.onHp u) c = routeAt s c := rfl
@[simp] theorem routeAt_onHe (c : Nat) (u : HiveEngine → HiveEngine) : routeAt (s.onHe u) c = routeAt s c := rfl
@[simp] theorem routeAt_onQm (c : Nat) (u : QueueMgr → QueueMgr) : routeAt (s.onQm u) c = routeAt s c := rfl
@[simp] theorem routeAt_onMv (c : Nat) (u : Movers → Movers) : routeAt (s.onMv u) c = routeAt s c := rfl
@[simp] theorem routeAt_onXl (c : Nat) (u : Translation → Translation) : routeAt (s.onXl u) c = routeAt s c := rfl
@[simp] theorem routeAt_onPr (c : Nat) (u : Propolis → Propolis) : routeAt (s.onPr u) c = routeAt s c := rfl
@[simp] theorem routeAt_onRg (c : Nat) (u : Regulator → Regulator) : routeAt (s.onRg u) c = routeAt s c := rfl
@[simp] theorem routeAt_onSq (c : Nat) (u : Sequencer → Sequencer) : routeAt (s.onSq u) c = routeAt s c := rfl
@[simp] theorem routeAt_onBr (c : Nat) (u : Brood → Brood) : routeAt (s.onBr u) c = routeAt s c := rfl
@[simp] theorem routeAt_emit (c : Nat) (o : Output) : routeAt (emit s o) c = routeAt s c := rfl
@[simp] theorem routeAt_drawNat (c : Nat) : routeAt (drawNat s).2 c = routeAt s c := rfl
@[simp] theorem routeAt_drawBytes (c len : Nat) : routeAt (drawBytes s len).2 c = routeAt s c := rfl

/-! ## `portAt` -/

@[simp] theorem portAt_onClk (p : Nat) (u : Clocks → Clocks) : portAt (s.onClk u) p = portAt s p := rfl
@[simp] theorem portAt_onKp (p : Nat) (u : Keeper → Keeper) : portAt (s.onKp u) p = portAt s p := rfl
@[simp] theorem portAt_onVault (p : Nat) (u : Vault → Vault) : portAt (s.onVault u) p = portAt s p := rfl
@[simp] theorem portAt_onHp (p : Nat) (u : HostPort → HostPort) : portAt (s.onHp u) p = portAt s p := rfl
@[simp] theorem portAt_onHe (p : Nat) (u : HiveEngine → HiveEngine) : portAt (s.onHe u) p = portAt s p := rfl
@[simp] theorem portAt_onQm (p : Nat) (u : QueueMgr → QueueMgr) : portAt (s.onQm u) p = portAt s p := rfl
@[simp] theorem portAt_onMv (p : Nat) (u : Movers → Movers) : portAt (s.onMv u) p = portAt s p := rfl
@[simp] theorem portAt_onXl (p : Nat) (u : Translation → Translation) : portAt (s.onXl u) p = portAt s p := rfl
@[simp] theorem portAt_onPr (p : Nat) (u : Propolis → Propolis) : portAt (s.onPr u) p = portAt s p := rfl
@[simp] theorem portAt_onSw (p : Nat) (u : Swarm → Swarm) : portAt (s.onSw u) p = portAt s p := rfl
@[simp] theorem portAt_onRg (p : Nat) (u : Regulator → Regulator) : portAt (s.onRg u) p = portAt s p := rfl
@[simp] theorem portAt_onSq (p : Nat) (u : Sequencer → Sequencer) : portAt (s.onSq u) p = portAt s p := rfl
@[simp] theorem portAt_onBr (p : Nat) (u : Brood → Brood) : portAt (s.onBr u) p = portAt s p := rfl
@[simp] theorem portAt_emit (p : Nat) (o : Output) : portAt (emit s o) p = portAt s p := rfl
@[simp] theorem portAt_drawNat (p : Nat) : portAt (drawNat s).2 p = portAt s p := rfl
@[simp] theorem portAt_drawBytes (p len : Nat) : portAt (drawBytes s len).2 p = portAt s p := rfl

/-! ## What the settings fix -/

@[simp] theorem chipId_onClk (u : Clocks → Clocks) : chipId (s.onClk u) = chipId s := rfl
@[simp] theorem chipId_onVault (u : Vault → Vault) : chipId (s.onVault u) = chipId s := rfl
@[simp] theorem chipId_onHp (u : HostPort → HostPort) : chipId (s.onHp u) = chipId s := rfl
@[simp] theorem chipId_onHe (u : HiveEngine → HiveEngine) : chipId (s.onHe u) = chipId s := rfl
@[simp] theorem chipId_onQm (u : QueueMgr → QueueMgr) : chipId (s.onQm u) = chipId s := rfl
@[simp] theorem chipId_onMv (u : Movers → Movers) : chipId (s.onMv u) = chipId s := rfl
@[simp] theorem chipId_onXl (u : Translation → Translation) : chipId (s.onXl u) = chipId s := rfl
@[simp] theorem chipId_onPr (u : Propolis → Propolis) : chipId (s.onPr u) = chipId s := rfl
@[simp] theorem chipId_onSw (u : Swarm → Swarm) : chipId (s.onSw u) = chipId s := rfl
@[simp] theorem chipId_onRg (u : Regulator → Regulator) : chipId (s.onRg u) = chipId s := rfl
@[simp] theorem chipId_onSq (u : Sequencer → Sequencer) : chipId (s.onSq u) = chipId s := rfl
@[simp] theorem chipId_onBr (u : Brood → Brood) : chipId (s.onBr u) = chipId s := rfl
@[simp] theorem chipId_emit (o : Output) : chipId (emit s o) = chipId s := rfl
@[simp] theorem chipId_drawNat : chipId (drawNat s).2 = chipId s := rfl
@[simp] theorem chipId_drawBytes (n : Nat) : chipId (drawBytes s n).2 = chipId s := rfl
@[simp] theorem linksConnected_onClk (u : Clocks → Clocks) : linksConnected (s.onClk u) = linksConnected s := rfl
@[simp] theorem linksConnected_onVault (u : Vault → Vault) : linksConnected (s.onVault u) = linksConnected s := rfl
@[simp] theorem linksConnected_onHp (u : HostPort → HostPort) : linksConnected (s.onHp u) = linksConnected s := rfl
@[simp] theorem linksConnected_onHe (u : HiveEngine → HiveEngine) : linksConnected (s.onHe u) = linksConnected s := rfl
@[simp] theorem linksConnected_onQm (u : QueueMgr → QueueMgr) : linksConnected (s.onQm u) = linksConnected s := rfl
@[simp] theorem linksConnected_onMv (u : Movers → Movers) : linksConnected (s.onMv u) = linksConnected s := rfl
@[simp] theorem linksConnected_onXl (u : Translation → Translation) : linksConnected (s.onXl u) = linksConnected s := rfl
@[simp] theorem linksConnected_onPr (u : Propolis → Propolis) : linksConnected (s.onPr u) = linksConnected s := rfl
@[simp] theorem linksConnected_onSw (u : Swarm → Swarm) : linksConnected (s.onSw u) = linksConnected s := rfl
@[simp] theorem linksConnected_onRg (u : Regulator → Regulator) : linksConnected (s.onRg u) = linksConnected s := rfl
@[simp] theorem linksConnected_onSq (u : Sequencer → Sequencer) : linksConnected (s.onSq u) = linksConnected s := rfl
@[simp] theorem linksConnected_onBr (u : Brood → Brood) : linksConnected (s.onBr u) = linksConnected s := rfl
@[simp] theorem linksConnected_emit (o : Output) : linksConnected (emit s o) = linksConnected s := rfl
@[simp] theorem linksConnected_drawNat : linksConnected (drawNat s).2 = linksConnected s := rfl
@[simp] theorem linksConnected_drawBytes (n : Nat) : linksConnected (drawBytes s n).2 = linksConnected s := rfl
@[simp] theorem clustersAttached_onClk (u : Clocks → Clocks) : clustersAttached (s.onClk u) = clustersAttached s := rfl
@[simp] theorem clustersAttached_onVault (u : Vault → Vault) : clustersAttached (s.onVault u) = clustersAttached s := rfl
@[simp] theorem clustersAttached_onHp (u : HostPort → HostPort) : clustersAttached (s.onHp u) = clustersAttached s := rfl
@[simp] theorem clustersAttached_onHe (u : HiveEngine → HiveEngine) : clustersAttached (s.onHe u) = clustersAttached s := rfl
@[simp] theorem clustersAttached_onQm (u : QueueMgr → QueueMgr) : clustersAttached (s.onQm u) = clustersAttached s := rfl
@[simp] theorem clustersAttached_onMv (u : Movers → Movers) : clustersAttached (s.onMv u) = clustersAttached s := rfl
@[simp] theorem clustersAttached_onXl (u : Translation → Translation) : clustersAttached (s.onXl u) = clustersAttached s := rfl
@[simp] theorem clustersAttached_onPr (u : Propolis → Propolis) : clustersAttached (s.onPr u) = clustersAttached s := rfl
@[simp] theorem clustersAttached_onSw (u : Swarm → Swarm) : clustersAttached (s.onSw u) = clustersAttached s := rfl
@[simp] theorem clustersAttached_onRg (u : Regulator → Regulator) : clustersAttached (s.onRg u) = clustersAttached s := rfl
@[simp] theorem clustersAttached_onSq (u : Sequencer → Sequencer) : clustersAttached (s.onSq u) = clustersAttached s := rfl
@[simp] theorem clustersAttached_onBr (u : Brood → Brood) : clustersAttached (s.onBr u) = clustersAttached s := rfl
@[simp] theorem clustersAttached_emit (o : Output) : clustersAttached (emit s o) = clustersAttached s := rfl
@[simp] theorem clustersAttached_drawNat : clustersAttached (drawNat s).2 = clustersAttached s := rfl
@[simp] theorem clustersAttached_drawBytes (n : Nat) : clustersAttached (drawBytes s n).2 = clustersAttached s := rfl
@[simp] theorem stackCount_onClk (u : Clocks → Clocks) : stackCount (s.onClk u) = stackCount s := rfl
@[simp] theorem stackCount_onVault (u : Vault → Vault) : stackCount (s.onVault u) = stackCount s := rfl
@[simp] theorem stackCount_onHp (u : HostPort → HostPort) : stackCount (s.onHp u) = stackCount s := rfl
@[simp] theorem stackCount_onHe (u : HiveEngine → HiveEngine) : stackCount (s.onHe u) = stackCount s := rfl
@[simp] theorem stackCount_onQm (u : QueueMgr → QueueMgr) : stackCount (s.onQm u) = stackCount s := rfl
@[simp] theorem stackCount_onMv (u : Movers → Movers) : stackCount (s.onMv u) = stackCount s := rfl
@[simp] theorem stackCount_onXl (u : Translation → Translation) : stackCount (s.onXl u) = stackCount s := rfl
@[simp] theorem stackCount_onPr (u : Propolis → Propolis) : stackCount (s.onPr u) = stackCount s := rfl
@[simp] theorem stackCount_onSw (u : Swarm → Swarm) : stackCount (s.onSw u) = stackCount s := rfl
@[simp] theorem stackCount_onRg (u : Regulator → Regulator) : stackCount (s.onRg u) = stackCount s := rfl
@[simp] theorem stackCount_onSq (u : Sequencer → Sequencer) : stackCount (s.onSq u) = stackCount s := rfl
@[simp] theorem stackCount_onBr (u : Brood → Brood) : stackCount (s.onBr u) = stackCount s := rfl
@[simp] theorem stackCount_emit (o : Output) : stackCount (emit s o) = stackCount s := rfl
@[simp] theorem stackCount_drawNat : stackCount (drawNat s).2 = stackCount s := rfl
@[simp] theorem stackCount_drawBytes (n : Nat) : stackCount (drawBytes s n).2 = stackCount s := rfl
@[simp] theorem memBytes_onClk (u : Clocks → Clocks) : memBytes (s.onClk u) = memBytes s := rfl
@[simp] theorem memBytes_onVault (u : Vault → Vault) : memBytes (s.onVault u) = memBytes s := rfl
@[simp] theorem memBytes_onHp (u : HostPort → HostPort) : memBytes (s.onHp u) = memBytes s := rfl
@[simp] theorem memBytes_onHe (u : HiveEngine → HiveEngine) : memBytes (s.onHe u) = memBytes s := rfl
@[simp] theorem memBytes_onQm (u : QueueMgr → QueueMgr) : memBytes (s.onQm u) = memBytes s := rfl
@[simp] theorem memBytes_onMv (u : Movers → Movers) : memBytes (s.onMv u) = memBytes s := rfl
@[simp] theorem memBytes_onXl (u : Translation → Translation) : memBytes (s.onXl u) = memBytes s := rfl
@[simp] theorem memBytes_onPr (u : Propolis → Propolis) : memBytes (s.onPr u) = memBytes s := rfl
@[simp] theorem memBytes_onSw (u : Swarm → Swarm) : memBytes (s.onSw u) = memBytes s := rfl
@[simp] theorem memBytes_onRg (u : Regulator → Regulator) : memBytes (s.onRg u) = memBytes s := rfl
@[simp] theorem memBytes_onSq (u : Sequencer → Sequencer) : memBytes (s.onSq u) = memBytes s := rfl
@[simp] theorem memBytes_onBr (u : Brood → Brood) : memBytes (s.onBr u) = memBytes s := rfl
@[simp] theorem memBytes_emit (o : Output) : memBytes (emit s o) = memBytes s := rfl
@[simp] theorem memBytes_drawNat : memBytes (drawNat s).2 = memBytes s := rfl
@[simp] theorem memBytes_drawBytes (n : Nat) : memBytes (drawBytes s n).2 = memBytes s := rfl
@[simp] theorem chipId_setHive (k : Nat) (u : Hive → Hive) : chipId (setHive s k u) = chipId s := rfl
@[simp] theorem linksConnected_setHive (k : Nat) (u : Hive → Hive) : linksConnected (setHive s k u) = linksConnected s := rfl
@[simp] theorem memBytes_setHive (k : Nat) (u : Hive → Hive) : memBytes (setHive s k u) = memBytes s := rfl
@[simp] theorem chipId_setCluster (k : Nat) (u : Cluster → Cluster) : chipId (setCluster s k u) = chipId s := rfl
@[simp] theorem linksConnected_setCluster (k : Nat) (u : Cluster → Cluster) : linksConnected (setCluster s k u) = linksConnected s := rfl
@[simp] theorem memBytes_setCluster (k : Nat) (u : Cluster → Cluster) : memBytes (setCluster s k u) = memBytes s := rfl
@[simp] theorem chipId_setCtx (k : Nat) (u : Ctx → Ctx) : chipId (setCtx s k u) = chipId s := rfl
@[simp] theorem linksConnected_setCtx (k : Nat) (u : Ctx → Ctx) : linksConnected (setCtx s k u) = linksConnected s := rfl
@[simp] theorem memBytes_setCtx (k : Nat) (u : Ctx → Ctx) : memBytes (setCtx s k u) = memBytes s := rfl
@[simp] theorem chipId_setQueue (k : Nat) (u : Queue → Queue) : chipId (setQueue s k u) = chipId s := rfl
@[simp] theorem linksConnected_setQueue (k : Nat) (u : Queue → Queue) : linksConnected (setQueue s k u) = linksConnected s := rfl
@[simp] theorem memBytes_setQueue (k : Nat) (u : Queue → Queue) : memBytes (setQueue s k u) = memBytes s := rfl
@[simp] theorem chipId_setLabel (k : Nat) (u : Label → Label) : chipId (setLabel s k u) = chipId s := rfl
@[simp] theorem linksConnected_setLabel (k : Nat) (u : Label → Label) : linksConnected (setLabel s k u) = linksConnected s := rfl
@[simp] theorem memBytes_setLabel (k : Nat) (u : Label → Label) : memBytes (setLabel s k u) = memBytes s := rfl
@[simp] theorem chipId_setChan (k : Nat) (u : Channel → Channel) : chipId (setChan s k u) = chipId s := rfl
@[simp] theorem linksConnected_setChan (k : Nat) (u : Channel → Channel) : linksConnected (setChan s k u) = linksConnected s := rfl
@[simp] theorem memBytes_setChan (k : Nat) (u : Channel → Channel) : memBytes (setChan s k u) = memBytes s := rfl
@[simp] theorem chipId_setMover (k : Nat) (u : Mover → Mover) : chipId (setMover s k u) = chipId s := rfl
@[simp] theorem linksConnected_setMover (k : Nat) (u : Mover → Mover) : linksConnected (setMover s k u) = linksConnected s := rfl
@[simp] theorem memBytes_setMover (k : Nat) (u : Mover → Mover) : memBytes (setMover s k u) = memBytes s := rfl
@[simp] theorem chipId_setSlot (k : Nat) (u : KeySlot → KeySlot) : chipId (setSlot s k u) = chipId s := rfl
@[simp] theorem linksConnected_setSlot (k : Nat) (u : KeySlot → KeySlot) : linksConnected (setSlot s k u) = linksConnected s := rfl
@[simp] theorem memBytes_setSlot (k : Nat) (u : KeySlot → KeySlot) : memBytes (setSlot s k u) = memBytes s := rfl
@[simp] theorem chipId_setLink (k : Nat) (u : Link → Link) : chipId (setLink s k u) = chipId s := rfl
@[simp] theorem linksConnected_setLink (k : Nat) (u : Link → Link) : linksConnected (setLink s k u) = linksConnected s := rfl
@[simp] theorem memBytes_setLink (k : Nat) (u : Link → Link) : memBytes (setLink s k u) = memBytes s := rfl
@[simp] theorem chipId_setPort (k : Nat) (u : Port → Port) : chipId (setPort s k u) = chipId s := rfl
@[simp] theorem linksConnected_setPort (k : Nat) (u : Port → Port) : linksConnected (setPort s k u) = linksConnected s := rfl
@[simp] theorem memBytes_setPort (k : Nat) (u : Port → Port) : memBytes (setPort s k u) = memBytes s := rfl

/-! ## Flows -/

theorem setFlow_eq (p : Nat) (u : Flow → Flow) : setFlow s p u = s.onSw (fun w => { w with flows := Tab.mod w.flows p u }) := rfl

@[simp] theorem flowAt_setFlow (p : Nat) (u : Flow → Flow) : flowAt (setFlow s p u) p = (flowAt s p).map u := by
  simp [flowAt, setFlow, Tab.look_mod]

@[simp] theorem setFlow_pending (p : Nat) (u : Flow → Flow) : (setFlow s p u).pending = s.pending := rfl
@[simp] theorem setFlow_free (p : Nat) (u : Flow → Flow) : (setFlow s p u).free = s.free := rfl
@[simp] theorem setFlow_sent (p : Nat) (u : Flow → Flow) : (setFlow s p u).sent = s.sent := rfl
@[simp] theorem setFlow_clk (p : Nat) (u : Flow → Flow) : (setFlow s p u).clk = s.clk := rfl
@[simp] theorem setFlow_kp (p : Nat) (u : Flow → Flow) : (setFlow s p u).kp = s.kp := rfl
@[simp] theorem setFlow_vault (p : Nat) (u : Flow → Flow) : (setFlow s p u).vault = s.vault := rfl
@[simp] theorem setFlow_hp (p : Nat) (u : Flow → Flow) : (setFlow s p u).hp = s.hp := rfl
@[simp] theorem setFlow_he (p : Nat) (u : Flow → Flow) : (setFlow s p u).he = s.he := rfl
@[simp] theorem setFlow_qm (p : Nat) (u : Flow → Flow) : (setFlow s p u).qm = s.qm := rfl
@[simp] theorem setFlow_mv (p : Nat) (u : Flow → Flow) : (setFlow s p u).mv = s.mv := rfl
@[simp] theorem setFlow_xl (p : Nat) (u : Flow → Flow) : (setFlow s p u).xl = s.xl := rfl
@[simp] theorem setFlow_pr (p : Nat) (u : Flow → Flow) : (setFlow s p u).pr = s.pr := rfl
@[simp] theorem setFlow_ports (p : Nat) (u : Flow → Flow) : (setFlow s p u).ports = s.ports := rfl
@[simp] theorem setFlow_rg (p : Nat) (u : Flow → Flow) : (setFlow s p u).rg = s.rg := rfl
@[simp] theorem setFlow_sq (p : Nat) (u : Flow → Flow) : (setFlow s p u).sq = s.sq := rfl
@[simp] theorem setFlow_br (p : Nat) (u : Flow → Flow) : (setFlow s p u).br = s.br := rfl
@[simp] theorem hiveAt_setFlow (p h : Nat) (u : Flow → Flow) : hiveAt (setFlow s p u) h = hiveAt s h := rfl
@[simp] theorem clusterAt_setFlow (p n : Nat) (u : Flow → Flow) : clusterAt (setFlow s p u) n = clusterAt s n := rfl
@[simp] theorem ctxAt_setFlow (p c : Nat) (u : Flow → Flow) : ctxAt (setFlow s p u) c = ctxAt s c := rfl
@[simp] theorem queueAt_setFlow (p q : Nat) (u : Flow → Flow) : queueAt (setFlow s p u) q = queueAt s q := rfl
@[simp] theorem fenceAt_setFlow (p f : Nat) (u : Flow → Flow) : fenceAt (setFlow s p u) f = fenceAt s f := rfl
@[simp] theorem labelAt_setFlow (p l : Nat) (u : Flow → Flow) : labelAt (setFlow s p u) l = labelAt s l := rfl
@[simp] theorem chanAt_setFlow (p c : Nat) (u : Flow → Flow) : chanAt (setFlow s p u) c = chanAt s c := rfl
@[simp] theorem moverAt_setFlow (p m : Nat) (u : Flow → Flow) : moverAt (setFlow s p u) m = moverAt s m := rfl
@[simp] theorem slotAt_setFlow (p k : Nat) (u : Flow → Flow) : slotAt (setFlow s p u) k = slotAt s k := rfl
@[simp] theorem linkAt_setFlow (p l : Nat) (u : Flow → Flow) : linkAt (setFlow s p u) l = linkAt s l := rfl
@[simp] theorem routeAt_setFlow (p c : Nat) (u : Flow → Flow) : routeAt (setFlow s p u) c = routeAt s c := rfl
@[simp] theorem portAt_setFlow (p j : Nat) (u : Flow → Flow) : portAt (setFlow s p u) j = portAt s j := rfl

/-! ## An update that leaves a table alone -/

@[simp] theorem hiveAt_onHe (k : Nat) (u : HiveEngine → HiveEngine) (h : (u s.he).hives = s.he.hives) : hiveAt (s.onHe u) k = hiveAt s k := by
  simp [hiveAt, h]
@[simp] theorem clusterAt_onHe (k : Nat) (u : HiveEngine → HiveEngine) (h : (u s.he).clusters = s.he.clusters) : clusterAt (s.onHe u) k = clusterAt s k := by
  simp [clusterAt, h]
@[simp] theorem ctxAt_onQm (k : Nat) (u : QueueMgr → QueueMgr) (h : (u s.qm).ctxs = s.qm.ctxs) : ctxAt (s.onQm u) k = ctxAt s k := by
  simp [ctxAt, h]
@[simp] theorem queueAt_onQm (k : Nat) (u : QueueMgr → QueueMgr) (h : (u s.qm).queues = s.qm.queues) : queueAt (s.onQm u) k = queueAt s k := by
  simp [queueAt, h]
@[simp] theorem fenceAt_onQm (k : Nat) (u : QueueMgr → QueueMgr) (h : (u s.qm).fences = s.qm.fences) : fenceAt (s.onQm u) k = fenceAt s k := by
  simp [fenceAt, h]
@[simp] theorem labelAt_onRg (k : Nat) (u : Regulator → Regulator) (h : (u s.rg).labels = s.rg.labels) : labelAt (s.onRg u) k = labelAt s k := by
  simp [labelAt, h]
@[simp] theorem chanAt_onMv (k : Nat) (u : Movers → Movers) (h : (u s.mv).chans = s.mv.chans) : chanAt (s.onMv u) k = chanAt s k := by
  simp [chanAt, h]
@[simp] theorem moverAt_onMv (k : Nat) (u : Movers → Movers) (h : (u s.mv).movers = s.mv.movers) : moverAt (s.onMv u) k = moverAt s k := by
  simp [moverAt, h]
@[simp] theorem slotAt_onPr (k : Nat) (u : Propolis → Propolis) (h : (u s.pr).slots = s.pr.slots) : slotAt (s.onPr u) k = slotAt s k := by
  simp [slotAt, h]
@[simp] theorem linkAt_onSw (k : Nat) (u : Swarm → Swarm) (h : (u s.sw).links = s.sw.links) : linkAt (s.onSw u) k = linkAt s k := by
  simp [linkAt, h]
@[simp] theorem flowAt_onSw (k : Nat) (u : Swarm → Swarm) (h : (u s.sw).flows = s.sw.flows) : flowAt (s.onSw u) k = flowAt s k := by
  simp [flowAt, h]
@[simp] theorem routeAt_onSw (k : Nat) (u : Swarm → Swarm) (h : (u s.sw).routes = s.sw.routes) : routeAt (s.onSw u) k = routeAt s k := by
  simp [routeAt, h]

/-! ## The other fields of a part -/

@[simp] theorem setHive_he_clusters (k : Nat) (u : Hive → Hive) : (setHive s k u).he.clusters = s.he.clusters := rfl
@[simp] theorem setHive_he_resets (k : Nat) (u : Hive → Hive) : (setHive s k u).he.resets = s.he.resets := rfl
@[simp] theorem setHive_he_creates (k : Nat) (u : Hive → Hive) : (setHive s k u).he.creates = s.he.creates := rfl
@[simp] theorem setHive_he_resizes (k : Nat) (u : Hive → Hive) : (setHive s k u).he.resizes = s.he.resizes := rfl
@[simp] theorem setHive_he_migrations (k : Nat) (u : Hive → Hive) : (setHive s k u).he.migrations = s.he.migrations := rfl
@[simp] theorem setCluster_he_hives (k : Nat) (u : Cluster → Cluster) : (setCluster s k u).he.hives = s.he.hives := rfl
@[simp] theorem setCluster_he_resets (k : Nat) (u : Cluster → Cluster) : (setCluster s k u).he.resets = s.he.resets := rfl
@[simp] theorem setCluster_he_creates (k : Nat) (u : Cluster → Cluster) : (setCluster s k u).he.creates = s.he.creates := rfl
@[simp] theorem setCluster_he_resizes (k : Nat) (u : Cluster → Cluster) : (setCluster s k u).he.resizes = s.he.resizes := rfl
@[simp] theorem setCluster_he_migrations (k : Nat) (u : Cluster → Cluster) : (setCluster s k u).he.migrations = s.he.migrations := rfl
@[simp] theorem setCtx_qm_queues (k : Nat) (u : Ctx → Ctx) : (setCtx s k u).qm.queues = s.qm.queues := rfl
@[simp] theorem setCtx_qm_cmds (k : Nat) (u : Ctx → Ctx) : (setCtx s k u).qm.cmds = s.qm.cmds := rfl
@[simp] theorem setCtx_qm_pins (k : Nat) (u : Ctx → Ctx) : (setCtx s k u).qm.pins = s.qm.pins := rfl
@[simp] theorem setCtx_qm_fences (k : Nat) (u : Ctx → Ctx) : (setCtx s k u).qm.fences = s.qm.fences := rfl
@[simp] theorem setCtx_qm_fills (k : Nat) (u : Ctx → Ctx) : (setCtx s k u).qm.fills = s.qm.fills := rfl
@[simp] theorem setCtx_qm_kills (k : Nat) (u : Ctx → Ctx) : (setCtx s k u).qm.kills = s.qm.kills := rfl
@[simp] theorem setCtx_qm_jobs (k : Nat) (u : Ctx → Ctx) : (setCtx s k u).qm.jobs = s.qm.jobs := rfl
@[simp] theorem setCtx_qm_sweeping (k : Nat) (u : Ctx → Ctx) : (setCtx s k u).qm.sweeping = s.qm.sweeping := rfl
@[simp] theorem setCtx_qm_lastHive (k : Nat) (u : Ctx → Ctx) : (setCtx s k u).qm.lastHive = s.qm.lastHive := rfl
@[simp] theorem setCtx_qm_resets (k : Nat) (u : Ctx → Ctx) : (setCtx s k u).qm.resets = s.qm.resets := rfl
@[simp] theorem setQueue_qm_ctxs (k : Nat) (u : Queue → Queue) : (setQueue s k u).qm.ctxs = s.qm.ctxs := rfl
@[simp] theorem setQueue_qm_cmds (k : Nat) (u : Queue → Queue) : (setQueue s k u).qm.cmds = s.qm.cmds := rfl
@[simp] theorem setQueue_qm_pins (k : Nat) (u : Queue → Queue) : (setQueue s k u).qm.pins = s.qm.pins := rfl
@[simp] theorem setQueue_qm_fences (k : Nat) (u : Queue → Queue) : (setQueue s k u).qm.fences = s.qm.fences := rfl
@[simp] theorem setQueue_qm_fills (k : Nat) (u : Queue → Queue) : (setQueue s k u).qm.fills = s.qm.fills := rfl
@[simp] theorem setQueue_qm_kills (k : Nat) (u : Queue → Queue) : (setQueue s k u).qm.kills = s.qm.kills := rfl
@[simp] theorem setQueue_qm_jobs (k : Nat) (u : Queue → Queue) : (setQueue s k u).qm.jobs = s.qm.jobs := rfl
@[simp] theorem setQueue_qm_sweeping (k : Nat) (u : Queue → Queue) : (setQueue s k u).qm.sweeping = s.qm.sweeping := rfl
@[simp] theorem setQueue_qm_lastHive (k : Nat) (u : Queue → Queue) : (setQueue s k u).qm.lastHive = s.qm.lastHive := rfl
@[simp] theorem setQueue_qm_resets (k : Nat) (u : Queue → Queue) : (setQueue s k u).qm.resets = s.qm.resets := rfl
@[simp] theorem setLabel_rg_copies (k : Nat) (u : Label → Label) : (setLabel s k u).rg.copies = s.rg.copies := rfl
@[simp] theorem setChan_mv_movers (k : Nat) (u : Channel → Channel) : (setChan s k u).mv.movers = s.mv.movers := rfl
@[simp] theorem setChan_mv_spads (k : Nat) (u : Channel → Channel) : (setChan s k u).mv.spads = s.mv.spads := rfl
@[simp] theorem setChan_mv_spadUndef (k : Nat) (u : Channel → Channel) : (setChan s k u).mv.spadUndef = s.mv.spadUndef := rfl
@[simp] theorem setMover_mv_chans (k : Nat) (u : Mover → Mover) : (setMover s k u).mv.chans = s.mv.chans := rfl
@[simp] theorem setMover_mv_spads (k : Nat) (u : Mover → Mover) : (setMover s k u).mv.spads = s.mv.spads := rfl
@[simp] theorem setMover_mv_spadUndef (k : Nat) (u : Mover → Mover) : (setMover s k u).mv.spadUndef = s.mv.spadUndef := rfl
@[simp] theorem setSlot_pr_mem (k : Nat) (u : KeySlot → KeySlot) : (setSlot s k u).pr.mem = s.pr.mem := rfl
@[simp] theorem setSlot_pr_conds (k : Nat) (u : KeySlot → KeySlot) : (setSlot s k u).pr.conds = s.pr.conds := rfl
@[simp] theorem setSlot_pr_slices (k : Nat) (u : KeySlot → KeySlot) : (setSlot s k u).pr.slices = s.pr.slices := rfl
@[simp] theorem setSlot_pr_waiting (k : Nat) (u : KeySlot → KeySlot) : (setSlot s k u).pr.waiting = s.pr.waiting := rfl
@[simp] theorem setSlot_pr_locks (k : Nat) (u : KeySlot → KeySlot) : (setSlot s k u).pr.locks = s.pr.locks := rfl
@[simp] theorem setSlot_pr_tweaks (k : Nat) (u : KeySlot → KeySlot) : (setSlot s k u).pr.tweaks = s.pr.tweaks := rfl
@[simp] theorem setSlot_pr_gated (k : Nat) (u : KeySlot → KeySlot) : (setSlot s k u).pr.gated = s.pr.gated := rfl
@[simp] theorem setLink_sw_routes (k : Nat) (u : Link → Link) : (setLink s k u).sw.routes = s.sw.routes := rfl
@[simp] theorem setLink_sw_flows (k : Nat) (u : Link → Link) : (setLink s k u).sw.flows = s.sw.flows := rfl
@[simp] theorem setLink_sw_txns (k : Nat) (u : Link → Link) : (setLink s k u).sw.txns = s.sw.txns := rfl
@[simp] theorem setLink_sw_nextTxn (k : Nat) (u : Link → Link) : (setLink s k u).sw.nextTxn = s.sw.nextTxn := rfl
@[simp] theorem setLink_sw_epoch (k : Nat) (u : Link → Link) : (setLink s k u).sw.epoch = s.sw.epoch := rfl
@[simp] theorem setLink_sw_rx (k : Nat) (u : Link → Link) : (setLink s k u).sw.rx = s.sw.rx := rfl
@[simp] theorem setLink_sw_fwd (k : Nat) (u : Link → Link) : (setLink s k u).sw.fwd = s.sw.fwd := rfl
@[simp] theorem setLink_sw_discarded (k : Nat) (u : Link → Link) : (setLink s k u).sw.discarded = s.sw.discarded := rfl
@[simp] theorem setLink_sw_responsesLost (k : Nat) (u : Link → Link) : (setLink s k u).sw.responsesLost = s.sw.responsesLost := rfl
@[simp] theorem setFlow_sw_routes (k : Nat) (u : Flow → Flow) : (setFlow s k u).sw.routes = s.sw.routes := rfl
@[simp] theorem setFlow_sw_links (k : Nat) (u : Flow → Flow) : (setFlow s k u).sw.links = s.sw.links := rfl
@[simp] theorem setFlow_sw_txns (k : Nat) (u : Flow → Flow) : (setFlow s k u).sw.txns = s.sw.txns := rfl
@[simp] theorem setFlow_sw_nextTxn (k : Nat) (u : Flow → Flow) : (setFlow s k u).sw.nextTxn = s.sw.nextTxn := rfl
@[simp] theorem setFlow_sw_epoch (k : Nat) (u : Flow → Flow) : (setFlow s k u).sw.epoch = s.sw.epoch := rfl
@[simp] theorem setFlow_sw_rx (k : Nat) (u : Flow → Flow) : (setFlow s k u).sw.rx = s.sw.rx := rfl
@[simp] theorem setFlow_sw_fwd (k : Nat) (u : Flow → Flow) : (setFlow s k u).sw.fwd = s.sw.fwd := rfl
@[simp] theorem setFlow_sw_discarded (k : Nat) (u : Flow → Flow) : (setFlow s k u).sw.discarded = s.sw.discarded := rfl
@[simp] theorem setFlow_sw_responsesLost (k : Nat) (u : Flow → Flow) : (setFlow s k u).sw.responsesLost = s.sw.responsesLost := rfl
@[simp] theorem flowAt_setHive (k j : Nat) (u : Hive → Hive) : flowAt (setHive s k u) j = flowAt s j := rfl
@[simp] theorem flowAt_setCluster (k j : Nat) (u : Cluster → Cluster) : flowAt (setCluster s k u) j = flowAt s j := rfl
@[simp] theorem flowAt_setCtx (k j : Nat) (u : Ctx → Ctx) : flowAt (setCtx s k u) j = flowAt s j := rfl
@[simp] theorem flowAt_setQueue (k j : Nat) (u : Queue → Queue) : flowAt (setQueue s k u) j = flowAt s j := rfl
@[simp] theorem flowAt_setLabel (k j : Nat) (u : Label → Label) : flowAt (setLabel s k u) j = flowAt s j := rfl
@[simp] theorem flowAt_setChan (k j : Nat) (u : Channel → Channel) : flowAt (setChan s k u) j = flowAt s j := rfl
@[simp] theorem flowAt_setMover (k j : Nat) (u : Mover → Mover) : flowAt (setMover s k u) j = flowAt s j := rfl
@[simp] theorem flowAt_setSlot (k j : Nat) (u : KeySlot → KeySlot) : flowAt (setSlot s k u) j = flowAt s j := rfl
@[simp] theorem flowAt_setLink (k j : Nat) (u : Link → Link) : flowAt (setLink s k u) j = flowAt s j := rfl
@[simp] theorem flowAt_setPort (k j : Nat) (u : Port → Port) : flowAt (setPort s k u) j = flowAt s j := rfl
@[simp] theorem routeAt_setHive (k j : Nat) (u : Hive → Hive) : routeAt (setHive s k u) j = routeAt s j := rfl
@[simp] theorem routeAt_setCluster (k j : Nat) (u : Cluster → Cluster) : routeAt (setCluster s k u) j = routeAt s j := rfl
@[simp] theorem routeAt_setCtx (k j : Nat) (u : Ctx → Ctx) : routeAt (setCtx s k u) j = routeAt s j := rfl
@[simp] theorem routeAt_setQueue (k j : Nat) (u : Queue → Queue) : routeAt (setQueue s k u) j = routeAt s j := rfl
@[simp] theorem routeAt_setLabel (k j : Nat) (u : Label → Label) : routeAt (setLabel s k u) j = routeAt s j := rfl
@[simp] theorem routeAt_setChan (k j : Nat) (u : Channel → Channel) : routeAt (setChan s k u) j = routeAt s j := rfl
@[simp] theorem routeAt_setMover (k j : Nat) (u : Mover → Mover) : routeAt (setMover s k u) j = routeAt s j := rfl
@[simp] theorem routeAt_setSlot (k j : Nat) (u : KeySlot → KeySlot) : routeAt (setSlot s k u) j = routeAt s j := rfl
@[simp] theorem routeAt_setLink (k j : Nat) (u : Link → Link) : routeAt (setLink s k u) j = routeAt s j := rfl
@[simp] theorem routeAt_setPort (k j : Nat) (u : Port → Port) : routeAt (setPort s k u) j = routeAt s j := rfl
@[simp] theorem fenceAt_setHive (k j : Nat) (u : Hive → Hive) : fenceAt (setHive s k u) j = fenceAt s j := rfl
@[simp] theorem fenceAt_setCluster (k j : Nat) (u : Cluster → Cluster) : fenceAt (setCluster s k u) j = fenceAt s j := rfl
@[simp] theorem fenceAt_setCtx (k j : Nat) (u : Ctx → Ctx) : fenceAt (setCtx s k u) j = fenceAt s j := rfl
@[simp] theorem fenceAt_setQueue (k j : Nat) (u : Queue → Queue) : fenceAt (setQueue s k u) j = fenceAt s j := rfl
@[simp] theorem fenceAt_setLabel (k j : Nat) (u : Label → Label) : fenceAt (setLabel s k u) j = fenceAt s j := rfl
@[simp] theorem fenceAt_setChan (k j : Nat) (u : Channel → Channel) : fenceAt (setChan s k u) j = fenceAt s j := rfl
@[simp] theorem fenceAt_setMover (k j : Nat) (u : Mover → Mover) : fenceAt (setMover s k u) j = fenceAt s j := rfl
@[simp] theorem fenceAt_setSlot (k j : Nat) (u : KeySlot → KeySlot) : fenceAt (setSlot s k u) j = fenceAt s j := rfl
@[simp] theorem fenceAt_setLink (k j : Nat) (u : Link → Link) : fenceAt (setLink s k u) j = fenceAt s j := rfl
@[simp] theorem fenceAt_setPort (k j : Nat) (u : Port → Port) : fenceAt (setPort s k u) j = fenceAt s j := rfl

end Sys2Proof.Machine
end

