-- ==== Sys2Proof/Laws/Channel.lean ====
section
/-! SUPPORT. What the shared operations of the instructions, of the mailbox and of the ports answer, each said once, so
that a claim about one command cites a lemma here and unfolds that command alone. -/

namespace Sys2Proof.Laws

open Sys2Proof Sys2Proof.Machine Sys2Proof.Safety

/-! ## Outcomes -/

theorem taken_true (s t : State) : taken true s t = .next t := rfl
theorem answers_next {t : State} {P : State → Prop} (h : P t) : Answers (.next t) P := ⟨t, rfl, h⟩
theorem answers_of_eq {o : Host.Outcome State Fault Refusal} {P : State → Prop} (t : State) (h : o = .next t) (p : P t) :
    Answers o P := ⟨t, h, p⟩

/-! ## Instructions -/

theorem running_of_runsOp {s : State} {c : Nat} {o : Zop} (h : RunsOp s c o) (p : Zop → Bool) (hp : p o = true) :
    running s c p = true := by
  obtain ⟨h1, h2, h3⟩ := h
  simp [running] at h1 ⊢
  simp [h1, h3, hp]

/-- A channel that runs an instruction of a row gets that row's effect. -/
theorem runInstr_of_runsOp {s : State} {c : Nat} {o : Zop} (h : RunsOp s c o) (p : Zop → Bool) (hp : p o = true)
    (eff : Zop → State) : runInstr s c p eff = .next (eff o) := by
  have r := running_of_runsOp h p hp
  obtain ⟨_, h2, h3⟩ := h
  simp [runInstr, taken, r, h2, h3]

theorem state_of_runsOp {s : State} {c : Nat} {o : Zop} (h : RunsOp s c o) : (chanAt s c).state = .running := by
  obtain ⟨h1, _, _⟩ := h
  simp [running] at h1
  exact h1.1.1

/-- R121: an instruction that ends OK goes on at the next word. -/
theorem retire_ok {s : State} {c : Nat} (h : (chanAt s c).state = .running) :
    retire s c .ok = setChan s c (fun x => { x.fresh with pc := x.nextPc, state := .running, st := tried x .ok }) := by
  simp only [retire, h]
  simp [Channel.goto, tried]
  simp [setChan, Channel.nextPc]

/-- An instruction whose effect is on its channel's own registers alone ends OK with `ended`. -/
theorem retire_setChan_ok {s : State} {c : Nat} {f : Channel → Channel} (hr : (chanAt s c).state = .running)
    (hf : ∀ x : Channel, (f x).state = x.state ∧ (f x).word = x.word ∧ (f x).nextPc = x.nextPc ∧ (f x).st = x.st) :
    retire (setChan s c f) c .ok = ended s c f := by
  rw [retire_ok (by simp [hf, hr])]
  simp [ended, Channel.goto, tried, hf]

theorem retire_ok_ended {s : State} {c : Nat} (hr : (chanAt s c).state = .running) : retire s c .ok = ended s c id := by
  rw [retire_ok hr]
  simp [ended, Channel.goto, tried]

/-- An instruction with nothing outstanding and no failed line ends with its own status, and its forager stops. -/
theorem finish_retires {t : State} {c : Nat} (b : remoteBusy t c = false) (l : (chanAt t c).lineStatus = none) (st : Status) :
    finish t c st = retire (dropForager t c) c st := by
  simp [finish, b, l]

theorem finish_settled {u : State} {c : Nat} {t : State} (h : Settled u c t) (st : Status) :
    finish (flushPack u c) c st = retire t c st := by
  obtain ⟨rfl, b, l⟩ := h
  exact finish_retires b l st

theorem runPlan_of_performed {s : State} {c : Nat} {ps : List Piece} {t : State} (h : Performed s c ps t) :
    runPlan s c ps = retire t c .ok := by
  obtain ⟨a, u, r, e⟩ := h
  simp only [runPlan, a, r]
  exact finish_settled e .ok

theorem rowInstr_of_runRows {s : State} {c : Nat} {o : RowOp} {u t : State} (n : o.count ≤ 2 ^ 24) (a : o.list % o.width = 0)
    (l : (chanAt s c).lineStatus = none) (r : runRows s c o (o.count + 1) = (u, some .ok)) (e : Settled u c t) :
    rowInstr s c o = retire t c .ok := by
  unfold rowInstr
  rw [if_neg (by omega)]
  simp only [l, r]
  exact finish_settled e .ok

/-! ## Images (R187) -/

theorem withImage_of_imageOf {s : State} {c a al n : Nat} {t : State} {bs : List Byte} (k : State → List Byte → State)
    (h : imageOf s c a n = some (t, bs)) (ha : a % al = 0) : withImage s c a al n k = k t bs := by
  unfold imageOf at h
  unfold withImage
  rw [if_neg (by omega)]
  split at h
  · cases h
  rename_i ls
  simp only [Option.not_isSome_iff_eq_none] at ls
  rw [ls]
  split at h
  · rename_i e
    rw [e]
    simp only []
    split at h
    · rename_i e2
      rw [e2]
      simp only []
      cases h
      rfl
    · cases h
  · cases h

theorem withImage_misaligned {s : State} {c a al n : Nat} (k : State → List Byte → State) (ha : a % al ≠ 0) :
    withImage s c a al n k = retire s c .range := by
  unfold withImage
  rw [if_pos ha]

/-! ## The mailbox -/

theorem mailbox_of_mailboxRuns {s : State} {op : Nat} (inRecovery : Bool) (eff : State) (h : MailboxRuns s op) :
    mailbox s op inRecovery eff = .next eff := by
  obtain ⟨a, b, c, d, f⟩ := h
  simp [mailbox, a, b, c, d, taken, f]

/-! ## Ports -/

theorem onLine_idle {s : State} {a : Nat} (r : (portAt s (homePort s a)).reads = []) (w : (portAt s (homePort s a)).writes = [])
    (q : (portAt s (homePort s a)).arb = []) (g : s.pr.granted = []) : onLine s a = [] := by
  simp [onLine, r, w, q, g]

/-- A request answered at a port that holds no other releases nothing; the instructions that wait for a line are tried. -/
theorem settle_alone {s : State} {h : HomeReq} {st : Status} {d : List Byte}
    (r : (portAt s (homePort s h.req.addr)).reads = []) (w : (portAt s (homePort s h.req.addr)).writes = [])
    (q : (portAt s (homePort s h.req.addr)).arb = []) (g : (portAt s (homePort s h.req.addr)).aged = []) (l : s.pr.locks = [])
    (k : s.pr.lockWait = []) (gr : s.pr.granted = []) : settle s h st d = wakeLines (answerReq s h st d) := by
  have e (o : Output) (p : Nat) : portAt (emit s o) p = portAt s p := rfl
  have e' (o : Output) (a : Nat) : homePort (emit s o) a = homePort s a := rfl
  have i : (answerReq s h st d).onPr (fun p => { p with lockWait := [] }) = answerReq s h st d := by
    simp [answerReq, emit, State.onPr, ← k]
  have j : (answerReq s h st d).onPr (fun p => { p with locks := p.locks.filter (fun x => x.addr != h.req.addr) }) =
      answerReq s h st d := by
    simp [answerReq, emit, State.onPr, l]
    simp [← l]
  have this : releaseLine (answerReq s h st d) h.req.addr = wakeLines (answerReq s h st d) := by
    rw [releaseLine, if_neg (by simp [onLine, answerReq, e, e', r, w, q, gr]), j]
    simp [answerReq, l, k]
    have := i
    simp only [answerReq] at this
    rw [this]
  have p (a : Nat) : portAt (wakeLines (answerReq s h st d)) a = portAt s a := rfl
  have o : portOf (wakeLines (answerReq s h st d)) h = homePort s h.req.addr := rfl
  rw [settle, this]
  simp only [o]
  rw [show ((portAt (wakeLines (answerReq s h st d)) (homePort s h.req.addr)).arb.length + 1) = 1 by rw [p]; simp [q]]
  have z : nextReq (portAt s (homePort s h.req.addr)) = none := by
    simp [nextReq, q, g, nextTurn, List.findSome?_eq_none_iff]
  simp [drainPort, p, z]

/-! ## Requests of other chips (R49) -/

theorem admits_iff {s : State} {f : Frame} {need : Need} {a h : Nat} {k : Comb} : admits s f need a h = some k ↔
    combFor s h a = some k ∧
      (((hiveAt s h).state ∈ [HiveState.active, .resizing, .migrating] ∧ (hiveAt s h).colony ≠ 0 ∧
          (hiveAt s h).colony = f.colony ∧ (hiveAt s h).peerLo ≤ f.src ∧ f.src ≤ (hiveAt s h).peerHi ∧
          k.colonyPermits need = true) ∨
       (f.colony = Config.managerColony ∧ f.srcHive = 0 ∧ need = .wr ∧ (hiveAt s h).state = .frozen ∧
          (hiveAt s h).incoming = true)) := by
  have c : colonyTest s h f.src f.colony = true ↔
      (hiveAt s h).state ∈ [HiveState.active, .resizing, .migrating] ∧ (hiveAt s h).colony ≠ 0 ∧
        (hiveAt s h).colony = f.colony ∧ (hiveAt s h).peerLo ≤ f.src ∧ f.src ≤ (hiveAt s h).peerHi := by
    simp [colonyTest, and_assoc, or_assoc]
  unfold admits
  cases hc : combFor s h a with
  | none => simp
  | some x =>
    simp only [Bool.and_eq_true, c, beq_iff_eq, Option.some.injEq]
    constructor
    · intro e
      split at e
      · rename_i g
        cases e
        exact ⟨rfl, .inl ⟨g.1.1, g.1.2.1, g.1.2.2.1, g.1.2.2.2.1, g.1.2.2.2.2, g.2⟩⟩
      · split at e
        · rename_i g
          cases e
          exact ⟨rfl, .inr ⟨g.1.1.1.1, g.1.1.1.2, g.1.1.2, g.1.2, g.2⟩⟩
        · cases e
    · rintro ⟨rfl, r | r⟩
      · rw [if_pos ⟨⟨r.1, r.2.1, r.2.2.1, r.2.2.2.1, r.2.2.2.2.1⟩, r.2.2.2.2.2⟩]
      · split
        · rfl
        · rw [if_pos ⟨⟨⟨⟨r.1, r.2.1⟩, r.2.2.1⟩, r.2.2.2.1⟩, r.2.2.2.2⟩]

end Sys2Proof.Laws
end

