-- ==== Sys2Proof/Laws/Keys.lean ====
section
/-! SUPPORT. What a line that takes its place leaves alone, and what the end of an instruction and the fall of a link leave alone:
the spec lemma of each operation, for the statements whose next state rests on several of them. -/

namespace Sys2Proof.Laws

open Sys2Proof.Machine

/-! ## A line at its unit: the ports, the arbiters, the locks and the slices move, and nothing else -/

/-- Memory, keys and all but the units, the ports and what waits at them are in `t` as in `s`. -/
structure Aside (s t : State) : Prop where
  mem : t.pr.mem = s.pr.mem
  slots : t.pr.slots = s.pr.slots
  vault : t.vault = s.vault
  kp : t.kp = s.kp
  hp : t.hp = s.hp
  he : t.he = s.he
  qm : t.qm = s.qm
  xl : t.xl = s.xl
  sw : t.sw = s.sw

/-- The memory keys, the keeper, and the vault but for the secrets of links are in `t` as in `s`. -/
structure KeepsKeys (s t : State) : Prop where
  slots : t.pr.slots = s.pr.slots
  vault : t.vault = { s.vault with linkSecrets := t.vault.linkSecrets }
  kp : t.kp = s.kp

theorem Aside.keys {s t : State} (a : Aside s t) : KeepsKeys s t := by
  constructor <;> simp only [a.slots, a.vault, a.kp]

namespace Aside

theorem refl (s : State) : Aside s s := ⟨rfl, rfl, rfl, rfl, rfl, rfl, rfl, rfl, rfl⟩

theorem trans {s t u : State} (a : Aside s t) (b : Aside t u) : Aside s u :=
  ⟨b.mem.trans a.mem, b.slots.trans a.slots, b.vault.trans a.vault, b.kp.trans a.kp, b.hp.trans a.hp, b.he.trans a.he,
    b.qm.trans a.qm, b.xl.trans a.xl, b.sw.trans a.sw⟩

theorem fold {α : Type} {f : State → α → State} (hf : ∀ s a, Aside s (f s a)) (l : List α) (s : State) :
    Aside s (l.foldl f s) := by
  induction l generalizing s with
  | nil => exact refl s
  | cons a l ih => exact trans (hf s a) (ih _)

theorem ite {p : Prop} [Decidable p] {s a b : State} (ha : Aside s a) (hb : Aside s b) : Aside s (if p then a else b) := by
  split
  · exact ha
  · exact hb

theorem onBr (s f) : Aside s (State.onBr s f) := ⟨rfl, rfl, rfl, rfl, rfl, rfl, rfl, rfl, rfl⟩

theorem onMv (s f) : Aside s (State.onMv s f) := ⟨rfl, rfl, rfl, rfl, rfl, rfl, rfl, rfl, rfl⟩

theorem onSq (s f) : Aside s (State.onSq s f) := ⟨rfl, rfl, rfl, rfl, rfl, rfl, rfl, rfl, rfl⟩

theorem emit {s t} (h : Aside s t) (o) : Aside s (Machine.emit t o) := ⟨h.1, h.2, h.3, h.4, h.5, h.6, h.7, h.8, h.9⟩

theorem emit1 (s o) : Aside s (Machine.emit s o) := ⟨rfl, rfl, rfl, rfl, rfl, rfl, rfl, rfl, rfl⟩

theorem setPort {s t} (h : Aside s t) (p f) : Aside s (Machine.setPort t p f) := ⟨h.1, h.2, h.3, h.4, h.5, h.6, h.7, h.8, h.9⟩

theorem setSlice (s a f) : Aside s (Machine.setSlice s a f) := ⟨rfl, rfl, rfl, rfl, rfl, rfl, rfl, rfl, rfl⟩

theorem logErr (s r) : Aside s (Machine.logErr s r) := by
  unfold Machine.logErr; lift_lets; intro a b; split
  · exact onBr _ _
  · exact onBr _ _

theorem passOver (s o w) : Aside s (Machine.passOver s o w) := by
  unfold Machine.passOver
  refine fold ?_ _ _
  intro t a
  exact ⟨rfl, rfl, rfl, rfl, rfl, rfl, rfl, rfl, rfl⟩

theorem wakeLines (s) : Aside s (Machine.wakeLines s) := ⟨rfl, rfl, rfl, rfl, rfl, rfl, rfl, rfl, rfl⟩

theorem trySend (s h t) (e : Machine.trySend s h = some t) : Aside s t := by
  unfold Machine.trySend at e
  simp only at e
  split at e
  · split at e
    · cases e
    · cases e; exact ⟨rfl, rfl, rfl, rfl, rfl, rfl, rfl, rfl, rfl⟩
  · split at e
    · cases e
    · split at e
      · split at e
        · cases e
        · simp at e; obtain ⟨_, _, rfl⟩ := e; exact ⟨rfl, rfl, rfl, rfl, rfl, rfl, rfl, rfl, rfl⟩
      · simp at e; obtain ⟨_, _, rfl⟩ := e; exact ⟨rfl, rfl, rfl, rfl, rfl, rfl, rfl, rfl, rfl⟩

theorem drainPort (n) : ∀ (s p), Aside s (Machine.drainPort s p n) := by
  induction n with
  | zero => intros; exact refl _
  | succ n ih =>
    intro s p; rw [Machine.drainPort]
    split
    · exact refl _
    · split
      · rename_i t e
        exact trans (setPort (trySend _ _ _ e) _ _) (trans (passOver _ _ _) (ih _ _))
      · exact refl _

theorem useTweak (s k a) : Aside s (Machine.useTweak s k a) := by
  unfold Machine.useTweak; exact ⟨rfl, rfl, rfl, rfl, rfl, rfl, rfl, rfl, rfl⟩

theorem sendOut (s h) : Aside s (Machine.sendOut s h) := by
  unfold Machine.sendOut
  exact trans (setPort (useTweak _ _ _) _ _) (drainPort _ _ _)

theorem addLock (s a r w) : Aside s (Machine.addLock s a r w) := ⟨rfl, rfl, rfl, rfl, rfl, rfl, rfl, rfl, rfl⟩

theorem lineRequest (s h) : Aside s (Machine.lineRequest s h) := by
  unfold Machine.lineRequest
  dsimp only
  repeat' split
  all_goals first
    | exact ⟨rfl, rfl, rfl, rfl, rfl, rfl, rfl, rfl, rfl⟩
    | exact sendOut _ _
    | exact trans (addLock _ _ _ _) (sendOut _ _)

theorem beginFill (s k) : Aside s (Machine.beginFill s k) := by
  unfold Machine.beginFill
  dsimp only
  split
  · exact refl _
  · generalize hu : (putSlice s k _).onPr _ = u
    have e : Aside s u := by subst hu; exact ⟨rfl, rfl, rfl, rfl, rfl, rfl, rfl, rfl, rfl⟩
    exact trans e (emit (fold (fun _ _ => useTweak _ _ _) _ _) _)

theorem wakeUnit (s p) : Aside s (Machine.wakeUnit s p) := by
  unfold Machine.wakeUnit; split
  · exact ⟨rfl, rfl, rfl, rfl, rfl, rfl, rfl, rfl, rfl⟩
  · exact refl _

theorem wakeHome (s l k) : Aside s (Machine.wakeHome s l k) := by
  unfold Machine.wakeHome; dsimp only; split
  · exact ⟨rfl, rfl, rfl, rfl, rfl, rfl, rfl, rfl, rfl⟩
  · exact refl _

theorem awaitSlice (s h) : Aside s (Machine.awaitSlice s h) := ⟨rfl, rfl, rfl, rfl, rfl, rfl, rfl, rfl, rfl⟩

theorem emptySlot (s h l) : Aside s (Machine.emptySlot s h l) := logErr _ _

theorem openSlice (s h) : Aside s (Machine.openSlice s h) := by
  unfold Machine.openSlice; dsimp only
  refine trans ?_ (beginFill _ _)
  exact ⟨rfl, rfl, rfl, rfl, rfl, rfl, rfl, rfl, rfl⟩

theorem answerReq (s h st d) : Aside s (Machine.answerReq s h st d) := ⟨rfl, rfl, rfl, rfl, rfl, rfl, rfl, rfl, rfl⟩

theorem onPr (s f) (m : (f s.pr).mem = s.pr.mem) (h : (f s.pr).slots = s.pr.slots) : Aside s (State.onPr s f) :=
  ⟨m, h, rfl, rfl, rfl, rfl, rfl, rfl, rfl⟩

theorem arrive (s h) : Aside s (Machine.arrive s h) := by
  unfold Machine.arrive
  have e := trans (wakeUnit s (homePort s h.req.addr)) (wakeHome _ h.req.addr h.kind)
  dsimp only
  generalize Machine.wakeHome (Machine.wakeUnit s (homePort s h.req.addr)) h.req.addr h.kind = u at e
  refine trans e ?_
  split
  · exact trans (emptySlot _ _ _) (answerReq _ _ _ _)
  split
  · split
    · exact answerReq _ _ _ _
    split
    · exact answerReq _ _ _ _
    split
    · exact answerReq _ _ _ _
    · exact trans (awaitSlice _ _) (openSlice _ _)
  · exact awaitSlice _ _
  · split
    · exact answerReq _ _ _ _
    · exact lineRequest _ _

theorem releaseLine (s a) : Aside s (Machine.releaseLine s a) := by
  unfold Machine.releaseLine; dsimp only; split
  · exact refl _
  · refine trans ?_ (wakeLines _)
    exact trans (trans (onPr _ _ rfl rfl) (fold arrive _ _)) (trans (onPr _ _ rfl rfl) (fold arrive _ _))

theorem dropWhere (s p) : Aside s (Machine.dropWhere s p) := by
  unfold Machine.dropWhere; dsimp only; split
  · exact refl _
  · refine trans ?_ (fold releaseLine _ _)
    exact ⟨rfl, rfl, rfl, rfl, rfl, rfl, rfl, rfl, rfl⟩

theorem dropTickets (s o) : Aside s (Machine.dropTickets s o) := dropWhere _ _

theorem requestClock (s d) : Aside s (Machine.requestClock s d) := by
  unfold Machine.requestClock; split
  · exact refl _
  · cases d <;> exact ⟨rfl, rfl, rfl, rfl, rfl, rfl, rfl, rfl, rfl⟩

theorem demand (s d) : Aside s (Machine.demand s d) := by
  unfold Machine.demand; split
  · exact refl _
  · cases d
    · exact requestClock _ _
    · exact trans (requestClock _ _) (requestClock _ _)

theorem wakeStream (s) : Aside s (Machine.wakeStream s) := by
  unfold Machine.wakeStream; split
  · exact refl _
  · exact demand _ _

theorem takePlace (s h) : Aside s (Machine.takePlace s h) := by
  unfold Machine.takePlace; split
  · exact refl _
  · exact arrive _ _

theorem hostClaim (s o) : Aside s (Machine.hostClaim s o) := by
  unfold Machine.hostClaim; split
  · exact fold takePlace _ _
  · exact demand _ _

end Aside

/-! ## The end of an instruction and the fall of a link: the keys of memory and the vault stay -/

namespace KeepsKeys

theorem refl (s : State) : KeepsKeys s s := ⟨rfl, rfl, rfl⟩

theorem trans {s t u : State} (a : KeepsKeys s t) (b : KeepsKeys t u) : KeepsKeys s u :=
  ⟨b.slots.trans a.slots, by rw [b.vault, a.vault], b.kp.trans a.kp⟩

theorem fold {α : Type} {f : State → α → State} (hf : ∀ s a, KeepsKeys s (f s a)) (l : List α) (s : State) :
    KeepsKeys s (l.foldl f s) := by
  induction l generalizing s with
  | nil => exact refl s
  | cons a l ih => exact trans (hf s a) (ih _)

theorem ite {p : Prop} [Decidable p] {s a b : State} (ha : KeepsKeys s a) (hb : KeepsKeys s b) :
    KeepsKeys s (if p then a else b) := by
  split
  · exact ha
  · exact hb

theorem onQm (s f) : KeepsKeys s (State.onQm s f) := ⟨rfl, rfl, rfl⟩

theorem onXl (s f) : KeepsKeys s (State.onXl s f) := ⟨rfl, rfl, rfl⟩

theorem onSw (s f) : KeepsKeys s (State.onSw s f) := ⟨rfl, rfl, rfl⟩

theorem onHe (s f) : KeepsKeys s (State.onHe s f) := ⟨rfl, rfl, rfl⟩

theorem onSq (s f) : KeepsKeys s (State.onSq s f) := ⟨rfl, rfl, rfl⟩

theorem emit {s t} (h : KeepsKeys s t) (o) : KeepsKeys s (Machine.emit t o) := ⟨h.1, h.2, h.3⟩

theorem emit1 (s o) : KeepsKeys s (Machine.emit s o) := ⟨rfl, rfl, rfl⟩

theorem logErr (s r) : KeepsKeys s (Machine.logErr s r) := (Aside.logErr s r).keys

theorem passOver (s o w) : KeepsKeys s (Machine.passOver s o w) := (Aside.passOver s o w).keys

theorem useTweak (s k a) : KeepsKeys s (Machine.useTweak s k a) := (Aside.useTweak s k a).keys

theorem wakeUnit (s p) : KeepsKeys s (Machine.wakeUnit s p) := (Aside.wakeUnit s p).keys

theorem wakeHome (s l k) : KeepsKeys s (Machine.wakeHome s l k) := (Aside.wakeHome s l k).keys

theorem emptySlot (s h l) : KeepsKeys s (Machine.emptySlot s h l) := (Aside.emptySlot s h l).keys

theorem arrive (s h) : KeepsKeys s (Machine.arrive s h) := (Aside.arrive s h).keys

theorem dropTickets (s o) : KeepsKeys s (Machine.dropTickets s o) := (Aside.dropTickets s o).keys

theorem wakeStream (s) : KeepsKeys s (Machine.wakeStream s) := (Aside.wakeStream s).keys

theorem poisonLine (s k l v) : KeepsKeys s (Machine.poisonLine s k l v) := by
  unfold Machine.poisonLine; exact ⟨rfl, rfl, rfl⟩

theorem drawNat (s) : KeepsKeys s (Machine.drawNat s).2 := ⟨rfl, rfl, rfl⟩

theorem meetLine (s h k l v) : KeepsKeys s (Machine.meetLine s h k l v).1 := by
  unfold Machine.meetLine; dsimp only
  split
  · exact refl _
  · exact refl _
  · split
    · dsimp only; exact trans (poisonLine _ _ _ _) (logErr _ _)
    · exact poisonLine _ _ _ _
  · have q {r : LogIn} : KeepsKeys s (Machine.drawNat (Machine.logErr s r)).2 := trans (logErr _ _) (drawNat _)
    split
    · exact trans q (poisonLine _ _ _ _)
    · exact q

theorem storeLine (s l b) : KeepsKeys s (Machine.storeLine s l b) := by
  unfold Machine.storeLine; exact ⟨rfl, rfl, rfl⟩

theorem coreWrite (s h k l w v) : KeepsKeys s (Machine.coreWrite s h k l w v).1 := by
  unfold Machine.coreWrite; dsimp only
  have e := trans (wakeUnit s (homePort s l)) (wakeHome _ l (some w))
  generalize Machine.wakeHome (Machine.wakeUnit s (homePort s l)) l (some w) = u at e
  have st : ∀ a, KeepsKeys a (showWrite a k l v (writeApply w (memBytesAt u l 128)).1) := fun a => ⟨rfl, rfl, rfl⟩
  have m : ∀ x, KeepsKeys u (Machine.meetLine (Machine.useTweak (showRead u l v) k l) h k x v).1 := fun x =>
    trans (trans (t := showRead u l v) ⟨rfl, rfl, rfl⟩ (useTweak _ _ _)) (meetLine _ _ _ _ _)
  refine trans e ?_
  split
  · exact emptySlot _ _ _
  · split
    · exact refl _
    · split
      · exact trans (trans (useTweak _ _ _) (st _)) (storeLine _ _ _)
      · split
        · exact trans (trans (m _) (st _)) (storeLine _ _ _)
        · exact m _

theorem pendMessage (s v h) : KeepsKeys s (Machine.pendMessage s v h) := by
  unfold Machine.pendMessage; split
  · exact refl _
  · exact onSq _ _

theorem setHive (s h f) : KeepsKeys s (Machine.setHive s h f) := ⟨rfl, rfl, rfl⟩

theorem eventBy {w : State → Nat → List Byte → State} (hw : ∀ s a b, KeepsKeys s (w s a b)) (s c h x y) :
    KeepsKeys s (Machine.eventBy w s c h x y) := by
  unfold Machine.eventBy; dsimp only; split
  · split
    · exact trans (trans (hw _ _ _) (onSq _ _)) (pendMessage _ _ _)
    · exact trans (hw _ _ _) (onSq _ _)
  · exact onSq _ _

theorem alarmBy {e : State → Nat → Nat → Nat → Nat → State} (he : ∀ s a b c d, KeepsKeys s (e s a b c d)) (s h k l c o st) :
    KeepsKeys s (Machine.alarmBy e s h k l c o st) := by
  unfold Machine.alarmBy
  exact ite (trans (logErr _ _) (setHive _ _ _)) (trans (trans (logErr _ _) (setHive _ _ _)) (he _ _ _ _ _))

theorem tablePut {go : State → State × Status} (hg : ∀ s, KeepsKeys s (go s).1) (s l k) : KeepsKeys s (Machine.tablePut s l k go).1 := by
  unfold Machine.tablePut; split
  · exact arrive _ _
  · exact hg _

theorem recordBy {al : State → Nat → Nat → Nat → State} (ha : ∀ s a b c, KeepsKeys s (al s a b c)) (s a b) :
    KeepsKeys s (Machine.recordBy al s a b).1 := by
  unfold Machine.recordBy
  refine trans (wakeStream s) (tablePut ?_ _ _ _)
  intro t; dsimp only; split
  · exact trans (coreWrite _ _ _ _ _ _) (ha _ _ _ _)
  · exact coreWrite _ _ _ _ _ _

theorem alarmEvent (s c h x y) : KeepsKeys s (Machine.alarmEvent s c h x y) :=
  eventBy (fun _ _ _ => recordBy (fun _ _ _ _ => alarmBy (fun _ _ _ _ _ => refl _) _ _ _ _ _ _ _) _ _ _) _ _ _ _ _

theorem writeRecord (s a b) : KeepsKeys s (Machine.writeRecord s a b).1 :=
  recordBy (fun _ _ _ _ => alarmBy alarmEvent _ _ _ _ _ _ _) _ _ _

theorem hiveEvent (s c h x y) : KeepsKeys s (Machine.hiveEvent s c h x y) := eventBy (fun _ _ _ => writeRecord _ _ _) _ _ _ _ _

theorem securityAlarm (s h k l c o st) : KeepsKeys s (Machine.securityAlarm s h k l c o st) := alarmBy hiveEvent _ _ _ _ _ _ _

theorem homeWrite (s h k l w v c o) : KeepsKeys s (Machine.homeWrite s h k l w v c o).1 := by
  unfold Machine.homeWrite; dsimp only; split
  · exact trans (coreWrite _ _ _ _ _ _) (securityAlarm _ _ _ _ _ _ _)
  · exact coreWrite _ _ _ _ _ _

theorem setLabel (s l f) : KeepsKeys s (Machine.setLabel s l f) := ⟨rfl, rfl, rfl⟩

theorem charge (s l b) : KeepsKeys s (Machine.charge s l b) := by
  unfold Machine.charge; split
  · exact refl _
  · exact setLabel _ _ _

theorem tableWrite (s a b) : KeepsKeys s (Machine.tableWrite s a b).1 :=
  trans (charge s _ _) (tablePut (fun _ => homeWrite _ _ _ _ _ _ _ _) _ _ _)

theorem putFault (s b) : KeepsKeys s (Machine.putFault s b) := by
  unfold Machine.putFault; dsimp only; split
  · exact trans (trans (tableWrite _ _ _) (onXl _ _)) (pendMessage _ _ _)
  · exact trans (tableWrite _ _ _) (onXl _ _)

theorem drainFaults (n) : ∀ s, KeepsKeys s (Machine.drainFaults s n) := by
  induction n with
  | zero => intro s; exact refl _
  | succ n ih =>
    intro s; rw [Machine.drainFaults]; dsimp only
    split
    · exact refl _
    split
    · exact trans (trans (onXl _ _) (putFault _ _)) (ih _)
    · split
      · split
        · exact trans (trans (trans (onXl _ _) (putFault _ _)) (onXl _ _)) (ih _)
        · exact refl _
      · exact refl _

theorem dropRequester (s r) : KeepsKeys s (Machine.dropRequester s r) := trans (onXl _ _) (drainFaults _ _)

theorem dropForager (s c) : KeepsKeys s (Machine.dropForager s c) := onXl _ _

theorem dropWaits (s c) : KeepsKeys s (Machine.dropWaits s c) := ⟨rfl, rfl, rfl⟩

theorem setLink (s l f) : KeepsKeys s (Machine.setLink s l f) := ⟨rfl, rfl, rfl⟩

theorem setFlow (s l f) : KeepsKeys s (Machine.setFlow s l f) := ⟨rfl, rfl, rfl⟩

theorem oweCredit (s l f) : KeepsKeys s (Machine.oweCredit s l f) := by
  unfold Machine.oweCredit; split
  · exact setLink _ _ _
  · exact refl _

theorem dropForward (s l f) : KeepsKeys s (Machine.dropForward s l f) := trans (onSw _ _) (oweCredit _ _ _)

theorem enqueue (s w) : KeepsKeys s (Machine.enqueue s w) := onSw _ _

theorem unwait (s p) : KeepsKeys s (Machine.unwait s p) := onSw _ _

theorem routeOwn (s p f) : KeepsKeys s (Machine.routeOwn s p f).1 := by
  unfold Machine.routeOwn; split
  · exact refl _
  · dsimp only; exact trans (setFlow _ _ _) (unwait _ _)

theorem requeue (s w) : KeepsKeys s (Machine.requeue s w) := by
  unfold Machine.requeue; split
  · exact enqueue _ _
  · exact dropForward _ _ _

theorem dropLink (s l) : KeepsKeys s (Machine.dropLink s l) := by
  unfold Machine.dropLink; dsimp only
  refine trans ?_ (fold (fun t e => fold (fun t x => ?_) _ _) _ _)
  · refine trans ?_ (fold requeue _ _)
    exact ⟨rfl, rfl, rfl⟩
  · have := routeOwn t e.1 x.frame
    generalize Machine.routeOwn t e.1 x.frame = r at this ⊢
    obtain ⟨u, w⟩ := r
    cases w
    · exact this
    · exact trans this (enqueue _ _)

theorem putFrame (s l f) : KeepsKeys s (Machine.putFrame s l f) := by
  unfold Machine.putFrame
  exact ite (trans (emit (setLink _ _ _) _) (dropLink _ _)) (emit (setLink _ _ _) _)

theorem sendFwd (s w) : KeepsKeys s (Machine.sendFwd s w) := by
  unfold Machine.sendFwd; split
  · exact putFrame _ _ _
  · exact trans (putFrame _ _ _) (oweCredit _ _ _)

theorem sendOrWait (s w) : KeepsKeys s (Machine.sendOrWait s w) := by
  unfold Machine.sendOrWait; split
  · exact sendFwd _ _
  · exact enqueue _ _

theorem serveLink (n) : ∀ s l, KeepsKeys s (Machine.serveLink s l n) := by
  induction n with
  | zero => intros; exact refl _
  | succ n ih =>
    intro s l; rw [Machine.serveLink]; split
    · exact refl _
    · exact trans (trans (trans (onSw _ _) (sendFwd _ _)) (passOver _ _ _)) (ih _ _)

theorem drainForward (s) : KeepsKeys s (Machine.drainForward s) := by
  unfold Machine.drainForward; split
  · exact refl _
  · exact fold (fun _ _ => serveLink _ _ _) _ _

theorem sendCtl (s p f) : KeepsKeys s (Machine.sendCtl s p f) := by
  unfold Machine.sendCtl; split
  · exact putFrame _ _ _
  · exact refl _

theorem sendOpen (s p r) : KeepsKeys s (Machine.sendOpen s p r) := by
  unfold Machine.sendOpen; split
  · exact refl _
  · exact sendCtl _ _ _

theorem transmit (s p f) : KeepsKeys s (Machine.transmit s p f) := by
  unfold Machine.transmit
  have := routeOwn s p f
  generalize Machine.routeOwn s p f = r at this ⊢
  obtain ⟨u, w⟩ := r
  cases w
  · exact this
  · exact trans this (sendOrWait _ _)

theorem closeFlow (s p) : KeepsKeys s (Machine.closeFlow s p) := trans (sendCtl _ _ _) (setFlow _ _ _)

theorem freeEntry (s) : KeepsKeys s (Machine.freeEntry s) := by
  unfold Machine.freeEntry; dsimp only; split
  · exact refl _
  · split
    · exact trans (drawNat _) (closeFlow _ _)
    · exact refl _

theorem enterFlow (s p) : KeepsKeys s (Machine.enterFlow s p) := by
  unfold Machine.enterFlow; dsimp only; split
  · exact trans (trans (freeEntry _) (trans (onSw _ _) (setFlow _ _ _))) (sendOpen _ _ _)
  · exact freeEntry _

theorem takeFlow (s p) : KeepsKeys s (Machine.takeFlow s p) := by
  unfold Machine.takeFlow; dsimp only; split
  · split
    · exact trans (onSw _ _) (enterFlow _ _)
    · exact refl _
  · exact trans (onSw _ _) (enterFlow _ _)

theorem sendSeq (s p f) : KeepsKeys s (Machine.sendSeq s p f).1 := by
  unfold Machine.sendSeq; dsimp only; split
  · exact takeFlow _ _
  · split
    · exact trans (trans (takeFlow _ _) (setFlow _ _ _)) (transmit _ _ _)
    · exact trans (trans (takeFlow _ _) (setFlow _ _ _)) (setFlow _ _ _)

theorem cancelRemoteWaits (s c) : KeepsKeys s (Machine.cancelRemoteWaits s c) := by
  unfold Machine.cancelRemoteWaits; dsimp only
  exact trans (onSw _ _) (fold (fun _ _ => sendSeq _ _ _) _ _)

theorem setChan (s c f) : KeepsKeys s (Machine.setChan s c f) := ⟨rfl, rfl, rfl⟩

theorem spadLose (s n) : KeepsKeys s (Machine.spadLose s n) := ⟨rfl, rfl, rfl⟩

theorem setCluster (s n f) : KeepsKeys s (Machine.setCluster s n f) := ⟨rfl, rfl, rfl⟩

theorem clearPins (s n) : KeepsKeys s (Machine.clearPins s n) := by
  unfold Machine.clearPins; split
  · exact emit (emit1 _ _) _
  · exact refl _

theorem clearCluster (s n d) : KeepsKeys s (Machine.clearCluster s n d) :=
  trans (trans (setCluster _ _ _) (clearPins _ _)) (spadLose _ _)

theorem freeKernel (s n) : KeepsKeys s (Machine.freeKernel s n) := by
  unfold Machine.freeKernel; split
  · exact clearCluster _ _ _
  · exact setCluster _ _ _

theorem releaseClusters (s c) : KeepsKeys s (Machine.releaseClusters s c) := trans (fold freeKernel _ _) (setChan _ _ _)

theorem chargeKernel (s c) : KeepsKeys s (Machine.chargeKernel s c) := ⟨rfl, rfl, rfl⟩

theorem endKernels (s c) : KeepsKeys s (Machine.endKernels s c) := by
  unfold Machine.endKernels; dsimp only; split
  · exact trans (trans (trans (onHe _ _) (fold (fun _ _ => chargeKernel _ _) _ _))
      (fold (fun _ _ => trans (emit1 _ _) (spadLose _ _)) _ _)) (releaseClusters _ _)
  · exact trans (onHe _ _) (releaseClusters _ _)

theorem letGo (s c) : KeepsKeys s (Machine.letGo s c) :=
  trans (trans (trans (trans (trans (dropWaits _ _) (cancelRemoteWaits _ _)) (dropRequester _ _)) (dropForager _ _)) (dropTickets _ _))
    (endKernels _ _)

theorem abortChan (s c st k) : KeepsKeys s (Machine.abortChan s c st k) := by
  unfold Machine.abortChan; dsimp only; split
  · exact refl _
  · exact trans (letGo _ _) (setChan _ _ _)

theorem retire (s c st) : KeepsKeys s (Machine.retire s c st) := by
  unfold Machine.retire; dsimp only; split
  · exact refl _
  split
  · split
    · exact setChan _ _ _
    · exact trans (letGo _ _) (setChan _ _ _)
  · exact trans (setChan _ _ _) (abortChan _ _ _ _)

theorem endLinkJobs (s) : KeepsKeys s (Machine.endLinkJobs s) := trans (onQm _ _) (fold (fun _ _ => retire _ _ _) _ _)

theorem settleLinks (s) : KeepsKeys s (Machine.settleLinks s) := trans (drainForward _) (endLinkJobs _)

theorem linkDown (s l) : KeepsKeys s (Machine.linkDown s l) := by
  unfold Machine.linkDown; split
  · exact refl _
  · exact trans (dropLink _ _) (settleLinks _)
theorem fuses {s t : State} (a : KeepsKeys s t) : t.vault.fuses = s.vault.fuses := by rw [a.vault]

theorem lc {s t : State} (a : KeepsKeys s t) : t.vault.lc = s.vault.lc := by rw [a.vault]

theorem tokens {s t : State} (a : KeepsKeys s t) : t.vault.tokens = s.vault.tokens := by rw [a.vault]

theorem blow {s t : State} (a : KeepsKeys s t) : t.vault.blow = s.vault.blow := by rw [a.vault]

end KeepsKeys

end Sys2Proof.Laws
end

