-- ==== Sys2Proof/Laws/Lines.lean ====
section
/-! SUPPORT. A line in reach (Safety.InReach), said once: its translation, its read and its writes answer at once, and
change nothing of the block but the accounts of the translation, of the regulator and of the tweak caches. -/

namespace Sys2Proof.Laws

open Sys2Proof Sys2Proof.Machine Sys2Proof.Safety

/-! ## What an access leaves alone -/

/-- Apart from the first level, the meters, the tweaks, the gates, the timers of faults, what has left the block and the line
itself, `t` is `s`. -/
structure Quiet (s t : State) : Prop where
  chans : t.mv.chans = s.mv.chans
  sw : t.sw = s.sw
  he : t.he = s.he
  qm : t.qm = s.qm
  ports : t.ports = s.ports
  kp : t.kp = s.kp
  free : t.free = s.free
  slots : t.pr.slots = s.pr.slots
  locks : t.pr.locks = s.pr.locks
  lockWait : t.pr.lockWait = s.pr.lockWait
  granted : t.pr.granted = s.pr.granted
  forager : t.xl.forager = s.xl.forager
  walks : t.xl.walks = s.xl.walks
  atsReqs : t.xl.atsReqs = s.xl.atsReqs

theorem Quiet.refl (s : State) : Quiet s s := by constructor <;> rfl

theorem Quiet.trans {s t u : State} (a : Quiet s t) (b : Quiet t u) : Quiet s u := by
  cases a
  cases b
  constructor <;> simp only [*]

theorem Quiet.chanAt {s t : State} (q : Quiet s t) (c : Nat) : chanAt t c = chanAt s c := by
  simp only [Machine.chanAt, q.chans]

theorem Quiet.homePort {s t : State} (q : Quiet s t) (a : Nat) : homePort t a = homePort s a := by
  have e := q.kp
  cases s
  cases t
  simp only at e
  subst e
  rfl

theorem Quiet.chipId {s t : State} (q : Quiet s t) : chipId t = chipId s := by
  simp only [Machine.chipId, q.kp]

theorem Quiet.combFor {s t : State} (q : Quiet s t) (h a : Nat) : combFor t h a = combFor s h a := by
  simp only [Machine.combFor, hiveAt, q.he]

theorem Quiet.remoteBusy {s t : State} (q : Quiet s t) (c : Nat) : remoteBusy t c = remoteBusy s c := by
  simp only [Machine.remoteBusy, q.sw]

theorem Quiet.slotAt {s t : State} (q : Quiet s t) (k : Nat) : slotAt t k = slotAt s k := by
  simp only [Machine.slotAt, q.slots]

theorem Quiet.portAt {s t : State} (q : Quiet s t) (p : Nat) : portAt t p = portAt s p := by
  simp only [Machine.portAt, q.ports]

theorem Quiet.sliceAt {s t : State} (q : Quiet s t) (e : t.pr.slices = s.pr.slices) (a : Nat) : sliceAt t a = sliceAt s a := by
  simp only [Machine.sliceAt, sliceKey, q.homePort, e]

theorem Quiet.portOffset {s t : State} (q : Quiet s t) (a : Nat) : portOffset t a = portOffset s a := by
  have e := q.kp
  cases s
  cases t
  simp only at e
  subst e
  rfl

theorem Quiet.holdsTurn {s t : State} (q : Quiet s t) (o : Origin) (a : Nat) : holdsTurn t o a = holdsTurn s o a := by
  simp only [Machine.holdsTurn, q.granted]

/-- What the hold of a line rests on is the same in `t` as in `s`. -/
structure SameUnits (s t : State) : Prop where
  kp : t.kp = s.kp
  ports : t.ports = s.ports
  movers : t.mv.movers = s.mv.movers
  slots : t.pr.slots = s.pr.slots
  slices : t.pr.slices = s.pr.slices
  locks : t.pr.locks = s.pr.locks
  lockWait : t.pr.lockWait = s.pr.lockWait
  granted : t.pr.granted = s.pr.granted

theorem SameUnits.homePort {s t : State} (q : SameUnits s t) (a : Nat) : homePort t a = homePort s a := by
  have e := q.kp
  cases s
  cases t
  simp only at e
  subst e
  rfl

theorem SameUnits.mustWait {s t : State} (q : SameUnits s t) (k a : Nat) (w : Option WriteKind) :
    mustWait t k a w = mustWait s k a w := by
  have m (n : Nat) : moverAt t n = moverAt s n := by simp only [moverAt, q.movers]
  have r : reportedMovers t = reportedMovers s := by simp only [reportedMovers, reported, q.kp]
  simp only [Machine.mustWait, Machine.slotAt, Machine.portAt, Machine.sliceAt, sliceKey, onLine, lineLacks, locksOf, homeWaits,
    homeMover, q.homePort, q.ports, q.slots, q.slices, q.locks, q.lockWait, q.granted, m, r]
  rfl

theorem Quiet.units {s t : State} (q : Quiet s t) (e : t.pr.slices = s.pr.slices) (m : t.mv.movers = s.mv.movers) : SameUnits s t :=
  ⟨q.kp, q.ports, m, q.slots, e, q.locks, q.lockWait, q.granted⟩

theorem covers_overlaps {a b : Tlb} {ctx va : Nat} (ha : a.covers ctx va = true) (hb : b.covers ctx va = true) :
    b.overlaps a.ctx a.va (2 ^ a.sizeLog2) = true := by
  simp only [Tlb.covers, Tlb.overlaps, Bool.and_eq_true, beq_iff_eq, decide_eq_true_eq] at *
  have p (k : Nat) : va / 2 ^ k * 2 ^ k ≤ va ∧ va < va / 2 ^ k * 2 ^ k + 2 ^ k := by
    have := Nat.div_add_mod va (2 ^ k)
    have := Nat.mod_lt va (Nat.two_pow_pos k)
    rw [Nat.mul_comm]; omega
  have h1 := p a.sizeLog2
  have h2 := p b.sizeLog2
  refine ⟨⟨hb.1.trans ha.1.symm, ?_⟩, ?_⟩ <;> omega

theorem overlaps_symm {a b : Tlb} (h : b.overlaps a.ctx a.va (2 ^ a.sizeLog2) = false) :
    a.overlaps b.ctx b.va (2 ^ b.sizeLog2) = false := by
  simp only [Tlb.overlaps, Bool.and_eq_false_iff, beq_eq_false_iff_ne, ne_eq, decide_eq_false_iff_not] at *
  rcases h with (h | h) | h
  · exact .inl (.inl (fun e => h e.symm))
  · exact .inr h
  · exact .inl (.inr h)

/-- Entries that do not overlap: the one that covers an address is the first found. -/
theorem find_covers {l : List Tlb} (p : l.Pairwise (fun a b => b.overlaps a.ctx a.va (2 ^ a.sizeLog2) = false)) {ctx va : Nat}
    {e : Tlb} (m : e ∈ l) (c : e.covers ctx va = true) : l.find? (fun x => x.covers ctx va) = some e := by
  induction l with
  | nil => cases m
  | cons a r ih =>
    simp only [List.pairwise_cons] at p
    rcases List.mem_cons.1 m with rfl | m'
    · simp [List.find?, c]
    · have n : a.covers ctx va = false := by
        by_contra h
        have := covers_overlaps (by simpa using h) c
        rw [p.1 e m'] at this
        cases this
      simp [List.find?, n, ih p.2 m']

theorem others_apart {l : List Tlb} (p : l.Pairwise (fun a b => b.overlaps a.ctx a.va (2 ^ a.sizeLog2) = false)) {e x : Tlb}
    (he : e ∈ l) (hx : x ∈ l) (n : x ≠ e) : x.overlaps e.ctx e.va (2 ^ e.sizeLog2) = false := by
  induction l with
  | nil => cases hx
  | cons a r ih =>
    simp only [List.pairwise_cons] at p
    rcases List.mem_cons.1 he with rfl | he'
    · rcases List.mem_cons.1 hx with rfl | hx'
      · exact absurd rfl n
      · exact p.1 x hx'
    · rcases List.mem_cons.1 hx with rfl | hx'
      · exact overlaps_symm (p.1 e he')
      · exact ih p.2 he' hx'

/-- The first level after a use of one of its entries holds the same entries. -/
theorem l1Put_ok {s : State} {m : Nat} {e : Tlb} (h : FirstLevelOk s m) (he : e ∈ (Tab.look s.xl.l1 m).getD []) :
    FirstLevelOk (l1Put s m e) m ∧ ∀ x, x ∈ (Tab.look (l1Put s m e).xl.l1 m).getD [] ↔ x ∈ (Tab.look s.xl.l1 m).getD [] := by
  obtain ⟨n, p⟩ := h
  set l := (Tab.look s.xl.l1 m).getD [] with hl
  have self : e.overlaps e.ctx e.va (2 ^ e.sizeLog2) = true := by simp [Tlb.overlaps]
  have other : ∀ x ∈ l, x ≠ e → x.overlaps e.ctx e.va (2 ^ e.sizeLog2) = false := fun x hx n => others_apart p he hx n
  have memf : ∀ x, x ∈ l.filter (fun o => !o.overlaps e.ctx e.va (2 ^ e.sizeLog2)) ↔ x ∈ l ∧ x ≠ e := by
    intro x
    simp only [List.mem_filter, Bool.not_eq_true']
    refine ⟨fun ⟨a, b⟩ => ⟨a, ?_⟩, fun ⟨a, b⟩ => ⟨a, other x a b⟩⟩
    rintro rfl; rw [self] at b; cases b
  have len : (l.filter (fun o => !o.overlaps e.ctx e.va (2 ^ e.sizeLog2))).length < l.length := by
    apply List.length_filter_lt_length_iff_exists.2
    exact ⟨e, he, by simp [self]⟩
  have look : (Tab.look (l1Put s m e).xl.l1 m).getD [] = e :: l.filter (fun o => !o.overlaps e.ctx e.va (2 ^ e.sizeLog2)) := by
    simp only [l1Put, State.onXl, Tab.look_put, Option.getD_some, ← hl]
    apply List.take_of_length_le
    simp only [List.length_cons]; omega
  constructor
  · refine ⟨?_, ?_⟩
    · simp only [look, List.length_cons]; omega
    · simp only [look, List.pairwise_cons]
      refine ⟨fun x hx => other x ((memf x).1 hx).1 ((memf x).1 hx).2, p.filter _⟩
  · intro x
    rw [look, List.mem_cons, memf]
    by_cases hx : x = e
    · simp [hx, he]
    · simp [hx]

/-- What a lookup of a line in reach answers. -/
theorem xlate_inReach {s : State} {c va a : Nat} {n : Need} (f : FirstLevelOk s (c / 8)) (h : InReach s c va n a) :
    ∃ t pa, xlate s c va n = (t, .dev pa) ∧ paChip pa = chipId s ∧ paLocal pa = a ∧
      Quiet s t ∧ t.pr = s.pr ∧ t.rg = s.rg ∧ t.mv = s.mv ∧ t.xl.logs = s.xl.logs ∧ FirstLevelOk t (c / 8) ∧
      ∀ x, x ∈ (Tab.look t.xl.l1 (c / 8)).getD [] ↔ x ∈ (Tab.look s.xl.l1 (c / 8)).getD [] := by
  obtain ⟨_, ⟨e, m, cv, pa, u, ch, lo⟩, _⟩ := h
  have fd := find_covers f.2 m cv
  have lk : lookup s (c / 8) (chanAt s c).ctx va n = (l1Put s (c / 8) e, .dev pa) := by
    unfold lookup
    rw [fd]
    simp only [u]
  refine ⟨disarm (l1Put s (c / 8) e) (.chan c) va, pa, ?_, ch, lo, ?_, rfl, rfl, rfl, rfl, (l1Put_ok f m).1, (l1Put_ok f m).2⟩
  · simp only [xlate, lk]
  · constructor <;> rfl

theorem charge_quiet (s : State) (l n : Nat) : Quiet s (charge s l n) ∧ (charge s l n).pr = s.pr ∧ (charge s l n).xl = s.xl ∧
    (charge s l n).mv = s.mv := by
  unfold charge
  split
  · exact ⟨Quiet.refl s, rfl, rfl, rfl⟩
  · exact ⟨by constructor <;> rfl, rfl, rfl, rfl⟩

/-! ## Reads -/

theorem wakeUnit_quiet (s : State) (p : Nat) : Quiet s (wakeUnit s p) ∧ (wakeUnit s p).pr.mem = s.pr.mem ∧
    (wakeUnit s p).pr.conds = s.pr.conds ∧ (wakeUnit s p).pr.slices = s.pr.slices ∧ (wakeUnit s p).mv = s.mv ∧
    (wakeUnit s p).xl = s.xl := by
  unfold wakeUnit
  split
  · exact ⟨by constructor <;> rfl, rfl, rfl, rfl, rfl, rfl⟩
  · exact ⟨Quiet.refl s, rfl, rfl, rfl, rfl, rfl⟩

/-- R315: the read of a good line of an OPEN slice. -/
theorem homeRead_good {s : State} {h k a lv : Nat} (l : (slotAt s k).loaded = true) (o : (sliceAt s a).state = .opened)
    (g : condOf s a = .good) (p : (portAt s (homePort s a)).leftOut = false) :
    ∃ t, homeRead s h k a lv = (t, .ok, lineBytes s a) ∧ Quiet s t ∧ t.pr.mem = s.pr.mem ∧ t.pr.conds = s.pr.conds ∧
      t.pr.slices = s.pr.slices ∧ t.mv = s.mv ∧ t.xl = s.xl := by
  obtain ⟨q, em, ec, es, ev, ex⟩ := wakeUnit_quiet s (homePort s a)
  set v := wakeUnit s (homePort s a) with hv
  have l' : (slotAt v k).loaded = true := by rw [q.slotAt, l]
  have o' : (sliceAt v a).state = .opened := by rw [q.sliceAt es, o]
  have p' : (portAt v (homePort v a)).leftOut = false := by rw [q.portAt, q.homePort, p]
  have c : condOf (useTweak (showRead v a lv) k a) a = .good := by
    have : condOf v a = condOf s a := by simp only [condOf, q.sliceAt es, ec]
    exact this.trans g
  have tw : Quiet v (useTweak (showRead v a lv) k a) := by constructor <;> rfl
  refine ⟨useTweak (showRead v a lv) k a, ?_, q.trans tw, em, ec, es, ev, ex⟩
  simp only [homeRead, coreRead, ← hv, l', o', p', meetLine, c, lineBytes, memBytesAt, em]
  rfl

/-- A read of a line in reach answers its bytes. -/
theorem readLineAs_inReach {acc : Access} {s : State} {c va a : Nat} {ahead : List Nat}
    (r : Tab.look (chanAt s c).rob va = none) (f : FirstLevelOk s (c / 8)) (h : InReach s c va .rd a) :
    ∃ t, readLineAs acc s c va ahead = (t, .data (lineBytes s a)) ∧ Quiet s t ∧ t.pr.mem = s.pr.mem ∧
      t.pr.conds = s.pr.conds ∧ t.pr.slices = s.pr.slices ∧ t.mv = s.mv ∧ FirstLevelOk t (c / 8) ∧
      ∀ x, x ∈ (Tab.look t.xl.l1 (c / 8)).getD [] ↔ x ∈ (Tab.look s.xl.l1 (c / 8)).getD [] := by
  obtain ⟨t, pa, e, ch, lo, q, pr, rg, mv, lg, f', mem⟩ := xlate_inReach f h
  obtain ⟨b, _, ⟨k, cf, kp, kl, w⟩, o, g, p, nt⟩ := h
  have cq := charge_quiet t (chanAt s c).label 128
  set u := charge t (chanAt s c).label 128 with hu
  have cl : chargeLine t c 128 = u := by rw [chargeLine, q.chanAt, hu]
  have qu := q.trans cq.1
  have sl : u.pr.slices = s.pr.slices := by rw [cq.2.1, pr]
  have gd : condOf u a = .good := by
    have : condOf u a = condOf s a := by
      simp only [condOf, qu.sliceAt sl, cq.2.1, pr]
    rw [this, g]
  have lb : lineBytes u a = lineBytes s a := by simp only [lineBytes, cq.2.1, pr]
  have go : lineGoes t (chanReq t c k.keySel a none) = true := by
    have : mustWait t k.keySel a none = false := by rw [(q.units (by rw [pr]) (by rw [mv])).mustWait]; exact w none rfl
    simp only [lineGoes, chanReq, this, Bool.not_false, Bool.or_true]
  obtain ⟨v, hr, qv, vm, vc, vs, vv, vx⟩ := homeRead_good (s := u) (h := (chanAt s c).hive) (k := k.keySel) (a := a)
    (lv := (chanReq t c k.keySel a none).req.level) (by rw [qu.slotAt, kl]) (by rw [qu.sliceAt sl, o]) gd
    (by rw [qu.portAt, qu.homePort, p])
  have qs := qu.trans qv
  have rd : redeem v (.channel c) a = v := by simp [redeem, qs.holdsTurn, nt]
  refine ⟨v, ?_, qs, ?_, ?_, ?_, ?_, ?_, ?_⟩
  · have ns : isSpad va = false := decide_eq_false (Nat.not_le.2 b)
    have kr : k.locRd = true := kp
    have cb : ∀ z, combOfLine s (chanAt s c).hive z a = some k := by intro z; simp [combOfLine, cf]
    simp only [readLineAs, r, ns, e, ch, lo, cb, kr, go, cl, hr, lb, rd]
    simp
  · rw [vm, cq.2.1, pr]
  · rw [vc, cq.2.1, pr]
  · rw [vs, sl]
  · rw [vv, cq.2.2.2, mv]
  · unfold FirstLevelOk
    rw [vx, cq.2.2.1]
    exact f'
  · intro x
    rw [vx, cq.2.2.1, mem]

/-! ## Writes -/

theorem wakeHome_quiet (s : State) (a : Nat) (k : Option WriteKind) :
    Quiet s (wakeHome s a k) ∧ (wakeHome s a k).pr = s.pr := by
  unfold wakeHome
  dsimp only
  split
  · exact ⟨by constructor <;> rfl, rfl⟩
  · exact ⟨Quiet.refl s, rfl⟩

theorem storeLine_quiet (s : State) (a : Nat) (bs : List Byte) :
    Quiet s (storeLine s a bs) ∧ (storeLine s a bs).pr.mem = cellWriteN 0 s.pr.mem a bs :=
  ⟨by constructor <;> rfl, rfl⟩

/-- R315: a write-kind request to a good line of an OPEN slice. -/
theorem homeWrite_good {s : State} {h k a lv cx off : Nat} {w : WriteKind} (l : (slotAt s k).loaded = true)
    (o : (sliceAt s a).state = .opened) (g : condOf s a = .good) (p : (portAt s (homePort s a)).leftOut = false) :
    ∃ t, homeWrite s h k a w lv cx off = (t, .ok, (writeApply w (lineBytes s a)).2) ∧ Quiet s t ∧
      t.pr.mem = memAfter s a w := by
  obtain ⟨q1, em, ec, es, ev, _⟩ := wakeUnit_quiet s (homePort s a)
  have q2 := wakeHome_quiet (wakeUnit s (homePort s a)) a (some w)
  set v := wakeHome (wakeUnit s (homePort s a)) a (some w) with hv
  have q := q1.trans q2.1
  have es' : v.pr.slices = s.pr.slices := by rw [q2.2, es]
  have l' : (slotAt v k).loaded = true := by rw [q.slotAt, l]
  have o' : (sliceAt v a).state = .opened := by rw [q.sliceAt es', o]
  have p' : (portAt v (homePort v a)).leftOut = false := by rw [q.portAt, q.homePort, p]
  have c : condOf v a = .good := by
    have : condOf v a = condOf s a := by simp only [condOf, q.sliceAt es', q2.2, ec]
    exact this.trans g
  have b : memBytesAt v a 128 = lineBytes s a := by simp only [memBytesAt, lineBytes, q2.2, em]
  have am : cellWriteN 0 v.pr.mem a (writeApply w (lineBytes s a)).1 = memAfter s a w := by
    rw [q2.2, em]
    rfl
  by_cases r : writeReads w
  · have u : Quiet v (showWrite (useTweak (showRead v a lv) k a) k a lv (writeApply w (lineBytes s a)).1) := by
      constructor <;> rfl
    have c' : condOf (useTweak (showRead v a lv) k a) a = .good := c
    refine ⟨_, ?_, (q.trans u).trans (storeLine_quiet _ a (writeApply w (lineBytes s a)).1).1, am⟩
    simp [homeWrite, coreWrite, ← hv, l', o', p', meetLine, c', b, r]
  · have u : Quiet v (showWrite (useTweak v k a) k a lv (writeApply w (lineBytes s a)).1) := by
      constructor <;> rfl
    refine ⟨_, ?_, (q.trans u).trans (storeLine_quiet _ a (writeApply w (lineBytes s a)).1).1, am⟩
    simp [homeWrite, coreWrite, ← hv, l', o', p', b, r]

/-- A write-kind request to a line in reach is performed at once. -/
theorem putLine_inReach {s : State} {c va a : Nat} {k : WriteKind} {rel cap : Bool} (f : FirstLevelOk s (c / 8))
    (h : InReach s c va (needOf k) a) :
    ∃ t, putLine s c va k rel cap = (t, .data (leBytes 8 (writeApply k (lineBytes s a)).2)) ∧ Quiet s t ∧
      t.pr.mem = memAfter s a k := by
  obtain ⟨t, pa, e, ch, lo, q, pr, rg, mv, lg, f', mem⟩ := xlate_inReach f h
  obtain ⟨b, _, ⟨m, cf, kp, kl, w⟩, o, g, p, nt⟩ := h
  have cq := charge_quiet t (chanAt s c).label (chargeOf k)
  set u := charge t (chanAt s c).label (chargeOf k) with hu
  have cl : chargeLine t c (chargeOf k) = u := by rw [chargeLine, q.chanAt, hu]
  have qu := q.trans cq.1
  have sl : u.pr.slices = s.pr.slices := by rw [cq.2.1, pr]
  have gd : condOf u a = .good := by
    have : condOf u a = condOf s a := by
      simp only [condOf, qu.sliceAt sl, cq.2.1, pr]
    rw [this, g]
  have go : lineGoes t (chanReq t c m.keySel a (some k)) = true := by
    have : mustWait t m.keySel a (some k) = false := by
      rw [(q.units (by rw [pr]) (by rw [mv])).mustWait]; exact w (some k) rfl
    simp only [lineGoes, chanReq, this, Bool.not_false, Bool.or_true]
  obtain ⟨v, hw, qv, mw⟩ := homeWrite_good (s := u) (h := (chanAt s c).hive) (k := m.keySel) (a := a) (w := k) (cx := 0) (off := 0)
    (lv := (chanReq t c m.keySel a (some k)).req.level) (by rw [qu.slotAt, kl]) (by rw [qu.sliceAt sl, o]) gd
    (by rw [qu.portAt, qu.homePort, p])
  have lb : lineBytes u a = lineBytes s a := by simp only [lineBytes, cq.2.1, pr]
  have qs := qu.trans qv
  have rd : redeem v (.channel c) a = v := by simp [redeem, qs.holdsTurn, nt]
  refine ⟨v, ?_, qs, ?_⟩
  · have ns : isSpad va = false := decide_eq_false (Nat.not_le.2 b)
    have cb : ∀ z, combOfLine s (chanAt s c).hive z a = some m := by intro z; simp [combOfLine, cf]
    simp only [putLine, ns, e, ch, lo, cb, kp, go, cl, hw, lb, rd]
    simp
  · rw [mw]
    simp only [memAfter, lb, cq.2.1, pr]

/-! ## A piece in reach -/

/-- A channel that begins keeps nothing from an instruction before. -/
theorem begins_clear {s : State} {c : Nat} (b : Begins s c) :
    (chanAt s c).rob = [] ∧ (chanAt s c).pack = none ∧ (chanAt s c).lineStatus = none ∧ (chanAt s c).prog = 0 ∧
      (chanAt s c).before = [] ∧ (chanAt s c).pickDraw = none ∧ (chanAt s c).parts = [] := by
  rw [b.1]
  exact ⟨rfl, rfl, rfl, rfl, rfl, rfl, rfl⟩

/-- What reach rests on. -/
theorem inReach_of_eq {s t : State} {c va a : Nat} {n : Need} (h : InReach s c va n a)
    (l1 : ∀ x, x ∈ (Tab.look t.xl.l1 (c / 8)).getD [] ↔ x ∈ (Tab.look s.xl.l1 (c / 8)).getD [])
    (cx : (chanAt t c).ctx = (chanAt s c).ctx) (ch : (chanAt t c).hive = (chanAt s c).hive) (he : t.he = s.he) (kp : t.kp = s.kp)
    (sl : t.pr.slots = s.pr.slots) (sc : t.pr.slices = s.pr.slices) (cd : t.pr.conds = s.pr.conds) (po : t.ports = s.ports)
    (lk : t.pr.locks = s.pr.locks) (lw : t.pr.lockWait = s.pr.lockWait) (gr : t.pr.granted = s.pr.granted)
    (mo : t.mv.movers = s.mv.movers) : InReach t c va n a := by
  have un : SameUnits s t := ⟨kp, po, mo, sl, sc, lk, lw, gr⟩
  have sa : ∀ x, sliceAt t x = sliceAt s x := by
    intro x
    simp only [sliceAt, sliceKey, un.homePort, sc]
  obtain ⟨b, ⟨e, m, cv, q, u, ci, lo⟩, ⟨k, cf, kr, kl, w⟩, o, g, p, nt⟩ := h
  refine ⟨b, ⟨e, (l1 e).2 m, by rw [cx]; exact cv, q, u, ?_, lo⟩, ⟨k, ?_, kr, ?_, ?_⟩, ?_, ?_, ?_, ?_⟩
  · rw [ci]
    simp only [chipId, kp]
  · rw [ch, ← cf]
    simp only [combFor, hiveAt, he]
  · rw [← kl]
    simp only [slotAt, sl]
  · intro x hx
    rw [un.mustWait]
    exact w x hx
  · rw [sa, o]
  · rw [← g]
    simp only [condOf, cd, sa]
  · rw [← p]
    simp only [portAt, po, un.homePort]
  · rw [← nt]
    simp only [holdsTurn, gr]

theorem flushPack_none {s : State} {c : Nat} (h : (chanAt s c).pack = none) : flushPack s c = s := by
  simp only [flushPack, h]

theorem writeLine_inReach {s : State} {c va a : Nat} {k : WriteKind} {rel cap : Bool} (f : FirstLevelOk s (c / 8))
    (p : (chanAt s c).pack = none) (h : InReach s c va (needOf k) a) :
    ∃ t, writeLine s c va k rel cap = (t, .data (leBytes 8 (writeApply k (lineBytes s a)).2)) ∧ Quiet s t ∧
      t.pr.mem = memAfter s a k := by
  obtain ⟨t, e, q, m⟩ := putLine_inReach (rel := rel) (cap := cap) f h
  refine ⟨t, ?_, q, m⟩
  simp only [writeLine, e]
  rw [flushPack_none (by rw [q.chanAt, p])]

/-- The source lines of a piece in reach. -/
theorem readLines_inReach {s : State} {c : Nat} {p : Piece} {sa da : Nat} (b : Begins s c) (h : PieceInReach s c p sa da) :
    ∃ t, readLines s c [] p.srcs [] = (t, .ok (p.srcs.map (fun l => (l, lineBytes s sa)))) ∧
      chanAt t c = { chanAt s c with rob := p.srcs.map (fun l => (l, lineBytes s sa)) } ∧ t.sw = s.sw ∧ t.pr.mem = s.pr.mem ∧
      FirstLevelOk t (c / 8) ∧ InReach t c p.dst (needOf (p.kind (pieceSource s p sa))) da ∧ t.xl.forager = s.xl.forager := by
  obtain ⟨rb, _⟩ := begins_clear b
  rcases h.1 with e | ⟨l, e, ne, r⟩
  · refine ⟨s, by rw [e]; rfl, ?_, rfl, rfl, b.2.2, h.2.2, rfl⟩
    rw [e]
    simp only [List.map_nil, ← rb]
  · obtain ⟨t, rd, q, mm, cd, sl, mv, fo, l1⟩ := readLineAs_inReach (acc := .read) (ahead := []) (by rw [rb]; rfl) b.2.2 r
    have tk : takeLine s c l [] = (setChan t c (fun x => { x with rob := Tab.put x.rob l (lineBytes s sa) }), .data (lineBytes s sa)) := by
      simp only [takeLine, rd]
    refine ⟨setChan t c (fun x => { x with rob := Tab.put x.rob l (lineBytes s sa) }), ?_, ?_, q.sw, mm, fo, ?_, q.forager⟩
    · rw [e]
      simp only [readLines, List.append_nil, tk]
      rfl
    · rw [chanAt_setChan, q.chanAt, rb, e]
      rfl
    · refine inReach_of_eq h.2.2 l1 ?_ ?_ q.he q.kp q.slots sl cd q.ports q.locks q.lockWait q.granted (congrArg Movers.movers mv : t.mv.movers = s.mv.movers)
      · rw [chanAt_setChan, q.chanAt]
      · rw [chanAt_setChan, q.chanAt]

/-- One piece in reach is performed at once. -/
theorem performed_inReach {s : State} {c : Nat} {p : Piece} {sa da : Nat} (b : Begins s c) (h : PieceInReach s c p sa da) :
    ∃ t pt, Performed s c [p] t ∧ t.pr.mem = memAfter s da (p.kind (pieceSource s p sa)) ∧
      chanAt t c = { chanAt s c with prog := 1, parts := pt } := by
  obtain ⟨rb, pk, ls, pg, bf, pd, pt⟩ := begins_clear b
  obtain ⟨t, rl, ct, sw, mm, fo, ir, fr⟩ := readLines_inReach b h
  have nov : overlaps t c p = false := by
    simp only [overlaps, ct, bf]
    rcases h.1 with e | ⟨l, e, ne, _⟩
    · simp [e]
    · simp [e, ne]
  have dp : drawPick t c p = t := by simp [drawPick, nov]
  have so : sourceOf t c p (p.srcs.map (fun l => (l, lineBytes s sa))) = pieceSource s p sa := by
    simp only [sourceOf, pieceSource, nov, ct, bf, pt, Tab.look_nil, Option.getD_none, List.map_map]
    congr 1
  have lb : lineBytes t da = lineBytes s da := by simp only [lineBytes, mm]
  obtain ⟨u, pl, q, um⟩ := putLine_inReach (rel := true) (cap := false) fo ir
  have cu : chanAt u c = { chanAt s c with rob := p.srcs.map (fun l => (l, lineBytes s sa)) } := by rw [q.chanAt, ct]
  have nw : noteWrite u c p.dst (p.kind (pieceSource s p sa)) = u := by
    have : Tab.look (chanAt u c).rob p.dst = none := by
      rw [cu]
      rcases h.1 with e | ⟨l, e, ne, _⟩
      · simp [e]
      · simp [e, Tab.look, Ne.symm ne]
    simp only [noteWrite, this]
  have rp : runPiece s c p [] = (setChan u c (fun y => { y with parts := p.parts (pieceSource s p sa) ++ y.parts }),
      .data (leBytes 8 (writeApply (p.kind (pieceSource s p sa)) (lineBytes s da)).2)) := by
    simp only [runPiece, rl, dp, so, pl, nw, lb]
  set v := pieceDone (setChan u c (fun y => { y with parts := p.parts (pieceSource s p sa) ++ y.parts })) c [] [] with hv
  have cv : chanAt v c = { chanAt s c with prog := 1, parts := p.parts (pieceSource s p sa) } := by
    rw [hv, pieceDone, chanAt_setChan, chanAt_setChan, cu]
    simp only [pg, pt, List.append_nil]
    rw [show (chanAt s c).rob = [] from rb]
    simp
  have fl : flushPack v c = v := flushPack_none (by rw [cv, pk])
  have vs : v.sw = s.sw := (show v.sw = u.sw from rfl).trans (q.sw.trans sw)
  refine ⟨dropForager v c, p.parts (pieceSource s p sa), ⟨ls, v, ?_, ?_⟩, ?_, ?_⟩
  · rw [pg]
    have kb : keepBefore s c p.dst [] = s := by simp [keepBefore]
    simp only [List.drop_zero, runPieces, kb, List.flatMap_nil, rp]
    rfl
  · refine ⟨by rw [fl], ?_, ?_⟩
    · rw [fl]
      simpa only [remoteBusy, vs] using b.2.1
    · rw [fl, cv, ls]
  · show u.pr.mem = _
    rw [um]
    simp only [memAfter, lb, mm]
  · exact cv

end Sys2Proof.Laws
end

