-- ==== Sys2Proof/Laws/PerInstr.lean ====
section
/-! SUPPORT. A family of statements about every row as syntax: a row that a channel runs is well formed exactly when its
operand names one of the block's channels (R99). -/

namespace Sys2Proof.Laws

open Sys2Proof.Safety

/-- A row that a channel runs has the channel as its only operand, and every one of the 512 channels may run it. -/
def ChannelRows.Statement (i : Instr) : Prop := ∀ c, channelOf i = some c → (i.wf = true ↔ c < Config.channels)

theorem ChannelRows.of_channel {i : Instr} {c : Nat} (h : channelOf i = some c) (w : i.wf = chanOk c) :
    ChannelRows.Statement i := by
  intro d e
  obtain rfl : c = d := Option.some.inj (h.symm.trans e)
  simp [w, chanOk]

theorem ChannelRows.of_other {i : Instr} (h : channelOf i = none) : ChannelRows.Statement i :=
  fun _ e => nomatch h.symm.trans e

theorem ChannelRows.ret (c : Nat) : ChannelRows.Statement (.ret c) := ChannelRows.of_channel rfl rfl
theorem ChannelRows.moveSpan (c : Nat) : ChannelRows.Statement (.moveSpan c) := ChannelRows.of_channel rfl rfl
theorem ChannelRows.moveGset (c : Nat) : ChannelRows.Statement (.moveGset c) := ChannelRows.of_channel rfl rfl
theorem ChannelRows.moveTset (c : Nat) : ChannelRows.Statement (.moveTset c) := ChannelRows.of_channel rfl rfl
theorem ChannelRows.moveT (c : Nat) : ChannelRows.Statement (.moveT c) := ChannelRows.of_channel rfl rfl
theorem ChannelRows.gather (c : Nat) : ChannelRows.Statement (.gather c) := ChannelRows.of_channel rfl rfl
theorem ChannelRows.scatter (c : Nat) : ChannelRows.Statement (.scatter c) := ChannelRows.of_channel rfl rfl
theorem ChannelRows.fill (c : Nat) : ChannelRows.Statement (.fill c) := ChannelRows.of_channel rfl rfl
theorem ChannelRows.reduce (c : Nat) : ChannelRows.Statement (.reduce c) := ChannelRows.of_channel rfl rfl
theorem ChannelRows.convert (c : Nat) : ChannelRows.Statement (.convert c) := ChannelRows.of_channel rfl rfl
theorem ChannelRows.reduceCvt (c : Nat) : ChannelRows.Statement (.reduceCvt c) := ChannelRows.of_channel rfl rfl
theorem ChannelRows.atomAdd (c : Nat) : ChannelRows.Statement (.atomAdd c) := ChannelRows.of_channel rfl rfl
theorem ChannelRows.atomMax (c : Nat) : ChannelRows.Statement (.atomMax c) := ChannelRows.of_channel rfl rfl
theorem ChannelRows.atomMin (c : Nat) : ChannelRows.Statement (.atomMin c) := ChannelRows.of_channel rfl rfl
theorem ChannelRows.atomXchg (c : Nat) : ChannelRows.Statement (.atomXchg c) := ChannelRows.of_channel rfl rfl
theorem ChannelRows.atomCas (c : Nat) : ChannelRows.Statement (.atomCas c) := ChannelRows.of_channel rfl rfl
theorem ChannelRows.signal (c : Nat) : ChannelRows.Statement (.signal c) := ChannelRows.of_channel rfl rfl
theorem ChannelRows.wait (c : Nat) : ChannelRows.Statement (.wait c) := ChannelRows.of_channel rfl rfl
theorem ChannelRows.flush (c : Nat) : ChannelRows.Statement (.flush c) := ChannelRows.of_channel rfl rfl
theorem ChannelRows.cap (c : Nat) : ChannelRows.Statement (.cap c) := ChannelRows.of_channel rfl rfl
theorem ChannelRows.loop (c : Nat) : ChannelRows.Statement (.loop c) := ChannelRows.of_channel rfl rfl
theorem ChannelRows.br (c : Nat) : ChannelRows.Statement (.br c) := ChannelRows.of_channel rfl rfl
theorem ChannelRows.setp (c : Nat) : ChannelRows.Statement (.setp c) := ChannelRows.of_channel rfl rfl
theorem ChannelRows.ldG (c : Nat) : ChannelRows.Statement (.ldG c) := ChannelRows.of_channel rfl rfl
theorem ChannelRows.stG (c : Nat) : ChannelRows.Statement (.stG c) := ChannelRows.of_channel rfl rfl
theorem ChannelRows.call (c : Nat) : ChannelRows.Statement (.call c) := ChannelRows.of_channel rfl rfl
theorem ChannelRows.launch (c : Nat) : ChannelRows.Statement (.launch c) := ChannelRows.of_channel rfl rfl
theorem ChannelRows.launchQuery (c : Nat) : ChannelRows.Statement (.launchQuery c) := ChannelRows.of_channel rfl rfl
theorem ChannelRows.launchReservation (h : Nat) : ChannelRows.Statement (.launchReservation h) := ChannelRows.of_other rfl
theorem ChannelRows.hiveCreate (c : Nat) : ChannelRows.Statement (.hiveCreate c) := ChannelRows.of_channel rfl rfl
theorem ChannelRows.hiveResize (c : Nat) : ChannelRows.Statement (.hiveResize c) := ChannelRows.of_channel rfl rfl
theorem ChannelRows.hiveReset (c : Nat) : ChannelRows.Statement (.hiveReset c) := ChannelRows.of_channel rfl rfl
theorem ChannelRows.hiveDestroy (c : Nat) : ChannelRows.Statement (.hiveDestroy c) := ChannelRows.of_channel rfl rfl
theorem ChannelRows.colonyJoin (c : Nat) : ChannelRows.Statement (.colonyJoin c) := ChannelRows.of_channel rfl rfl
theorem ChannelRows.combGrantAttach (c : Nat) : ChannelRows.Statement (.combGrantAttach c) := ChannelRows.of_channel rfl rfl
theorem ChannelRows.combGrantRights (c : Nat) : ChannelRows.Statement (.combGrantRights c) := ChannelRows.of_channel rfl rfl
theorem ChannelRows.combGrantDetach (c : Nat) : ChannelRows.Statement (.combGrantDetach c) := ChannelRows.of_channel rfl rfl
theorem ChannelRows.keyDeriveLink (c : Nat) : ChannelRows.Statement (.keyDeriveLink c) := ChannelRows.of_channel rfl rfl
theorem ChannelRows.keyDeriveFingerprint (c : Nat) : ChannelRows.Statement (.keyDeriveFingerprint c) := ChannelRows.of_channel rfl rfl
theorem ChannelRows.ctxCreate (c : Nat) : ChannelRows.Statement (.ctxCreate c) := ChannelRows.of_channel rfl rfl
theorem ChannelRows.ctxKill (c : Nat) : ChannelRows.Statement (.ctxKill c) := ChannelRows.of_channel rfl rfl
theorem ChannelRows.queueBind (c : Nat) : ChannelRows.Statement (.queueBind c) := ChannelRows.of_channel rfl rfl
theorem ChannelRows.queueReset (c : Nat) : ChannelRows.Statement (.queueReset c) := ChannelRows.of_channel rfl rfl
theorem ChannelRows.queueUnbind (c : Nat) : ChannelRows.Statement (.queueUnbind c) := ChannelRows.of_channel rfl rfl
theorem ChannelRows.labelSet (c : Nat) : ChannelRows.Statement (.labelSet c) := ChannelRows.of_channel rfl rfl
theorem ChannelRows.invalidatePages (c : Nat) : ChannelRows.Statement (.invalidatePages c) := ChannelRows.of_channel rfl rfl
theorem ChannelRows.invalidateContext (c : Nat) : ChannelRows.Statement (.invalidateContext c) := ChannelRows.of_channel rfl rfl
theorem ChannelRows.invalidateObject (c : Nat) : ChannelRows.Statement (.invalidateObject c) := ChannelRows.of_channel rfl rfl
theorem ChannelRows.invalidateFence (c : Nat) : ChannelRows.Statement (.invalidateFence c) := ChannelRows.of_channel rfl rfl
theorem ChannelRows.resume (c : Nat) : ChannelRows.Statement (.resume c) := ChannelRows.of_channel rfl rfl
theorem ChannelRows.migrate (c : Nat) : ChannelRows.Statement (.migrate c) := ChannelRows.of_channel rfl rfl
theorem ChannelRows.migrateRoundDone (h : Nat) : ChannelRows.Statement (.migrateRoundDone h) := ChannelRows.of_other rfl
theorem ChannelRows.migrateDrainDone (h : Nat) : ChannelRows.Statement (.migrateDrainDone h) := ChannelRows.of_other rfl
theorem ChannelRows.migrateFreezeTimeout (h : Nat) : ChannelRows.Statement (.migrateFreezeTimeout h) := ChannelRows.of_other rfl
theorem ChannelRows.queryCtx (c : Nat) : ChannelRows.Statement (.queryCtx c) := ChannelRows.of_channel rfl rfl
theorem ChannelRows.queryHive (c : Nat) : ChannelRows.Statement (.queryHive c) := ChannelRows.of_channel rfl rfl
theorem ChannelRows.spareSwap (c : Nat) : ChannelRows.Statement (.spareSwap c) := ChannelRows.of_channel rfl rfl
theorem ChannelRows.spareSwapTimeout (uclass unit sub : Nat) : ChannelRows.Statement (.spareSwapTimeout uclass unit sub) := ChannelRows.of_other rfl
theorem ChannelRows.spareRetryTimer (m : Nat) : ChannelRows.Statement (.spareRetryTimer m) := ChannelRows.of_other rfl
theorem ChannelRows.moverQuietPoint (m : Nat) : ChannelRows.Statement (.moverQuietPoint m) := ChannelRows.of_other rfl
theorem ChannelRows.homeSideSwitch (m : Nat) : ChannelRows.Statement (.homeSideSwitch m) := ChannelRows.of_other rfl
theorem ChannelRows.lcQuery : ChannelRows.Statement .lcQuery := ChannelRows.of_other rfl
theorem ChannelRows.provBegin : ChannelRows.Statement .provBegin := ChannelRows.of_other rfl
theorem ChannelRows.provInject (sigOk sealOk keyOk : Bool) : ChannelRows.Statement (.provInject sigOk sealOk keyOk) := ChannelRows.of_other rfl
theorem ChannelRows.lcAdvance : ChannelRows.Statement .lcAdvance := ChannelRows.of_other rfl
theorem ChannelRows.ownerEnrol (sigOk : Bool) : ChannelRows.Statement (.ownerEnrol sigOk) := ChannelRows.of_other rfl
theorem ChannelRows.ownerRevoke (sigOk : Bool) : ChannelRows.Statement (.ownerRevoke sigOk) := ChannelRows.of_other rfl
theorem ChannelRows.dbgChallenge : ChannelRows.Statement .dbgChallenge := ChannelRows.of_other rfl
theorem ChannelRows.dbgUnlock (sigOk : Bool) : ChannelRows.Statement (.dbgUnlock sigOk) := ChannelRows.of_other rfl
theorem ChannelRows.dbgRelock : ChannelRows.Statement .dbgRelock := ChannelRows.of_other rfl
theorem ChannelRows.attest : ChannelRows.Statement .attest := ChannelRows.of_other rfl
theorem ChannelRows.arbCommit (otherSigOk : Bool) : ChannelRows.Statement (.arbCommit otherSigOk) := ChannelRows.of_other rfl
theorem ChannelRows.scrap (sigOk : Bool) : ChannelRows.Statement (.scrap sigOk) := ChannelRows.of_other rfl
theorem ChannelRows.warmReset : ChannelRows.Statement .warmReset := ChannelRows.of_other rfl
theorem ChannelRows.reboot : ChannelRows.Statement .reboot := ChannelRows.of_other rfl
theorem ChannelRows.pwrCap : ChannelRows.Statement .pwrCap := ChannelRows.of_other rfl
theorem ChannelRows.pwrQuery : ChannelRows.Statement .pwrQuery := ChannelRows.of_other rfl
theorem ChannelRows.imgStage : ChannelRows.Statement .imgStage := ChannelRows.of_other rfl
theorem ChannelRows.imgCheck (sigOk : Bool) : ChannelRows.Statement (.imgCheck sigOk) := ChannelRows.of_other rfl
theorem ChannelRows.setApply (sigA sigB : Bool) : ChannelRows.Statement (.setApply sigA sigB) := ChannelRows.of_other rfl
theorem ChannelRows.logRead : ChannelRows.Statement .logRead := ChannelRows.of_other rfl
theorem ChannelRows.waggleQuery : ChannelRows.Statement .waggleQuery := ChannelRows.of_other rfl
theorem ChannelRows.waggleSend : ChannelRows.Statement .waggleSend := ChannelRows.of_other rfl
theorem ChannelRows.registerWrite (bar off : Nat) (data : List Byte) : ChannelRows.Statement (.registerWrite bar off data) := ChannelRows.of_other rfl
theorem ChannelRows.doorbellWrite (page off be : Nat) (data : List Byte) : ChannelRows.Statement (.doorbellWrite page off be data) := ChannelRows.of_other rfl
theorem ChannelRows.faultAnswer (w : Word) : ChannelRows.Statement (.faultAnswer w) := ChannelRows.of_other rfl
theorem ChannelRows.eventConsumed (w : Word) : ChannelRows.Statement (.eventConsumed w) := ChannelRows.of_other rfl
theorem ChannelRows.faultConsumed (w : Word) : ChannelRows.Statement (.faultConsumed w) := ChannelRows.of_other rfl
theorem ChannelRows.routeReload (w : Word) : ChannelRows.Statement (.routeReload w) := ChannelRows.of_other rfl
theorem ChannelRows.windowEntryWrite (i : Nat) (w : Word) : ChannelRows.Statement (.windowEntryWrite i w) := ChannelRows.of_other rfl
theorem ChannelRows.apertureRead (off len : Nat) : ChannelRows.Statement (.apertureRead off len) := ChannelRows.of_other rfl
theorem ChannelRows.apertureWrite (off : Nat) (data : List Byte) : ChannelRows.Statement (.apertureWrite off data) := ChannelRows.of_other rfl
theorem ChannelRows.apertureAtomicop (bar off : Nat) (op : HostAtomic) (size operand compare : Nat) : ChannelRows.Statement (.apertureAtomicop bar off op size operand compare) := ChannelRows.of_other rfl
theorem ChannelRows.fenceWindowRead (off size : Nat) : ChannelRows.Statement (.fenceWindowRead off size) := ChannelRows.of_other rfl
theorem ChannelRows.inboundUnsupportedRequest (k : InboundKind) : ChannelRows.Statement (.inboundUnsupportedRequest k) := ChannelRows.of_other rfl
theorem ChannelRows.msixMessageSend (v : Nat) : ChannelRows.Statement (.msixMessageSend v) := ChannelRows.of_other rfl
theorem ChannelRows.atsTranslationCompletion (id : Nat) (a : AtsAnswer) : ChannelRows.Statement (.atsTranslationCompletion id a) := ChannelRows.of_other rfl
theorem ChannelRows.atsRequestTimeout (id : Nat) : ChannelRows.Statement (.atsRequestTimeout id) := ChannelRows.of_other rfl
theorem ChannelRows.atsInvalidationRequest (itag : Nat) (pasid : Option Nat) (va sizeLog2 : Nat) : ChannelRows.Statement (.atsInvalidationRequest itag pasid va sizeLog2) := ChannelRows.of_other rfl
theorem ChannelRows.prgResponse (pasid group : Nat) (code : PrgCode) : ChannelRows.Statement (.prgResponse pasid group code) := ChannelRows.of_other rfl
theorem ChannelRows.hostFlushReadCompletion (id : Nat) : ChannelRows.Statement (.hostFlushReadCompletion id) := ChannelRows.of_other rfl
theorem ChannelRows.pcieConventionalReset : ChannelRows.Statement .pcieConventionalReset := ChannelRows.of_other rfl
theorem ChannelRows.functionLevelReset : ChannelRows.Statement .functionLevelReset := ChannelRows.of_other rfl
theorem ChannelRows.slotFetch (q : Nat) : ChannelRows.Statement (.slotFetch q) := ChannelRows.of_other rfl
theorem ChannelRows.slotReadDone (q idx : Nat) : ChannelRows.Statement (.slotReadDone q idx) := ChannelRows.of_other rfl
theorem ChannelRows.preTranslate (q idx : Nat) : ChannelRows.Statement (.preTranslate q idx) := ChannelRows.of_other rfl
theorem ChannelRows.preTranslationTimeout (q idx : Nat) : ChannelRows.Statement (.preTranslationTimeout q idx) := ChannelRows.of_other rfl
theorem ChannelRows.dispatch (c : Nat) : ChannelRows.Statement (.dispatch c) := ChannelRows.of_other rfl
theorem ChannelRows.commandComplete (c : Nat) : ChannelRows.Statement (.commandComplete c) := ChannelRows.of_other rfl
theorem ChannelRows.abortSettleDone (c : Nat) : ChannelRows.Statement (.abortSettleDone c) := ChannelRows.of_other rfl
theorem ChannelRows.streamResponse (p : Nat) (write : Bool) (tag : Nat) (corr err poison : Bool) (m : RsData) : ChannelRows.Statement (.streamResponse p write tag corr err poison m) := ChannelRows.of_other rfl
theorem ChannelRows.streamRequestTimeout (t : TimedOut) : ChannelRows.Statement (.streamRequestTimeout t) := ChannelRows.of_other rfl
theorem ChannelRows.creditReturn (p req wd : Nat) : ChannelRows.Statement (.creditReturn p req wd) := ChannelRows.of_other rfl
theorem ChannelRows.initialCreditTimeout (p : Nat) : ChannelRows.Statement (.initialCreditTimeout p) := ChannelRows.of_other rfl
theorem ChannelRows.tableWalkDone (w : Nat) : ChannelRows.Statement (.tableWalkDone w) := ChannelRows.of_other rfl
theorem ChannelRows.pageFaultServiceTimeout (r : Requester) : ChannelRows.Statement (.pageFaultServiceTimeout r) := ChannelRows.of_other rfl
theorem ChannelRows.queueWatchdogExpiry (c : Nat) : ChannelRows.Statement (.queueWatchdogExpiry c) := ChannelRows.of_other rfl
theorem ChannelRows.waitTimeout (c : Nat) : ChannelRows.Statement (.waitTimeout c) := ChannelRows.of_other rfl
theorem ChannelRows.fenceCacheFillDone (f : Nat) : ChannelRows.Statement (.fenceCacheFillDone f) := ChannelRows.of_other rfl
theorem ChannelRows.fenceCacheWriteback (f : Nat) : ChannelRows.Statement (.fenceCacheWriteback f) := ChannelRows.of_other rfl
theorem ChannelRows.fenceTableSweepDone : ChannelRows.Statement .fenceTableSweepDone := ChannelRows.of_other rfl
theorem ChannelRows.resetEscalation (o : Overrun) : ChannelRows.Statement (.resetEscalation o) := ChannelRows.of_other rfl
theorem ChannelRows.clusterFault (n : Nat) : ChannelRows.Statement (.clusterFault n) := ChannelRows.of_other rfl
theorem ChannelRows.clusterPowerGood (n : Nat) : ChannelRows.Statement (.clusterPowerGood n) := ChannelRows.of_other rfl
theorem ChannelRows.clusterClearDone (n spadLog2 : Nat) : ChannelRows.Statement (.clusterClearDone n spadLog2) := ChannelRows.of_other rfl
theorem ChannelRows.clusterClearTimeout (n : Nat) : ChannelRows.Statement (.clusterClearTimeout n) := ChannelRows.of_other rfl
theorem ChannelRows.kernelEnd (n exit : Nat) (writes : List (Nat × Byte)) : ChannelRows.Statement (.kernelEnd n exit writes) := ChannelRows.of_other rfl
theorem ChannelRows.clusterInterrupt (n : Nat) : ChannelRows.Statement (.clusterInterrupt n) := ChannelRows.of_other rfl
theorem ChannelRows.resizeTimeout (h : Nat) : ChannelRows.Statement (.resizeTimeout h) := ChannelRows.of_other rfl
theorem ChannelRows.labelWindowBoundary (l : Nat) : ChannelRows.Statement (.labelWindowBoundary l) := ChannelRows.of_other rfl
theorem ChannelRows.meterRefresh : ChannelRows.Statement .meterRefresh := ChannelRows.of_other rfl
theorem ChannelRows.arbiterAgeExpiry (p : SharedPoint) (k : Nat) : ChannelRows.Statement (.arbiterAgeExpiry p k) := ChannelRows.of_other rfl
theorem ChannelRows.powerCapSample (readings : List PmbAnswer) : ChannelRows.Statement (.powerCapSample readings) := ChannelRows.of_other rfl
theorem ChannelRows.propolisRead (r : LineReq) : ChannelRows.Statement (.propolisRead r) := ChannelRows.of_other rfl
theorem ChannelRows.propolisWrite (r : LineReq) (k : WriteKind) : ChannelRows.Statement (.propolisWrite r k) := ChannelRows.of_other rfl
theorem ChannelRows.sliceOpeningDone (cell port : Nat) : ChannelRows.Statement (.sliceOpeningDone cell port) := ChannelRows.of_other rfl
theorem ChannelRows.memoryScrub (addr : Nat) (corr err poison : Bool) (m : Option RsData) : ChannelRows.Statement (.memoryScrub addr corr err poison m) := ChannelRows.of_other rfl
theorem ChannelRows.sramScrub (a : SramArray) (entry : Nat) (corr uncorr : Bool) : ChannelRows.Statement (.sramScrub a entry corr uncorr) := ChannelRows.of_other rfl
theorem ChannelRows.errorReport (u : ErrUnit) (k : ErrKind) : ChannelRows.Statement (.errorReport u k) := ChannelRows.of_other rfl
theorem ChannelRows.wearBucketRoll : ChannelRows.Statement .wearBucketRoll := ChannelRows.of_other rfl
theorem ChannelRows.wearCountSave : ChannelRows.Statement .wearCountSave := ChannelRows.of_other rfl
theorem ChannelRows.logPersist : ChannelRows.Statement .logPersist := ChannelRows.of_other rfl
theorem ChannelRows.swarmFrameReceive (link : Nat) (f : Frame) (tagOk : Bool) : ChannelRows.Statement (.swarmFrameReceive link f tagOk) := ChannelRows.of_other rfl
theorem ChannelRows.probe (link : Nat) : ChannelRows.Statement (.probe link) := ChannelRows.of_other rfl
theorem ChannelRows.ack (src : Nat) : ChannelRows.Statement (.ack src) := ChannelRows.of_other rfl
theorem ChannelRows.opn (src : Nat) : ChannelRows.Statement (.opn src) := ChannelRows.of_other rfl
theorem ChannelRows.close (src : Nat) : ChannelRows.Statement (.close src) := ChannelRows.of_other rfl
theorem ChannelRows.hello (link : Nat) (verified : Bool) : ChannelRows.Statement (.hello link verified) := ChannelRows.of_other rfl
theorem ChannelRows.keyx (link : Nat) : ChannelRows.Statement (.keyx link) := ChannelRows.of_other rfl
theorem ChannelRows.write (src seq : Nat) : ChannelRows.Statement (.write src seq) := ChannelRows.of_other rfl
theorem ChannelRows.writep (src seq : Nat) : ChannelRows.Statement (.writep src seq) := ChannelRows.of_other rfl
theorem ChannelRows.reduceFrame (src seq : Nat) : ChannelRows.Statement (.reduceFrame src seq) := ChannelRows.of_other rfl
theorem ChannelRows.atom (src seq : Nat) : ChannelRows.Statement (.atom src seq) := ChannelRows.of_other rfl
theorem ChannelRows.read (src seq : Nat) : ChannelRows.Statement (.read src seq) := ChannelRows.of_other rfl
theorem ChannelRows.waitFrame (src seq : Nat) : ChannelRows.Statement (.waitFrame src seq) := ChannelRows.of_other rfl
theorem ChannelRows.rdata (src seq : Nat) : ChannelRows.Statement (.rdata src seq) := ChannelRows.of_other rfl
theorem ChannelRows.resp (src seq : Nat) : ChannelRows.Statement (.resp src seq) := ChannelRows.of_other rfl
theorem ChannelRows.pcsLock (link : Nat) : ChannelRows.Statement (.pcsLock link) := ChannelRows.of_other rfl
theorem ChannelRows.pcsLockLoss (link : Nat) : ChannelRows.Statement (.pcsLockLoss link) := ChannelRows.of_other rfl
theorem ChannelRows.linkSilenceTimeout (link : Nat) : ChannelRows.Statement (.linkSilenceTimeout link) := ChannelRows.of_other rfl
theorem ChannelRows.holdDownEnd (link : Nat) : ChannelRows.Statement (.holdDownEnd link) := ChannelRows.of_other rfl
theorem ChannelRows.helloRepeat (link : Nat) : ChannelRows.Statement (.helloRepeat link) := ChannelRows.of_other rfl
theorem ChannelRows.keyxRepeat (link : Nat) : ChannelRows.Statement (.keyxRepeat link) := ChannelRows.of_other rfl
theorem ChannelRows.openRepeat (peer : Nat) : ChannelRows.Statement (.openRepeat peer) := ChannelRows.of_other rfl
theorem ChannelRows.probeInterval (link : Nat) : ChannelRows.Statement (.probeInterval link) := ChannelRows.of_other rfl
theorem ChannelRows.ackDelay (peer : Nat) : ChannelRows.Statement (.ackDelay peer) := ChannelRows.of_other rfl
theorem ChannelRows.retransmitTimeout (peer seq : Nat) : ChannelRows.Statement (.retransmitTimeout peer seq) := ChannelRows.of_other rfl
theorem ChannelRows.oldKeyRetire (link : Nat) : ChannelRows.Statement (.oldKeyRetire link) := ChannelRows.of_other rfl
theorem ChannelRows.sprayEnter (peer : Nat) : ChannelRows.Statement (.sprayEnter peer) := ChannelRows.of_other rfl
theorem ChannelRows.orderedReturn (peer : Nat) : ChannelRows.Statement (.orderedReturn peer) := ChannelRows.of_other rfl
theorem ChannelRows.flowIdleClose (peer : Nat) : ChannelRows.Statement (.flowIdleClose peer) := ChannelRows.of_other rfl
theorem ChannelRows.flowUnreachableTimeout (peer : Nat) : ChannelRows.Statement (.flowUnreachableTimeout peer) := ChannelRows.of_other rfl
theorem ChannelRows.forwardQueueTimeout (k : Nat) : ChannelRows.Statement (.forwardQueueTimeout k) := ChannelRows.of_other rfl
theorem ChannelRows.refclkLoss : ChannelRows.Statement .refclkLoss := ChannelRows.of_other rfl
theorem ChannelRows.refclkRestore : ChannelRows.Statement .refclkRestore := ChannelRows.of_other rfl
theorem ChannelRows.clockStartDemand (d : Dom) : ChannelRows.Statement (.clockStartDemand d) := ChannelRows.of_other rfl
theorem ChannelRows.clockLock (d : Dom) : ChannelRows.Statement (.clockLock d) := ChannelRows.of_other rfl
theorem ChannelRows.clockStartTimeout (d : Dom) : ChannelRows.Statement (.clockStartTimeout d) := ChannelRows.of_other rfl
theorem ChannelRows.clockIdleStop (d : Dom) : ChannelRows.Statement (.clockIdleStop d) := ChannelRows.of_other rfl
theorem ChannelRows.unitGate (u : GUnit) : ChannelRows.Statement (.unitGate u) := ChannelRows.of_other rfl
theorem ChannelRows.unitWake (u : GUnit) : ChannelRows.Statement (.unitWake u) := ChannelRows.of_other rfl
theorem ChannelRows.blockWarmReset : ChannelRows.Statement .blockWarmReset := ChannelRows.of_other rfl
theorem ChannelRows.coldReset : ChannelRows.Statement .coldReset := ChannelRows.of_other rfl
theorem ChannelRows.coldBoot (fwA fwB setA setB : Bool) : ChannelRows.Statement (.coldBoot fwA fwB setA setB) := ChannelRows.of_other rfl
theorem ChannelRows.brownOut : ChannelRows.Statement .brownOut := ChannelRows.of_other rfl
theorem ChannelRows.keeperWatchdogExpiry : ChannelRows.Statement .keeperWatchdogExpiry := ChannelRows.of_other rfl
theorem ChannelRows.drbgReseed : ChannelRows.Statement .drbgReseed := ChannelRows.of_other rfl
theorem ChannelRows.drbgHealthFail : ChannelRows.Statement .drbgHealthFail := ChannelRows.of_other rfl
theorem ChannelRows.challengeExpiry : ChannelRows.Statement .challengeExpiry := ChannelRows.of_other rfl
theorem ChannelRows.fuseVppTimeout : ChannelRows.Statement .fuseVppTimeout := ChannelRows.of_other rfl
theorem ChannelRows.presence : ChannelRows.Statement .presence := ChannelRows.of_other rfl
theorem ChannelRows.wake : ChannelRows.Statement .wake := ChannelRows.of_other rfl
theorem ChannelRows.capFrame : ChannelRows.Statement .capFrame := ChannelRows.of_other rfl
theorem ChannelRows.out : ChannelRows.Statement .out := ChannelRows.of_other rfl
theorem ChannelRows.echo : ChannelRows.Statement .echo := ChannelRows.of_other rfl
theorem ChannelRows.echoReply : ChannelRows.Statement .echoReply := ChannelRows.of_other rfl
theorem ChannelRows.waggleFrameReceive (wire : List Byte) : ChannelRows.Statement (.waggleFrameReceive wire) := ChannelRows.of_other rfl
theorem ChannelRows.presenceTimer : ChannelRows.Statement .presenceTimer := ChannelRows.of_other rfl
theorem ChannelRows.censusAgeOut (k : Nat) : ChannelRows.Statement (.censusAgeOut k) := ChannelRows.of_other rfl
theorem ChannelRows.waggleCapExpiry : ChannelRows.Statement .waggleCapExpiry := ChannelRows.of_other rfl
theorem ChannelRows.outWaitTimeout : ChannelRows.Statement .outWaitTimeout := ChannelRows.of_other rfl
theorem ChannelRows.dbgWinAccess (op space hive addr : Nat) (data : Word) : ChannelRows.Statement (.dbgWinAccess op space hive addr data) := ChannelRows.of_other rfl
theorem ChannelRows.tapMboxAccess (off : Nat) (isWrite : Bool) (data : Word) : ChannelRows.Statement (.tapMboxAccess off isWrite data) := ChannelRows.of_other rfl
theorem ChannelRows.tapTraceRead (x : TapScan) : ChannelRows.Statement (.tapTraceRead x) := ChannelRows.of_other rfl
theorem ChannelRows.hostReadCompletion (id : Nat) (ok : Bool) (data : List Byte) : ChannelRows.Statement (.hostReadCompletion id ok data) := ChannelRows.of_other rfl
theorem ChannelRows.fusePulseEnd (blown : Bool) : ChannelRows.Statement (.fusePulseEnd blown) := ChannelRows.of_other rfl
theorem ChannelRows.fuseVppOk : ChannelRows.Statement .fuseVppOk := ChannelRows.of_other rfl
theorem ChannelRows.priEnableChange (ats : Bool) (pri : Option Nat) : ChannelRows.Statement (.priEnableChange ats pri) := ChannelRows.of_other rfl
theorem ChannelRows.pciePowerStateChange (d3hot : Bool) : ChannelRows.Statement (.pciePowerStateChange d3hot) := ChannelRows.of_other rfl

end Sys2Proof.Laws
end

