-- ==== Sys2Proof/Tests/Slice0.lean ====
section
/-! SUPPORT. The package's own tests: terms that the checks of WellFormed refuse, worked examples of the spec, and for
every statement with premises a state and operands that meet them. -/

set_option Elab.async false
set_option linter.unusedVariables false
set_option maxRecDepth 20000
namespace Sys2Proof.Tests

open Sys2Proof Sys2Proof.Machine Sys2Proof.Safety

/-! ## Small states -/

/-- A comb of `n` granules from granule `base` with every right, under key selector `k`. -/
def comb (base n k : Nat) : Comb :=
  { valid := true, placement := 0, stack := 0, base := base, count := n, keySel := k, colAtom := true, colWr := true,
    colRd := true, locAtom := true, locWr := true, locRd := true }

/-- A leaf of the first 32 MiB of a context's addresses, on the first 32 MiB of the hive's granules. -/
def leaf (ctx hive : Nat) : Tlb :=
  { ctx := ctx, va := 0, sizeLog2 := 25, frame := 3 * 2 ^ 41 + hive * 2 ^ 32, host := false, rd := true, wr := true, atom := true,
    nopf := false, hive := hive, translated := false }

def anyHive : Hive :=
  { Hive.empty 1 with
    state := .active, elastic := true, colony := 7, clusterMax := 8, chCeiling := 16, chGuarantee := 1, labelCount := 4,
    vecCount := 2, ctxQuota := 8, queueQuota := 8, peerHi := 100, combs := [(0, comb 0 4 1)] }

def anyCtx (h : Nat) : Ctx := { Ctx.empty with state := .active, hive := h, pasid := 5 }

/-- One stack of 8 GiB on eight ports with credits, two clusters, one link; hives 0 and 1 and their contexts ACTIVE; slot 1 loaded. -/
def world : State :=
  let s := State.reset
  let s := s.onClk (fun c =>
    { c with cold := false, wgHold := true, hxDown := false, control := { c.control with req := true, ready := true }
             stream := { c.stream with req := true, ready := true } })
  let s := s.onKp (fun k =>
    { k with mbox := { k.mbox with bootStage := stageReady }, haveSettings := true
             settings := { k.settings with chipIdValid := true, chipId := 3, integ := 0x0001_0004_01_08_21_00 } })
  let s := s.onVault (fun v => { v with drbgOn := true, lc := .production })
  let s := setSlot s 1 (fun k => { k with loaded := true, gen := 1 })
  let s := setHive (setHive s 0 (fun _ => anyHive)) 1 (fun _ => { anyHive with labelFirst := 4, vecFirst := 2, combs := [(0, comb 4 2 1)] })
  let s := setCtx (setCtx s 0 (fun _ => anyCtx 0)) 1 (fun _ => anyCtx 1)
  let s := { s with ports := [0, 1, 2, 3, 4, 5, 6, 7, 64].map (fun p => (p, { Port.reset with creditReq := 9, creditWd := 9 })) }
  s.onXl (fun x => { x with l1 := [(0, [leaf 0 0, leaf 1 1])] })

/-- An instruction word: an opcode, and values at bit positions. -/
def ins (opc : Nat) (fs : List (Nat × Nat)) : Word := BitVec.ofNat 64 (opc * 2 ^ 56 + (fs.map (fun f => f.1 * 2 ^ f.2)).sum)

/-- A command of queue 0 at its first word. -/
def chan (ws : List Word) : Channel := { Channel.empty with state := .running, hive := 0, code := ws }

/-- The world with channel 0 at the first of some words, its registers set by `f`; the slices that hold addresses 0, 4096
and 8192 are open. -/
def runs (ws : List Word) (f : Channel → Channel := id) : State :=
  (setChan world 0 (fun _ => f (chan ws))).onPr (fun p => { p with slices := [0, 1, 2].map (fun k => (k, { Slice.fresh with state := .opened })) })

/-- A general register with a value. -/
def reg (i v : Nat) (x : Channel) : Channel := { x with g := x.g.set i (BitVec.ofNat 64 v) }

/-- Tile register 1 names one FP32 element at 4096; the other tile registers name one at 0. -/
def tile1 (x : Channel) : Channel := { x with t := x.t.set 1 [4096, 0, 0, 0] }

/-- The world with channel 0 waiting in an operation of the manager, and the manager's instruction address 4096. -/
def boss (opc : Nat) (fs : List (Nat × Nat)) (img : List Nat) : State :=
  (runs [ins opc fs] (reg 1 4096)).onPr (fun p =>
    { p with mem := cellWriteN 0 p.mem 4096 (bytesOf img), slices := [(sliceKey world 4096, { Slice.fresh with state := .opened })] })

/-- The block after the pieces of an instruction, the forager's walks for it given up. -/
def after (s : State) (c : Nat) (ps : List Piece) : State :=
  flushPack (runPieces s c [] (ps.drop (chanAt s c).prog)).1 c
theorem performed (s : State) (c : Nat) (ps : List Piece)
    (h : ((chanAt s c).lineStatus == none && (runPieces s c [] (ps.drop (chanAt s c).prog)).2 == some .ok &&
      !remoteBusy (after s c ps) c && (chanAt (after s c ps) c).lineStatus == none) = true) :
    Performed s c ps (dropForager (after s c ps) c) := by
  simp only [Bool.and_eq_true, beq_iff_eq, Bool.not_eq_true'] at h
  exact ⟨h.1.1.1, _, Prod.ext rfl h.1.1.2, rfl, h.1.2, h.2⟩

theorem get_ok {α : Type} (x : State × Except Status α) (h : x.2.toOption.isSome = true) :
    x = (x.1, .ok (x.2.toOption.get h)) := by
  obtain ⟨a, b⟩ := x
  cases b with
  | error e => exact nomatch (show false = true from h)
  | ok v => rfl
theorem entry_eq {α : Type} (x : α × Status × Nat × Nat) (h : x.2.1 = .ok ∧ x.2.2.2 = 0) : x = (x.1, .ok, x.2.2.1, 0) := by
  obtain ⟨a, b, c, d⟩ := x
  obtain ⟨rfl, rfl⟩ := h
  rfl
theorem snd_eq {α β : Type} (x : α × β) (b : β) (h : x.2 = b) : x = (x.1, b) := by subst h; rfl
theorem slot_ok {α : Type} (x : State × Except Status (Option α)) (h : (x.2.toOption.join).isSome = true) :
    x = (x.1, .ok (some ((x.2.toOption.join).get h))) := by
  obtain ⟨a, b⟩ := x
  match b, h with
  | .ok (some v), _ => rfl
theorem image (s : State) (c a n : Nat) (h : (imageOf s c a n).isSome = true) :
    imageOf s c a n = some (((imageOf s c a n).get h).1, ((imageOf s c a n).get h).2) := (Option.some_get h).symm

/-- Channel 0 at the first of some words, its registers set by `f`, and the slices that hold addresses 0, 4096 and
8192 open, with an index 1 at 4096. -/
def near0 (ws : List Word) (f : Channel → Channel) : State :=
  (runs ws f).onPr (fun p => { p with mem := [(4096, 1)], slices := [0, 1, 2].map (fun k => (k, { Slice.fresh with state := .opened })) })

/-- The rows that a `GATHER` or `SCATTER` makes of its operands and a plan. -/
def rows (x : Channel) (gi gn gl : Nat) (iw8 : Bool) (plan : Nat → Nat → Except Status (List Piece)) : RowOp :=
  { list := (x.greg gi).toNat % 2 ^ 57, width := if iw8 then 8 else 4, count := (x.greg gn).toNat
    limit := (x.greg gl).toNat, plan := plan }

/-- Tile register 1 names one FP32 element at 8192. -/
def tile8 (x : Channel) : Channel := { x with t := x.t.set 1 [8192, 0, 0, 0] }

/-- Fence 5, OPEN at 0, of hive 0 and context 0. -/
def fence5 : Fence := { Fence.ofWords 0 0 0 with state := .opened, hive := 0, waitHive := 255, sigCtx := 0, sigMode := false }
def withFence (s : State) : State := s.onQm (fun m => { m with fences := [(5, fence5)] })
def onFence (f : Fence → Fence) (s : State) : State := s.onQm (fun m => { m with fences := [(5, f fence5)] })

/-- The table entry of fence 5, which hive 1 signals, its fourth word as given; the fences beside it are cached, and the sweep
of hive 1's reset runs. -/
def tabled (w3 : Nat) : State :=
  ((runs []).onPr (fun p => { p with mem := cellWriteN 0 [] 160 (bytesOf [0, 2 ^ 54, 2 ^ 63 + 2 ^ 40, w3]) })).onQm
    (fun m => { m with fills := [(5, [])], fences := [(4, fence5), (6, fence5), (7, fence5)] })
def swept : State := ((tabled 0).onQm (fun m => { m with sweeping := true })).onHe (fun e =>
  { e with resets := [{ hive := 1, teardown := false, chan := none, cause := 0, detail := 0, step := 2, startTick := 0, noRecords := false }] })
def uncombed (s : State) : State := setHive s 0 (fun h => { h with combs := [] })

/-- Cluster 0 in hive 0. -/
def withCluster (k : Option Nat) (s : State) : State :=
  setCluster s 0 (fun x => { x with state := .assigned, hive := 0, kernel := k, iso := false, pwrEn := true, pwrGood := true })

def queued : State :=
  setHive (withCluster none world) 0 (fun h => { h with launchQ := [{ chan := 1, any := some 1, list := [] }] })

/-- The migration of hive 1 by channel 0, without cells or fences. -/
def mig (p : MigPhase) : MigJob :=
  { hive := 1, chan := 0, phase := p, dstChip := 9, dstHive := 1, maxRounds := 4, stopCells := 0, freezeMs := 10, pkgAddr := 0,
    label := 0, fences := [], pairs := [], round := 0, cells := [1, 2, 3], cellsFinal := 0, cellsTotal := 3, freezeTick := 0 }
def withMig (p : MigPhase) (s : State) : State := s.onHe (fun e => { e with migrations := [mig p] })

/-- Hive 1's entry 2 is a comb of the colony, under selector 0x100. -/
def withCommons (s : State) : State := setHive s 1 (fun h => { h with combs := Tab.put h.combs 2 (comb 6 1 0x100) })
/-- Link 0 UP to chip 9, and a route to chip 9 over it. -/
def withLink (s : State) : State :=
  s.onSw (fun w =>
    { w with links := [(0, { Link.down with state := .up, neighbour := 9, genTx := 1, genRx := 1, credit := [32, 32, 32, 32] })]
             routes := [(9, { valid := true, hops := 1, rto := 1, nextChip := 9, spray := 1, primary := 1 })] })

/-- One translation in the second-level cache. -/
def withWay (e : Tlb) (s : State) : State :=
  s.onXl (fun x => { x with l2 := [(0, { TlbSet.empty with ways := TlbSet.empty.ways.set 0 (some e) })] })
/-- The second-level cache holds the first leaves of contexts 0 and 1. -/
def withL2 (s : State) : State :=
  s.onXl (fun x => { x with l2 := [0, 1].map (fun n => (n, { TlbSet.empty with ways := TlbSet.empty.ways.set 0 (some (leaf n n)) })) })

/-- Unit 3 of mover 3's substitution by spare 64. -/
def withSwap (chan : Option Nat) (sleeping : Bool) (s : State) : State :=
  s.onBr (fun b => { b with substs :=
    [{ uclass := 0, unit := 0, sub := 3, chan := chan, spare := 64, retries := 0, sleeping := sleeping }] })
/-- A substitution of unit 5 of class 2 that has not finished. -/
def withUnit (s : State) : State :=
  s.onBr (fun b => { b with substs := [{ uclass := 2, unit := 0, sub := 5, chan := none, spare := 288, retries := 0, sleeping := false }] })

/-- The pages of a binding were all found. -/
def isGood (e : PageEnd) : Bool := match e with | .good => true | _ => false
theorem good_of (e : PageEnd) (h : isGood e = true) : e = .good := by
  cases e <;> simp_all [isGood]

/-- An access that ended well. -/
def isOk {ε : Type} (e : Except ε Unit) : Bool := match e with | .ok _ => true | .error _ => false
theorem ok_of {ε : Type} (e : Except ε Unit) (h : isOk e = true) : e = .ok () := by
  cases e <;> simp_all [isOk]

/-- A record of `n` bytes whose bytes are open: what the write answers turns on its length alone. -/
def padded (bs : List Byte) (n : Nat) : List Byte := List.ofFn (fun i : Fin n => bs.getD i.val 0)
theorem padded_eq (bs : List Byte) (n : Nat) (h : bs.length = n) : bs = padded bs n := by
  subst h
  apply List.ext_getElem <;> simp [padded]
theorem answers_ok {ε : Type} (e : State × Except ε Unit) (h : isOk e.2 = true) : e = (e.1, .ok ()) := snd_eq _ _ (ok_of _ h)
theorem record_ok (t : State) (c a n : Nat) (bs : List Byte) (hl : bs.length = n)
    (h : isOk (recordWrite t c a (padded bs n) (linesOf a n)).2 = true) :
    recordWrite t c a bs (linesOf a bs.length) = ((recordWrite t c a bs (linesOf a bs.length)).1, .ok ()) := by
  subst hl
  rw [← padded_eq bs _ rfl] at h
  exact snd_eq _ _ (ok_of _ h)
theorem fingerprintRecord_length (s : State) (h : Nat) : (fingerprintRecord s h).length = 64 := by
  simp [fingerprintRecord, fingerprint, bytesOf, leBytes]
theorem lines_ok (s : State) (c a n : Nat) (w : Need) (bs : List Byte) (hl : bs.length = n)
    (h : isOk (imageLines s c w (linesOf a n)).2 = true) :
    imageLines s c w (linesOf a bs.length) = ((imageLines s c w (linesOf a bs.length)).1, .ok ()) := by
  subst hl; exact snd_eq _ _ (ok_of _ h)

/-- A command of the mailbox at its point of effect, its arguments in 8-byte words. -/
def mbx (op : Nat) (args : List Nat) : State :=
  world.onKp (fun k =>
    { k with mbox := { k.mbox with busy := true, op := op, argLen := 8 * args.length, args := cellWriteN 0 [] 0 (bytesOf args) } })
/-- The same in RECOVERY. -/
def recovering (op : Nat) : State := (mbx op []).onKp (fun k => { k with mbox := { k.mbox with bootStage := stageRecovery } })
def lcState (l : LcState) (s : State) : State := s.onVault (fun v => { v with lc := l })

/-- Root 0 is enrolled with a key of zeros, and a challenge is open. -/
def rooted (s : State) : State :=
  s.onVault (fun v =>
    { v with challenge := some [], fuses := { v.fuses with
        enrolled := [1, 1, 1], owner := [leNat (digest (List.replicate 96 0)), 0, 0, 0] } })

theorem rights_ok (s : State) (t : List Byte) (l : s.vault.lc = .production) (n : tkNat t 8 8 = s.vault.fuses.serial)
    (r : rootLive s (tkNat t 3 1) = true)
    (k : leNat (digest ((t.drop 0x20).take 96)) = nth s.vault.fuses.owner (tkNat t 3 1) 0) : tokenRights s t true = true := by
  simp [tokenRights, rootMatches, l, n, r, k]
theorem key_eq (t : List Byte) (o : List Nat) (i : Nat) (h : (t.drop 0x20).take 96 = List.replicate 96 0)
    (e : nth o i 0 = leNat (digest (List.replicate 96 0))) : leNat (digest ((t.drop 0x20).take 96)) = nth o i 0 := by
  rw [h, e]

/-- A device token of root 0, and a token of hive 1 with a permission. -/
def token (perms : Nat) : List Nat := [1 + 2 ^ 8 + 255 * 2 ^ 16 + perms * 2 ^ 32] ++ List.replicate 27 0

/-- A fuse sequence in progress. -/
def blowing (k : BlowKind) (todo : List FuseBit) (pulses : Nat) (vpp : Bool) : State :=
  (mbx 0x4 []).onVault (fun v => { v with blow := some { kind := k, todo := todo, pulses := pulses, vpp := vpp } })

/-- A device root key that passes its check. -/
def drked (s : State) : State :=
  s.onVault (fun v =>
    { v with fuses := { v.fuses with drk := 5, drkChk := leNat ((digest (leBytes 48 5)).take 4) } })
theorem drk_ok (s : State) : drkOk (drked s) = true := by
  simp only [drkOk, drked, State.onVault, beq_self_eq_true, Bool.and_true]; decide +kernel

theorem read_past (d : Byte) (m : List Host.Cell) (x : Nat) : ∀ pre : List Host.Cell, (∀ e ∈ pre, e.1 < x) →
    cellRead d (pre ++ m) x = cellRead d m x
  | [], _ => rfl
  | (a, b) :: r, h => by
    have h0 : a < x := h (a, b) List.mem_cons_self
    have := read_past d m x r (fun e he => h e (List.mem_cons_of_mem _ he))
    simp [cellRead, Nat.ne_of_gt h0, Nat.not_lt.mpr (Nat.le_of_lt h0), this]
theorem read_at (d : Byte) : ∀ (bs : List Byte) (a i : Nat) (h : i < bs.length),
    cellRead d ((bs.zipIdx a).map (fun e => (e.2, e.1))) (a + i) = bs[i]
  | b :: r, a, 0, _ => by simp [cellRead]
  | b :: r, a, i + 1, h => by
    have := read_at d r (a + 1) i (by simpa using h)
    rw [show a + 1 + i = a + (i + 1) from by omega] at this
    simp [cellRead, this]
theorem read_run (d : Byte) (pre : List Host.Cell) (bs : List Byte) (a : Nat) (h : ∀ e ∈ pre, e.1 < a) :
    cellReadN d (pre ++ (bs.zipIdx a).map (fun e => (e.2, e.1))) a bs.length = bs := by
  apply List.ext_getElem (by simp [cellReadN])
  intro i h1 h2
  simp only [cellReadN, List.getElem_map, List.getElem_range]
  rw [read_past d _ _ pre (fun e he => by have := h e he; omega), read_at d bs a i h2]

/-- A valid settings image for the world's package: its header, and its body. -/
def imageHeader (g : Nat) : List Nat := [Config.imgMagic + 2 * 2 ^ 32 + 2 ^ 40 + g * 2 ^ 48, 0x510] ++ List.replicate 30 0
def imageBody : List Nat :=
  [2 ^ 48 + 3 * 2 ^ 32 + 2 ^ 31, 0x0001_0004_01_08_21_00, 2 ^ 56 + 100 * 2 ^ 32 + 1000 * 2 ^ 16, 16 * 2 ^ 32 + 1,
   4 * 2 ^ 32 + 2, 8 * 2 ^ 48 + 8 * 2 ^ 32 + 100, 0, 0, 0, 2 ^ 25, 2 ^ 20, 0x120000, 0x180000, 0x140000, 2 ^ 56, 0,
   2 ^ 63 + 4 * 2 ^ 16 + 255, 7] ++ List.replicate 30 0 ++
  [0, 3 * 2 ^ 41 + 2 ^ 26, 0, 0, 0, 0, 0, 0] ++
  [6 * 2 ^ 16 + 1, 3 * 2 ^ 41 + 2 ^ 26 + 2 ^ 16, 3 * 2 ^ 41 + 2 ^ 26 + 2 ^ 17, 50 * 2 ^ 32, 0, 0, 0, 0] ++ List.replicate 98 0
def imageCells (g : Nat) : List Host.Cell :=
  ((bytesOf (imageHeader g ++ imageBody)).zipIdx 0x80000).map (fun e => (e.2, e.1))
def settled (s : State) : State := rooted (s.onKp (fun k => { k with flash := imageCells 0 }))
theorem bytesOf_length : ∀ ws : List Nat, (bytesOf ws).length = 8 * ws.length
  | [] => rfl
  | w :: r => by
    have := bytesOf_length r
    simp only [bytesOf, List.flatMap_cons, List.length_append, List.length_cons] at *
    rw [this, show (leBytes 8 w).length = 8 from by simp [leBytes]]; omega
theorem cells_split (g : Nat) : imageCells g = ((bytesOf (imageHeader g)).zipIdx 0x80000).map (fun e => (e.2, e.1)) ++
    ((bytesOf imageBody).zipIdx 0x80100).map (fun e => (e.2, e.1)) := by
  have : 0x80000 + (bytesOf (imageHeader g)).length = 0x80100 := by rw [bytesOf_length]; rfl
  simp only [imageCells, bytesOf, List.flatMap_append, List.zipIdx_append, List.map_append] at *
  rw [this]
theorem header_low (g : Nat) : ∀ e ∈ ((bytesOf (imageHeader g)).zipIdx 0x80000).map (fun e => (e.2, e.1)), e.1 < 0x80100 := by
  have n : (bytesOf (imageHeader g)).length = 256 := by rw [bytesOf_length]; rfl
  intro e he
  obtain ⟨⟨b, i⟩, hb, rfl⟩ := List.mem_map.mp he
  have := List.snd_lt_add_of_mem_zipIdx hb
  simp only at *; omega
theorem settled_body (s : State) (h : bodyLen (header (settled s) 2 0) = (bytesOf imageBody).length) :
    bodyOf (settled s) 2 0 (header (settled s) 2 0) = bytesOf imageBody := by
  simp only [bodyOf, flashRead, h, show (settled s).kp.flash = imageCells 0 from rfl, cells_split]
  exact read_run _ _ _ _ (header_low 0)
theorem settled_ok (s : State) (h : bodyLen (header (settled s) 2 0) = (bytesOf imageBody).length ∧
    settingsOk (settled s) (bytesOf imageBody) = true) :
    settingsOk (settled s) (bodyOf (settled s) 2 0 (header (settled s) 2 0)) = true := by
  rw [settled_body _ h.1]; exact h.2
theorem image_preferred (u : State) (l : u.vault.lc = .production) (r : rootLive u 0 = true) (h : headerOk u 2 0 = true)
    (g : hdr (header u 2 0) 6 1 = 0 ∧ ((header u 2 0).drop 0x20).take 96 = List.replicate 96 0)
    (k : settingsOk u (bodyOf u 2 0 (header u 2 0)) = true)
    (o : nth u.vault.fuses.owner 0 0 = leNat (digest (List.replicate 96 0))) :
    preferred u 2 (copyValid u 2 0 true) (copyValid u 2 1 false) = some 0 := by
  have e : signerOk u 2 0 = true := by simp [signerOk, l, g.1, g.2, rootMatches, r, o]
  simp [copyValid, preferred, h, e, k]

/-- Slot 0 of queue 7, at address 4096 of a context, fetched as far as a stage. -/
def withCmd (st : Stage) (ctx : Nat) (s : State) : State :=
  (setQueue (withL2 s) 7 (fun x => { x with state := .running, ctx := ctx, ringLog2 := 6, ringBase := 4096, tail := 1 })).onQm
    (fun m => { m with cmds := [{ q := 7, idx := 0, ctx := ctx, stage := st, words := [], owed := [], hostDone := 0 }] })

/-- What an access answered. -/
def got {ε α : Type} [DecidableEq α] (e : Except ε α) (a : α) : Bool := match e with | .ok x => x == a | .error _ => false
theorem got_of {ε α : Type} [DecidableEq α] (e : Except ε α) (a : α) (h : got e a = true) : e = .ok a := by
  cases e <;> simp_all [got]
theorem bad_of {α : Type} (e : Except Status α) (x : Status) (h : (match e with | .error y => y == x | .ok _ => false) = true) :
    e = .error x := by
  cases e <;> simp_all

/-- Window 0 shows hive 0's first granule. -/
def withWindow (s : State) : State := s.onHp (fun p => { p with windows := [(0, { valid := true, whive := 0, granule := 0 })] })

/-- A pending message of vector 1 of hive 0, its table entry as given. -/
def withMsg (charged masked : Bool) (s : State) : State :=
  (s.onSq (fun q => { q with msgs := [{ vector := 1, hive := 0, held := false, charged := charged }] })).onHp
    (fun p => { p with msix := [(1, { addr := 64, data := 9, masked := masked })] })

/-- A read of the line at 4096 under slot 1, and the world with its port set by `f`. -/
def lreq : LineReq := { origin := .hostPort 0, hive := 0, keySel := 1, label := 0, level := 0, addr := 4096 }
def hreq : HomeReq := { req := lreq, kind := none, second := none, raw := [] }
def port (f : Port → Port) : State := setPort world (homePort world 4096) f
/-- A port that has had no credit. -/
def bareport (p : Nat) : State := setPort world p (fun x => { x with creditReq := 0, creditWd := 0 })
def slice4096 (st : SliceState) (s : State) : State :=
  s.onPr (fun p => { p with slices := [(sliceKey world 4096, { Slice.fresh with state := st })] })

/-- A read under tag 3 at the port of 4096, under a slot whose H is the unit of GHASH's field. -/
def reading (f : HomeReq → HomeReq) : State :=
  setSlot (slice4096 .opened (port (fun x => { x with reads := [{ tag := 3, home := f hreq, line := [], old := 0 }] }))) 1
    (fun k => { k with hashKey := 0x80 :: List.replicate 15 0 })
def wreq : HomeReq := { hreq with kind := some (.whole (List.replicate 128 7)) }
def scrubs (h : HomeReq) : HomeReq := { h with req := { lreq with origin := .scrubber } }

/-- A fault record of channel 0, and the states of the host's answers. -/
def frec : FaultRec :=
  { index := 0, kind := .notPresent, ctx := 0, page := 0, access := .read, va := 0, reqs := [.chan 0], repeats := 0, level := 3 }
def withFault (s : State) : State := s.onXl (fun x => { x with faults := [frec], faultNext := 1 })
def want : Want := { r := .chan 0, access := .read, va := 0 }
def withWalk (seq : Nat) (s : State) : State :=
  s.onXl (fun x => { x with walks := [{ id := 3, ctx := 0, va := 0, seq := seq, wants := [want], forager := [] }] })
def withPriAnswered (s : State) : State :=
  (s.onXl (fun x => { x with pri := [{ group := some 2, pasid := 5, ctx := 0, page := 0, answered := true }] })).onHp (fun h => { h with pasids := [(5, 0)] })
def withAts (s : State) : State :=
  s.onXl (fun x => { x with atsReqs := [{ id := 3, ctx := 0, pasid := 5, va := 0, seq := 0, leaf := { leaf 0 0 with host := true }, wants := [want], forager := [] }] })
def withPri (s : State) : State :=
  (s.onXl (fun x => { x with pri := [{ group := some 2, pasid := 5, ctx := 0, page := 0, answered := false }] })).onHp (fun h => { h with pasids := [(5, 0)] })
def hjob : HiveJob :=
  { hive := 1, teardown := false, chan := none, cause := 0, detail := 0, step := 3, startTick := 0, noRecords := false }
def txn : Txn := { id := 4, peer := 9, seq := 0, chan := 2, kind := .write 0, addr := 0, lines := 1 }

/-- A flow with chip 9 under epoch 1, set by `f`; a frame of chip 9 for this chip; and a frame accepted but not performed. -/
def withFlow (f : Flow → Flow) (s : State) : State := s.onSw (fun w => { w with flows := [(9, f { Flow.new 1 with opened := true, cum := 1 })] })
def frame (ftype w4 opf : Nat) (payload : List Byte) : Frame :=
  { requestFrame world 3 ftype 0 1 w4 opf payload with src := 9, seq := 1, colony := 7 }
def withRx (f : Frame) (s : State) : State :=
  withFlow id (s.onSw (fun w => { w with rx := [{ link := 0, frame := f }] }))
/-- An answer of chip 9 to transaction 0 of a channel. -/
def answered (ftype w4 : Nat) (kind : TxnKind) : State :=
  withRx (frame ftype w4 0 []) ((withLink world).onSw (fun w => { w with txns := [{ txn with kind := kind }] }))
def linked (f : Link → Link) : State := setLink (withLink world) 0 f
/-- A world whose link 0 has not been trained. -/
def unwired : State := linked (fun _ => { Link.down with locked := true })
/-- A frame of chip 9 under link 0's key, for a chip, with hops left. -/
def ff (dst hops : Nat) : Frame := { frame 6 0 0 (List.replicate 128 7) with dst := dst, hops := hops, kph := 1, lctr := 5 }
def ctl (ftype opf : Nat) (payload : List Byte) : Frame :=
  { ff 3 3 with ftype := ftype, opf := opf, payload := payload, plen := payload.length / 16, srcHive := 0, colony := 0 }
/-- Link 0 in TRAINING, with the peer's HELLO of chip 9 under the usable root 0. -/
def peerHello : List Byte := [9, 0, 0, 0] ++ List.replicate 252 0
def hailed (payload : List Byte) : State :=
  withRx (frame 4 0 (2 ^ 31) []) (rooted (linked (fun x => { x with state := .training, peerHello := payload })))
def rxOnly (f : Frame) : State := (withLink world).onSw (fun w => { w with rx := [{ link := 0, frame := f }] })
theorem hailed_root : rootUsable (hailed peerHello) (leNat (((linkAt (hailed peerHello) 0).peerHello.drop 3).take 1))
    (((linkAt (hailed peerHello) 0).peerHello.drop 0x70).take 96) = true := by
  rw [show ((linkAt (hailed peerHello) 0).peerHello.drop 0x70).take 96 = List.replicate 96 0 by decide +kernel,
    show leNat (((linkAt (hailed peerHello) 0).peerHello.drop 3).take 1) = 0 by decide +kernel]
  simp [rootUsable, show (hailed peerHello).vault.lc = .production from rfl,
    show (hailed peerHello).vault.fuses.owner = [leNat (digest (List.replicate 96 0)), 0, 0, 0] from rfl,
    show (hailed peerHello).vault.fuses.enrolled = [1, 1, 1] from rfl,
    show (hailed peerHello).vault.fuses.revoked = State.reset.vault.fuses.revoked from rfl]
  exact ⟨by decide +kernel, rfl⟩
def power (f : PmbEntry) (s : State) : State :=
  s.onKp (fun k => { k with settings := { k.settings with pmb := [f] } })
def meter : PmbEntry := { addr := 1, page := 0, cmd := 0x97, role := 0, fmt := 0 }
def setting0 : LabelSetting :=
  { label := 1, guar := 1, ceil := 2, prio := 0, win := 0, missEv := false, stat := false, irqMax := 0 }
def rjob (removed : List Nat) : ResizeJob := { hive := 1, chan := 0, added := [], removed := removed, labels := [] }
def wfr (t n : Nat) : WFrame :=
  { dst := 3, src := 9, wtype := t, whops := 3, wseq := 1, wbcast := false, wnoid := false, payload := List.replicate n 1 }
theorem heard_of (f : WFrame) (h : readWaggle (wireWaggle f) = some f) : readWaggle (wireWaggle f) = some f := h
def withWaggle (f : WFrame) : State := onWaggle world (fun w => { w with rx := [f] })
def clocked (c : ClockSt) (s : State) : State := s.onClk (fun k => { k with control := c, stream := c })
def starting (second : Bool) : State := clocked { req := true, second := second, ready := false } world
/-- The stream clock has locked; its ports are ready or left out. -/
def dueports : State :=
  { world.onClk (fun k => { k with portsDue := true, stream := { k.stream with ready := false } }) with
    ports := (List.range 8).map (fun p => (p, { Port.reset with initial := true })) }
def warming (done : Bool) (s : State) : State := s.onKp (fun k => { k with warm := some { keepPcie := true, clearing := false, stepsDone := done } })

def clearing (s : State) : State := s.onKp (fun k => { k with warm := some { keepPcie := true, clearing := true, stepsDone := false } })
def banded : State := world.onKp (fun k => { k with settings := { k.settings with bandGib := 1 } })
def bare (s : State) : State := s.onKp (fun k => { k with settings := { k.settings with integ := 0x0001_0000_01_08_21_00 } })

/-- A BLANK package whose images are signed with the vendor's keys: the bytes of the firmware key are open. -/
def fwBytes : List Byte :=
  bytesOf [Config.imgMagic + 2 ^ 32 + 2 ^ 40 + 0xFE * 2 ^ 48, 1, 0, 0] ++ padded (Config.freeBytes 0 96) 96 ++ List.replicate 129 0
def bootable : State :=
  State.reset.onKp (fun k => { k with flash := fwBytes.zipIdx.map (fun e => (e.2, e.1)) ++ imageCells 0xFD })
/-- The cold boot of `bootable` at a stage, its fuses sensed. -/
def bootAt (n : Nat) (clock : Bool) : State :=
  (bootable.onKp (fun k => { k with sensed := true, mbox := { k.mbox with bootStage := n } })).onClk (fun c =>
    { c with control := { c.control with ready := clock } })
def fwKey : List Byte := ((header (bootAt 1 true) 1 0).drop 0x20).take 96
theorem fw_signer (b : Bool) (h : digest fwKey = Config.vendorKeyHash 1) : signerOk (bootAt 1 b) 1 0 = true := by
  have g : hdr (header (bootAt 1 true) 1 0) 6 1 = 0xFE := by decide +kernel
  have e : header (bootAt 1 b) 1 0 = header (bootAt 1 true) 1 0 := rfl
  unfold fwKey at h
  simp [signerOk, e, g, h]
theorem fw_preferred (h : digest fwKey = Config.vendorKeyHash 1) :
    preferred (bootAt 1 true) 1 (copyValid (bootAt 1 true) 1 0 true) (copyValid (bootAt 1 true) 1 1 false) = some 0 := by
  have a : headerOk (bootAt 1 true) 1 0 = true := by decide +kernel
  simp [copyValid, preferred, a, fw_signer true h]
theorem blank_preferred (u : State) (l : u.vault.lc = .blank) (h : headerOk u 2 0 = true)
    (g : hdr (header u 2 0) 6 1 = 0xFD ∧ ((header u 2 0).drop 0x20).take 96 = List.replicate 96 0)
    (k : settingsOk u (bodyOf u 2 0 (header u 2 0)) = true) (o : digest (List.replicate 96 0) = Config.vendorKeyHash 2) :
    preferred u 2 (copyValid u 2 0 true) (copyValid u 2 1 false) = some 0 := by
  have e : signerOk u 2 0 = true := by
    simp only [signerOk, l, g.1, g.2, o]
    simp
  simp [copyValid, preferred, h, e, k]

/-- The state in which the boot of `bootable` chooses its settings image. -/
def booted : State := bootAt 2 true
theorem booted_blank : booted.vault.lc = .blank := by decide +kernel
theorem booted_header : headerOk booted 2 0 = true := by decide +kernel
theorem booted_signer : hdr (header booted 2 0) 6 1 = 0xFD := by decide +kernel
theorem booted_key : ((header booted 2 0).drop 0x20).take 96 = List.replicate 96 0 := by decide +kernel
theorem booted_asks (b : Bool) (o : digest (List.replicate 96 0) = Config.vendorKeyHash 2) : asksEngine (bootAt 2 b) 2 0 = true := by
  have e : header (bootAt 2 b) 2 0 = header booted 2 0 := rfl
  have h : headerOk (bootAt 2 b) 2 0 = headerOk booted 2 0 := rfl
  have l : (bootAt 2 b).vault.lc = .blank := rfl
  have g : signerOk (bootAt 2 b) 2 0 = true := by
    simp only [signerOk, e, l, booted_signer, booted_key, o]
    simp
  simp [asksEngine, h, g, booted_header]
theorem booted_flash : booted.kp.flash = fwBytes.zipIdx.map (fun e => (e.2, e.1)) ++ imageCells 0xFD := rfl
theorem booted_bytes : bodyOf booted 2 0 (header booted 2 0) = bytesOf imageBody := by
  have n : bodyLen (header booted 2 0) = (bytesOf imageBody).length := by decide +kernel
  simp only [bodyOf, flashRead, n, booted_flash, cells_split]
  rw [← List.append_assoc]
  exact read_run _ _ _ _ (by
    intro e he
    rcases List.mem_append.mp he with h | h
    · have : ∀ e ∈ fwBytes.zipIdx.map (fun e => (e.2, e.1)), e.1 < 0x80100 := by decide +kernel
      exact this e h
    · exact header_low 0xFD e h)
theorem booted_body : settingsOk booted (bodyOf booted 2 0 (header booted 2 0)) = true := by rw [booted_bytes]; decide +kernel
theorem booted_valid (o : digest (List.replicate 96 0) = Config.vendorKeyHash 2) :
    preferred booted 2 (copyValid booted 2 0 true) (copyValid booted 2 1 false) = some 0 :=
  blank_preferred booted booted_blank booted_header ⟨booted_signer, booted_key⟩ booted_body o

/-- No line of the kinds that need a right waits at a line: whether it waits does not turn on the bytes it carries. -/
def noWait (s : State) (k a : Nat) (n : Need) : Bool :=
  [none, some (.whole []), some (.partialWrite []), some (.reduce .sum 0 0 0 0 []), some (.atomic .add false false 0 0 0)].all
    (fun w => (w.map needOf).getD .rd != n || !mustWait s k a w)
theorem no_wait (s : State) (k a : Nat) (n : Need) (h : noWait s k a n = true) (w : Option WriteKind)
    (e : (w.map needOf).getD .rd = n) : mustWait s k a w = false := by
  subst e
  simp only [noWait, List.all_cons, List.all_nil, Bool.and_true, Bool.and_eq_true, Bool.or_eq_true, bne_iff_ne, ne_eq,
    Bool.not_eq_true', Option.map_none, Option.map_some, Option.getD_none, Option.getD_some, needOf] at h
  obtain ⟨h0, h1, h2, h3, h4⟩ := h
  match w with
  | none => exact h0.resolve_left (fun x => x rfl)
  | some (.whole _) => exact h1.resolve_left (fun x => x rfl)
  | some (.partialWrite _) => exact h2.resolve_left (fun x => x rfl)
  | some (.reduce _ _ _ _ _ _) => exact h3.resolve_left (fun x => x rfl)
  | some (.atomic _ _ _ _ _ _) => exact h4.resolve_left (fun x => x rfl)

/-- A line that stands at its own address, in reach. -/
def near (s : State) (c va : Nat) (n : Need) : Bool :=
  decide (va < 2 ^ 57) && ((Tab.look s.xl.l1 (c / 8)).getD []).any (fun e => e.covers (chanAt s c).ctx va &&
    (match useTlb e va n with | .dev pa => paChip pa == chipId s && paLocal pa == va | _ => false)) &&
  (match combFor s (chanAt s c).hive va with | some k => k.permits n && (slotAt s k.keySel).loaded && noWait s k.keySel va n | none => false) &&
  decide ((sliceAt s va).state = .opened ∧ condOf s va = .good ∧ (portAt s (homePort s va)).leftOut = false ∧
    holdsTurn s (.channel c) va = false)
theorem reach (s : State) (c va : Nat) (n : Need) (h : near s c va n = true) : InReach s c va n va := by
  simp only [near, Bool.and_eq_true, decide_eq_true_eq, List.any_eq_true] at h
  obtain ⟨⟨⟨a, e, he, hc, hu⟩, hk⟩, ho⟩ := h
  refine ⟨a, ⟨e, he, hc, ?_⟩, ?_, ho⟩
  · split at hu
    · exact ⟨_, ‹_›, by simpa using hu⟩
    · cases hu
  · split at hk
    · simp only [Bool.and_eq_true] at hk
      exact ⟨_, ‹_›, hk.1.1, hk.1.2, no_wait _ _ _ _ hk.2⟩
    · cases hk
def fresh0 (s : State) (c : Nat) : Bool :=
  let l := (Tab.look s.xl.l1 (c / 8)).getD []
  chanAt s c == (chanAt s c).fresh && !remoteBusy s c &&
    decide (l.length ≤ Config.l1Entries ∧ l.Pairwise (fun a b => b.overlaps a.ctx a.va (2 ^ a.sizeLog2) = false))
theorem begins (s : State) (c : Nat) (h : fresh0 s c = true) : Begins s c := by
  simp only [fresh0, Bool.and_eq_true, beq_iff_eq, Bool.not_eq_true', decide_eq_true_eq] at h
  exact ⟨h.1.1, h.1.2, h.2⟩
theorem piece_near (s : State) (c l d : Nat) (p : Piece) (h : (decide (p.srcs = [l] ∧ l ≠ d ∧ p.dst = d ∧ lineOf d = d) &&
    near s c l .rd && near s c d (needOf (p.kind (pieceSource s p l)))) = true) : PieceInReach s c p l d := by
  simp only [Bool.and_eq_true, decide_eq_true_eq] at h
  obtain ⟨⟨⟨h1, h2, rfl, h4⟩, r⟩, w⟩ := h
  exact ⟨.inr ⟨l, h1, h2, reach _ _ _ _ r⟩, h4, reach _ _ _ _ w⟩
theorem fill_near (s : State) (c : Nat) (p : Piece) (h : (decide (p.srcs = [] ∧ lineOf p.dst = p.dst) &&
    near s c p.dst (needOf (p.kind (pieceSource s p 0)))) = true) : PieceInReach s c p 0 p.dst := by
  simp only [Bool.and_eq_true, decide_eq_true_eq] at h
  exact ⟨.inl h.1.1, h.1.2, reach _ _ _ _ h.2⟩

/-- The two tags of a ciphertext differ where the first bytes of their GHASH do: both are masked alike. -/
theorem tags_differ (mat hk : List Byte) (a : Nat) (c : List Byte)
    (h : (beBytes 16 (ghash (beNat hk) (blocks c ++ [0x5A :: BitVec.ofNat 8 (lineIndex a) :: List.replicate 14 0]))).head? ≠
      (beBytes 16 (ghash (beNat hk) (blocks c ++ [0x00 :: BitVec.ofNat 8 (lineIndex a) :: List.replicate 14 0]))).head?) :
    lineTag mat hk a true c ≠ lineTag mat hk a false c := by
  have n (v : Nat) : ∃ x p, beBytes 16 v = x :: p := by
    have : (beBytes 16 v).length = 16 := by simp [beBytes, leBytes]
    cases e : beBytes 16 v with
    | nil => simp [e] at this
    | cons x p => exact ⟨x, p, rfl⟩
  have m (v : Nat) : ∃ y q, leBytes 16 v = y :: q := ⟨_, _, rfl⟩
  have low (x y : Byte) (p q : List Byte) : leNat ((xorBytes (x :: p) (y :: q)).take 4) % 256 = (x ^^^ y).toNat := by
    simp only [xorBytes, List.zipWith_cons_cons, List.take_succ_cons, leNat]
    have := (x ^^^ y).isLt
    omega
  simp only [lineTag, if_true, Bool.false_eq_true, if_false]
  obtain ⟨y, q, hm⟩ := m (alphaPow (unitTweak ((mat.drop 32).take 32) (a / 4096)) (256 + lineIndex a))
  obtain ⟨x, p, e⟩ := n (ghash (beNat hk) (blocks c ++ [0x5A :: BitVec.ofNat 8 (lineIndex a) :: List.replicate 14 0]))
  obtain ⟨z, r, f⟩ := n (ghash (beNat hk) (blocks c ++ [0x00 :: BitVec.ofNat 8 (lineIndex a) :: List.replicate 14 0]))
  rw [e, f] at h
  rw [e, f, hm]
  intro g
  have g := congrArg (· % 256) g
  simp only [low] at g
  have g := BitVec.eq_of_toNat_eq g
  exact h (congrArg some (by simpa using congrArg (· ^^^ y) g))

/-! ## What WellFormed refuses -/

def badUnits : List Instr :=
  [.ret 512, .hiveReset 512, .launchReservation 255, .slotFetch 4096, .slotReadDone 7 (2 ^ 32), .doorbellWrite 16384 0 1 [0],
   .homeSideSwitch 64, .clusterFault 256, .probe 16, .ack 65536, .fenceCacheFillDone (2 ^ 20), .labelWindowBoundary 4096,
   .creditReturn 96 0 0, .sliceOpeningDone 0 64, .msixMessageSend 2048, .streamResponse 0 false 4096 false false false ⟨0, []⟩,
   .unitGate (.mover 64), .unitGate (.propolis 64), .unitGate (.link 16), .arbiterAgeExpiry (.port 64) 0,
   .arbiterAgeExpiry (.linkSender 16) 0, .resetEscalation (.contextKill 16384), .pageFaultServiceTimeout (.chan 512),
   .streamRequestTimeout (.portTag 96 false 0), .censusAgeOut 256, .spareSwapTimeout 5 0 0]
def badErrors : List Instr :=
  [.errorReport (.mover 80) .parity, .errorReport (.way 8 0 0) .parity, .errorReport (.keyRow 512) .parity,
   .errorReport (.lane 0 9) .parity, .errorReport (.bitmapWord 64 0) .parity, .errorReport (.fenceCacheLine (2 ^ 20)) .parity,
   .errorReport (.routeCopy 65536) .parity, .errorReport (.flowRow 65536) .parity,
   .errorReport (.firstLevel 64 0) .parity, .errorReport (.directory Config.dirEntries) .parity]
def badFields : List Instr :=
  [.memoryScrub 64 false false false none, .memoryScrub (2 ^ 41) false false false none,
   .memoryScrub 0 false false false (some ⟨2 ^ 32, []⟩), .priEnableChange true (some (2 ^ 32)),
   .propolisRead { lreq with addr := 4 }, .propolisRead { lreq with keySel := 512 }, .propolisWrite lreq (.whole []),
   .propolisWrite lreq (.partialWrite [(128, 0)]), .propolisWrite lreq (.atomic .add true false 4 0 0),
   .propolisWrite lreq (.reduce .sum 16 0 0 0 []), .streamResponse 0 false 0 false false false ⟨0, List.replicate 129 0⟩,
   .streamResponse 0 false 0 false false false ⟨2 ^ 64, List.replicate 128 0⟩, .registerWrite 6 0 [0], .registerWrite 0 0 [],
   .apertureRead 0 0, .apertureRead 0 4097, .apertureAtomicop 0 0 .swap 2 0 0, .fenceWindowRead 0 0,
   .atsInvalidationRequest 0 (some (2 ^ 20)) 0 0, .prgResponse 0 512 .success, .kernelEnd 0 (2 ^ 64) [], .kernelEnd 0 0 [(2 ^ 24, 0)],
   .powerCapSample (List.replicate 9 .nack), .swarmFrameReceive 0 { frame 6 0 0 [] with seq := 2 ^ 32 } true,
   .dbgWinAccess 4 0 0 0 0, .tapMboxAccess 65536 true 0, .tapTraceRead { ir := 256, hive := 0 }, .sramScrub (.level2 8 0) 0 false false]

theorem test_units_out_of_range_are_ill_formed : badUnits.all (fun i => !i.wf) = true := by decide +kernel
theorem test_error_sites_out_of_range_are_ill_formed : badErrors.all (fun i => !i.wf) = true := by decide +kernel
theorem test_fields_that_do_not_fit_are_ill_formed : badFields.all (fun i => !i.wf) = true := by decide +kernel
theorem test_commands_in_range_are_well_formed :
    [Instr.ret 511, .launchReservation 254, .propolisRead lreq, .swarmFrameReceive 15 (frame 6 0 0 []) true,
     .memoryScrub (2 ^ 41 - 128) false false false none].all (·.wf) = true := by decide +kernel

/-! ## The spec's worked examples -/

/-- 02, after R42: with eight stacks, the line at 0x12_3456_7000 is at offset 0x48D1_5000 of port 15. -/
theorem test_striped_line :
    let s := State.reset.onKp (fun k => { k with settings := { k.settings with integ := 0x08_40_25_00 } })
    homePort s 0x1234567000 = 15 ∧ portOffset s 0x1234567000 = 0x48D15000 := by decide +kernel

/-- 08, the worked walk: set 0x024. -/
theorem test_second_level_set : l2Index 0x400A5F3C80 25 37 = 0x024 := by decide

/-- 06: narrowing single values. -/
theorem test_narrowing :
    Fmt.bf16.encode .nearest 0 (Fmt.fp32.decode 0x40490FDB) = 0x4049 ∧
      Fmt.bf16.encode .stochastic 61477 (Fmt.fp32.decode 0x40490FDB) = 0x404A ∧
      Fmt.bf16.encode .stochastic 61476 (Fmt.fp32.decode 0x40490FDB) = 0x4049 ∧
      Fmt.e4m3.encode .nearest 0 (Fmt.fp32.decode 0x3E99999A) = 0x2A ∧
      Fmt.e4m3.encode .zero 0 (Fmt.fp32.decode 0x3E99999A) = 0x29 ∧
      Fmt.e4m3.encode .nearest 0 (Fmt.fp32.decode 0x43FA0000) = 0x7E ∧
      Fmt.e4m3.encode .nearest 0 (Fmt.fp32.decode 0x3A800000) = 0 ∧
      Fmt.e4m3.encode .nearest 0 (Fmt.fp32.decode 0x7F800000) = 0x7F := by decide +kernel

/-- 06: the HB6 block of 10.0, −3.3 and 0.1 (in FP32). -/
theorem test_hb6_block :
    encodeBlock .hb6 .nearest ([0x41200000, 0xC0533333, 0x3DCCCCCD].map (fun b => (Fmt.fp32.decode b, 0)) ++
      List.replicate 29 (Val.ofInt 0, 0)) = leNat [0x4B, 0x7D, 0x9F, 0x0D] := by decide +kernel

/-- 05: the worked slot's words decode, and its command owes fence 0x1C2E. -/
def slot : List Word :=
  [0x01C0580000000000, 0x0000004000000000, 0x00FF3FF000000000, 0x0000000000004000, 0x0140089000000000, 0x0800004800000000,
   0x1100020000000000, 0x3000010000501C2E]
theorem test_worked_slot_decodes : firstBad true false slot = none ∧ (owedOf slot).map (·.1) = [0x1C2E] ∧ starts slot 9 0 = [0, 4, 6, 7] := by
  decide +kernel
theorem test_worked_slot_signals :
    (match decodeAt true false slot 7 with
     | .ok o => o == .signal (.imm 5) 1 false false (.imm 0x1C2E)
     | .error _ => false) = true := by decide +kernel

/-! ## Single steps -/

theorem test_return_ends_the_command :
    (match step { runs [] with pending := [.ret 0] } with
     | .next t => (chanAt t 0).state == .ending && (chanAt t 0).endStatus == .ok && t.pending == []
     | _ => false) = true := by decide +kernel
theorem test_manager_words_need_the_manager : firstBad true false [ins 0x82 [(1, 36)]] = some (0, .rights) := by decide +kernel
theorem test_read_of_absent_memory_faults :
    (match exec (.propolisRead { lreq with addr := 2 ^ 40 }) world with
     | .fault (.noMemory a) => a == 2 ^ 40
     | _ => false) = true := by decide +kernel
theorem test_no_word_spells_a_command : decodeTableWord 64 0 = none := rfl

/-! ## States and operands that meet the premises of each statement, clause by clause -/

theorem witness_StepRunsTheFrontCommand :
    (∃ (c : Instr) (rest : List Instr) (s : State), s.pending = c :: rest) :=
  ⟨.coldReset, [], { world with pending := [.coldReset] }, rfl⟩

theorem witness_StepIdlesOneTick :
    (∃ (s : State), s.pending = []) :=
  ⟨world, rfl⟩

theorem witness_StepsKeepMemoryCanonical :
    (∃ (s t : State), MemoryWf s ∧ step s = .next t) :=
  ⟨world, idle world, by unfold MemoryWf; decide +kernel, rfl⟩

theorem witness_StepsNeverUnblowAFuse :
    (∃ (s t : State), step s = .next t) :=
  ⟨world, idle world, rfl⟩

theorem witness_CommandsLeaveTheQueue :
    (∃ (i : Instr) (s t : State), exec i s = .next t) :=
  ⟨.pciePowerStateChange true, world, _, rfl⟩

theorem witness_FalsePredicateSkips :
    (∃ (s : State) (c : Nat), running s c (fun _ => true) = true ∧ (chanAt s c).holds = false) ∧
    (∃ (i : Instr) (c : Nat) (s : State), channelOf i = some c ∧ i ≠ rowOf c (chanAt s c).op) :=
  ⟨⟨runs [ins 0x41 [(1, 49)]], 0, by decide +kernel⟩,
   ⟨.ret 0, 0, runs [ins 0x41 []], rfl, by decide +kernel⟩⟩

theorem witness_BranchesAndReturns :
    (∃ (s : State) (c target : _), RunsOp s c (.br target)) ∧
    (∃ (s : State) (c gc target : _), RunsOp s c (.loop gc target)) ∧
    (∃ (s : State) (c f r : _), RunsOp s c .ret ∧ (chanAt s c).stack = f :: r) ∧
    (∃ (s : State) (c : _), RunsOp s c .ret ∧ (chanAt s c).stack = []) :=
  ⟨⟨runs [ins 0x41 []], 0, 0, by unfold RunsOp; decide +kernel⟩,
   ⟨runs [ins 0x40 [(1, 40)]] (reg 1 3), 0, 1, 0, by unfold RunsOp; decide +kernel⟩,
   ⟨runs [] (fun x => { x with stack := [{ code := [], base := 0, pc := 1 }] }), 0, _, _,
    by unfold RunsOp; decide +kernel, rfl⟩,
   ⟨runs [], 0, by unfold RunsOp; decide +kernel⟩⟩

theorem witness_RegisterInstructions :
    (∃ (s : State) (c pd cmp ga b imm : _), RunsOp s c (.setp pd cmp ga b imm)) ∧
    (∃ (s : State) (c pd cmp ga b imm : _), RunsOp s c (.setp pd cmp ga b imm) ∧ pd ≠ 0) ∧
    (∃ (s : State) (c cmp ga b imm : _), RunsOp s c (.setp 0 cmp ga b imm)) ∧
    (∃ (s : State) (c rop gd ga gb imm ext : _), RunsOp s c (.gset rop gd ga gb imm ext)) ∧
    (∃ (s : State) (c m td ts gs w w3g e : _), RunsOp s c (.tset m td ts gs w w3g e)) :=
  ⟨⟨runs [ins 0x42 [(1, 41), (2, 34)]], 0, 1, 0, 2, .inr 0, 0, by unfold RunsOp; decide +kernel⟩,
   ⟨runs [ins 0x42 [(1, 41), (2, 34)]], 0, 1, 0, 2, .inr 0, 0, by unfold RunsOp; decide +kernel⟩,
   ⟨runs [ins 0x42 [(2, 34)]], 0, 0, 2, .inr 0, 0, by unfold RunsOp; decide +kernel⟩,
   ⟨runs [ins 0x01 [(1, 42), (1, 39), (4, 35), (9, 0)]], 0, 1, 4, 0, 0, 9, none,
    by unfold RunsOp; decide +kernel⟩,
   ⟨runs [ins 0x01 [(2, 42), (4, 36), (4, 39), (2, 29)]], 0, 4, 4, 0, 2, 0, false, [0, 0, 0],
    by unfold RunsOp; decide +kernel⟩⟩

theorem witness_LoadsAndStores :
    (∃ (s : State) (c d ga off t l : _), RunsOp s c (.ldG false d ga off) ∧ dataAddr (chanAt s c) ga off % 8 = 0
      ∧ (chanAt s c).lineStatus = none ∧ readLine s c (lineOf (dataAddr (chanAt s c) ga off)) = (t, .data l)) ∧
    (∃ (s : State) (c d ga off t l : _), RunsOp s c (.ldG true d ga off) ∧ dataAddr (chanAt s c) ga off % 32 = 0
      ∧ (chanAt s c).lineStatus = none ∧ readLine s c (lineOf (dataAddr (chanAt s c) ga off)) = (t, .data l)) ∧
    (∃ (s : State) (c dt d ga off : _), RunsOp s c (.ldG dt d ga off) ∧ dataAddr (chanAt s c) ga off % (if dt
      then 32 else 8) ≠ 0) ∧
    (∃ (s : State) (c gs ga off t b : _), RunsOp s c (.stG gs ga off) ∧ dataAddr (chanAt s c) ga off % 8 = 0 ∧
      (chanAt s c).lineStatus = none ∧ (chanAt s c).prog = 0 ∧ writeLine s c (lineOf (dataAddr (chanAt s c) ga
      off)) (word8 (dataAddr (chanAt s c) ga off) ((chanAt s c).greg gs)) false false = (t, .data b) ∧
      remoteBusy t c = false ∧ (chanAt t c).lineStatus = none) ∧
    (∃ (s : State) (c gs ga off : _), RunsOp s c (.stG gs ga off) ∧ dataAddr (chanAt s c) ga off % 8 ≠ 0) ∧
    (∃ (s : State) (c a gs t b : _), RunsOp s c (.cap a gs) ∧ (chanAt s c).src a % 2 ^ 57 % 8 = 0 ∧ (chanAt s
      c).lineStatus = none ∧ (chanAt s c).prog = 0 ∧ writeLine s c (lineOf ((chanAt s c).src a % 2 ^ 57)) (word8
      ((chanAt s c).src a % 2 ^ 57) ((chanAt s c).greg gs)) false true = (t, .data b) ∧ remoteBusy t c = false ∧
      (chanAt t c).lineStatus = none) ∧
    (∃ (s : State) (c a gs : _), RunsOp s c (.cap a gs) ∧ (chanAt s c).src a % 2 ^ 57 % 8 ≠ 0) ∧
    (∃ (s : State) (c d ga off a : _), RunsOp s c (.ldG false d ga off) ∧ Begins s c ∧ dataAddr (chanAt s c) ga
      off % 8 = 0 ∧ InReach s c (lineOf (dataAddr (chanAt s c) ga off)) .rd a) ∧
    (∃ (s : State) (c d ga off a : _), RunsOp s c (.ldG true d ga off) ∧ Begins s c ∧ dataAddr (chanAt s c) ga
      off % 32 = 0 ∧ InReach s c (lineOf (dataAddr (chanAt s c) ga off)) .rd a) ∧
    (∃ (s : State) (c gs ga off a : _), RunsOp s c (.stG gs ga off) ∧ Begins s c ∧ dataAddr (chanAt s c) ga off
      % 8 = 0 ∧ InReach s c (lineOf (dataAddr (chanAt s c) ga off)) .wr a) ∧
    (∃ (s : State) (c x gs a : _), RunsOp s c (.cap x gs) ∧ Begins s c ∧ (chanAt s c).src x % 2 ^ 57 % 8 = 0 ∧
      InReach s c (lineOf ((chanAt s c).src x % 2 ^ 57)) .wr a) :=
  ⟨⟨runs [ins 0x43 [(2, 39)]], 0, 2, 0, 0, _, _, by unfold RunsOp; decide +kernel, by decide +kernel,
    by decide +kernel, rfl⟩,
   ⟨runs [ins 0x43 [(1, 43), (2, 39)]], 0, 2, 0, 0, _, _, by unfold RunsOp; decide +kernel, by decide +kernel,
    by decide +kernel, rfl⟩,
   ⟨runs [ins 0x43 [(2, 39), (4, 0)]], 0, false, 2, 0, 4, by unfold RunsOp; decide +kernel⟩,
   ⟨runs [ins 0x44 []], 0, 0, 0, 0, _, _, by unfold RunsOp; decide +kernel, by decide +kernel,
    by decide +kernel, by decide +kernel, rfl, rfl, rfl⟩,
   ⟨runs [ins 0x44 [(4, 0)]], 0, 0, 0, 4, by unfold RunsOp; decide +kernel⟩,
   ⟨runs [ins 0x33 []], 0, .reg 0, 0, _, _, by unfold RunsOp; decide +kernel, by decide +kernel,
    by decide +kernel, by decide +kernel, rfl, rfl, rfl⟩,
   ⟨runs [ins 0x33 [(1, 39)]] (reg 1 4), 0, .reg 1, 0, by unfold RunsOp; decide +kernel⟩,
   ⟨near0 [ins 0x43 [(2, 39)]] id, 0, 2, 0, 0, 0, by unfold RunsOp; decide +kernel, begins _ _
    (by decide +kernel), by decide +kernel, reach _ _ _ _ (by decide +kernel)⟩,
   ⟨near0 [ins 0x43 [(1, 43), (2, 39)]] id, 0, 2, 0, 0, 0, by unfold RunsOp; decide +kernel, begins _ _
    (by decide +kernel), by decide +kernel, reach _ _ _ _ (by decide +kernel)⟩,
   ⟨near0 [ins 0x44 []] id, 0, 0, 0, 0, 0, by unfold RunsOp; decide +kernel, begins _ _ (by decide +kernel),
    by decide +kernel, reach _ _ _ _ (by decide +kernel)⟩,
   ⟨near0 [ins 0x33 []] id, 0, .reg 0, 0, 0, by unfold RunsOp; decide +kernel, begins _ _ (by decide +kernel),
    by decide +kernel, reach _ _ _ _ (by decide +kernel)⟩⟩

theorem witness_InstructionsEnd :
    (∃ (s : State) (c : _), (chanAt s c).state = .running) ∧
    (∃ (s : State) (c : Nat) (st : Status), (chanAt s c).state = .running ∧ st ≠ .ok ∧ zTry (chanAt s c).word = true ∧ st ≠
      .decode ∧ st ≠ .aborted ∧ st ≠ .hwError) ∧
    (∃ (s : State) (c : Nat) (st : Status), (chanAt s c).state = .running ∧ (chanAt s c).retired = false ∧ st ≠ .ok ∧ (zTry
      (chanAt s c).word = false ∨ st = .decode ∨ st = .aborted ∨ st = .hwError)) :=
  ⟨⟨runs [], 0, by decide +kernel⟩,
   ⟨runs [ins 0x41 [(1, 53)]], 0, .range, by decide +kernel⟩,
   ⟨runs [], 0, .range, by decide +kernel⟩⟩

theorem witness_CallEntersObjects :
    (∃ (s : State) (c x e : _), RunsOp s c (.call x) ∧ (chanAt s c).src x % 2 ^ 57 % 256 = 0 ∧ (chanAt s
      c).stack.length < 4 ∧ (chanAt s c).objects.find? (fun o => o.1 == (chanAt s c).src x % 2 ^ 57) = some e) ∧
    (∃ (s : State) (c x t l : _), RunsOp s c (.call x) ∧ (chanAt s c).src x % 2 ^ 57 % 256 = 0 ∧ (chanAt s
      c).stack.length < 4 ∧ (chanAt s c).objects.find? (fun o => o.1 == (chanAt s c).src x % 2 ^ 57) = none ∧
      (chanAt s c).lineStatus = none ∧ readLineAs .object s c ((chanAt s c).src x % 2 ^ 57) = (t, .data l) ∧
      needsLine2 (wordsOf 16 l) = false ∧ firstBad false ((chanAt t c).q == 0) (wordsOf 16 l) = none) ∧
    (∃ (s : State) (c x a : _), RunsOp s c (.call x) ∧ Begins s c ∧ (chanAt s c).src x % 2 ^ 57 % 256 = 0 ∧
      (chanAt s c).stack.length < 4 ∧ (chanAt s c).objects.find? (fun o => o.1 == (chanAt s c).src x % 2 ^ 57) =
      none ∧ InReach s c ((chanAt s c).src x % 2 ^ 57) .rd a ∧ needsLine2 (wordsOf 16 (lineBytes s a)) = false ∧
      firstBad false ((chanAt s c).q == 0) (wordsOf 16 (lineBytes s a)) = none) ∧
    (∃ (s : State) (c x : _), RunsOp s c (.call x) ∧ ((chanAt s c).src x % 2 ^ 57 % 256 ≠ 0 ∨ 4 ≤ (chanAt s
      c).stack.length)) :=
  ⟨⟨runs [ins 0x45 [(1, 43)]] (fun x => { x with objects := [(0, [])] }), 0, .reg 0, _,
    by unfold RunsOp; decide +kernel, by decide +kernel, by decide +kernel, rfl⟩,
   ⟨runs [ins 0x45 [(1, 43)]], 0, .reg 0, _, List.replicate 128 0, by unfold RunsOp; decide +kernel,
    by decide +kernel, by decide +kernel, by decide +kernel, by decide +kernel, rfl, by decide +kernel, rfl⟩,
   ⟨near0 [ins 0x45 [(1, 43)]] id, 0, .reg 0, 0, by unfold RunsOp; decide +kernel, begins _ _
    (by decide +kernel), by decide +kernel, by decide +kernel, rfl, reach _ _ _ _ (by decide +kernel),
    by decide +kernel⟩,
   ⟨runs [ins 0x45 [(1, 43), (1, 39)]] (reg 1 1), 0, .reg 1, by unfold RunsOp; decide +kernel⟩⟩

theorem witness_MovesPerformEveryPiece :
    (∃ (s : State) (c d x l t : _), RunsOp s c (.span d x l) ∧ (chanAt s c).src l ≠ 0 ∧ (chanAt s c).src l ≤ 2 ^
      40 ∧ (chanAt s c).src l ≤ ((chanAt s c).src d % 2 ^ 57 + 2 ^ 57 - (chanAt s c).src x % 2 ^ 57) % 2 ^ 57 ∧
      (chanAt s c).src l ≤ ((chanAt s c).src x % 2 ^ 57 + 2 ^ 57 - (chanAt s c).src d % 2 ^ 57) % 2 ^ 57 ∧
      Performed s c (copySpan ((chanAt s c).src x % 2 ^ 57) ((chanAt s c).src d % 2 ^ 57) ((chanAt s c).src l))
      t) ∧
    (∃ (s : State) (c d x l : _), RunsOp s c (.span d x l) ∧ (chanAt s c).src l = 0) ∧
    (∃ (s : State) (c d x l : _), RunsOp s c (.span d x l) ∧ 2 ^ 40 < (chanAt s c).src l) ∧
    (∃ (s : State) (c d x l : _), RunsOp s c (.span d x l) ∧ (chanAt s c).src l ≠ 0 ∧ (((chanAt s c).src d % 2 ^
      57 + 2 ^ 57 - (chanAt s c).src x % 2 ^ 57) % 2 ^ 57 < (chanAt s c).src l ∨ ((chanAt s c).src x % 2 ^ 57 +
      2 ^ 57 - (chanAt s c).src d % 2 ^ 57) % 2 ^ 57 < (chanAt s c).src l)) ∧
    (∃ (s : State) (c td ts tr d x ps t : _), RunsOp s c (.moveT td ts tr) ∧ Tile.ofWords ((chanAt s c).treg td)
      true = .ok d ∧ Tile.ofWords ((chanAt s c).treg ts) true = .ok x ∧ moveTPlan d x tr = .ok ps ∧ Performed s
      c ps t) ∧
    (∃ (s : State) (c td gs d ps t : _), RunsOp s c (.fillTile td gs) ∧ Tile.ofWords ((chanAt s c).treg td) true
      = .ok d ∧ fillTilePlan d ((chanAt s c).greg gs).toNat = .ok ps ∧ Performed s c ps t) ∧
    (∃ (s : State) (c gs ga gl ps t : _), RunsOp s c (.fillSpan gs ga gl) ∧ fillSpanPlan (((chanAt s c).greg
      ga).toNat % 2 ^ 57) ((chanAt s c).greg gl).toNat ((chanAt s c).greg gs).toNat = .ok ps ∧ Performed s c ps
      t) ∧
    (∃ (s : State) (c td ts rnd gseed d x ps t : _), RunsOp s c (.convert td ts rnd gseed) ∧ Tile.ofWords
      ((chanAt s c).treg td) false = .ok d ∧ Tile.ofWords ((chanAt s c).treg ts) false = .ok x ∧ convertPlan d x
      rnd ((chanAt s c).greg gseed) = .ok ps ∧ Performed s c ps t) ∧
    (∃ (s : State) (c td ts op acc rnd gseed d x ps t : _), RunsOp s c (.reduce td ts op acc rnd gseed) ∧
      Tile.ofWords ((chanAt s c).treg td) (acc == 14) = .ok d ∧ Tile.ofWords ((chanAt s c).treg ts) false = .ok
      x ∧ reducePlan false d x op acc rnd ((chanAt s c).greg gseed) = .ok ps ∧ Performed s c ps t) ∧
    (∃ (s : State) (c td ts op acc rnd gseed d x ps t : _), RunsOp s c (.reduceCvt td ts op acc rnd gseed) ∧
      Tile.ofWords ((chanAt s c).treg td) false = .ok d ∧ Tile.ofWords ((chanAt s c).treg ts) false = .ok x ∧
      reducePlan true d x op acc rnd ((chanAt s c).greg gseed) = .ok ps ∧ Performed s c ps t) ∧
    (∃ (s : State) (c d x l p sa da : _), RunsOp s c (.span d x l) ∧ Begins s c ∧ (chanAt s c).src l ≠ 0 ∧
      (chanAt s c).src l ≤ 2 ^ 40 ∧ (chanAt s c).src l ≤ ((chanAt s c).src d % 2 ^ 57 + 2 ^ 57 - (chanAt s
      c).src x % 2 ^ 57) % 2 ^ 57 ∧ (chanAt s c).src l ≤ ((chanAt s c).src x % 2 ^ 57 + 2 ^ 57 - (chanAt s
      c).src d % 2 ^ 57) % 2 ^ 57 ∧ copySpan ((chanAt s c).src x % 2 ^ 57) ((chanAt s c).src d % 2 ^ 57)
      ((chanAt s c).src l) = [p] ∧ PieceInReach s c p sa da) ∧
    (∃ (s : State) (c td ts tr d x p sa da : _), RunsOp s c (.moveT td ts tr) ∧ Begins s c ∧ Tile.ofWords
      ((chanAt s c).treg td) true = .ok d ∧ Tile.ofWords ((chanAt s c).treg ts) true = .ok x ∧ moveTPlan d x tr
      = .ok [p] ∧ PieceInReach s c p sa da) ∧
    (∃ (s : State) (c td gs d p sa da : _), RunsOp s c (.fillTile td gs) ∧ Begins s c ∧ Tile.ofWords ((chanAt s
      c).treg td) true = .ok d ∧ fillTilePlan d ((chanAt s c).greg gs).toNat = .ok [p] ∧ PieceInReach s c p sa
      da) ∧
    (∃ (s : State) (c gs ga gl p sa da : _), RunsOp s c (.fillSpan gs ga gl) ∧ Begins s c ∧ fillSpanPlan
      (((chanAt s c).greg ga).toNat % 2 ^ 57) ((chanAt s c).greg gl).toNat ((chanAt s c).greg gs).toNat = .ok
      [p] ∧ PieceInReach s c p sa da) ∧
    (∃ (s : State) (c td ts rnd gseed d x p sa da : _), RunsOp s c (.convert td ts rnd gseed) ∧ Begins s c ∧
      Tile.ofWords ((chanAt s c).treg td) false = .ok d ∧ Tile.ofWords ((chanAt s c).treg ts) false = .ok x ∧
      convertPlan d x rnd ((chanAt s c).greg gseed) = .ok [p] ∧ PieceInReach s c p sa da) ∧
    (∃ (s : State) (c td ts op acc rnd gseed d x p sa da : _), RunsOp s c (.reduce td ts op acc rnd gseed) ∧
      Begins s c ∧ Tile.ofWords ((chanAt s c).treg td) (acc == 14) = .ok d ∧ Tile.ofWords ((chanAt s c).treg ts)
      false = .ok x ∧ reducePlan false d x op acc rnd ((chanAt s c).greg gseed) = .ok [p] ∧ PieceInReach s c p
      sa da) ∧
    (∃ (s : State) (c td ts op acc rnd gseed d x p sa da : _), RunsOp s c (.reduceCvt td ts op acc rnd gseed) ∧
      Begins s c ∧ Tile.ofWords ((chanAt s c).treg td) false = .ok d ∧ Tile.ofWords ((chanAt s c).treg ts) false
      = .ok x ∧ reducePlan true d x op acc rnd ((chanAt s c).greg gseed) = .ok [p] ∧ PieceInReach s c p sa da) ∧
    (∃ (src dst len k : _) (x : Source), dst + len ≤ 2 ^ 57 ∧ src + len ≤ 2 ^ 57 ∧ k < len) ∧
    (∃ (src dst len : _) (x : Source) (old : List Byte), dst + len ≤ 2 ^ 57 ∧ src + len ≤ 2 ^ 57 ∧ old.length =
      128 ∧ ∃ p ∈ copySpan src dst len, ∃ i < 128, (p.dst + i < dst ∨ dst + len ≤ p.dst + i)) :=
  ⟨⟨runs [ins 0x01 [(1, 41), (1, 36), (1, 31), (1, 37), (2, 32), (3, 27)]] (fun x => reg 1 4096 (reg 3 8 x)),
    0, .reg 1, .reg 2, .reg 3, _, by unfold RunsOp; decide +kernel, by decide +kernel, by decide +kernel,
    by decide +kernel, by decide +kernel, performed _ _ _ (by decide +kernel)⟩,
   ⟨runs [ins 0x01 [(1, 41), (1, 36), (1, 31), (1, 37), (2, 32), (3, 27)]] (reg 1 4096), 0, .reg 1, .reg 2,
    .reg 3, by unfold RunsOp; decide +kernel⟩,
   ⟨runs [ins 0x01 [(1, 41), (1, 36), (1, 31), (1, 37), (2, 32), (3, 27)]] (reg 3 (2 ^ 40 + 1)), 0, .reg 1,
    .reg 2, .reg 3, by unfold RunsOp; decide +kernel⟩,
   ⟨runs [ins 0x01 [(1, 41), (1, 36), (1, 31), (1, 37), (2, 32), (3, 27)]] (fun x => reg 1 4096 (reg 2 4100 (reg 3 8 x))), 0,
    .reg 1, .reg 2, .reg 3, by unfold RunsOp; decide +kernel⟩,
   ⟨runs [ins 0x02 [(1, 41)]] tile1, 0, 1, 0, false, _, _, _, _, by unfold RunsOp; decide +kernel, rfl, rfl,
    rfl, performed _ _ _ (by decide +kernel)⟩,
   ⟨runs [ins 0x05 [(1, 40)]] tile1, 0, 1, 0, _, _, _, by unfold RunsOp; decide +kernel, rfl, rfl, performed _
    _ _ (by decide +kernel)⟩,
   ⟨runs [ins 0x05 [(1, 43), (1, 32), (3, 28)]] (fun x => reg 1 4096 (reg 3 8 x)), 0, 0, 1, 3, _, _,
    by unfold RunsOp; decide +kernel, if_neg (by decide +kernel), performed _ _ _ (by decide +kernel)⟩,
   ⟨runs [ins 0x11 [(1, 41)]] tile1, 0, 1, 0, 0, 0, _, _, _, _, by unfold RunsOp; decide +kernel, rfl, rfl,
    rfl, performed _ _ _ (by decide +kernel)⟩,
   ⟨runs [ins 0x10 [(1, 41)]] tile1, 0, 1, 0, 0, 0, 0, 0, _, _, _, _, by unfold RunsOp; decide +kernel, rfl,
    rfl, rfl, performed _ _ _ (by decide +kernel)⟩,
   ⟨runs [ins 0x12 [(1, 41)]] tile1, 0, 1, 0, 0, 0, 0, 0, _, _, _, _, by unfold RunsOp; decide +kernel, rfl,
    rfl, rfl, performed _ _ _ (by decide +kernel)⟩,
   ⟨near0 [ins 0x01 [(1, 41), (1, 36), (1, 31), (1, 37), (2, 32), (3, 27)]] (fun x => reg 1 8192 (reg 3 8 x)),
    0, .reg 1, .reg 2, .reg 3, _, 0, 8192, by unfold RunsOp; decide +kernel, begins _ _ (by decide +kernel),
    by decide +kernel, by decide +kernel, by decide +kernel, by decide +kernel, rfl, piece_near _ _ _ _ _
    (by decide +kernel)⟩,
   ⟨near0 [ins 0x02 [(1, 41)]] tile8, 0, 1, 0, false, _, _, _, 0, 8192, by unfold RunsOp; decide +kernel,
    begins _ _ (by decide +kernel), rfl, rfl, rfl, piece_near _ _ _ _ _ (by decide +kernel)⟩,
   ⟨near0 [ins 0x05 [(1, 40)]] tile8, 0, 1, 0, _, _, 0, _, by unfold RunsOp; decide +kernel, begins _ _
    (by decide +kernel), rfl, rfl, fill_near _ _ _ (by decide +kernel)⟩,
   ⟨near0 [ins 0x05 [(1, 43), (1, 32), (3, 28)]] (fun x => reg 1 8192 (reg 3 8 x)), 0, 0, 1, 3, _, 0, _,
    by unfold RunsOp; decide +kernel, begins _ _ (by decide +kernel), if_neg (by decide +kernel), fill_near _ _
    _ (by decide +kernel)⟩,
   ⟨near0 [ins 0x11 [(1, 41)]] tile8, 0, 1, 0, 0, 0, _, _, _, 0, 8192, by unfold RunsOp; decide +kernel, begins
    _ _ (by decide +kernel), rfl, rfl, rfl, piece_near _ _ _ _ _ (by decide +kernel)⟩,
   ⟨near0 [ins 0x10 [(1, 41)]] tile8, 0, 1, 0, 0, 0, 0, 0, _, _, _, 0, 8192, by unfold RunsOp; decide +kernel,
    begins _ _ (by decide +kernel), rfl, rfl, rfl, piece_near _ _ _ _ _ (by decide +kernel)⟩,
   ⟨near0 [ins 0x12 [(1, 41)]] tile8, 0, 1, 0, 0, 0, 0, 0, _, _, _, 0, 8192, by unfold RunsOp; decide +kernel,
    begins _ _ (by decide +kernel), rfl, rfl, rfl, piece_near _ _ _ _ _ (by decide +kernel)⟩,
   ⟨0, 4096, 8, 7, { now := fun _ => 0, old := fun _ => 0, pick := fun _ => false, kept := fun _ => none },
    by decide +kernel⟩,
   ⟨0, 4096, 8, { now := fun _ => 0, old := fun _ => 0, pick := fun _ => false, kept := fun _ => none },
    List.replicate 128 0, by decide +kernel, by decide +kernel, rfl, by decide +kernel⟩⟩

theorem witness_GatherAndScatterRunTheirRows :
    (∃ (s : State) (c gi gb gn gl go iw8 pitch row u t o : _), RunsOp s c (.gather gi gb gn gl go iw8 pitch row) ∧ o =
      { list := ((chanAt s c).greg gi).toNat % 2 ^ 57, width := if iw8 then 8 else 4,
        count := ((chanAt s c).greg gn).toNat, limit := ((chanAt s c).greg gl).toNat,
        plan := fun k idx => .ok (copySpan ((((chanAt s c).greg gb).toNat + idx * pitch) % 2 ^ 57) ((((chanAt s c).greg go).toNat + k * row) % 2 ^ 57) row) : RowOp }
      ∧ o.count ≤ 2 ^ 24 ∧ o.list % o.width = 0 ∧ (chanAt s c).lineStatus = none ∧ runRows s c o (o.count + 1) = (u,
      some .ok) ∧ Settled u c t) ∧
    (∃ (s : State) (c gi gb gn gl go iw8 pitch row u t o : _), RunsOp s c (.scatter gi gb gn gl go iw8 0 pitch row) ∧
      o =
      { list := ((chanAt s c).greg gi).toNat % 2 ^ 57, width := if iw8 then 8 else 4,
        count := ((chanAt s c).greg gn).toNat, limit := ((chanAt s c).greg gl).toNat,
        plan := fun k idx => .ok (copySpan ((((chanAt s c).greg go).toNat + k * row) % 2 ^ 57) ((((chanAt s c).greg gb).toNat + idx * pitch) % 2 ^ 57) row) : RowOp }
      ∧ o.count ≤ 2 ^ 24 ∧ o.list % o.width = 0 ∧ (chanAt s c).lineStatus = none ∧ runRows s c o (o.count + 1) = (u,
      some .ok) ∧ Settled u c t) ∧
    (∃ (s : State) (c gi gb gn gl go iw8 op pitch row u t o : _), RunsOp s c (.scatter gi gb gn gl go iw8 op pitch
      row) ∧ (op = 1 ∨ op = 2) ∧ row % (if op = 1 then 4 else 2) = 0 ∧ (∀ idx, (((chanAt s c).greg gb).toNat + idx *
      pitch) % 2 ^ 57 % (if op = 1 then 4 else 2) = 0) ∧ o =
      { list := ((chanAt s c).greg gi).toNat % 2 ^ 57, width := if iw8 then 8 else 4,
        count := ((chanAt s c).greg gn).toNat, limit := ((chanAt s c).greg gl).toNat,
        plan := fun k idx => .ok (scatterSum (op == 2) ((((chanAt s c).greg go).toNat + k * row) % 2 ^ 57) ((((chanAt s c).greg gb).toNat + idx * pitch) % 2 ^ 57) row) : RowOp }
      ∧ o.count ≤ 2 ^ 24 ∧ o.list % o.width = 0 ∧ (chanAt s c).lineStatus = none ∧ runRows s c o (o.count + 1) = (u,
      some .ok) ∧ Settled u c t) ∧
    (∃ (s : State) (c gi gb gn gl go iw8 pitch row : _), RunsOp s c (.gather gi gb gn gl go iw8 pitch row) ∧ (2 ^ 24 <
      ((chanAt s c).greg gn).toNat ∨ ((chanAt s c).greg gi).toNat % 2 ^ 57 % (if iw8 then 8 else 4) ≠ 0)) ∧
    (∃ (s : State) (c gi gb gn gl go iw8 op pitch row : _), RunsOp s c (.scatter gi gb gn gl go iw8 op pitch row) ∧ (2
      ^ 24 < ((chanAt s c).greg gn).toNat ∨ ((chanAt s c).greg gi).toNat % 2 ^ 57 % (if iw8 then 8 else 4) ≠ 0)) ∧
    (∃ (s : State) (c gi gb gn gl go iw8 pitch row p la sa da : _), RunsOp s c (.gather gi gb gn gl go iw8 pitch row)
      ∧ Begins s c ∧
      let list := ((chanAt s c).greg gi).toNat % 2 ^ 57;
      let w := if iw8 then 8 else 4;
      let idx := leNat (((lineBytes s la).drop (list - lineOf list)).take w);
      ((chanAt s c).greg gn).toNat = 1 ∧ list % w = 0 ∧ InReach s c (lineOf list) .rd la ∧ idx ≠ 2 ^ (8 * w) - 1 ∧ idx
      < ((chanAt s c).greg gl).toNat ∧ copySpan ((((chanAt s c).greg gb).toNat + idx * pitch) % 2 ^ 57) (((chanAt s
      c).greg go).toNat % 2 ^ 57) row = [p] ∧ p.srcs ≠ [lineOf list] ∧ p.dst ≠ lineOf list ∧ PieceInReach s c p sa da) ∧
    (∃ (s : State) (c gi gb gn gl go iw8 pitch row p la sa da : _), RunsOp s c (.scatter gi gb gn gl go iw8 0 pitch
      row) ∧ Begins s c ∧
      let list := ((chanAt s c).greg gi).toNat % 2 ^ 57;
      let w := if iw8 then 8 else 4;
      let idx := leNat (((lineBytes s la).drop (list - lineOf list)).take w);
      ((chanAt s c).greg gn).toNat = 1 ∧ list % w = 0 ∧ InReach s c (lineOf list) .rd la ∧ idx ≠ 2 ^ (8 * w) - 1 ∧ idx
      < ((chanAt s c).greg gl).toNat ∧ copySpan (((chanAt s c).greg go).toNat % 2 ^ 57) ((((chanAt s c).greg gb).toNat
      + idx * pitch) % 2 ^ 57) row = [p] ∧ p.srcs ≠ [lineOf list] ∧ p.dst ≠ lineOf list ∧ PieceInReach s c p sa da) :=
  ⟨⟨runs [ins 0x03 [(1, 54), (1, 36), (2, 32), (3, 28), (4, 24)], ins 0 [(4, 32), (4, 0)]] (fun x => reg 1 4096
    (reg 2 1 (reg 3 5 (reg 4 8192 x)))), 0, 0, 1, 2, 3, 4, false, 4, 4, _, _, _,
    by unfold RunsOp; decide +kernel, rfl, by decide +kernel, by decide +kernel, by decide +kernel, snd_eq _ _ (by decide +kernel), rfl, by decide +kernel⟩,
   ⟨runs [ins 0x04 [(1, 54), (1, 36), (2, 32), (3, 28), (4, 24)], ins 0 [(4, 32), (4, 0)]] (fun x => reg 1 4096
    (reg 2 1 (reg 3 5 (reg 4 8192 x)))), 0, 0, 1, 2, 3, 4, false, 4, 4, _, _, _,
    by unfold RunsOp; decide +kernel, rfl, by decide +kernel, by decide +kernel, by decide +kernel, snd_eq _ _ (by decide +kernel), rfl, by decide +kernel⟩,
   ⟨runs [ins 0x04 [(1, 54), (1, 36), (2, 32), (3, 28), (4, 24), (1, 21)], ins 0 [(4, 32), (4, 0)]] (fun x =>
    reg 1 4096 (reg 2 1 (reg 3 5 (reg 4 8192 x)))), 0, 0, 1, 2, 3, 4, false, 1, 4, 4, _, _, _,
    by unfold RunsOp; decide +kernel, .inl rfl, rfl, fun idx =>
    (by show (4096 + idx * 4) % 2 ^ 57 % 4 = 0; omega), rfl, by decide +kernel, by decide +kernel,
    by decide +kernel, snd_eq _ _ (by decide +kernel), rfl, by decide +kernel⟩,
   ⟨runs [ins 0x03 [(1, 54), (1, 36), (2, 32), (3, 28), (4, 24)], ins 0 [(4, 32), (4, 0)]] (reg 2 (2 ^ 24 +
    1)), 0, 0, 1, 2, 3, 4, false, 4, 4, by unfold RunsOp; decide +kernel⟩,
   ⟨runs [ins 0x04 [(1, 54), (1, 36), (2, 32), (3, 28), (4, 24)], ins 0 [(4, 32), (4, 0)]] (reg 0 2), 0, 0, 1,
    2, 3, 4, false, 0, 4, 4, by unfold RunsOp; decide +kernel⟩,
   ⟨near0 [ins 0x03 [(1, 54), (1, 36), (2, 32), (3, 28), (4, 24)], ins 0 [(4, 32), (4, 0)]] (fun x => reg 0
    4096 (reg 2 1 (reg 3 5 (reg 4 8192 x)))), 0, 0, 1, 2, 3, 4, false, 4, 4, _, 4096, 0, 8192,
    by unfold RunsOp; decide +kernel, begins _ _ (by decide +kernel), rfl, rfl, reach _ _ _ _
    (by decide +kernel), by decide +kernel, by decide +kernel, rfl, by decide +kernel, by decide +kernel,
    piece_near _ _ _ _ _ (by decide +kernel)⟩,
   ⟨near0 [ins 0x04 [(1, 54), (1, 36), (2, 32), (3, 28), (4, 24)], ins 0 [(4, 32), (4, 0)]] (fun x => reg 0
    4096 (reg 2 1 (reg 3 5 (reg 4 8192 x)))), 0, 0, 1, 2, 3, 4, false, 4, 4, _, 4096, 8192, 0,
    by unfold RunsOp; decide +kernel, begins _ _ (by decide +kernel), rfl, rfl, reach _ _ _ _
    (by decide +kernel), by decide +kernel, by decide +kernel, rfl, by decide +kernel, by decide +kernel,
    piece_near _ _ _ _ _ (by decide +kernel)⟩⟩

theorem witness_AtomicsReturnTheOldValue :
    (∃ (s : State) (c op is64 sgn rv gd ga gb gc off : _), RunsOp s c (.atom op is64 sgn rv gd ga gb gc off) ∧
      let a := dataAddr (chanAt s c) ga off;
      ∃ (t old : _), a % (if is64 then 8 else 4) = 0 ∧ Tab.look (chanAt s c).rob 0 = none ∧ (chanAt s
      c).lineStatus = none ∧ writeLine s c (lineOf a) (.atomic op is64 sgn (a % 128) ((chanAt s c).greg
      gb).toNat ((chanAt s c).greg gc).toNat) false false = (t, .data old) ∧ remoteBusy t c = false) ∧
    (∃ (s : State) (c op is64 sgn rv gd ga gb gc off : _), RunsOp s c (.atom op is64 sgn rv gd ga gb gc off) ∧
      let a := dataAddr (chanAt s c) ga off;
      a % (if is64 then 8 else 4) ≠ 0) ∧
    (∃ (s : State) (c op is64 sgn rv gd ga gb gc off : _), RunsOp s c (.atom op is64 sgn rv gd ga gb gc off) ∧
      let a := dataAddr (chanAt s c) ga off;
      ∃ (la : _), Begins s c ∧ a % (if is64 then 8 else 4) = 0 ∧ InReach s c (lineOf a) .atom la) ∧
    (∃ (s : State) (hive k line level : Nat) (op : AtomOp) (is64 sg : Bool) (off v cmp : Nat) (a : Nat),
      MemoryWf s ∧ (slotAt s k).loaded = true ∧ (sliceAt s line).state = .opened ∧ condOf s line = .good ∧
      (portAt s (homePort s line)).leftOut = false ∧ off + (if is64 then 8 else 4) ≤ 128 ∧
      let n := if is64 then 8 else 4;
      (a < line + off ∨ line + off + n ≤ a)) :=
  ⟨⟨runs [ins 0x20 []], 0, .add, false, false, false, 0, 0, 0, 0, 0, by unfold RunsOp; decide +kernel, _, _,
    by decide +kernel, rfl, rfl, rfl, by decide +kernel⟩,
   ⟨runs [ins 0x20 [(1, 33)]] (reg 1 1), 0, .add, false, false, false, 0, 1, 0, 0, 0, by unfold RunsOp; decide +kernel⟩,
   ⟨near0 [ins 0x20 []] id, 0, .add, false, false, false, 0, 0, 0, 0, 0, by unfold RunsOp; decide +kernel, 0,
    begins _ _ (by decide +kernel), by decide +kernel, reach _ _ _ _ (by decide +kernel)⟩,
   ⟨boss 0 [] [], 0, 1, 4096, 0, .add, true, false, 120, 1, 0, 4096, by unfold MemoryWf; decide +kernel⟩⟩

theorem witness_LinesReadWhatWasWritten :
    (∃ (s : State) (hive k line lv : Nat) (d : List Byte) (a : Nat), MemoryWf s ∧ (slotAt s k).loaded = true ∧
      line % 128 = 0 ∧ d.length = 128 ∧ (sliceAt s line).state ≠ .opening ∧ (portAt s (homePort s line)).leftOut
      = false ∧ (a < line ∨ line + 128 ≤ a)) ∧
    (∃ (s : State) (hive k line lv : Nat), (slotAt s k).loaded = true ∧ (sliceAt s line).state = .fresh) ∧
    (∃ (s : State) (hive k line lv : Nat), (slotAt s k).loaded = true ∧ (sliceAt s line).state = .opened ∧
      (portAt s (homePort s line)).leftOut = false ∧ condOf s line = .good) ∧
    (∃ (s : State) (hive k line lv : Nat), (slotAt s k).loaded = true ∧ (sliceAt s line).state = .opened ∧
      (portAt s (homePort s line)).leftOut = false ∧ condOf s line = .poisoned) ∧
    (∃ (s : State) (hive k line lv : Nat), (slotAt s k).loaded = false) ∧
    (∃ (s : State) (hive k line lv : Nat) (d : List Byte), (slotAt s k).loaded = true ∧ (sliceAt s line).state =
      .opened ∧ (portAt s (homePort s line)).leftOut = true) :=
  ⟨⟨world, 0, 1, 4096, 0, List.replicate 128 7, 0, by unfold MemoryWf; decide +kernel⟩,
   ⟨world, 0, 1, 4096, 0, by decide +kernel⟩,
   ⟨boss 0 [] [], 0, 1, 4096, 0, by decide +kernel⟩,
   ⟨setCond (boss 0 [] []) 4096 .poisoned, 0, 1, 4096, 0, by decide +kernel⟩,
   ⟨world, 0, 2, 4096, 0, by decide +kernel⟩,
   ⟨setPort (boss 0 [] []) (homePort world 4096) (fun x => { x with leftOut := true }), 0, 1, 4096, 0,
    List.replicate 128 7, by decide +kernel⟩⟩

theorem witness_SignalsWaitsAndFlushes :
    (∃ (s : State) (c v sscope shost close f fe : _), RunsOp s c (.signal v sscope shost close f) ∧ (chanAt s
      c).lineStatus = none ∧ needsFlush (chanAt s c) shost = false ∧ (chanAt s c).src f < 2 ^ 20 ∧ Tab.look
      s.qm.fills ((chanAt s c).src f) = none ∧ fenceAt s ((chanAt s c).src f) = some fe ∧ fe.maySignal (chanAt s
      c).ctx (chanAt s c).hive = true ∧ (chanAt s c).src v < 2 ^ 63 ∧ fe.state = .opened ∧ fe.value < (chanAt s
      c).src v ∧ fe.waits = []) ∧
    (∃ (s : State) (c v sscope shost close f fe : _), RunsOp s c (.signal v sscope shost close f) ∧ (chanAt s
      c).lineStatus = none ∧ needsFlush (chanAt s c) shost = false ∧ (chanAt s c).src f < 2 ^ 20 ∧ Tab.look
      s.qm.fills ((chanAt s c).src f) = none ∧ fenceAt s ((chanAt s c).src f) = some fe ∧ fe.waits = [] ∧
      fe.state = .opened ∧ fe.maySignal (chanAt s c).ctx (chanAt s c).hive = true ∧ (chanAt s c).src v ≤
      fe.value ∧ (chanAt s c).src v < 2 ^ 63) ∧
    (∃ (s : State) (c v sscope shost close f : _), RunsOp s c (.signal v sscope shost close f) ∧ (chanAt s
      c).lineStatus = none ∧ needsFlush (chanAt s c) shost = false ∧ 2 ^ 20 ≤ (chanAt s c).src f) ∧
    (∃ (fe : Fence) (ctx hive : _), fe.state ≠ .free ∧ fe.maySignal ctx hive = false) ∧
    (∃ (fe : Fence) (ctx hive v : _), fe.state ≠ .free ∧ fe.maySignal ctx hive = true ∧ 2 ^ 63 ≤ v) ∧
    (∃ (fe : Fence), fe.state = .free) ∧
    (∃ (fe : Fence) (ctx hive v : _), fe.maySignal ctx hive = true ∧ v < 2 ^ 63 ∧ fe.state = .closed) ∧
    (∃ (fe : Fence) (ctx hive v : _), fe.maySignal ctx hive = true ∧ v < 2 ^ 63 ∧ fe.state = .poisoned) ∧
    (∃ (s : State) (c t f remote gc tmo fe : _), RunsOp s c (.wait t f remote gc tmo) ∧ (chanAt s c).src f < 2 ^
      20 ∧ (remote = false ∨ ((chanAt s c).greg gc).toNat % 2 ^ 16 = chipId s) ∧ Tab.look s.qm.fills ((chanAt s
      c).src f) = none ∧ fenceAt s ((chanAt s c).src f) = some fe ∧ fe.mayWait (chanAt s c).hive = true ∧
      (chanAt s c).src t < 2 ^ 63 ∧ (fe.state = .opened ∨ fe.state = .closed) ∧ (chanAt s c).src t ≤ fe.value ∧
      smcOn s (chanAt s c).hive = false) ∧
    (∃ (s : State) (c t f remote gc tmo fe : _), RunsOp s c (.wait t f remote gc tmo) ∧ (chanAt s c).src f < 2 ^
      20 ∧ (remote = false ∨ ((chanAt s c).greg gc).toNat % 2 ^ 16 = chipId s) ∧ Tab.look s.qm.fills ((chanAt s
      c).src f) = none ∧ fenceAt s ((chanAt s c).src f) = some fe ∧ (chanAt s c).src t < 2 ^ 63 ∧ fe.state ≠
      .free ∧ fe.mayWait (chanAt s c).hive = false) ∧
    (∃ (s : State) (c t f remote gc tmo fe : _), RunsOp s c (.wait t f remote gc tmo) ∧ (chanAt s c).src f < 2 ^
      20 ∧ (remote = false ∨ ((chanAt s c).greg gc).toNat % 2 ^ 16 = chipId s) ∧ Tab.look s.qm.fills ((chanAt s
      c).src f) = none ∧ fenceAt s ((chanAt s c).src f) = some fe ∧ (chanAt s c).src t < 2 ^ 63 ∧ fe.state ≠
      .free ∧ fe.mayWait (chanAt s c).hive = true ∧ fe.state = .poisoned ∧ fe.err = Status.contextKilled.code) ∧
    (∃ (s : State) (c t f remote gc tmo fe : _), RunsOp s c (.wait t f remote gc tmo) ∧ (chanAt s c).src f < 2 ^
      20 ∧ (remote = false ∨ ((chanAt s c).greg gc).toNat % 2 ^ 16 = chipId s) ∧ Tab.look s.qm.fills ((chanAt s
      c).src f) = none ∧ fenceAt s ((chanAt s c).src f) = some fe ∧ (chanAt s c).src t < 2 ^ 63 ∧ fe.state ≠
      .free ∧ fe.mayWait (chanAt s c).hive = true ∧ fe.state = .closed ∧ fe.value < (chanAt s c).src t) ∧
    (∃ (s : State) (c t f remote gc tmo fe : _), RunsOp s c (.wait t f remote gc tmo) ∧ (chanAt s c).src f < 2 ^
      20 ∧ (remote = false ∨ ((chanAt s c).greg gc).toNat % 2 ^ 16 = chipId s) ∧ Tab.look s.qm.fills ((chanAt s
      c).src f) = none ∧ fenceAt s ((chanAt s c).src f) = some fe ∧ fe.mayWait (chanAt s c).hive = true ∧
      (chanAt s c).src t < 2 ^ 63 ∧ fe.state = .opened ∧ fe.value < (chanAt s c).src t) ∧
    (∃ (s : State) (c t f remote gc tmo : _), RunsOp s c (.wait t f remote gc tmo) ∧ 2 ^ 20 ≤ (chanAt s c).src
      f) ∧
    (∃ (s : State) (c sc host : _), RunsOp s c (.flush sc host) ∧ (chanAt s c).lineStatus = none ∧ (host = false
      ∨ (chanAt s c).hostWritten = false)) ∧
    (∃ (s : State) (c sc : _), RunsOp s c (.flush sc true) ∧ (chanAt s c).lineStatus = none ∧ (chanAt s
      c).hostWritten = true ∧ hostRoom s = true) ∧
    (∃ (s : State) (c sc : _), RunsOp s c (.flush sc true) ∧ (chanAt s c).lineStatus = none ∧ (chanAt s
      c).hostWritten = true ∧ hostRoom s = false) :=
  ⟨⟨withFence (runs [ins 0x30 [(1, 20), (5, 0)]]), 0, .imm 1, 0, false, false, .imm 5, _,
    by unfold RunsOp; decide +kernel, by decide +kernel, by decide +kernel, by decide +kernel,
    by decide +kernel, rfl, by decide +kernel⟩,
   ⟨withFence (runs [ins 0x30 [(5, 0)]]), 0, .imm 0, 0, false, false, .imm 5, _,
    by unfold RunsOp; decide +kernel, by decide +kernel, by decide +kernel, by decide +kernel,
    by decide +kernel, rfl, by decide +kernel⟩,
   ⟨runs [ins 0x30 [(1, 37), (1, 0)]] (reg 1 (2 ^ 20)), 0, .imm 0, 0, false, false, .reg 1,
    by unfold RunsOp; decide +kernel⟩,
   ⟨fence5, 9, 0, by decide +kernel⟩,
   ⟨fence5, 0, 0, 2 ^ 63, by decide +kernel⟩,
   ⟨{ fence5 with state := .free }, rfl⟩,
   ⟨{ fence5 with state := .closed }, 0, 0, 1, by decide +kernel⟩,
   ⟨{ fence5 with state := .poisoned }, 0, 0, 1, by decide +kernel⟩,
   ⟨withFence (runs [ins 0x31 [(5, 0)]]), 0, .reg 0, .imm 5, false, 0, 0, _, by unfold RunsOp; decide +kernel,
    by decide +kernel, by decide +kernel, by decide +kernel, rfl, by decide +kernel⟩,
   ⟨onFence (fun f => { f with hive := 3, waitHive := 3 }) (runs [ins 0x31 [(5, 0)]] (fun x => { x with hive := 1 })), 0, .reg 0,
    .imm 5, false, 0, 0, _, by unfold RunsOp; decide +kernel, by decide +kernel, by decide +kernel, by decide +kernel, rfl,
    by decide +kernel⟩,
   ⟨onFence (fun f => { f with state := .poisoned, err := Status.contextKilled.code }) (runs [ins 0x31 [(5, 0)]]), 0, .reg 0, .imm 5,
    false, 0, 0, _, by unfold RunsOp; decide +kernel, by decide +kernel, by decide +kernel, by decide +kernel, rfl, by decide +kernel⟩,
   ⟨onFence (fun f => { f with state := .closed }) (runs [ins 0x31 [(1, 40), (5, 0)]] (reg 1 4)), 0, .reg 1, .imm 5,
    false, 0, 0, _, by unfold RunsOp; decide +kernel, by decide +kernel, by decide +kernel, by decide +kernel, rfl, by decide +kernel⟩,
   ⟨withFence (runs [ins 0x31 [(1, 40), (5, 0)]] (reg 1 4)), 0, .reg 1, .imm 5, false, 0, 0, _,
    by unfold RunsOp; decide +kernel, by decide +kernel, by decide +kernel, by decide +kernel, rfl, by decide +kernel⟩,
   ⟨runs [ins 0x31 [(1, 38), (1, 34)]] (reg 1 (2 ^ 20)), 0, .reg 0, .reg 1, false, 0, 0,
    by unfold RunsOp; decide +kernel⟩,
   ⟨runs [ins 0x32 []], 0, 0, false, by unfold RunsOp; decide +kernel⟩,
   ⟨runs [ins 0x32 [(1, 41)]] (fun x => { x with hostWritten := true }), 0, 0,
    by unfold RunsOp; decide +kernel⟩,
   ⟨(runs [ins 0x32 [(1, 41)]] (fun x => { x with hostWritten := true })).onHp (fun h =>
    { h with reads := List.replicate 1024 { id := 0, who := .chan 0, va := 0, len := 8, access := .read } }), 0, 0,
    by unfold RunsOp; decide +kernel⟩⟩

theorem witness_LaunchesReserveAndStart :
    (∃ (s : State) (c o r cl : _), RunsOp s c o ∧ launchReq (chanAt s c) c = some r ∧ (chanAt s c).kernels = []
      ∧ (launchArgs (chanAt s c)).2.2.1 % 64 = 0 ∧ r.failure s (chanAt s c).hive = none ∧ (hiveAt s (chanAt s
      c).hive).launchQ = [] ∧ r.pick s (chanAt s c).hive = some cl) ∧
    (∃ (s : State) (c o r : _), RunsOp s c o ∧ launchReq (chanAt s c) c = some r ∧ (chanAt s c).kernels = [] ∧
      (launchArgs (chanAt s c)).2.2.1 % 64 = 0 ∧ r.failure s (chanAt s c).hive = none ∧ (r.pick s (chanAt s
      c).hive = none ∨ (hiveAt s (chanAt s c).hive).launchQ ≠ [])) ∧
    (∃ (s : State) (c n ge ga gr gx : _), RunsOp s c (.launchAny n ge ga gr gx) ∧ (chanAt s c).kernels = [] ∧
      (launchArgs (chanAt s c)).2.2.1 % 64 = 0 ∧ (clustersOf s (chanAt s c).hive (fun st => st ==
      .assigned)).length < n) ∧
    (∃ (s : State) (c gr t b : _), RunsOp s c (.launchQuery gr) ∧ (launchArgs (chanAt s c)).2.2.1 % 64 = 0 ∧
      (chanAt s c).lineStatus = none ∧ (chanAt s c).prog = 0 ∧ writeLaunchRecord s c (clustersOf s (chanAt s
      c).hive (fun st => st == .assigned)) (hiveAt s (chanAt s c).hive).launchSeq = (t, .data b) ∧ remoteBusy t
      c = false ∧ (chanAt t c).lineStatus = none) ∧
    (∃ (s : State) (c o r cl a : _), RunsOp s c o ∧ launchReq (chanAt s c) c = some r ∧ Begins s c ∧
      let h := (chanAt s c).hive;
      let gr := (launchArgs (chanAt s c)).2.2.1;
      gr % 64 = 0 ∧ r.failure s h = none ∧ (hiveAt s h).launchQ = [] ∧ r.pick s h = some cl ∧ InReach s c
      (lineOf gr) .wr a) ∧
    (∃ (s : State) (c gr a : _), RunsOp s c (.launchQuery gr) ∧ Begins s c ∧
      let ga := (launchArgs (chanAt s c)).2.2.1;
      ga % 64 = 0 ∧ InReach s c (lineOf ga) .wr a) ∧
    (∃ (s : State) (h r rest cl : _), (hiveAt s h).launchQ = r :: rest ∧ r.pick s h = some cl) :=
  ⟨⟨withCluster none (runs [ins 0x50 [(1, 33)]]), 0, .launchAny 1 0 0 0 0, _, _,
    by unfold RunsOp; decide +kernel, rfl, by decide +kernel, by decide +kernel, by decide +kernel,
    by decide +kernel, rfl⟩,
   ⟨withCluster (some 9) (runs [ins 0x50 [(1, 33)]]), 0, .launchAny 1 0 0 0 0, _,
    by unfold RunsOp; decide +kernel, rfl, by decide +kernel⟩,
   ⟨runs [ins 0x50 [(1, 33)]], 0, 1, 0, 0, 0, 0, by unfold RunsOp; decide +kernel⟩,
   ⟨runs [ins 0x50 [(2, 42)]], 0, 0, _, _, by unfold RunsOp; decide +kernel, by decide +kernel,
    by decide +kernel, by decide +kernel, rfl, by decide +kernel, by decide +kernel⟩,
   ⟨withCluster none (near0 [ins 0x50 [(1, 33)]] id), 0, .launchAny 1 0 0 0 0, _, _, 0,
    by unfold RunsOp; decide +kernel, rfl, begins _ _ (by decide +kernel), by decide +kernel,
    by decide +kernel, by decide +kernel, rfl, reach _ _ _ _ (by decide +kernel)⟩,
   ⟨near0 [ins 0x50 [(2, 42)]] id, 0, 0, 0, by unfold RunsOp; decide +kernel, begins _ _ (by decide +kernel),
    by decide +kernel, reach _ _ _ _ (by decide +kernel)⟩,
   ⟨queued, 0, _, _, _, rfl, rfl⟩⟩

theorem witness_HiveCreateAndResize :
    (∃ (s : State) (c h ga t bs : _), RunsOp s c (.hiveCreate h ga) ∧ noHives s = false ∧ gAddr s c ga % 128 = 0
      ∧ imageOf s c (gAddr s c ga) 384 = some (t, bs) ∧ hiveRz (imgWord bs) = true ∧ hiveRange t h (hiveOf
      (imgWord bs) 0) (bitmapAt (imgWord bs) 8) = false ∧ (hiveAt t h).state = .free ∧ hiveTaken t h (hiveOf
      (imgWord bs) 0) (bitmapAt (imgWord bs) 8) = false ∧ t.vault.drbgOn = true) ∧
    (∃ (s : State) (h : _) (x : Hive), (hiveAt s h).keyGen < 2 ^ 32 - 1 ∧ s.vault.wrapBad = false) ∧
    (∃ (s : State) (c h ga : _), RunsOp s c (.hiveCreate h ga) ∧ noHives s = true) ∧
    (∃ (s : State) (c h ga t bs u cs : _), RunsOp s c (.hiveResize h ga) ∧ gAddr s c ga % 128 = 0 ∧ imageOf s c
      (gAddr s c ga) 64 = some (t, bs) ∧ resizeRz (imgWord bs) = true ∧ fld (imgWord bs 4) 51 13 ≤ 4096 ∧ gAddr
      t c ga = gAddr s c ga ∧ imageOf t c (gAddr s c ga) (64 + 32 * fld (imgWord bs 4) 51 13) = some (u, cs) ∧
      settingsRz (imgWord cs) 8 (fld (imgWord bs 4) 51 13) = true ∧ resizeRange u h (bitmapAt (imgWord cs) 0)
      (fld (imgWord cs 4) 32 10) (fld (imgWord cs 4) 0 10) (fld (imgWord bs 4) 51 13) (settingsAt (imgWord cs) 8
      (fld (imgWord bs 4) 51 13)) = false ∧ (hiveAt u h).state = .active ∧ (hiveAt u h).elastic = true ∧ (∀ i ∈
      resizeAdds u h (bitmapAt (imgWord cs) 0), (clusterAt u i).state = .free ∧ i < clustersAttached u) ∧ (fld
      (imgWord cs 4) 0 10 ≤ (hiveAt u h).chGuarantee ∨ guaranteed u h + fld (imgWord cs 4) 0 10 ≤
      channelsInService u)) :=
  ⟨⟨boss 0x80 [(2, 36), (1, 32)] [0, 0, 2 ^ 32, 8 * 2 ^ 48 + 2 ^ 32], 0, 2, 1, _, _,
    by unfold RunsOp; decide +kernel, by decide +kernel, by decide +kernel, image _ _ _ _ (by decide +kernel), by decide +kernel⟩,
   ⟨world, 2, Hive.empty 0, by decide +kernel⟩,
   ⟨(boss 0x80 [(2, 36), (1, 32)] []).onVault (fun v => { v with lc := .blank }), 0, 2, 1,
    by unfold RunsOp; decide +kernel⟩,
   ⟨boss 0x81 [(1, 36), (1, 32)] [0, 0, 0, 0, 2 ^ 32], 0, 1, 1, _, _, _, _, by unfold RunsOp; decide +kernel,
    by decide +kernel, image _ _ _ _ (by decide +kernel), by decide +kernel, by decide +kernel,
    by decide +kernel, image _ _ _ _ (by decide +kernel), by decide +kernel⟩⟩

theorem witness_HiveSequencesStartAndMask :
    (∃ (s : State) (c h : _), RunsOp s c (.hiveReset h) ∧ h ≠ 0 ∧ (hiveAt s h).state ∈ [HiveState.active,
      .resizing, .migrating, .frozen]) ∧
    (∃ (s : State) (c h : _), RunsOp s c (.hiveDestroy h) ∧ h ≠ 0 ∧ (hiveAt s h).state ∈ [HiveState.active,
      .migrating, .frozen]) ∧
    (∃ (s : State) (c n : _), RunsOp s c (.ctxKill n) ∧ n ≠ 0 ∧ (ctxAt s n).state = .active) ∧
    (∃ (s : State) (c q : _), RunsOp s c (.queueReset q) ∧ q ≠ 0 ∧ (queueAt s q).state ∈ [QueueState.running,
      .stopped]) ∧
    (∃ (s : State) (c q : _), RunsOp s c (.queueUnbind q) ∧ q ≠ 0 ∧ (queueAt s q).state ∈ [QueueState.running,
      .stopped]) ∧
    (∃ (s : State) (c : _), RunsOp s c (.hiveReset 0)) ∧
    (∃ (s : State) (c : _), RunsOp s c (.hiveDestroy 0)) ∧
    (∃ (s : State) (c : _), RunsOp s c (.ctxKill 0)) ∧
    (∃ (s : State) (c : _), RunsOp s c (.queueReset 0)) ∧
    (∃ (s : State) (c : _), RunsOp s c (.queueUnbind 0)) ∧
    (∃ (s : State) (c h : _), RunsOp s c (.hiveReset h) ∧ h ≠ 0 ∧ (hiveAt s h).state ∈ [HiveState.free,
      .creating, .resetting, .destroying]) ∧
    (∃ (s : State) (c h : _), RunsOp s c (.hiveDestroy h) ∧ h ≠ 0 ∧ (hiveAt s h).state ∈ [HiveState.free,
      .creating, .resizing, .resetting, .destroying]) ∧
    (∃ (s : State) (c n : _), RunsOp s c (.ctxKill n) ∧ n ≠ 0 ∧ (ctxAt s n).state ≠ .active) ∧
    (∃ (s : State) (c q : _), RunsOp s c (.queueReset q) ∧ q ≠ 0 ∧ (queueAt s q).state ∉ [QueueState.running,
      .stopped]) ∧
    (∃ (s : State) (c q : _), RunsOp s c (.queueUnbind q) ∧ q ≠ 0 ∧ (queueAt s q).state ∉ [QueueState.running,
      .stopped]) :=
  ⟨⟨runs [ins 0x82 [(1, 36)]], 0, 1, by unfold RunsOp; decide +kernel⟩,
   ⟨runs [ins 0x83 [(1, 36)]], 0, 1, by unfold RunsOp; decide +kernel⟩,
   ⟨runs [ins 0x88 [(1, 30)]], 0, 1, by unfold RunsOp; decide +kernel⟩,
   ⟨setQueue (runs [ins 0x89 [(1, 30), (1, 32)]]) 1 (fun x => { x with state := .running, ctx := 1 }), 0, 1,
    by unfold RunsOp; decide +kernel⟩,
   ⟨setQueue (runs [ins 0x89 [(2, 30), (1, 32)]]) 1 (fun x => { x with state := .running, ctx := 1 }), 0, 1,
    by unfold RunsOp; decide +kernel⟩,
   ⟨runs [ins 0x82 []], 0, by unfold RunsOp; decide +kernel⟩,
   ⟨runs [ins 0x83 []], 0, by unfold RunsOp; decide +kernel⟩,
   ⟨runs [ins 0x88 []], 0, by unfold RunsOp; decide +kernel⟩,
   ⟨runs [ins 0x89 [(1, 30)]], 0, by unfold RunsOp; decide +kernel⟩,
   ⟨runs [ins 0x89 [(2, 30)]], 0, by unfold RunsOp; decide +kernel⟩,
   ⟨runs [ins 0x82 [(2, 36)]], 0, 2, by unfold RunsOp; decide +kernel⟩,
   ⟨runs [ins 0x83 [(2, 36)]], 0, 2, by unfold RunsOp; decide +kernel⟩,
   ⟨runs [ins 0x88 [(2, 30)]], 0, 2, by unfold RunsOp; decide +kernel⟩,
   ⟨runs [ins 0x89 [(1, 30), (2, 32)]], 0, 2, by unfold RunsOp; decide +kernel⟩,
   ⟨runs [ins 0x89 [(2, 30), (2, 32)]], 0, 2, by unfold RunsOp; decide +kernel⟩⟩

theorem witness_ColonyJoinAndResume :
    (∃ (s : State) (c h col lo hi : _), RunsOp s c (.colonyJoin h col lo hi) ∧ h ≠ 0 ∧ ((hiveAt s h).state =
      .active ∨ (hiveAt s h).state = .resizing)) ∧
    (∃ (s : State) (c h : _), RunsOp s c (.resume h) ∧ (hiveAt s h).state = .frozen ∧ (∀ m ∈ s.he.migrations,
      m.hive ≠ h)) ∧
    (∃ (s : State) (c h j : _), RunsOp s c (.resume h) ∧ (hiveAt s h).state = .frozen ∧ s.he.migrations.filter
      (fun m => m.hive == h) = [j]) ∧
    (∃ (s : State) (c h : _), RunsOp s c (.resume h) ∧ (hiveAt s h).state ≠ .frozen) :=
  ⟨⟨runs [ins 0x84 [(1, 54), (1, 36)], ins 0 [(9, 40), (2, 16), (5, 0)]], 0, 1, 9, 2, 5,
    by unfold RunsOp; decide +kernel⟩,
   ⟨setHive (runs [ins 0x8C [(1, 36)]]) 1 (fun h => { h with state := .frozen }), 0, 1,
    by unfold RunsOp; decide +kernel⟩,
   ⟨withMig .final (setHive (runs [ins 0x8C [(1, 36)]]) 1 (fun h => { h with state := .frozen })), 0, 1, mig
    .final, by unfold RunsOp; decide +kernel⟩,
   ⟨runs [ins 0x8C [(1, 36)]], 0, 1, by unfold RunsOp; decide +kernel⟩⟩

theorem witness_CombGrants :
    (∃ (s : State) (c h e ga t bs : _), RunsOp s c (.combAttach h e ga) ∧ imageOf s c (gAddr s c ga) 16 = some
      (t, bs) ∧ combRz (imgWord bs 0) (imgWord bs 1) = true ∧
      let k := Comb.ofWords (imgWord bs 0) (imgWord bs 1);
      k.valid = true ∧ combRange t h k = false ∧ commonsSel k.keySel = true ∧ (hiveAt t h).combs.any (fun d =>
      d.1 != e && k.meets d.2) = false ∧ Tab.look (hiveAt t h).combs e = none ∧ grantable t h = true ∧ combTaken
      t k = false ∧ (commonsHeld t k.keySel = true ∨ (noHives t = false ∧ t.vault.drbgOn = true ∧
      t.vault.wrapBad = false))) ∧
    (∃ (s : State) (c h e r k : _), RunsOp s c (.combRights h e false r) ∧ Tab.look (hiveAt s h).combs e = some
      k ∧ grantable s h = true) ∧
    (∃ (s : State) (c h e r k : _), RunsOp s c (.combRights h e true r) ∧ Tab.look (hiveAt s h).combs e = some k
      ∧ grantable s h = true) ∧
    (∃ (s : State) (c h e k : _), RunsOp s c (.combDetach h e false) ∧ Tab.look (hiveAt s h).combs e = some k ∧
      k.commons = true ∧ grantable s h = true) ∧
    (∃ (s : State) (c h e k : _), RunsOp s c (.combDetach h e true) ∧ Tab.look (hiveAt s h).combs e = some k ∧
      k.commons = true ∧ grantable s h = true) ∧
    (∃ (s : State) (c h e r ev : _), RunsOp s c (.combRights h e ev r) ∧ Tab.look (hiveAt s h).combs e = none) ∧
    (∃ (s : State) (c h e ev : _), RunsOp s c (.combDetach h e ev) ∧ Tab.look (hiveAt s h).combs e = none) :=
  ⟨⟨boss 0x85 [(1, 36), (2, 30), (1, 18)] [2 ^ 63 + 6 * 2 ^ 32 + 2 ^ 16 + 0x100, 7], 0, 1, 2, 1, _, _,
    by unfold RunsOp; decide +kernel, image _ _ _ _ (by decide +kernel), by decide +kernel⟩,
   ⟨withCommons (runs [ins 0x85 [(1, 34), (1, 36), (2, 30), (5, 22)]]), 0, 1, 2, 5, _,
    by unfold RunsOp; decide +kernel, rfl, by decide +kernel⟩,
   ⟨withCommons (runs [ins 0x85 [(1, 34), (1, 36), (2, 30), (5, 22), (1, 29)]]), 0, 1, 2, 5, _,
    by unfold RunsOp; decide +kernel, rfl, by decide +kernel⟩,
   ⟨withCommons (runs [ins 0x85 [(2, 34), (1, 36), (2, 30)]]), 0, 1, 2, _, by unfold RunsOp; decide +kernel,
    rfl, by decide +kernel, by decide +kernel⟩,
   ⟨withCommons (runs [ins 0x85 [(2, 34), (1, 36), (2, 30), (1, 29)]]), 0, 1, 2, _,
    by unfold RunsOp; decide +kernel, rfl, by decide +kernel, by decide +kernel⟩,
   ⟨runs [ins 0x85 [(1, 34), (1, 36), (2, 30)]], 0, 1, 2, 0, false, by unfold RunsOp; decide +kernel⟩,
   ⟨runs [ins 0x85 [(2, 34), (1, 36), (2, 30)]], 0, 1, 2, false, by unfold RunsOp; decide +kernel⟩⟩

theorem witness_CtxCreateLoadsTheContext :
    (∃ (s : State) (c n ga t bs u gs v : _), RunsOp s c (.ctxCreate n ga) ∧ gAddr s c ga % 64 = 0 ∧ imageOf s c
      (gAddr s c ga) 64 = some (t, bs) ∧
      let w := imgWord bs;
      let h := fld (w 0) 40 8;
      let k := fld (w 3) 48 16;
      ctxRz w = true ∧ h ≠ 255 ∧ k ≤ 4096 ∧ grantListOk t (fld (w 2) 0 57) k = true ∧ readGrantList t h (fld (w
      2) 0 57) k = (u, .ok gs) ∧ (ctxAt u n).state = .free ∧ tenantsRun u h = true ∧ Tab.look u.hp.pasids (fld
      (w 0) 20 20) = none ∧ ctxsOfHive u h < (hiveAt u h).ctxQuota ∧ raiseHolders u h gs [] = (v, none)) :=
  ⟨boss 0x87 [(2, 30), (1, 26)] [2 ^ 40 + 9 * 2 ^ 20],
   0,
   2,
   1,
   _,
   _,
   _,
   _,
   _,
   by unfold RunsOp; decide +kernel,
   by decide +kernel,
   image _ _ _ _ (by decide +kernel),
   by decide +kernel,
   by decide +kernel,
   by decide +kernel,
   by decide +kernel,
   rfl,
   by decide +kernel,
   by decide +kernel,
   by decide +kernel,
   by decide +kernel,
   rfl⟩

theorem witness_QueueBindRunsTheQueue :
    (∃ (s : State) (c n ga gi t bs u : _), RunsOp s c (.queueBind n ga gi) ∧ gAddr s c ga % 64 = 0 ∧ imageOf s c
      (gAddr s c ga) 64 = some (t, bs) ∧
      let w := imgWord bs;
      let x := queueOf w;
      let k := ctxAt t x.ctx;
      let h := hiveAt t k.hive;
      let ix := match gi with | some r => ((chanAt t c).greg r).toNat | none => 0;
      queueRz w = true ∧ n ≠ 0 ∧ queueRange x = false ∧ Machine.dist (fld ix 32 32) (fld ix 0 32) ≤ 2 ^
      x.ringLog2 ∧ h.labelFirst ≤ x.label ∧ x.label < h.labelFirst + h.labelCount ∧ h.vecFirst ≤ x.vector ∧
      x.vector < h.vecFirst + h.vecCount ∧ (queueAt t n).state = .unbound ∧ k.state = .active ∧ tenantsRun t
      k.hive = true ∧ (queuesOfHive t k.hive).length < h.queueQuota ∧ bindPages (setChan t c (fun y => { y with
      prog := Nat.max 1 y.prog })) c x.ctx false ((bindSpans x).flatMap (fun p => (pagesOf p).map (fun a => (p,
      a)))) (Nat.max 1 (chanAt t c).prog - 1) = (u, .good)) :=
  ⟨withL2 (boss 0x89 [(7, 32), (1, 26)] [2 ^ 32 + 6 * 2 ^ 16 + 1, 0, 0, 4 * 2 ^ 52 + 2 ^ 32 + 2 * 2 ^ 16]),
   0,
   7,
   1,
   none,
   _,
   _,
   _,
   by unfold RunsOp; decide +kernel,
   by decide +kernel,
   image _ _ _ _ (by decide +kernel),
   by
    repeat' apply And.intro
    all_goals first | exact snd_eq _ _ (good_of _ (by decide +kernel)) | decide +kernel⟩

set_option maxRecDepth 1000000 in
theorem witness_QueriesWriteTheirRecords :
    (∃ (s : State) (c n ga qmax t u : _), RunsOp s c (.queryCtx n ga qmax) ∧ gAddr s c ga % 64 = 0 ∧ (chanAt s
      c).prog = 0 ∧ (chanAt s c).lineStatus = none ∧
      let bs := bytesOf (ctxImage s n ++ ((queuesOfCtx s n).take qmax).flatMap (queueImage s));
      imageLines s c .wr (linesOf (gAddr s c ga) bs.length) = (t, .ok ()) ∧ recordWrite t c (gAddr s c ga) bs
      (linesOf (gAddr s c ga) bs.length) = (u, .ok ())) ∧
    (∃ (s : State) (c h ga t u : _), RunsOp s c (.queryHive h ga) ∧ gAddr s c ga % 128 = 0 ∧ (chanAt s c).prog =
      0 ∧ (chanAt s c).lineStatus = none ∧
      let bs := bytesOf (hiveImage s h);
      imageLines s c .wr (linesOf (gAddr s c ga) bs.length) = (t, .ok ()) ∧ recordWrite t c (gAddr s c ga) bs
      (linesOf (gAddr s c ga) bs.length) = (u, .ok ())) ∧
    (∃ (s : State) (c h ga t u : _), RunsOp s c (.keyFingerprint h ga) ∧ gAddr s c ga % 64 = 0 ∧ (chanAt s
      c).prog = 0 ∧ (chanAt s c).lineStatus = none ∧ (hiveAt s h).state ∈ [HiveState.active, .resizing,
      .migrating, .frozen] ∧
      let bs := fingerprintRecord s h;
      imageLines s c .wr (linesOf (gAddr s c ga) bs.length) = (t, .ok ()) ∧ recordWrite t c (gAddr s c ga) bs
      (linesOf (gAddr s c ga) bs.length) = (u, .ok ())) ∧
    (∃ (s : State) (c n ga qmax : _), RunsOp s c (.queryCtx n ga qmax) ∧ gAddr s c ga % 64 ≠ 0) ∧
    (∃ (s : State) (c h ga : _), RunsOp s c (.queryHive h ga) ∧ gAddr s c ga % 128 ≠ 0) ∧
    (∃ (s : State) (c h ga : _), RunsOp s c (.keyFingerprint h ga) ∧ gAddr s c ga % 64 ≠ 0) ∧
    (∃ (s : State) (c h ga t : _), RunsOp s c (.keyFingerprint h ga) ∧ gAddr s c ga % 64 = 0 ∧ (chanAt s c).prog
      = 0 ∧ (chanAt s c).lineStatus = none ∧ (hiveAt s h).state ∈ [HiveState.free, .creating, .resetting,
      .destroying] ∧ imageLines s c .wr (linesOf (gAddr s c ga) (fingerprintRecord s h).length) = (t, .ok ())) :=
  ⟨⟨boss 0x8E [(1, 30), (1, 26), (1, 13)] [], 0, 1, 1, 1, _, _, by unfold RunsOp; decide +kernel,
    by decide +kernel, by decide +kernel, by decide +kernel, answers_ok _ (by decide +kernel), answers_ok _ (by decide +kernel)⟩,
   ⟨boss 0x8F [(1, 36), (1, 32)] [], 0, 1, 1, _, _, by unfold RunsOp; decide +kernel, by decide +kernel,
    by decide +kernel, by decide +kernel, answers_ok _ (by decide +kernel), answers_ok _ (by decide +kernel)⟩,
   ⟨boss 0x86 [(1, 42), (1, 34), (1, 30)] [], 0, 1, 1, _, _, by unfold RunsOp; decide +kernel,
    by decide +kernel, by decide +kernel, by decide +kernel, by decide +kernel,
    lines_ok _ _ _ 64 _ _ (fingerprintRecord_length _ _)
    (by decide +kernel), record_ok _ _ _ 64 _ (fingerprintRecord_length _ _)
    (by rw [fingerprintRecord_length]; decide +kernel)⟩,
   ⟨runs [ins 0x8E [(1, 30), (1, 26), (1, 13)]] (reg 1 4), 0, 1, 1, 1, by unfold RunsOp; decide +kernel⟩,
   ⟨runs [ins 0x8F [(1, 36), (1, 32)]] (reg 1 64), 0, 1, 1, by unfold RunsOp; decide +kernel⟩,
   ⟨setChan (boss 0x86 [(1, 42), (1, 34), (1, 30)] []) 0 (reg 1 4097), 0, 1, 1, by unfold RunsOp; decide +kernel⟩,
   ⟨boss 0x86 [(1, 42), (2, 34), (1, 30)] [], 0, 2, 1, _, by unfold RunsOp; decide +kernel,
    by decide +kernel, by decide +kernel, by decide +kernel, by decide +kernel,
    lines_ok _ _ _ 64 _ _ (fingerprintRecord_length _ _) (by decide +kernel)⟩⟩

theorem witness_LabelsAndInvalidations :
    (∃ (s : State) (c h ga n t bs : _), RunsOp s c (.labelSet h ga n) ∧ gAddr s c ga % 32 = 0 ∧ imageOf s c
      (gAddr s c ga) (32 * n) = some (t, bs) ∧ settingsRz (imgWord bs) 0 n = true ∧ settingsRange t h
      (settingsAt (imgWord bs) 0 n) = false ∧ (hiveAt t h).state ∈ [HiveState.active, .migrating, .frozen]) ∧
    (∃ (s : State) (c n ga gl : _), RunsOp s c (.invPages n ga gl) ∧ (let a := ((chanAt s c).greg ga).toNat;
      (let l := ((chanAt s c).greg gl).toNat;
      a % 2 ^ 25 = 0 ∧ 0 < l ∧ l % 2 ^ 25 = 0 ∧ a + l ≤ 2 ^ 57 ∧ (ctxAt s n).state = .active))) ∧
    (∃ (s : State) (c n ga gl t gs : _), RunsOp s c (.invContext n ga gl) ∧ (let a := ((chanAt s c).greg
      ga).toNat;
      (let k := ((chanAt s c).greg gl).toNat;
      k ≤ 4096 ∧ grantListOk s a k = true ∧ (ctxAt s n).state = .active ∧ readGrantList s (ctxAt s n).hive a k =
      (t, .ok gs)))) ∧
    (∃ (s : State) (c n ga gl : _), RunsOp s c (.invPages n ga gl) ∧ ((chanAt s c).greg ga).toNat % 2 ^ 25 ≠ 0) ∧
    (∃ (s : State) (c o t w0 u : _), RunsOp s c (.invObject o) ∧ objEntry s o = (t, .ok, w0, 0) ∧ rz w0 48 6 =
      true ∧ fld w0 62 2 = 1 ∧ fld w0 0 16 = 0 ∧ tableWrite t (objAddr s o) (leBytes 8 (w0 % 2 ^ 62)) = (u,
      .ok)) ∧
    (∃ (s : State) (c f fe t : _), RunsOp s c (.invFence f) ∧ Tab.look s.qm.fills f = none ∧ fenceAt s f = some
      fe ∧ fe.state ≠ .opened ∧ tableWrite s (fenceAddr s f) (List.replicate 32 0) = (t, .ok)) ∧
    (∃ (s : State) (c f fe : _), RunsOp s c (.invFence f) ∧ Tab.look s.qm.fills f = none ∧ fenceAt s f = some fe
      ∧ fe.state = .opened) :=
  ⟨⟨boss 0x8A [(1, 36), (1, 32), (1, 19)] [5 * 2 ^ 52, 0, 0, 0], 0, 1, 1, 1, _, _,
    by unfold RunsOp; decide +kernel, by decide +kernel, image _ _ _ _ (by decide +kernel), by decide +kernel⟩,
   ⟨runs [ins 0x8B [(1, 27), (1, 23), (2, 19)]] (fun x => reg 1 0 (reg 2 (2 ^ 25) x)), 0, 1, 1, 2,
    by unfold RunsOp; decide +kernel⟩,
   ⟨runs [ins 0x8B [(1, 41), (1, 27), (1, 23), (2, 19)]], 0, 1, 1, 2, _, _, by unfold RunsOp; decide +kernel,
    by decide +kernel, by decide +kernel, by decide +kernel, get_ok _ (by decide +kernel)⟩,
   ⟨runs [ins 0x8B [(1, 27), (1, 23), (2, 19)]] (reg 1 4), 0, 1, 1, 2, by unfold RunsOp; decide +kernel⟩,
   ⟨boss 0x8B [(2, 41), (256, 25)] [2 ^ 62], 0, 256, _, _, _, by unfold RunsOp; decide +kernel, entry_eq _
    (by decide +kernel), by decide +kernel, by decide +kernel, by decide +kernel, snd_eq _ _ (by decide +kernel)⟩,
   ⟨setFence (withFence (runs [ins 0x8B [(3, 41), (5, 21)]])) 5 (fun x => { x with state := .closed }), 0, 5,
    _, _, by unfold RunsOp; decide +kernel, rfl, rfl, by decide +kernel, snd_eq _ _ (by decide +kernel)⟩,
   ⟨withFence (runs [ins 0x8B [(3, 41), (5, 21)]]), 0, 5, _, by unfold RunsOp; decide +kernel, rfl, rfl,
    by decide +kernel⟩⟩

theorem witness_MigrationsRunTheirPhases :
    (∃ (s : State) (c h ga t bs u fs : _), RunsOp s c (.migrate h ga) ∧ gAddr s c ga % 64 = 0 ∧ imageOf s c
      (gAddr s c ga) 320 = some (t, bs) ∧ (let w := imgWord bs;
      (let n := fld (w 2) 32 16;
      (let fences := (List.range n).map (fun i => leNat ((fs.drop (4 * i)).take 4));
      planRz w = true ∧ imageOf t c (fld (w 3) 0 57) (4 * n) = some (u, fs) ∧ planRange u h w = false ∧ (∀ f ∈
      fences, f < Config.fences) ∧ (hiveAt u h).state = .active ∧ u.he.migrations.length < Config.migrations)))) ∧
    (∃ (s : State) (h j : _), migAt s h = some j ∧ j.phase = .precopy ∧ remoteBusy s j.chan = false ∧ ((logCells
      s h).length ≤ j.stopCells ∨ j.round + 1 = j.maxRounds ∨ j.cells.length ≤ (logCells s h).length)) ∧
    (∃ (s : State) (h j : _), migAt s h = some j ∧ j.phase = .precopy ∧ remoteBusy s j.chan = false ∧
      j.stopCells < (logCells s h).length ∧ j.round + 1 ≠ j.maxRounds ∧ (logCells s h).length < j.cells.length) ∧
    (∃ (s : State) (h j k u v p : _), migAt s h = some j ∧ j.phase = .freezing ∧ chansWhere s (fun ch => ch.hive
      == h) = [] ∧ (∀ q ∈ queuesOfHive s h, recordOut s q = false) ∧ writesQuiet s h = true ∧
      let set := logCells s h;
      let t := setMig (clearLog s h) h (fun m =>
      { m with phase := .final, cells := set, cellsFinal := set.length, cellsTotal := m.cellsTotal + set.length });
      migAt t h = some k ∧ copyCells t k set = (u, none) ∧ package u k = p ∧ writePackage p.1 k p.2 = (v, none)) ∧
    (∃ (s : State) (h j k u st : _), migAt s h = some j ∧ j.phase = .freezing ∧ chansWhere s (fun ch => ch.hive
      == h) = [] ∧ (∀ q ∈ queuesOfHive s h, recordOut s q = false) ∧ writesQuiet s h = true ∧
      let set := logCells s h;
      let t := setMig (clearLog s h) h (fun m =>
      { m with phase := .final, cells := set, cellsFinal := set.length, cellsTotal := m.cellsTotal + set.length });
      migAt t h = some k ∧ copyCells t k set = (u, some st)) ∧
    (∃ (s : State) (h j : _), migAt s h = some j ∧ j.phase = .freezing) :=
  ⟨⟨boss 0x8D [(1, 36), (1, 32)] [9 * 2 ^ 48 + 2 ^ 32 + 1, 9 * 2 ^ 41, 0, 0, 0, 0, 0, 0, 2 ^ 63 + 9 * 2 ^ 41],
    0, 1, 1, _, _, _, _, by unfold RunsOp; decide +kernel, by decide +kernel, image _ _ _ _
    (by decide +kernel), by decide +kernel, image _ _ _ _ (by decide +kernel), by decide +kernel⟩,
   ⟨withMig .precopy world, 1, mig .precopy, by decide +kernel⟩,
   ⟨(withMig .precopy world).onHe (fun e => { e with migrations := [{ mig .precopy with stopCells := 0 }] })
    |>.onXl (fun x => { x with logs := [{ hive := 1, cells := [2048], allDirty := false }] }), 1, mig .precopy, by decide +kernel⟩,
   ⟨withLink (withMig .freezing world), 1, mig .freezing, _, _, _, _, rfl, rfl, by decide +kernel,
    by decide +kernel, by decide +kernel, rfl, rfl, rfl, snd_eq _ _ (by decide +kernel)⟩,
   ⟨(world.onHe (fun e => { e with migrations := [{ mig .freezing with pairs := [(0, 9 * 2 ^ 41)] }] })).onXl
    (fun x => { x with logs := [{ hive := 1, cells := [2048], allDirty := false }] }), 1, { mig .freezing with
    pairs := [(0, 9 * 2 ^ 41)] }, _, _, .link, rfl, rfl, by decide +kernel, by decide +kernel, by decide +kernel, rfl,
    snd_eq _ _ (by decide +kernel)⟩,
   ⟨withMig .freezing world, 1, mig .freezing, by decide +kernel, by decide +kernel⟩⟩

theorem witness_SparesTakeTheirUnitsPlace :
    (∃ (s : State) (c cls unit sub p : _), RunsOp s c (.spareSwap cls unit sub) ∧ UnitInRange s cls unit sub ∧
      cls ≠ 0 ∧ swapPending s cls (unitOf cls unit sub).1 (unitOf cls unit sub).2 = false ∧ spareOf s cls
      (unitOf cls unit sub).1 = some p) ∧
    (∃ (s : State) (cls : _), cls ≠ 4) ∧
    (∃ (s : State) (c unit p : _), RunsOp s c (.spareSwap 0 unit 0) ∧ unit < reportedMovers s ∧ swapPending s 0
      (unitOf 0 unit 0).1 (unitOf 0 unit 0).2 = false ∧ spareOf s 0 (unitOf 0 unit 0).1 = some p) ∧
    (∃ (s : State) (c cls unit sub : _), RunsOp s c (.spareSwap cls unit sub) ∧ ¬ UnitInRange s cls unit sub) ∧
    (∃ (s : State) (c cls unit sub : _), RunsOp s c (.spareSwap cls unit sub) ∧ UnitInRange s cls unit sub ∧
      swapPending s cls (unitOf cls unit sub).1 (unitOf cls unit sub).2 = true) ∧
    (∃ (s : State) (c cls unit sub : _), RunsOp s c (.spareSwap cls unit sub) ∧ UnitInRange s cls unit sub ∧
      swapPending s cls (unitOf cls unit sub).1 (unitOf cls unit sub).2 = false ∧ spareOf s cls (unitOf cls unit
      sub).1 = none) ∧
    (∃ (s : State) (m x : _), moverSwap s m = some x ∧ x.sleeping = false ∧ (moverAt s m).homeWaits = true ∧
      homeBusy s m = false) ∧
    (∃ (s : State) (m : _), homeBusy s m = true) ∧
    (∃ (s : State) (m x : _), moverSwap s m = some x ∧ x.sleeping = false ∧ (moverAt s m).spareAwake = true ∧ (∀
      i < 8, (chanAt s (8 * m + i)).state = .free)) ∧
    (∃ (s : State) (m x c : _), moverSwap s m = some x ∧ x.sleeping = false ∧ x.chan = some c) ∧
    (∃ (s : State) (m x : _), moverSwap s m = some x ∧ x.sleeping = true ∧ s.clk.control.ready = true) ∧
    (∃ (s : State) (m x : _), moverSwap s m = some x ∧ x.sleeping = true ∧ s.clk.control.ready = false) :=
  ⟨⟨runs [ins 0x90 [(1, 40), (2, 24), (3, 8)]], 0, 1, 2, 3, 16, by unfold RunsOp; decide +kernel,
    by unfold UnitInRange; decide +kernel, by decide +kernel⟩,
   ⟨world, 1, by decide⟩,
   ⟨runs [ins 0x90 [(2, 24)]], 0, 2, 64, by unfold RunsOp; decide +kernel, by decide +kernel⟩,
   ⟨runs [ins 0x90 [(64, 24)]], 0, 0, 64, 0, by unfold RunsOp; decide +kernel, by unfold UnitInRange; decide +kernel⟩,
   ⟨withUnit (runs [ins 0x90 [(2, 40), (5, 24)]]), 0, 2, 5, 0, by unfold RunsOp; decide +kernel,
    by unfold UnitInRange; decide +kernel, by decide +kernel⟩,
   ⟨(runs [ins 0x90 [(1, 40), (2, 24), (3, 8)]]).onBr (fun b => { b with bad := (List.range 24).map (fun p => (1, 26, p)) }), 0, 1, 2, 3,
    by unfold RunsOp; decide +kernel, by unfold UnitInRange; decide +kernel, by decide +kernel⟩,
   ⟨setMover (withSwap none false world) 3 (fun x => { x with homeWaits := true }), 3, _, rfl, rfl, by decide +kernel⟩,
   ⟨setPort world 0 (fun p => { p with arb := [{ hreq with kind := some (.atomic .add false false 0 0 0) }] }), 0, by decide +kernel⟩,
   ⟨setMover (withSwap none false world) 3 (fun x => { x with spareAwake := true }), 3, _, rfl, rfl, rfl,
    by decide +kernel⟩,
   ⟨withSwap (some 0) false world, 3, _, 0, rfl, rfl, rfl⟩,
   ⟨withSwap none true world, 3, _, rfl, by decide +kernel⟩,
   ⟨(withSwap none true world).onClk (fun k => { k with control := { k.control with ready := false } }), 3, _, rfl, by decide +kernel⟩⟩

theorem witness_MailboxRunsOneCommand :
    (∃ (s : State), s.kp.mbox.busy = true ∧ s.vault.blow = none ∧ s.clk.cold = false ∧ s.kp.mbox.bootStage =
      stageRecovery ∧ s.kp.warm = none ∧ s.kp.mbox.op = 0x2) ∧
    (∃ (s : State), s.kp.mbox.busy = true ∧ s.vault.blow = none ∧ s.clk.cold = false ∧ s.kp.mbox.bootStage =
      stageRecovery ∧ s.kp.warm = none ∧ s.kp.mbox.op = 0x4) ∧
    (∃ (s : State), s.kp.mbox.busy = true ∧ s.vault.blow = none ∧ s.clk.cold = false ∧ s.kp.mbox.bootStage =
      stageRecovery ∧ s.kp.warm = none ∧ ∃ (a b e : _), s.kp.mbox.op = 0x3 ∧ provSays s a b e = true) ∧
    (∃ (s : State), s.kp.mbox.busy = true ∧ s.vault.blow = none ∧ s.clk.cold = false ∧ s.kp.mbox.bootStage =
      stageRecovery ∧ s.kp.warm = none ∧ ∃ (a : _), s.kp.mbox.op = 0x5 ∧ (s.vault.lc = .production → tokenSays s
      (arg s 104 224) a = true)) ∧
    (∃ (s : State), s.kp.mbox.busy = true ∧ s.vault.blow = none ∧ s.clk.cold = false ∧ s.kp.mbox.bootStage =
      stageRecovery ∧ s.kp.warm = none ∧ ∃ (a : _), s.kp.mbox.op = 0x6 ∧ tokenSays s (arg s 8 224) a = true) ∧
    (∃ (s : State), s.kp.mbox.busy = true ∧ s.vault.blow = none ∧ s.clk.cold = false ∧ s.kp.mbox.bootStage =
      stageRecovery ∧ s.kp.warm = none ∧ s.kp.mbox.op = 0x7) ∧
    (∃ (s : State), s.kp.mbox.busy = true ∧ s.vault.blow = none ∧ s.clk.cold = false ∧ s.kp.mbox.bootStage =
      stageRecovery ∧ s.kp.warm = none ∧ ∃ (a : _), s.kp.mbox.op = 0x8 ∧ tokenSays s (arg s 0 224) a = true) ∧
    (∃ (s : State), s.kp.mbox.busy = true ∧ s.vault.blow = none ∧ s.clk.cold = false ∧ s.kp.mbox.bootStage =
      stageRecovery ∧ s.kp.warm = none ∧ s.kp.mbox.op = 0x9) ∧
    (∃ (s : State), s.kp.mbox.busy = true ∧ s.vault.blow = none ∧ s.clk.cold = false ∧ s.kp.mbox.bootStage =
      stageRecovery ∧ s.kp.warm = none ∧ s.kp.mbox.op = 0xA) ∧
    (∃ (s : State), s.kp.mbox.busy = true ∧ s.vault.blow = none ∧ s.clk.cold = false ∧ s.kp.mbox.bootStage =
      stageRecovery ∧ s.kp.warm = none ∧ ∃ (a : _), s.kp.mbox.op = 0xB ∧ engineSays s (if argNat s 0 1 = 0 then
      1 else 2) (1 - b2n (if argNat s 0 1 = 0 then s.kp.mbox.fwCopy else s.kp.mbox.setCopy)) a = true) ∧
    (∃ (s : State), s.kp.mbox.busy = true ∧ s.vault.blow = none ∧ s.clk.cold = false ∧ s.kp.mbox.bootStage =
      stageRecovery ∧ s.kp.warm = none ∧ ∃ (a : _), s.kp.mbox.op = 0xC ∧ (s.vault.lc = .production → tokenSays s
      (arg s 0 224) a = true)) ∧
    (∃ (s : State), s.kp.mbox.busy = true ∧ s.vault.blow = none ∧ s.clk.cold = false ∧ s.kp.mbox.bootStage =
      stageRecovery ∧ s.kp.warm = none ∧ s.kp.mbox.op = 0x10) ∧
    (∃ (s : State), s.kp.mbox.busy = true ∧ s.vault.blow = none ∧ s.clk.cold = false ∧ s.kp.mbox.bootStage =
      stageRecovery ∧ s.kp.warm = none ∧ s.kp.mbox.op = 0x12) ∧
    (∃ (s : State), s.kp.mbox.busy = true ∧ s.vault.blow = none ∧ s.clk.cold = false ∧ s.kp.mbox.bootStage =
      stageRecovery ∧ s.kp.warm = none ∧ s.kp.mbox.op = 0x13) ∧
    (∃ (s : State), s.kp.mbox.busy = true ∧ s.vault.blow = none ∧ s.clk.cold = false ∧ s.kp.mbox.bootStage =
      stageRecovery ∧ s.kp.warm = none ∧ ∃ (a b : _), s.kp.mbox.op = 0x16 ∧ engineSays s 2 0 a = true ∧
      engineSays s 2 1 b = true) ∧
    (∃ (s : State), s.kp.mbox.busy = true ∧ s.vault.blow = none ∧ s.clk.cold = false ∧ s.kp.mbox.bootStage =
      stageRecovery ∧ s.kp.warm = none ∧ s.kp.mbox.op = 0x18) ∧
    (∃ (s : State), s.kp.mbox.busy = true ∧ s.vault.blow = none ∧ s.clk.cold = false ∧ s.kp.mbox.bootStage =
      stageRecovery ∧ s.kp.warm = none ∧ s.kp.mbox.op = 0x19) ∧
    (∃ (s : State), s.kp.mbox.rebootTag = none) ∧
    (∃ (s : State) (g : _), s.kp.mbox.rebootTag = some g) ∧
    (∃ (s : State) (st : _), st ∈ [Status.decode, .range, .state]) :=
  ⟨⟨recovering 0x2, by decide +kernel⟩,
   ⟨recovering 0x4, by decide +kernel⟩,
   ⟨recovering 0x3, by decide +kernel, rfl, rfl, rfl, rfl, false, false, false, by decide +kernel⟩,
   ⟨recovering 0x5, by decide +kernel, rfl, rfl, rfl, rfl, false, by decide +kernel⟩,
   ⟨recovering 0x6, by decide +kernel, rfl, rfl, rfl, rfl, false, by decide +kernel⟩,
   ⟨recovering 0x7, by decide +kernel⟩,
   ⟨recovering 0x8, by decide +kernel, rfl, rfl, rfl, rfl, false, by decide +kernel⟩,
   ⟨recovering 0x9, by decide +kernel⟩,
   ⟨recovering 0xA, by decide +kernel⟩,
   ⟨recovering 0xB, by decide +kernel, rfl, rfl, rfl, rfl, false, by decide +kernel⟩,
   ⟨recovering 0xC, by decide +kernel, rfl, rfl, rfl, rfl, false, by decide +kernel⟩,
   ⟨recovering 0x10, by decide +kernel⟩,
   ⟨recovering 0x12, by decide +kernel⟩,
   ⟨recovering 0x13, by decide +kernel⟩,
   ⟨recovering 0x16, by decide +kernel, rfl, rfl, rfl, rfl, false, false, by decide +kernel⟩,
   ⟨recovering 0x18, by decide +kernel⟩,
   ⟨recovering 0x19, by decide +kernel⟩,
   ⟨world, rfl⟩,
   ⟨setMbox world (fun m => { m with rebootTag := some 3 }), 3, rfl⟩,
   ⟨world, .decode, by decide⟩⟩

theorem witness_LifecycleCommands :
    (∃ (s : State), MailboxRuns s 0x1) ∧
    (∃ (s : State), MailboxRuns s 0x2 ∧ EngineRuns s ∧ s.vault.lc = .blank ∧ s.vault.fuses.drk = 0 ∧ drbgFailed
      s = false) ∧
    (∃ (s : State), MailboxRuns s 0x2 ∧ s.vault.lc = .blank ∧ s.vault.fuses.drk = 0 ∧ s.kp.mbox.clkFail = false
      ∧ s.clk.control.ready = false) ∧
    (∃ (s : State), MailboxRuns s 0x3 ∧ EngineRuns s ∧ s.vault.provKey = none) ∧
    (∃ (s : State), MailboxRuns s 0x4 ∧ argNat s 1 7 = 0 ∧ argNat s 0 1 = 1 ∧ s.vault.lc = .blank ∧ drkOk s =
      true) ∧
    (∃ (s : State), MailboxRuns s 0x4 ∧ argNat s 1 7 = 0 ∧ argNat s 0 1 = 2 ∧ s.vault.lc = .test ∧ (∃ r < 4,
      rootLive s r = true)) ∧
    (∃ (s : State), MailboxRuns s 0x4 ∧ argNat s 1 7 = 0 ∧ argNat s 0 1 ≠ 1 ∧ argNat s 0 1 ≠ 2) ∧
    (∃ (s : State), MailboxRuns s 0x4 ∧ argNat s 1 7 = 0 ∧ (argNat s 0 1 = 1 ∧ s.vault.lc ≠ .blank ∨ argNat s 0
      1 = 2 ∧ s.vault.lc ≠ .test)) :=
  ⟨⟨mbx 1 [], by unfold MailboxRuns; decide +kernel⟩,
   ⟨lcState .blank (mbx 2 []), by unfold MailboxRuns; decide +kernel, ⟨rfl, rfl⟩, by decide +kernel⟩,
   ⟨(lcState .blank (mbx 2 [])).onClk (fun k => { k with control := { k.control with ready := false } }),
    by unfold MailboxRuns; decide +kernel⟩,
   ⟨lcState .blank (mbx 3 []), by unfold MailboxRuns; decide +kernel, ⟨rfl, rfl⟩, rfl⟩,
   ⟨drked (lcState .blank (mbx 4 [1])), by unfold MailboxRuns; decide +kernel, by decide +kernel,
    by decide +kernel, rfl, drk_ok _⟩,
   ⟨lcState .test (rooted (mbx 4 [2])), by unfold MailboxRuns; decide +kernel⟩,
   ⟨mbx 4 [3], by unfold MailboxRuns; decide +kernel⟩,
   ⟨mbx 4 [1], by unfold MailboxRuns; decide +kernel⟩⟩

set_option maxRecDepth 1000000 in
theorem witness_OwnerAndDebugCommands :
    (∃ (s : State), MailboxRuns s 0x5 ∧ s.vault.lc = .test ∧ argNat s 1 7 = 0 ∧ argNat s 0 1 < 4 ∧ bit (majority
      s.vault.fuses.enrolled) (argNat s 0 1) = false ∧ nth s.vault.fuses.owner (argNat s 0 1) 0 = 0) ∧
    (∃ (s : State) (sig : _), MailboxRuns s 0x6 ∧ EngineRuns s ∧ s.vault.lc ≠ .production ∧ tokenSays s (arg s 8
      224) sig = true ∧ argNat s 1 7 = 0 ∧ tokenForm (arg s 8 224) = true) ∧
    (∃ (s : State), MailboxRuns s 0x7 ∧ s.vault.lc = .production) ∧
    (∃ (s : State), MailboxRuns s 0x7 ∧ s.vault.lc ≠ .production) ∧
    (∃ (s : State) (sig : _), MailboxRuns s 0x8 ∧ EngineRuns s ∧ tokenSays s (arg s 0 224) sig = true ∧
      tokenForm (arg s 0 224) = false) ∧
    (∃ (s : State) (sig : _), MailboxRuns s 0x8 ∧ EngineRuns s ∧ s.vault.lc ≠ .production ∧ tokenSays s (arg s 0
      224) sig = true ∧ tokenForm (arg s 0 224) = true) ∧
    (∃ (s : State), MailboxRuns s 0x9 ∧ argNat s 1 7 = 0 ∧ argNat s 0 1 < 8 ∧ (∃ k ∈ s.vault.tokens, k.slot =
      argNat s 0 1)) ∧
    (∃ (s : State), MailboxRuns s 0x9 ∧ argNat s 1 7 = 0 ∧ argNat s 0 1 = 0xFF) :=
  ⟨⟨lcState .test (mbx 5 [1]), by unfold MailboxRuns; decide +kernel⟩,
   ⟨lcState .test (mbx 6 (1 :: token 0x20)), true, by unfold MailboxRuns; decide +kernel, ⟨rfl, rfl⟩, by decide +kernel⟩,
   ⟨mbx 7 [], by unfold MailboxRuns; decide +kernel⟩,
   ⟨lcState .test (mbx 7 []), by unfold MailboxRuns; decide +kernel⟩,
   ⟨mbx 8 [], false, by unfold MailboxRuns; decide +kernel, ⟨rfl, rfl⟩, by decide +kernel⟩,
   ⟨lcState .test (mbx 8 (token 1)), false, by unfold MailboxRuns; decide +kernel, ⟨rfl, rfl⟩, by decide +kernel⟩,
   ⟨(mbx 9 [2]).onVault (fun v => { v with tokens :=
    [{ slot := 2, device := true, hive := 255, root := 0, perms := 1 }] }),
    by unfold MailboxRuns; decide +kernel⟩,
   ⟨mbx 9 [255], by unfold MailboxRuns; decide +kernel⟩⟩

theorem witness_AttestArbCommitAndScrap :
    (∃ (s : State), MailboxRuns s 0xA ∧ EngineRuns s ∧ (s.vault.lc = .test ∨ s.vault.lc = .production) ∧ bit
      (argNat s 48 32) 255 = false) ∧
    (∃ (s : State), MailboxRuns s 0xA ∧ s.vault.lc ≠ .test ∧ s.vault.lc ≠ .production) ∧
    (∃ (s : State), MailboxRuns s 0xB ∧ EngineRuns s ∧ engineSays s 1 (1 - b2n s.kp.mbox.fwCopy) false = true ∧
      argNat s 1 7 = 0 ∧ argNat s 0 1 = 0 ∧ s.vault.lc ≠ .locked ∧ s.vault.lc ≠ .endOfLife) ∧
    (∃ (s : State) (b r : _), MailboxRuns s 0xC ∧ s.vault.lc ≠ .production ∧ s.vault.lc ≠ .endOfLife ∧ addedBits
      s Config.lcEndOfLife = b :: r) ∧
    (∃ (s : State), MailboxRuns s 0xC ∧ s.vault.lc = .endOfLife) :=
  ⟨⟨mbx 0xA [], by unfold MailboxRuns; decide +kernel, ⟨rfl, rfl⟩, by decide +kernel⟩,
   ⟨lcState .blank (mbx 0xA []), by unfold MailboxRuns; decide +kernel⟩,
   ⟨mbx 0xB [0], by unfold MailboxRuns; decide +kernel, ⟨rfl, rfl⟩, by decide +kernel⟩,
   ⟨lcState .test (mbx 0xC []), _, _, by unfold MailboxRuns; decide +kernel, by decide +kernel, by decide +kernel, rfl⟩,
   ⟨lcState .endOfLife (mbx 0xC []), by unfold MailboxRuns; decide +kernel⟩⟩

theorem witness_KeeperCommands :
    (∃ (s : State), MailboxRuns s 0x10 ∧ s.kp.mbox.bootStage ≠ stageHeld) ∧
    (∃ (s : State), MailboxRuns s 0x10 ∧ s.kp.mbox.bootStage = stageHeld) ∧
    (∃ (s : State), MailboxRuns s 0x11) ∧
    (∃ (s : State), MailboxRuns s 0x12 ∧ argNat s 2 6 = 0 ∧ (s.kp.settings.pCapW = 0 ∨ argNat s 0 2 ≤
      s.kp.settings.pCapW)) ∧
    (∃ (s : State), MailboxRuns s 0x12 ∧ argNat s 2 6 = 0 ∧ s.kp.settings.pCapW ≠ 0 ∧ s.kp.settings.pCapW <
      argNat s 0 2) ∧
    (∃ (s : State), MailboxRuns s 0x13) ∧
    (∃ (s : State), MailboxRuns s 0x14 ∧ argNat s 2 2 = 0 ∧ kindCopyOk (argNat s 0 1) (argNat s 1 1) = true ∧
      argNat s 4 4 % 4096 = 0 ∧ argNat s 4 4 + (s.kp.mbox.argLen - 8) ≤ (regionOf (argNat s 0 1) (argNat s 1
      1)).2 ∧ copyInUse s (argNat s 0 1) (argNat s 1 1) = false) ∧
    (∃ (s : State) (sig : _), MailboxRuns s 0x15 ∧ EngineRuns s ∧ engineSays s (argNat s 0 1) (argNat s 1 1) sig
      = true ∧ argNat s 2 6 = 0 ∧ kindCopyOk (argNat s 0 1) (argNat s 1 1) = true) ∧
    (∃ (s : State) (a b : _), MailboxRuns s 0x16 ∧ EngineRuns s ∧ s.kp.warm = none ∧ engineSays s 2 0 a = true ∧
      engineSays s 2 1 b = true ∧ preferred s 2 (copyValid s 2 0 a) (copyValid s 2 1 b) = none) ∧
    (∃ (s : State), s.kp.warm.isSome = true) ∧
    (∃ (s : State), MailboxRuns s 0x17 ∧ argNat s 4 4 = 0) ∧
    (∃ (s : State), MailboxRuns s 0x18) ∧
    (∃ (s : State), MailboxRuns s 0x19 ∧ argNat s 5 3 = 0 ∧ s.kp.mbox.argLen = 8 + argNat s 4 1 ∧ (argNat s 2 1
      = 1 ∨ argNat s 2 1 = 2 ∨ argNat s 2 1 = 4) ∧ argNat s 3 1 ≤ 1 ∧ s.kp.settings.chipIdValid = true ∧
      s.clk.wgHold = true ∧ s.kp.waggle.outDeclared = false) :=
  ⟨⟨mbx 0x10 [], by unfold MailboxRuns; decide +kernel⟩,
   ⟨setMbox (mbx 0x10 []) (fun m => { m with bootStage := stageHeld }), by unfold MailboxRuns; decide +kernel⟩,
   ⟨mbx 0x11 [], by unfold MailboxRuns; decide +kernel⟩,
   ⟨mbx 0x12 [9], by unfold MailboxRuns; decide +kernel⟩,
   ⟨(mbx 0x12 [9]).onKp (fun k => { k with settings := { k.settings with pCapW := 8 } }),
    by unfold MailboxRuns; decide +kernel⟩,
   ⟨mbx 0x13 [], by unfold MailboxRuns; decide +kernel⟩,
   ⟨mbx 0x14 [2 + 2 ^ 8, 5], by unfold MailboxRuns; decide +kernel, by decide +kernel⟩,
   ⟨mbx 0x15 [2], true, by unfold MailboxRuns; decide +kernel, ⟨rfl, rfl⟩, by decide +kernel⟩,
   ⟨mbx 0x16 [], false, false, by unfold MailboxRuns; decide +kernel, ⟨rfl, rfl⟩, rfl, by decide +kernel, by decide +kernel,
    by simp [copyValid, preferred]⟩,
   ⟨warming false world, rfl⟩,
   ⟨mbx 0x17 [], by unfold MailboxRuns; decide +kernel⟩,
   ⟨mbx 0x18 [], by unfold MailboxRuns; decide +kernel⟩,
   ⟨mbx 0x19 [2 ^ 16], by unfold MailboxRuns; decide +kernel⟩⟩

theorem witness_FusesAndVaultEvents :
    (∃ (s : State) (b : Blow) (x rest : _), s.vault.blow = some b ∧ b.vpp = true ∧ b.todo = x :: rest ∧ rest ≠
      [] ∧ (∀ r, b.kind ≠ .revoke r)) ∧
    (∃ (s : State) (b x : _), s.vault.blow = some b ∧ b.vpp = true ∧ b.todo = [x] ∧ b.kind ∈
      [BlowKind.lifecycle, .provision, .enrol, .arb] ∧
      let u := senseLc (setBlow (s.onVault (fun v => { v with fuses := v.fuses.blow x })) none);
      missingCopies u = []) ∧
    (∃ (s : State) (b x : _), s.vault.blow = some b ∧ b.vpp = true ∧ b.todo = [x] ∧ b.kind ∈
      [BlowKind.lifecycle, .provision, .enrol, .arb] ∧
      let u := senseLc (setBlow (s.onVault (fun v => { v with fuses := v.fuses.blow x })) none);
      missingCopies u ≠ []) ∧
    (∃ (s : State) (b : Blow) (x rest : _), s.vault.blow = some b ∧ b.vpp = true ∧ b.todo = x :: rest ∧
      s.vault.fuses.blow x ≠ s.vault.fuses ∧ b.pulses < 2) ∧
    (∃ (s : State) (b : Blow) (x rest : _), s.vault.blow = some b ∧ b.vpp = true ∧ b.todo = x :: rest ∧
      s.vault.fuses.blow x ≠ s.vault.fuses ∧ 2 ≤ b.pulses) ∧
    (∃ (s : State) (b : Blow), s.vault.blow = some b ∧ b.vpp = false) ∧
    (∃ (s : State), s.vault.challenge.isSome = true) ∧
    (∃ (s : State), s.vault.drbgOn = true) ∧
    (∃ (s : State), s.vault.drbgOn = true ∧ s.kp.warm = none) ∧
    (∃ (s : State) (j : WarmJob), s.kp.warm = some j ∧ j.stepsDone = false) ∧
    (∃ (f : Fuses) (x : FuseBit), ∃ (b : _), x = .drk b) ∧
    (∃ (f : Fuses) (x : FuseBit), ∃ (c b : _), x = .lc c b ∧ c < f.lc.length) ∧
    (∃ (f : Fuses) (x : FuseBit), ∃ (c d b : _), x = .lc c b ∧ d ≠ c) :=
  ⟨⟨blowing .enrol [.lc 0 1, .lc 1 1] 0 true, _, _, _, rfl, rfl, rfl, by decide +kernel, by simp⟩,
   ⟨blowing .enrol [.drk 1] 0 true, _, .drk 1, rfl, rfl, rfl, by decide +kernel, by decide +kernel⟩,
   ⟨(blowing .enrol [.drk 1] 0 true).onVault (fun v => { v with fuses := { v.fuses with lc := [Config.lcEndOfLife, Config.lcEndOfLife, 0] } }),
    _, .drk 1, rfl, rfl, rfl, by decide +kernel, by decide +kernel⟩,
   ⟨blowing .enrol [.lc 0 1] 0 true, _, _, _, rfl, rfl, rfl, by decide +kernel, by decide +kernel⟩,
   ⟨blowing .enrol [.lc 0 1] 2 true, _, _, _, rfl, rfl, rfl, by decide +kernel, by decide +kernel⟩,
   ⟨blowing .enrol [.lc 0 1] 0 false, _, rfl, rfl⟩,
   ⟨rooted world, rfl⟩,
   ⟨world, rfl⟩,
   ⟨world, rfl, rfl⟩,
   ⟨warming false world, _, rfl, rfl⟩,
   ⟨Fuses.reset, .drk 1, 1, rfl⟩,
   ⟨Fuses.reset, .lc 0 1, 0, 1, rfl, by decide⟩,
   ⟨Fuses.reset, .lc 0 1, 0, 1, 1, rfl, by decide⟩⟩

theorem witness_DoorbellPageWrites :
    (∃ (s : State) (page q d : _), blockReady s = true ∧ pageLive s page = true ∧ q < Config.queues ∧ ((queueAt
      s q).state = .running ∨ (queueAt s q).state = .stopped) ∧ (queueAt s q).ctx = page ∧ Machine.dist d
      (queueAt s q).tail < 2 ^ 31 ∧ Machine.dist d (queueAt s q).done ≤ 2 ^ (queueAt s q).ringLog2) ∧
    (∃ (s : State) (page q d : _), blockReady s = true ∧ pageLive s page = true ∧ q < Config.queues ∧ ((queueAt
      s q).state = .running ∨ (queueAt s q).state = .stopped) ∧ (queueAt s q).ctx = page ∧ 2 ^ 31 ≤ Machine.dist
      d (queueAt s q).tail) ∧
    (∃ (s : State) (page q d : _), blockReady s = true ∧ pageLive s page = true ∧ q < Config.queues ∧ ((queueAt
      s q).state = .running ∨ (queueAt s q).state = .stopped) ∧ (queueAt s q).ctx = page ∧ Machine.dist d
      (queueAt s q).tail < 2 ^ 31 ∧ 2 ^ (queueAt s q).ringLog2 < Machine.dist d (queueAt s q).done) ∧
    (∃ (s : State) (page q : _), ((queueAt s q).ctx ≠ page ∨ (queueAt s q).state = .unbound)) ∧
    (∃ (s : State) (off be : _) (data : List Byte), hostOpen s = true ∧ s.hp.queue = [] ∧ (data.length = 4 ∨ data.length = 8)
      ∧ be % 16 = 15 ∧ off % 8 = 0 ∧ off < 0x8000) ∧
    (∃ (s : State) (off : _) (data : List Byte) (n : _), hostOpen s = true ∧ s.hp.queue = [] ∧ data.length = 8 * n ∧ 0 < n ∧ off % 8
      = 0 ∧ off + 8 * n ≤ 0x8000) ∧
    (∃ (s : State) (off be : _) (data : List Byte), hostOpen s = true ∧ s.hp.queue = [] ∧ (off % 8 ≠ 0 ∨ be % 16 ≠ 15 ∨
      (data.length ≠ 4 ∧ data.length % 8 ≠ 0) ∨ data.length = 0)) ∧
    (∃ (s : State) (op r : _), hostOpen s = true ∧ s.hp.queue = op :: r ∧ hostCan s op = false) ∧
    (∃ (s : State) (w : Word), hostOpen s = true ∧ blockReady s = true ∧ s.sq.eventLost = 0 ∧ Machine.dist (fld
      w.toNat 0 32) s.sq.eventConsumed ≤ Machine.dist s.sq.eventNext s.sq.eventConsumed) ∧
    (∃ (s : State) (w : Word), hostOpen s = true ∧ blockReady s = true ∧ Machine.dist s.sq.eventNext
      s.sq.eventConsumed < Machine.dist (fld w.toNat 0 32) s.sq.eventConsumed) ∧
    (∃ (s : State) (i : _) (w : Word), hostOpen s = true ∧ blockReady s = true ∧ i < 512 ∧ fld w.toNat 32 10 <
      memBytes s / 2 ^ 30) ∧
    (∃ (s : State) (i : _) (w : Word), hostOpen s = true ∧ blockReady s = true ∧ i < 512 ∧ memBytes s / 2 ^ 30 ≤
      fld w.toNat 32 10) ∧
    (∃ (s : State) (w : Word), hostOpen s = true ∧ s.clk.stream.ready = true ∧ blockReady s = true ∧ fld w.toNat
      48 16 + fld w.toNat 32 16 < 2 ^ 16) ∧
    (∃ (s : State) (off : _) (data : List Byte), hostOpen s = true ∧ s.hp.d3hot = false ∧ 0x9000 ≤ off ∧ off < 0xD000 ∧
      wordAccess off data.length = true) ∧
    (∃ (s : State) (off : _), hostOpen s = true ∧ s.hp.d3hot = true ∧ off < 0x10000) ∧
    (∃ (s : State), hostOpen s = false) ∧
    (∃ (s : State), s.clk.hxDown = true) ∧
    (∃ (s : State), s.clk.hxDown = false ∧ s.kp.mbox.clkFail = false ∧ s.clk.control.req = false) :=
  ⟨⟨setQueue world 7 (fun x => { x with state := .running, ringLog2 := 6, tail := 5, done := 4 }), 0, 7, 6, by decide +kernel⟩,
   ⟨setQueue world 7 (fun x => { x with state := .running, ringLog2 := 6, tail := 5, done := 4 }), 0, 7, 4, by decide +kernel⟩,
   ⟨setQueue world 7 (fun x => { x with state := .running, ringLog2 := 6, tail := 5, done := 4 }), 0, 7, 100, by decide +kernel⟩,
   ⟨world, 0, 7, by decide +kernel⟩,
   ⟨world, 8, 15, [0, 0, 0, 0], by decide +kernel⟩,
   ⟨world, 8, [0, 0, 0, 0, 0, 0, 0, 0], 1, by decide +kernel⟩,
   ⟨world, 4, 15, [0, 0, 0, 0], by decide +kernel⟩,
   ⟨(slice4096 .opening (withWindow world)).onHp (fun p => { p with queue := [.read 4096 8] }), _, _, by decide +kernel, rfl, by decide +kernel⟩,
   ⟨world, 0, rfl, rfl, rfl, by decide +kernel⟩,
   ⟨world, 5, by decide +kernel⟩,
   ⟨world, 3, 0, by decide +kernel⟩,
   ⟨world, 3, 1000 * 2 ^ 32, by decide +kernel⟩,
   ⟨world, 2 ^ 32, by decide +kernel⟩,
   ⟨world, 0x9000, [0, 0, 0, 0], by decide +kernel⟩,
   ⟨world.onHp (fun p => { p with d3hot := true }), 0x9000, by decide +kernel⟩,
   ⟨State.reset, by decide +kernel⟩,
   ⟨State.reset, by decide +kernel⟩,
   ⟨world.onClk (fun c => { c with control := { c.control with req := false, ready := false } }),
    by decide +kernel⟩⟩

theorem witness_ApertureAccesses :
    (∃ (s : State) (off len h k a : _), hostOpen s = true ∧ s.hp.queue = [] ∧ hostCan s (.read off len) = true ∧
      blockReady s = true ∧ apertureTarget s off len .rd = .ok (h, k, a)) ∧
    (∃ (s : State) (off len b : _), hostOpen s = true ∧ s.hp.queue = [] ∧ blockReady s = true ∧ apertureTarget s
      off len .rd = .error b) ∧
    (∃ (s : State) (off : _) (data : List Byte) (h k a : _), hostOpen s = true ∧ s.hp.queue = [] ∧ hostCan s (.write off data) =
      true ∧ blockReady s = true ∧ apertureTarget s off data.length .wr = .ok (h, k, a)) ∧
    (∃ (s : State) (off op size v w h k a r old : _), hostOpen s = true ∧ s.hp.queue = [] ∧ hostCan s (.atomic
      off op size v w) = true ∧ blockReady s = true ∧ (size = 4 ∨ size = 8) ∧ off % size = 0 ∧ apertureTarget s
      off size .atom = .ok (h, k, a) ∧ apertureLine s h k (lineOf a) (.atomic
      (match op with | .fetchAdd => AtomOp.add | .swap => .xchg | .cas => .cas) (size == 8) false (a % 128) v w) = (r, .ok, old)) ∧
    (∃ (s : State) (off size : Nat) (fe : Fence), hostOpen s = true ∧ blockReady s = true ∧ (size = 8 ∨ size =
      16) ∧ off % size = 0 ∧ off < 16 * Config.fences ∧ fenceAt s (off / 16) = some fe) ∧
    (∃ (s : State), hostOpen s = true) ∧
    (∃ (s : State), hostOpen s = false) ∧
    (∃ (s : State) (off len : _), hostOpen s = true ∧ s.hp.queue = [] ∧ hostCan s (.read off len) = false) ∧
    (∃ (s : State) (off : _) (data : List Byte), hostOpen s = true ∧ s.hp.queue = [] ∧ hostCan s (.write off data) = false) ∧
    (∃ (s : State) (off len h k a : _), hostOpen s = true ∧ s.hp.queue = [] ∧ s.clk.stream.ready = false ∧
      blockReady s = true ∧ 0 < len ∧ apertureTarget s off len .rd = .ok (h, k, a)) :=
  ⟨⟨withWindow world, 8, 4, _, _, _, rfl, rfl, rfl, by decide +kernel, rfl⟩,
   ⟨world, 8, 4, _, rfl, rfl, by decide +kernel, rfl⟩,
   ⟨withWindow (runs []), 8, [1], _, _, _, rfl, rfl, by decide +kernel, by decide +kernel, rfl⟩,
   ⟨withWindow (runs []), 8, .fetchAdd, 8, 5, 0, _, _, _, _, _, rfl, rfl, by decide +kernel, by decide +kernel, .inr rfl, rfl, rfl,
    Prod.ext rfl (Prod.ext (by decide +kernel) rfl)⟩,
   ⟨withFence world, 80, 8, _, rfl, rfl, .inl rfl, rfl, by decide +kernel, rfl⟩,
   ⟨world, rfl⟩,
   ⟨State.reset, rfl⟩,
   ⟨withWindow (slice4096 .opening world), 4096, 8, by decide +kernel⟩,
   ⟨withWindow world, 8, [1], by decide +kernel⟩,
   ⟨withWindow (clocked { req := true, second := false, ready := false } world |>.onClk (fun c => { c with
    control := { c.control with ready := true } })), 8, 4, _, _, _, rfl, rfl, rfl, by decide +kernel, by decide, rfl⟩⟩

theorem witness_HostMessagesAndResets :
    (∃ (s : State) (v : _) (m : PendMsg), s.sq.msgs.find? (fun x => x.vector == v) = some m ∧ m.charged = true ∧
      (msixAt s v).masked = false ∧ s.hp.msixFunctionMask = false ∧ (msixAt s v).addr % 4 = 0) ∧
    (∃ (s : State) (v : _) (m : PendMsg), s.sq.msgs.find? (fun x => x.vector == v) = some m ∧ m.charged = true ∧
      (msixAt s v).masked = true) ∧
    (∃ (s : State) (v : _) (m : PendMsg) (h : _), s.sq.msgs.find? (fun x => x.vector == v) = some m ∧ m.charged
      = false ∧ vectorOwner s v = some h ∧ (hiveAt s h).masked = true) ∧
    (∃ (s : State) (vector hive : _), (hiveAt s hive).masked = false ∧ s.sq.msgs.any (fun m => m.vector ==
      vector) = true) ∧
    (∃ (s : State) (i : _), (i = Instr.pcieConventionalReset ∨ i = Instr.functionLevelReset) ∧ s.clk.cold =
      false ∧ s.kp.mbox.bootStage ≠ stageHeld ∧ s.kp.mbox.bootStage ≠ stageRecovery) ∧
    (∃ (s : State) (i : _), (i = Instr.pcieConventionalReset ∨ i = Instr.functionLevelReset) ∧ s.clk.cold =
      false ∧ (s.kp.mbox.bootStage = stageHeld ∨ s.kp.mbox.bootStage = stageRecovery)) :=
  ⟨⟨withMsg true false world, 1, _, rfl, rfl, rfl, rfl, rfl⟩,
   ⟨withMsg true true world, 1, _, rfl, rfl, rfl⟩,
   ⟨setHive (withMsg false false world) 0 (fun h => { h with masked := true }), 1, _, 0, rfl, rfl, rfl, rfl⟩,
   ⟨withMsg true false world, 1, 0, rfl, rfl⟩,
   ⟨world, .functionLevelReset, .inr rfl, by decide +kernel⟩,
   ⟨setMbox world (fun m => { m with bootStage := stageHeld }), .functionLevelReset, .inr rfl,
    by decide +kernel⟩⟩

theorem witness_CommandsGoTheirPath :
    (∃ (s : State) (q : _), (queueAt s q).state = .running ∧ (queueAt s q).fetch ≠ (queueAt s q).tail ∧ fetchRoom s q
      = true ∧ hiveRuns s (ctxAt s (queueAt s q).ctx).hive = true ∧ s.clk.stream.ready = true) ∧
    (∃ (s : State) (q idx : _) (k : Cmd) (t ws : _), cmdAt s q idx = some k ∧ k.stage = .reading ∧ k.words = [] ∧
      s.hp.reads.any (fun r => r.who == .pre q idx) = false ∧ s.xl.atsReqs.any (fun a => a.wants.any (fun w => w.r ==
      .pre q idx)) = false ∧ readSlot s q idx = (t, .ok (some ws)) ∧ firstBad true (q == 0) ws = none) ∧
    (∃ (s : State) (q idx : _) (k : Cmd) (t ws w st : _), cmdAt s q idx = some k ∧ k.stage = .reading ∧ k.words = [] ∧
      s.hp.reads.any (fun r => r.who == .pre q idx) = false ∧ s.xl.atsReqs.any (fun a => a.wants.any (fun w => w.r ==
      .pre q idx)) = false ∧ readSlot s q idx = (t, .ok (some ws)) ∧ firstBad true (q == 0) ws = some (w, st)) ∧
    (∃ (s : State) (q idx : _) (k : Cmd) (t st : _), cmdAt s q idx = some k ∧ k.stage = .reading ∧ k.words = [] ∧
      s.hp.reads.any (fun r => r.who == .pre q idx) = false ∧ s.xl.atsReqs.any (fun a => a.wants.any (fun w => w.r ==
      .pre q idx)) = false ∧ readSlot s q idx = (t, .error st)) ∧
    (∃ (s : State) (q idx : _) (k : Cmd), cmdAt s q idx = some k ∧ k.stage = .fetched ∧ preTurn s k = true ∧
      (s.qm.pins.filter (fun p => p.idx.isSome)).length + (cmdSpans k).length ≤ Config.commandPins ∧ ∃ t, prePages s q
      idx k.ctx false (cmdPages k) k.hostDone = (t, .good)) ∧
    (∃ (s : State) (q idx : _) (k : Cmd), cmdAt s q idx = some k ∧ k.stage = .fetched ∧ preTurn s k = true ∧ cmdSpans
      k = [] ∧ s.qm.pins.length ≤ Config.commandPins) ∧
    (∃ (s : State) (q idx : _) (k : Cmd), cmdAt s q idx = some k ∧ k.stage = .fetched) ∧
    (∃ (s : State) (c q : _) (k : Cmd), (pickHive s).bind (pickQueue s) = some q ∧ headCmd s q = some k ∧ c <
      Config.channels ∧ (chanAt s c).state = .free ∧ (moverAt s (c / 8)).inService = true ∧ (moverAt s (c /
      8)).draining = false ∧ ((moverAt s (c / 8)).gated = false ∨ ∀ d < Config.channels, mayGrant s d = true →
      (moverAt s (d / 8)).gated = true)) ∧
    (∃ (s : State) (c : _), (chanAt s c).state = .ending ∧ (chanAt s c).retired = true ∧ (chanAt s c).hold = .none ∧
      remoteBusy s c = false ∧ ((chanAt s c).host = false ∨ (chanAt s c).hostWritten = false)) ∧
    (∃ (s : State) (c : _), (chanAt s c).state = .ending ∧ (chanAt s c).retired = false ∧ (chanAt s c).hold = .none ∧
      remoteBusy s c = false ∧ s.hp.reads.any (fun r => r.who == .chan c) = false ∧ s.hp.flushes.any (fun f => f.2 ==
      c) = false) ∧
    (∃ (s : State) (r : PendRec) (i j e : _),
      let qu := queueAt s r.q;
      let pa := e.frame + recordVa s r % 2 ^ e.sizeLog2;
      let hive := (ctxAt s qu.ctx).hive;
      let k : WriteKind := .partialWrite (r.bytes.zipIdx.map (fun b => (pa - lineOf pa + b.2, b.1)));
      let o : Origin := .record r.q r.idx;
      let h : HomeReq :=
      { req := { origin := o, hive := hive, keySel := keySelAt s hive (paLocal pa), label := qu.label, level := levelOf s qu.label, addr := paLocal (lineOf pa) },
        kind := some k, second := none, raw := [], ticket := true };
      l2Find s qu.ctx (recordVa s r) = some (i, j, e) ∧ e.permits .wr = true ∧ e.host = false ∧ paChip pa = chipId s ∧
      lineGoes s h = true) ∧
    (∃ (s : State) (r : PendRec) (i j e : _),
      let qu := queueAt s r.q;
      let pa := e.frame + recordVa s r % 2 ^ e.sizeLog2;
      let hive := (ctxAt s qu.ctx).hive;
      let k : WriteKind := .partialWrite (r.bytes.zipIdx.map (fun b => (pa - lineOf pa + b.2, b.1)));
      let o : Origin := .record r.q r.idx;
      let h : HomeReq :=
      { req := { origin := o, hive := hive, keySel := keySelAt s hive (paLocal pa), label := qu.label, level := levelOf s qu.label, addr := paLocal (lineOf pa) },
        kind := some k, second := none, raw := [], ticket := true };
      l2Find s qu.ctx (recordVa s r) = some (i, j, e) ∧ e.permits .wr = true ∧ e.host = false ∧ paChip pa = chipId s ∧
      lineGoes s h = false) ∧
    (∃ (s : State) (r : PendRec) (i j e : _),
      let qu := queueAt s r.q;
      let pa := e.frame + recordVa s r % 2 ^ e.sizeLog2;
      let hive := (ctxAt s qu.ctx).hive;
      l2Find s qu.ctx (recordVa s r) = some (i, j, e) ∧ e.permits .wr = true ∧ e.host = false ∧ paChip pa ≠ chipId s ∧
      remoteOk s hive (paChip pa) = false) ∧
    (∃ (s : State) (r : PendRec), l2Find s (queueAt s r.q).ctx (recordVa s r) = none) ∧
    (∃ (s : State) (r : PendRec) (c : Nat), r.chan = some c) :=
  ⟨⟨withCmd .reading 0 world, 7, by decide +kernel⟩,
   ⟨withCmd .reading 0 world, 7, 0, _, _, _, rfl, rfl, rfl, rfl, rfl, slot_ok _ (by decide +kernel),
    by decide +kernel⟩,
   ⟨withCmd .reading 0 (boss 0 [] [2 ^ 63]), 7, 0, _, _, _, 0, .rights, rfl, rfl, rfl, rfl, rfl, slot_ok _
    (by decide +kernel), by decide +kernel⟩,
   ⟨withCmd .reading 0 (setHive world 0 (fun h => { h with combs := [] })), 7, 0, _, _, .rights, rfl, rfl, rfl,
    rfl, rfl, snd_eq _ _ (bad_of _ _ (by decide +kernel))⟩,
   ⟨withCmd .fetched 0 world, 7, 0, _, rfl, rfl, by decide +kernel, by decide +kernel, _, snd_eq _ _ (good_of
    _ (by decide +kernel))⟩,
   ⟨withCmd .fetched 0 world, 7, 0, _, rfl, rfl, by decide +kernel⟩,
   ⟨withCmd .fetched 0 world, 7, 0, _, rfl, rfl⟩,
   ⟨withCmd .preTranslated 0 world, 5, 7, _, by decide +kernel, rfl, by decide +kernel, by decide +kernel,
    by decide +kernel, by decide +kernel, .inl (by decide +kernel)⟩,
   ⟨setChan world 5 (fun _ => { Channel.empty with state := .ending, retired := true }), 5, by decide +kernel⟩,
   ⟨setChan world 5 (fun _ => { Channel.empty with state := .ending, retired := false }), 5, by decide +kernel⟩,
   ⟨withCmd .fetched 0 (runs []), { q := 7, idx := 0, bytes := [], chan := none }, 0, 0, leaf 0 0, by decide +kernel⟩,
   ⟨withCmd .fetched 0 world, { q := 7, idx := 0, bytes := [], chan := none }, 0, 0, leaf 0 0, by decide +kernel⟩,
   ⟨withWay { leaf 0 0 with frame := 200 * 2 ^ 41 } (withCmd .fetched 0 world), { q := 7, idx := 0, bytes := [], chan := none }, 0, 0,
    _, rfl, by decide +kernel⟩,
   ⟨world, { q := 7, idx := 0, bytes := [], chan := none }, by decide +kernel⟩,
   ⟨world, { q := 7, idx := 0, bytes := [], chan := some 3 }, 3, rfl⟩⟩

theorem witness_LineRequestsAtTheirUnit :
    (∃ (s : State) (r : LineReq), s.clk.stream.ready = true ∧ lineOf r.addr < memBytes s ∧ (slotAt s
      r.keySel).loaded = true ∧ (sliceAt s (lineOf r.addr)).state = .fresh) ∧
    (∃ (s : State) (r : LineReq), s.clk.stream.ready = true ∧ lineOf r.addr < memBytes s ∧ (slotAt s
      r.keySel).loaded = false) ∧
    (∃ (s : State) (r : LineReq), s.clk.stream.ready = true ∧ lineOf r.addr < memBytes s ∧ (slotAt s r.keySel).loaded
      = true ∧ (sliceAt s (lineOf r.addr)).state = .fresh ∧ (sliceAt s (lineOf r.addr)).filling = false ∧
      (portAt s (homePort s (lineOf r.addr))).leftOut = false) ∧
    (∃ (s : State) (r : LineReq), s.clk.stream.ready = false ∧ lineOf r.addr < memBytes s) ∧
    (∃ (s : State) (r : LineReq) (tag : _), s.clk.stream.ready = true ∧ lineOf r.addr < memBytes s ∧ (slotAt s
      r.keySel).loaded = true ∧ (sliceAt s (lineOf r.addr)).state = .opened ∧
      let p := homePort s (lineOf r.addr);
      (portAt s p).leftOut = false ∧ s.pr.locks = [] ∧ s.pr.lockWait = [] ∧ onLine s (lineOf r.addr) = [] ∧
      (portAt s p).arb = [] ∧ (portAt s p).aged = [] ∧ r.level < 4 ∧ (portAt s p).creditReq ≠ 0 ∧ freeTag
      (portAt s p).reads (portAt s p).quarReads = some tag) ∧
    (∃ (s : State) (r : LineReq), memBytes s ≤ lineOf r.addr) ∧
    (∃ (s : State) (cell port sl : _), port < 64 ∧ Tab.look s.pr.slices (cell * 64 + port) = some sl ∧ sl.state
      = .opening ∧ sl.filling = true ∧ s.pr.waiting = [] ∧ s.pr.fillQ = []) :=
  ⟨⟨world, lreq, by decide +kernel⟩,
   ⟨world, { lreq with keySel := 2 }, by decide +kernel⟩,
   ⟨world, lreq, by decide +kernel⟩,
   ⟨clocked { req := true, second := false, ready := false } world, lreq, by decide +kernel⟩,
   ⟨slice4096 .opened (port (fun x => { x with creditReq := 9 })), lreq, 0, by decide +kernel⟩,
   ⟨world, { lreq with addr := 2 ^ 40 }, by decide +kernel⟩,
   ⟨world.onPr (fun p => { p with slices := [(64, { Slice.fresh with state := .opening, filling := true })] }),
    1, 0, _, by decide +kernel, rfl, by decide +kernel⟩⟩

theorem witness_PortsCarryLines :
    (∃ (s : State) (p tag h l o : _) (data : List Byte), (portAt s p).reads = [{ tag := tag, home := h, line := l, old := o }]
      ∧ (portAt s p).writes = [] ∧ (portAt s p).arb = [] ∧ (portAt s p).aged = [] ∧ s.pr.locks = [] ∧
      s.pr.lockWait = [] ∧ s.pr.granted = [] ∧ h.kind = none ∧ homePort s h.req.addr = p ∧ (sliceAt s
      h.req.addr).state = .opened ∧ data.length = 128) ∧
    (∃ (s : State) (p tag h l o : _) (data : List Byte), (portAt s p).reads = [{ tag := tag, home := h, line := l, old := o }]
      ∧ (portAt s p).writes = [] ∧ (portAt s p).arb = [] ∧ (portAt s p).aged = [] ∧ s.pr.locks = [] ∧
      s.pr.lockWait = [] ∧ s.pr.granted = [] ∧ homePort s h.req.addr = p ∧ (sliceAt s h.req.addr).state =
      .opened ∧ data.length = 128 ∧
      let k := slotAt s h.req.keySel;
      lineTag k.material k.hashKey h.req.addr true data ≠ lineTag k.material k.hashKey h.req.addr false data) ∧
    (∃ (s : State) (p tag h d l o : _), MemoryWf s ∧ (portAt s p).writes =
      [{ tag := tag, home := h, line := l, old := o }] ∧ (portAt s p).reads = [] ∧ (portAt s p).arb = [] ∧
      (portAt s p).aged = [] ∧ s.pr.locks = [] ∧ s.pr.lockWait = [] ∧ s.pr.granted = [] ∧ h.kind = some (.whole
      d) ∧ h.second = none ∧ h.req.origin ≠ .scrubber ∧ l.length = 128 ∧ (sliceAt s h.req.addr).state = .opened
      ∧ homePort s h.req.addr = p) ∧
    (∃ (s : State) (p : _) (write : Bool) (tag : _), p < 96 ∧ (if write then (portAt s p).writes else (portAt s p).reads).find?
      (fun r => r.tag == tag) = none) ∧
    (∃ (s : State) (p req wd : _), p < 96 ∧ req ≤ 15 ∧ wd ≤ 15 ∧ (portAt s p).arb = [] ∧ (portAt s p).aged = []
      ∧ (portAt s p).creditReq + req ≤ 255 ∧ (portAt s p).creditWd + wd ≤ 255 ∧ s.clk.portsDue = false) ∧
    (∃ (s : State) (p : _), p < fld s.kp.settings.integ 16 8 ∧ (portAt s p).initial = false ∧ (portAt s
      p).leftOut = false ∧ (portAt s p).creditReq = 0 ∧ (portAt s p).creditWd = 0 ∧ (portAt s p).arb = [] ∧
      s.clk.portsDue = false) ∧
    (∃ (s : State) (p tag h l o : _), (portAt s p).reads = [{ tag := tag, home := h, line := l, old := o }] ∧
      (portAt s p).writes = [] ∧ (portAt s p).arb = [] ∧ (portAt s p).aged = [] ∧ s.pr.locks = [] ∧
      s.pr.lockWait = [] ∧ s.pr.granted = [] ∧ homePort s h.req.addr = p) ∧
    (∃ (s : State) (id x : _), s.sw.txns.find? (fun t => t.id == id && t.kind != .wait) = some x) ∧
    (∃ (s : State) (p k : _) (h : HomeReq), (portAt s p).arb = [h] ∧ homePort s h.req.addr = p ∧ k = 0 ∧ (portAt
      s p).creditReq = 0 ∧ (portAt s p).aged = []) ∧
    (∃ (s : State) (addr : _), lineOf addr < memBytes s ∧ s.clk.stream.ready = true ∧ (sliceAt s (lineOf
      addr)).state ≠ .opened) ∧
    (∃ (s : State) (addr : _), lineOf addr < memBytes s ∧ s.clk.stream.ready = false) ∧
    (∃ (s : State) (addr : _), lineOf addr < memBytes s ∧ s.clk.stream.ready = true ∧ s.he.hives.findSome? (fun
      h => (combFor s h.1 (lineOf addr)).map (·.keySel)) = none) ∧
    (∃ (s : State) (addr k tag : _), s.clk.stream.ready = true ∧ lineOf addr < memBytes s ∧ (sliceAt s (lineOf
      addr)).state = .opened ∧ s.he.hives.findSome? (fun h => (combFor s h.1 (lineOf addr)).map (·.keySel)) =
      some k ∧ (slotAt s k).loaded = true ∧
      let p := homePort s (lineOf addr);
      onLine s (lineOf addr) = [] ∧ s.pr.locks = [] ∧ s.pr.lockWait = [] ∧ s.pr.granted = [] ∧ (portAt s
      p).leftOut = false ∧ (portAt s p).arb = [] ∧ (portAt s p).aged = [] ∧ (portAt s p).creditReq ≠ 0 ∧ freeTag
      (portAt s p).reads (portAt s p).quarReads = some tag) ∧
    (∃ (s : State) (p tag h l o : _) (data : List Byte) (good : Bool), (portAt s p).reads =
      [{ tag := tag, home := h, line := l, old := o }] ∧ (portAt s p).writes = [] ∧ (portAt s p).arb = [] ∧
      (portAt s p).aged = [] ∧ s.pr.locks = [] ∧ s.pr.lockWait = [] ∧ s.pr.granted = [] ∧ h.kind = none ∧
      h.req.origin = .scrubber ∧ homePort s h.req.addr = p ∧ (sliceAt s h.req.addr).state = .opened ∧
      data.length = 128 ∧
      let k := slotAt s h.req.keySel;
      lineTag k.material k.hashKey h.req.addr true data ≠ lineTag k.material k.hashKey h.req.addr false data) :=
  ⟨⟨reading id, homePort world 4096, 3, hreq, [], 0, List.replicate 128 7, by decide +kernel⟩,
   ⟨reading id, homePort world 4096, 3, hreq, [], 0, List.replicate 128 7, by
    repeat' apply And.intro
    all_goals first | exact tags_differ _ _ _ _ (by decide +kernel) | decide +kernel⟩,
   ⟨slice4096 .opened (port (fun x => { x with writes :=
    [{ tag := 3, home := wreq, line := List.replicate 128 7, old := 0 }] })), homePort world 4096, 3, wreq,
    List.replicate 128 7, List.replicate 128 7, 0, by unfold MemoryWf; decide +kernel⟩,
   ⟨world, 5, true, 0, by decide +kernel⟩,
   ⟨world, 5, 3, 2, by decide +kernel⟩,
   ⟨bareport 5, 5, by decide +kernel⟩,
   ⟨reading id, homePort world 4096, 3, hreq, [], 0, by decide +kernel⟩,
   ⟨world.onSw (fun w => { w with txns := [txn] }), 4, txn, by decide +kernel⟩,
   ⟨port (fun x => { x with creditReq := 0, arb := [hreq] }), homePort world 4096, 0, hreq, by decide +kernel⟩,
   ⟨world, 4096, by decide +kernel⟩,
   ⟨clocked { req := false, second := false, ready := false } world, 0, by decide +kernel⟩,
   ⟨world, 7 * 2 ^ 30, by decide +kernel⟩,
   ⟨slice4096 .opened (port (fun x => { x with creditReq := 9 })), 4096, 1, 0, by decide +kernel⟩,
   ⟨reading scrubs, homePort world 4096, 3, scrubs hreq, [], 0, List.replicate 128 7, true, by
    repeat' apply And.intro
    all_goals first | exact tags_differ _ _ _ _ (by decide +kernel) | decide +kernel⟩⟩

theorem witness_FaultRecordsAreAnswered :
    (∃ (s : State), hostOpen s = true ∧ blockReady s = false) ∧
    (∃ (s : State) (w : Word) (f : _), hostOpen s = true ∧ blockReady s = true ∧ s.xl.faults.find? (fun f => f.index ==
      fld w.toNat 32 32) = some f ∧ fld w.toNat 0 8 = 0) ∧
    (∃ (s : State) (w : Word) (f : _), hostOpen s = true ∧ blockReady s = true ∧ s.xl.faults.find? (fun f => f.index ==
      fld w.toNat 32 32) = some f ∧ fld w.toNat 0 8 = 1) ∧
    (∃ (s : State) (w : Word) (f : _), hostOpen s = true ∧ blockReady s = true ∧ s.xl.faults.find? (fun f => f.index ==
      fld w.toNat 32 32) = some f ∧ fld w.toNat 0 8 = 2) ∧
    (∃ (s : State) (w : Word) (f : _), hostOpen s = true ∧ blockReady s = true ∧ s.xl.faults.find? (fun f => f.index ==
      fld w.toNat 32 32) = some f ∧ 3 ≤ fld w.toNat 0 8) ∧
    (∃ (s : State) (w : Word), hostOpen s = true ∧ blockReady s = true ∧ s.xl.faults.find? (fun f => f.index ==
      fld w.toNat 32 32) = none) ∧
    (∃ (s : State) (w : Word), hostOpen s = true ∧ blockReady s = true ∧ Machine.dist (fld w.toNat 0 32)
      s.xl.faultConsumed ≤ Machine.dist s.xl.faultNext s.xl.faultConsumed ∧ s.xl.permWait = [] ∧ s.xl.resWait =
      []) ∧
    (∃ (s : State) (w : Word), hostOpen s = true ∧ blockReady s = true ∧ Machine.dist s.xl.faultNext
      s.xl.faultConsumed < Machine.dist (fld w.toNat 0 32) s.xl.faultConsumed) ∧
    (∃ (s : State) (w : Word), hostOpen s = true ∧ blockReady s = true ∧ Machine.dist (fld w.toNat 0 32)
      s.xl.faultConsumed ≤ Machine.dist s.xl.faultNext s.xl.faultConsumed) ∧
    (∃ (s : State) (r : Requester) (va : Nat), (r, va) ∈ s.xl.timers) ∧
    (∃ (s : State) (r : Requester), (∀ x ∈ s.xl.timers, x.1 ≠ r)) :=
  ⟨⟨setMbox world (fun m => { m with bootStage := 0 }), by decide +kernel⟩,
   ⟨withFault world, 0, frec, by decide +kernel⟩,
   ⟨withFault world, 1, frec, by decide +kernel⟩,
   ⟨withFault world, 2, frec, by decide +kernel⟩,
   ⟨withFault world, 3, frec, by decide +kernel⟩,
   ⟨world, 0, by decide +kernel⟩,
   ⟨withFault world, 1, by decide +kernel⟩,
   ⟨withFault world, 2, by decide +kernel⟩,
   ⟨withFault world, 1, by decide +kernel⟩,
   ⟨world.onXl (fun x => { x with timers := [(.chan 0, 0)] }), .chan 0, 0, by decide +kernel⟩,
   ⟨world, .chan 0, by decide +kernel⟩⟩

theorem witness_HostAnswersTranslationsAndReads :
    (∃ (s : State) (id : _), s.xl.atsReqs.find? (fun r => r.id == id) = none) ∧
    (∃ (s : State) (id q : _), s.xl.atsReqs.find? (fun r => r.id == id) = some q ∧ q.seq ≠ (ctxAt s q.ctx).invSeq) ∧
    (∃ (s : State) (id q : _), s.xl.atsReqs.find? (fun r => r.id == id) = some q ∧ q.seq = (ctxAt s q.ctx).invSeq ∧
      let t := s.onXl (fun x => { x with atsReqs := x.atsReqs.filter (fun r => r.id != id) });
      ∃ (sz frame r w : _), 12 ≤ sz ∧
      let e : Tlb :=
      { ctx := q.ctx, va := q.va / 2 ^ sz * 2 ^ sz, sizeLog2 := sz, frame := frame / 2 ^ sz * 2 ^ sz, host := true,
        translated := true, rd := r, wr := w, atom := false, nopf := false, hive := (ctxAt t q.ctx).hive };
      (∀ x ∈ q.wants, e.permits (needOfAccess x.access) = true) ∧ (r = true ∨ w = true) ∧ q.wants ≠ []) ∧
    (∃ (s : State) (id q : _), s.xl.atsReqs.find? (fun r => r.id == id) = some q ∧ q.seq = (ctxAt s q.ctx).invSeq ∧ ∃
      (sz r w : _), 12 ≤ sz ∧ r = false ∧ w = false) ∧
    (∃ (s : State) (id q : _), s.xl.atsReqs.find? (fun r => r.id == id) = some q ∧ q.seq = (ctxAt s q.ctx).invSeq ∧ ∃
      (sz : _), 12 ≤ sz ∧ q.wants = [] ∧ q.forager = []) ∧
    (∃ (s : State) (pasid group : _), hostOpen s = true ∧ s.xl.pri.find? (fun p => p.group == some group && p.pasid ==
      pasid) = none) ∧
    (∃ (s : State) (pasid group p x : _), hostOpen s = true ∧ s.xl.pri.find? (fun p => p.group == some group &&
      p.pasid == pasid) = some p ∧ Tab.look s.hp.pasids pasid = some x ∧ p.answered = false) ∧
    (∃ (s : State) (pasid group p x : _), hostOpen s = true ∧ s.xl.pri.find? (fun p => p.group == some group &&
      p.pasid == pasid) = some p ∧ Tab.look s.hp.pasids pasid = some x ∧ p.answered = true) ∧
    (∃ (s : State) (pasid group p x : _), hostOpen s = true ∧ s.xl.pri.find? (fun p => p.group == some group &&
      p.pasid == pasid) = some p ∧ Tab.look s.hp.pasids pasid = some x ∧ s.xl.faults = [] ∧ s.xl.resWait = [] ∧
      s.xl.permWait = []) ∧
    (∃ (s : State) (pasid ctx : _), hostOpen s = true ∧ Tab.look s.hp.pasids pasid = some ctx ∧ s.hp.reads = [] ∧
      s.xl.atsInvs = []) ∧
    (∃ (s : State), hostOpen s = true) ∧
    (∃ (s : State), s.hp.atsOn = true) ∧
    (∃ (s : State) (ats : _), ats ≠ s.hp.atsOn) ∧
    (∃ (s : State) (ats : _), ats ≠ s.hp.atsOn ∧ s.xl.pri = []) ∧
    (∃ (s : State) (id r c : _) (data : List Byte), s.hp.reads = [r] ∧ r.id = id ∧ r.who = .chan c ∧ (chanAt s
      c).state = .running ∧ s.xl.atsInvs = [] ∧ data.length = r.len) ∧
    (∃ (s : State) (id : _), s.hp.reads.find? (fun r => r.id == id) = none) ∧
    (∃ (s : State) (id c : _), s.hp.flushes = [(id, c)] ∧ (chanAt s c).state = .running) :=
  ⟨⟨world, 3, by decide +kernel⟩,
   ⟨setCtx (withAts world) 0 (fun c => { c with invSeq := 1 }), 3, _, rfl, by decide +kernel⟩,
   ⟨withAts world, 3, _, rfl, by decide +kernel, 25, 0, true, true, by decide, by decide +kernel, .inl rfl, by decide +kernel⟩,
   ⟨withAts world, 3, _, rfl, by decide +kernel, 25, false, false, by decide⟩,
   ⟨(withAts world).onXl (fun x => { x with atsReqs := x.atsReqs.map (fun a => { a with wants := [] }) }), 3, _, rfl,
    by decide +kernel, 25, by decide, rfl, rfl⟩,
   ⟨world, 5, 2, by decide +kernel⟩,
   ⟨withPri world, 5, 2, _, 0, rfl, rfl, rfl, rfl⟩,
   ⟨withPriAnswered world, 5, 2, _, 0, rfl, rfl, rfl, rfl⟩,
   ⟨withPri world, 5, 2, _, 0, rfl, rfl, rfl, rfl, rfl, rfl⟩,
   ⟨withPri world, 5, 0, by decide +kernel⟩,
   ⟨world, rfl⟩,
   ⟨world.onHp (fun p => { p with atsOn := true }), rfl⟩,
   ⟨world, true, by decide +kernel⟩,
   ⟨world, true, by decide +kernel⟩,
   ⟨(runs []).onHp (fun h => { h with reads :=
    [{ id := 6, who := .chan 0, va := 0, len := 4, access := .read }] }), 6, _, 0, [1, 2, 3, 4], rfl, rfl, rfl,
    rfl, rfl, rfl⟩,
   ⟨world, 6, by decide +kernel⟩,
   ⟨(runs []).onHp (fun h => { h with flushes := [(6, 0)] }), 6, 0, by decide +kernel⟩⟩

theorem witness_WalksWatchdogsAndEscalations :
    (∃ (s : State) (w k : _), (served s).find? (fun k => k.id == w) = some k ∧ k.seq = (ctxAt s k.ctx).invSeq) ∧
    (∃ (s : State) (w k : _), (served s).find? (fun k => k.id == w) = some k ∧ k.seq ≠ (ctxAt s k.ctx).invSeq) ∧
    (∃ (s : State) (w : _), (served s).find? (fun k => k.id == w) = none) ∧
    (∃ (s : State) (c : _), (chanAt s c).state ≠ .free ∧ (queueAt s (chanAt s c).q).wdAbort = false) ∧
    (∃ (s : State) (c : _), (chanAt s c).state ≠ .free ∧ (queueAt s (chanAt s c).q).wdAbort = true) ∧
    (∃ (s : State) (c cap f gv m tmo : _), (chanAt s c).state = .waiting ∧ (chanAt s c).op = .wait cap f gv m
      tmo ∧ tmo ≠ 0) ∧
    (∃ (s : State) (f ops : _), s.clk.stream.ready = true ∧ Tab.look s.qm.fills f = some ops ∧ fenceAt s f =
      none ∧ s.qm.fences.length < Config.fenceCacheSize ∧
      let a := fenceAddr s f;
      let r := tableLine s (lineOf a);
      let w (i : Nat) : Nat := leNat ((r.2.2.drop (a - lineOf a + 8 * i)).take 8);
      let fe := Fence.ofWords (w 0) (w 1) (w 2);
      let rz := fld (w 1) 32 21 = 0 ∧ fld (w 2) 0 32 = 0 ∧ w 3 = 0;
      ∃ (e : _), r.2.1 = .ok ∧ rz ∧ fe.state ≠ .free ∧ sweepErr r.1 fe = some e) ∧
    (∃ (s : State) (f ops : _), s.clk.stream.ready = true ∧ Tab.look s.qm.fills f = some ops ∧ fenceAt s f =
      none ∧ s.qm.fences.length < Config.fenceCacheSize ∧
      let a := fenceAddr s f;
      let r := tableLine s (lineOf a);
      let w (i : Nat) : Nat := leNat ((r.2.2.drop (a - lineOf a + 8 * i)).take 8);
      let fe := Fence.ofWords (w 0) (w 1) (w 2);
      let rz := fld (w 1) 32 21 = 0 ∧ fld (w 2) 0 32 = 0 ∧ w 3 = 0;
      r.2.1 = .ok ∧ rz ∧ fe.state = .free) ∧
    (∃ (s : State) (f ops : _), s.clk.stream.ready = true ∧ Tab.look s.qm.fills f = some ops ∧ fenceAt s f =
      none ∧ s.qm.fences.length < Config.fenceCacheSize ∧
      let a := fenceAddr s f;
      let r := tableLine s (lineOf a);
      let w (i : Nat) : Nat := leNat ((r.2.2.drop (a - lineOf a + 8 * i)).take 8);
      let rz := fld (w 1) 32 21 = 0 ∧ fld (w 2) 0 32 = 0 ∧ w 3 = 0;
      r.2.1 = .ok ∧ ¬ rz) ∧
    (∃ (s : State) (f ops : _), s.clk.stream.ready = true ∧ Tab.look s.qm.fills f = some ops ∧ fenceAt s f =
      none ∧ s.qm.fences.length < Config.fenceCacheSize ∧
      let a := fenceAddr s f;
      let r := tableLine s (lineOf a);
      r.2.1 ≠ .ok) ∧
    (∃ (s : State) (f e u st : _), s.clk.stream.ready = true ∧ fenceAt s f = some e ∧ e.dirty = true ∧
      tableWrite s (fenceAddr s f) (bytesOf e.words) = (u, st) ∧ st = .ok) ∧
    (∃ (s : State) (f e u st : _), s.clk.stream.ready = true ∧ fenceAt s f = some e ∧ e.dirty = true ∧
      tableWrite s (fenceAddr s f) (bytesOf e.words) = (u, st) ∧ ∃ (x : _), st ≠ .ok ∧ fenceAt u f = some x ∧
      x.state = .opened) ∧
    (∃ (s : State) (f e u st : _), s.clk.stream.ready = true ∧ fenceAt s f = some e ∧ e.dirty = true ∧
      tableWrite s (fenceAddr s f) (bytesOf e.words) = (u, st) ∧ ∃ (x : _), st ≠ .ok ∧ fenceAt u f = some x ∧
      x.state ≠ .opened) ∧
    (∃ (s : State) (line i : _), i < 4 ∧
      let r := tableLine s (fenceAddr s (4 * line));
      let f := 4 * line + i;
      let w (j : Nat) : Nat := leNat ((r.2.2.drop (32 * i + 8 * j)).take 8);
      let fe := Fence.ofWords (w 0) (w 1) (w 2);
      (∀ j < 4, j ≠ i → (fenceAt r.1 (4 * line + j)).isSome = true) ∧ fenceAt r.1 f = none ∧ r.2.1 = .ok ∧
      sweepErr r.1 fe = none) ∧
    (∃ (s : State) (line i : _), i < 4 ∧
      let r := tableLine s (fenceAddr s (4 * line));
      let f := 4 * line + i;
      let w (j : Nat) : Nat := leNat ((r.2.2.drop (32 * i + 8 * j)).take 8);
      let fe := Fence.ofWords (w 0) (w 1) (w 2);
      (∀ j < 4, j ≠ i → (fenceAt r.1 (4 * line + j)).isSome = true) ∧ fenceAt r.1 f = none ∧ r.2.1 = .ok ∧ ∃ (e
      t st : _), sweepErr r.1 fe = some e ∧ tableWrite r.1 (fenceAddr r.1 f) (bytesOf
      { fe with state := .poisoned, value := allOnes, err := e }.words) = (t, st) ∧ (∀ j < 4, j ≠ i → (fenceAt t
      (4 * line + j)).isSome = true)) ∧
    (∃ (s : State), s.qm.sweeping = true) ∧
    (∃ (s : State) (c : _), (chanAt s c).state = .ending ∧ (chanAt s c).retired = false) ∧
    (∃ (s : State) (q r : _), r ∈ s.qm.resets ∧ r.1 = q) ∧
    (∃ (s : State) (x k : _), k ∈ s.qm.kills ∧ k.ctx = x) ∧
    (∃ (s : State) (h : _) (r : HiveJob), r ∈ s.he.resets ∧ r.hive = h) ∧
    (∃ (s : State) (j : WarmJob), s.kp.warm = some j ∧ j.stepsDone = false) :=
  ⟨⟨withWalk 0 world, 3, _, rfl, rfl⟩,
   ⟨withWalk 7 world, 3, _, rfl, by decide +kernel⟩,
   ⟨world, 3, by decide +kernel⟩,
   ⟨runs [], 0, by decide +kernel⟩,
   ⟨setQueue (runs []) 0 (fun q => { q with wdAbort := true }), 0, by decide +kernel⟩,
   ⟨runs [ins 0x31 [(1, 20)]] (fun x => { x with state := .waiting }), 0, .reg 0, .imm 0, false, 0, 1,
    by decide +kernel⟩,
   ⟨swept, 5, _, by decide +kernel, rfl, by decide +kernel, by decide +kernel, _, by decide +kernel, by decide +kernel,
    by decide +kernel, rfl⟩,
   ⟨(runs []).onQm (fun m => { m with fills := [(5, [])] }), 5, _, by decide +kernel, rfl, by decide +kernel⟩,
   ⟨tabled 1, 5, _, by decide +kernel, rfl, by decide +kernel⟩,
   ⟨uncombed (tabled 0), 5, _, by decide +kernel, rfl, by decide +kernel⟩,
   ⟨setFence (withFence (runs [])) 5 (fun x => { x with dirty := true }), 5, _, _, .ok, by decide +kernel, rfl, rfl, rfl, rfl⟩,
   ⟨uncombed (setFence (withFence (runs [])) 5 (fun x => { x with dirty := true })), 5, _, _, _, by decide +kernel, rfl, rfl, rfl, _,
    by decide +kernel, rfl, rfl⟩,
   ⟨uncombed (setFence (withFence (runs [])) 5 (fun x => { x with dirty := true, state := .closed })), 5, _, _, _, by decide +kernel,
    rfl, rfl, rfl, _, by decide +kernel, rfl, by decide +kernel⟩,
   ⟨tabled 0, 1, 1, by decide +kernel⟩,
   ⟨swept, 1, 1, by decide, by decide +kernel, by decide +kernel, by decide +kernel, _, _, .ok, rfl, rfl, by decide +kernel⟩,
   ⟨world.onQm (fun m => { m with sweeping := true }), rfl⟩,
   ⟨setChan world 5 (fun _ => { Channel.empty with state := .ending, retired := false }), 5, by decide +kernel⟩,
   ⟨world.onQm (fun m => { m with resets := [(5, none, false)] }), 5, _, List.mem_singleton.mpr rfl, rfl⟩,
   ⟨world.onQm (fun m => { m with kills := [{ ctx := 5, chan := none, step := 4, owed := [], noRecords := false }] }), 5, _,
    List.mem_singleton.mpr rfl, rfl⟩,
   ⟨world.onHe (fun e => { e with resets := [hjob] }), 1, hjob, by decide +kernel⟩,
   ⟨warming false world, _, rfl, rfl⟩⟩

theorem witness_ClusterPortsAreHeard :
    (∃ (s : State) (n : _), n < clustersAttached s ∧ (clusterAt s n).iso = true) ∧
    (∃ (s : State) (n : _), n < clustersAttached s ∧ (clusterAt s n).iso = false ∧ ((clusterAt s n).state =
      .assigned ∨ (clusterAt s n).state = .leaving)) ∧
    (∃ (s : State) (n : _), n < clustersAttached s ∧ (clusterAt s n).iso = false ∧ (clusterAt s n).state ≠
      .assigned ∧ (clusterAt s n).state ≠ .leaving) ∧
    (∃ (s : State) (n j : Nat), j ≠ n) ∧
    (∃ (s : State) (n : _), (clusterAt s n).pwrEn = true ∧ (clusterAt s n).pwrGood = false) ∧
    (∃ (s : State) (n k : _), n < clustersAttached s ∧ (clusterAt s n).iso = false ∧ 10 ≤ k ∧ k ≤ 24 ∧
      ((clusterAt s n).state = .joining ∨ (clusterAt s n).state = .clearing ∧ (clusterAt s n).clearTo =
      .assigned)) ∧
    (∃ (s : State) (n k : _), n < clustersAttached s ∧ (clusterAt s n).iso = false ∧ 10 ≤ k ∧ k ≤ 24 ∧
      (clusterAt s n).state = .clearing ∧ (clusterAt s n).clearTo ≠ .assigned ∧ (clusterAt s n).late = false) ∧
    (∃ (s : State) (off : _), off < 2 ^ 24) ∧
    (∃ (s : State) (n k : _), n < clustersAttached s ∧ (clusterAt s n).iso = false ∧ (k < 10 ∨ 24 < k) ∧
      ((clusterAt s n).state = .joining ∨ (clusterAt s n).state = .clearing)) ∧
    (∃ (s : State) (n : _), ((clusterAt s n).state = .joining ∨ (clusterAt s n).state = .clearing)) ∧
    (∃ (s : State) (n c : _), n < clustersAttached s ∧ (clusterAt s n).iso = false ∧ (clusterAt s n).kernel =
      some c ∧ (chanAt s c).hold = .kernel ∧ (chanAt s c).kernels.contains n = true) ∧
    (∃ (s : State) (n : _), n < clustersAttached s ∧ (clusterAt s n).iso = false ∧ ((clusterAt s n).state =
      .assigned ∨ (clusterAt s n).state = .leaving) ∧ (hiveAt s (clusterAt s n).hive).vecCount ≠ 0) ∧
    (∃ (s : State) (h : _) (j : ResizeJob), s.he.resizes.find? (fun r => r.hive == h) = some j ∧ j.removed = []) ∧
    (∃ (s : State) (h : _) (j : ResizeJob), s.he.resizes.find? (fun r => r.hive == h) = some j) :=
  ⟨⟨setCluster world 0 (fun x => { x with iso := true }), 0, by decide +kernel⟩,
   ⟨withCluster none world, 0, by decide +kernel⟩,
   ⟨setCluster (withCluster none world) 0 (fun x => { x with state := .free }), 0, by decide +kernel⟩,
   ⟨world, 0, 1, by decide⟩,
   ⟨setCluster (withCluster none world) 0 (fun x => { x with pwrGood := false }), 0, by decide +kernel⟩,
   ⟨setCluster (withCluster none world) 0 (fun x => { x with state := .joining }), 0, 10, by decide +kernel⟩,
   ⟨setCluster (withCluster none world) 0 (fun x => { x with state := .clearing, clearTo := .free }), 0, 10, by decide +kernel⟩,
   ⟨world, 0, by decide +kernel⟩,
   ⟨setCluster (withCluster none world) 0 (fun x => { x with state := .clearing }), 0, 9, by decide +kernel⟩,
   ⟨setCluster (withCluster none world) 0 (fun x => { x with state := .clearing }), 0, by decide +kernel⟩,
   ⟨withCluster (some 0) (runs [] (fun x => { x with hold := .kernel, kernels := [0] })), 0, 0,
    by decide +kernel⟩,
   ⟨withCluster none world, 0, by decide +kernel⟩,
   ⟨world.onHe (fun e => { e with resizes := [rjob []] }), 1, _, rfl, rfl⟩,
   ⟨world.onHe (fun e => { e with resizes := [rjob [3]] }), 1, _, rfl⟩⟩

theorem witness_WindowsLevelsAndPower :
    (∃ (s : State) (l : _), l < Config.labels ∧ (labelAt s l).hive ≠ Config.noHive) ∧
    (∃ (x : Label), x.pendingSet = none) ∧
    (∃ (x : Label) (p : LabelSetting), x.pendingSet = some p) ∧
    (∃ (s : State) (answers : _), s.clk.cold = false ∧ s.kp.haveSettings = true ∧ s.kp.warm = none ∧ inputPower
      ((readingsOf s answers).take (pmbOf s 0).length) = none) ∧
    (∃ (s : State) (answers p : _), s.clk.cold = false ∧ s.kp.haveSettings = true ∧ s.kp.warm = none ∧
      inputPower ((readingsOf s answers).take (pmbOf s 0).length) = some p ∧ 0 ≤ p ∧ (effectiveCap s = 0 ∨ p ≤ 2
      * ((wattUnit * effectiveCap s : Nat) : Int))) ∧
    (∃ (s : State), s.clk.cold = false ∧ s.kp.haveSettings = true ∧ s.kp.warm.isSome = true) ∧
    (∃ (s : State) (i : Nat) (e lo hi : _) (x : Byte), s.kp.settings.pmb[i]? = some e ∧ readPec e lo hi ≠
      x.toNat) ∧
    (∃ (s : State) (i : Nat) (e lo hi : _) (x : Byte), s.kp.settings.pmb[i]? = some e ∧ readPec e lo hi =
      x.toNat ∧ e.fmt = 0) ∧
    (∃ (s : State), s.kp.power.fails < 7) ∧
    (∃ (s : State) (lab : _), (Tab.look s.rg.copies lab).getD 0 < budgetG (labelAt s lab)) ∧
    (∃ (s : State) (lab : _), budgetG (labelAt s lab) ≤ (Tab.look s.rg.copies lab).getD 0 ∧ (Tab.look
      s.rg.copies lab).getD 0 < budgetC (labelAt s lab)) ∧
    (∃ (s : State) (lab : _), budgetG (labelAt s lab) ≤ (Tab.look s.rg.copies lab).getD 0 ∧ budgetC (labelAt s
      lab) ≤ (Tab.look s.rg.copies lab).getD 0) :=
  ⟨⟨setLabel world 4 (fun x => { x with hive := 1 }), 4, by decide +kernel⟩,
   ⟨Label.open_ (labelAt world 0) 0, rfl⟩,
   ⟨{ labelAt world 0 with pendingSet := some setting0 }, _, rfl⟩,
   ⟨power meter world, [.nack], rfl, rfl, rfl, rfl⟩,
   ⟨power meter world, [.bytes 80 0 65], _, rfl, rfl, rfl, rfl, by decide, .inl rfl⟩,
   ⟨warming false world, rfl, rfl, rfl⟩,
   ⟨power meter world, 0, meter, 80, 0, 66, rfl, by decide +kernel⟩,
   ⟨power meter world, 0, meter, 80, 0, 65, rfl, by decide +kernel⟩,
   ⟨world, by decide +kernel⟩,
   ⟨setLabel world 1 (fun x => { x with guar := 1 }), 1, by decide +kernel⟩,
   ⟨setLabel world 1 (fun x => { x with guar := 0, ceil := 16, win := 0 }), 1, by decide +kernel⟩,
   ⟨world, 1, by decide +kernel⟩⟩

theorem witness_ErrorsAreLoggedAndCounted :
    (∃ (s : State) (m : _), m < 64) ∧
    (∃ (s : State) (m : _) (k : ErrKind), m < 64 ∧ k ≠ .corrected) ∧
    (∃ (s : State) (inst : _) (k : ErrKind), k ≠ .corrected ∧ blockWide inst = true) ∧
    (∃ (s : State) (a : _), scrubReads s a = true) ∧
    (∃ (s : State) (p : _), p < 64 ∧ p ∈ s.pr.gated) ∧
    (∃ (s : State) (m : _), m < 64 ∧ (moverAt s m).gated = true) ∧
    (∃ (s : State), s.br.flashLog.length + (s.br.log.filter (fun r => s.br.unsaved.contains r.index)).length ≤
      Config.flashLogRecords) :=
  ⟨⟨world, 63, by decide⟩,
   ⟨world, 0, .parity, by decide⟩,
   ⟨world, 0x300, .parity, by decide⟩,
   ⟨world, .ats, rfl⟩,
   ⟨world.onPr (fun p => { p with gated := [7] }), 7, by decide⟩,
   ⟨setMover world 5 (fun m => { m with gated := true }), 5, by decide +kernel⟩,
   ⟨State.reset, by decide +kernel⟩⟩

theorem witness_FramesAreCheckedAndRouted :
    (∃ (s : State) (l : _), (linkAt s l).state = .down ∧ (linkAt s l).locked = false) ∧
    (∃ (s : State) (l : Nat) (f : Frame) (tagOk : Bool), ((linkAt s l).state ≠ .down ∨ (linkAt s l).locked =
      true) ∧ frameOk s l f tagOk = false ∧ (discardsAt s l).length < 64) ∧
    (∃ (s : State) (l : Nat) (f : Frame) (tagOk : Bool), ((linkAt s l).state ≠ .down ∨ (linkAt s l).locked =
      true) ∧ (rzOk f = false ∨ plenOk f = false ∨ (tagOk = false ∧ f.ftype ≠ 4) ∨ keyOk (linkAt s l) f = false
      ∨ stateOk (linkAt s l) f = false)) ∧
    (∃ (s : State) (l f tagOk : _), ((linkAt s l).state ≠ .down ∨ (linkAt s l).locked = true) ∧
      let t := acceptLink s l f;
      frameOk s l f tagOk = true ∧ (linkAt s l).state ≠ .down ∧ counterSpent (linkAt t l) = true) ∧
    (∃ (s : State) (l f tagOk : _), ((linkAt s l).state ≠ .down ∨ (linkAt s l).locked = true) ∧
      let t := acceptLink s l f;
      frameOk s l f tagOk = true ∧ (linkAt s l).state ≠ .down ∧ counterSpent (linkAt t l) = false ∧ (f.ftype = 0
      ∨ f.ftype = 4 ∨ f.ftype = 5)) ∧
    (∃ (s : State) (l f tagOk : _), ((linkAt s l).state ≠ .down ∨ (linkAt s l).locked = true) ∧
      let t := acceptLink s l f;
      frameOk s l f tagOk = true ∧ (linkAt s l).state ≠ .down ∧ counterSpent (linkAt t l) = false ∧ f.ftype ≠ 0
      ∧ f.ftype ≠ 4 ∧ f.ftype ≠ 5 ∧ f.dst ≠ chipId t ∧ f.hops = 0) ∧
    (∃ (s : State) (l f tagOk : _), ((linkAt s l).state ≠ .down ∨ (linkAt s l).locked = true) ∧
      let t := acceptLink s l f;
      frameOk s l f tagOk = true ∧ (linkAt s l).state ≠ .down ∧ counterSpent (linkAt t l) = false ∧ f.ftype ≠ 0
      ∧ f.ftype ≠ 4 ∧ f.ftype ≠ 5 ∧ f.dst ≠ chipId t ∧ f.hops ≠ 0) ∧
    (∃ (s : State) (l f tagOk : _), ((linkAt s l).state ≠ .down ∨ (linkAt s l).locked = true) ∧
      let t := acceptLink s l f;
      frameOk s l f tagOk = true ∧ (linkAt s l).state ≠ .down ∧ counterSpent (linkAt t l) = false ∧ f.ftype ≠ 0
      ∧ f.ftype ≠ 4 ∧ f.ftype ≠ 5 ∧ f.dst = chipId t ∧ sequenced f.ftype = true) ∧
    (∃ (s : State) (l f tagOk : _), ((linkAt s l).state ≠ .down ∨ (linkAt s l).locked = true) ∧
      let t := acceptLink s l f;
      frameOk s l f tagOk = true ∧ (linkAt s l).state ≠ .down ∧ counterSpent (linkAt t l) = false ∧ f.ftype ≠ 0
      ∧ f.ftype ≠ 4 ∧ f.ftype ≠ 5 ∧ f.dst = chipId t ∧ sequenced f.ftype = false) :=
  ⟨⟨world, 0, by decide +kernel⟩,
   ⟨withLink world, 0, ff 3 3, false, by decide +kernel⟩,
   ⟨withLink world, 0, ff 3 3, false, by decide +kernel⟩,
   ⟨linked (fun x => { x with state := .rekey, lctrRx := 1 }), 0, { ff 3 3 with lctr := 2 ^ 48 + 2 ^ 40 },
    true, by decide +kernel⟩,
   ⟨withLink world, 0, ctl 0 0 [], true, by decide +kernel⟩,
   ⟨withLink world, 0, ff 4 0, true, by decide +kernel⟩,
   ⟨withLink world, 0, ff 4 2, true, by decide +kernel⟩,
   ⟨withLink world, 0, ff 3 3, true, by decide +kernel⟩,
   ⟨withLink world, 0, ctl 2 0 [], true, by decide +kernel⟩⟩

theorem witness_ControlFramesAct :
    (∃ (s : State) (l r : _), s.sw.rx.find? (fun r => r.link == l && r.frame.ftype == 0) = some r ∧
      let u := headerAck (popped s (fun r => r.link == l && r.frame.ftype == 0)) r.frame;
      (linkAt u l).state = .auth ∧ (linkAt u l).genRx = 0) ∧
    (∃ (s : State) (l r : _), s.sw.rx.find? (fun r => r.link == l && r.frame.ftype == 0) = some r ∧
      let u := headerAck (popped s (fun r => r.link == l && r.frame.ftype == 0)) r.frame;
      ¬ ((linkAt u l).state = .auth ∧ (linkAt u l).genRx = 0)) ∧
    (∃ (s : State) (f : Frame), flowAt s f.src = none) ∧
    (∃ (s : State) (f : Frame) (fl : Flow), flowAt s f.src = some fl ∧ fl.opened = true ∧ fl.closing = false ∧
      fl.epoch = f.epoch ∧ f.dst = chipId s) ∧
    (∃ (s : State) (src : Nat) (r : RxFrame) (fl : Flow), s.sw.rx.find? (fun r => r.frame.src == src &&
      r.frame.ftype == 1) = some r ∧ flowAt s src = some fl ∧ fl.opened = true ∧ fl.closing = false ∧ fl.epoch =
      r.frame.epoch) ∧
    (∃ (s : State) (src : Nat) (r : RxFrame) (fl : Flow), s.sw.rx.find? (fun r => r.frame.src == src &&
      r.frame.ftype == 1) = some r ∧ flowAt s src = some fl ∧ (fl.opened = false ∨ fl.closing = true ∨ fl.epoch
      ≠ r.frame.epoch)) ∧
    (∃ (s : State) (src r : _), s.sw.rx.find? (fun r => r.frame.src == src && r.frame.ftype == 2) = some r ∧
      let t := headerAck (popped s (fun r => r.frame.src == src && r.frame.ftype == 2)) r.frame;
      bit r.frame.opf 31 = true ∧ flowAt t src = none) ∧
    (∃ (s : State) (src r : _), s.sw.rx.find? (fun r => r.frame.src == src && r.frame.ftype == 2) = some r ∧
      let t := headerAck (popped s (fun r => r.frame.src == src && r.frame.ftype == 2)) r.frame;
      ∃ (fl : _), bit r.frame.opf 31 = true ∧ flowAt t src = some fl ∧ fl.entry = true ∧ fl.opened = false ∧
      fl.epoch = r.frame.epoch) ∧
    (∃ (s : State) (src r : _), s.sw.rx.find? (fun r => r.frame.src == src && r.frame.ftype == 2) = some r ∧
      let t := headerAck (popped s (fun r => r.frame.src == src && r.frame.ftype == 2)) r.frame;
      ∃ (fl : _), bit r.frame.opf 31 = false ∧ flowAt t src = some fl ∧ fl.entry = true ∧ fl.opened = true ∧
      fl.closing = false ∧ fl.epoch = r.frame.epoch) ∧
    (∃ (s : State) (src r : _), s.sw.rx.find? (fun r => r.frame.src == src && r.frame.ftype == 2) = some r ∧
      let t := headerAck (popped s (fun r => r.frame.src == src && r.frame.ftype == 2)) r.frame;
      bit r.frame.opf 31 = false ∧ flowAt t src = none ∧ entryFree t = true) ∧
    (∃ (s : State) (src r : _), s.sw.rx.find? (fun r => r.frame.src == src && r.frame.ftype == 3) = some r ∧
      let t := headerAck (popped s (fun r => r.frame.src == src && r.frame.ftype == 3)) r.frame;
      (bit r.frame.opf 31 = true ∨ (flowIdle t src = false ∧ (flowAt t src).any (·.closing) = false))) ∧
    (∃ (s : State) (src r : _), s.sw.rx.find? (fun r => r.frame.src == src && r.frame.ftype == 3) = some r ∧
      let t := headerAck (popped s (fun r => r.frame.src == src && r.frame.ftype == 3)) r.frame;
      bit r.frame.opf 31 = false ∧ (flowIdle t src = true ∨ (flowAt t src).any (·.closing) = true)) ∧
    (∃ (s : State) (l r : _), s.sw.rx.find? (fun r => r.link == l && r.frame.ftype == 4) = some r ∧ (linkAt s
      l).state ≠ .training) ∧
    (∃ (s : State) (l r : _), s.sw.rx.find? (fun r => r.link == l && r.frame.ftype == 4) = some r ∧ (linkAt s
      l).state = .training ∧ r.frame.opf / 2 ^ 30 = 1) ∧
    (∃ (s : State) (l v r : _), s.sw.rx.find? (fun r => r.link == l && r.frame.ftype == 4) = some r ∧
      let p := (linkAt s l).peerHello;
      (linkAt s l).state = .training ∧ r.frame.opf / 2 ^ 30 ≠ 1 ∧ (v = false ∨ p = [] ∨ leNat (p.take 2) =
      chipId s ∨ rootUsable s (leNat ((p.drop 3).take 1)) ((p.drop 0x70).take 96) = false)) ∧
    (∃ (s : State) (l v r : _), s.sw.rx.find? (fun r => r.link == l && r.frame.ftype == 4) = some r ∧
      let p := (linkAt s l).peerHello;
      (linkAt s l).state = .training ∧ r.frame.opf / 2 ^ 30 ≠ 1 ∧ v = true ∧ p ≠ [] ∧ leNat (p.take 2) ≠ chipId
      s ∧ rootUsable s (leNat ((p.drop 3).take 1)) ((p.drop 0x70).take 96) = true ∧ s.vault.wrapBad = false) ∧
    (∃ (s : State) (l v r : _), s.sw.rx.find? (fun r => r.link == l && r.frame.ftype == 4) = some r ∧
      let p := (linkAt s l).peerHello;
      (linkAt s l).state = .training ∧ r.frame.opf / 2 ^ 30 ≠ 1 ∧ v = true ∧ p ≠ [] ∧ leNat (p.take 2) ≠ chipId
      s ∧ rootUsable s (leNat ((p.drop 3).take 1)) ((p.drop 0x70).take 96) = true ∧ s.vault.wrapBad = true) ∧
    (∃ (s : State) (l r : _), s.sw.rx.find? (fun r => r.link == l && r.frame.ftype == 5) = some r ∧
      let t := headerAck (popped s (fun r => r.link == l && r.frame.ftype == 5)) r.frame;
      let k := linkAt t l;
      let g := leNat (r.frame.payload.take 4);
      k.carries = true ∧ bit r.frame.opf 31 = false ∧ g = k.genRx + 1 ∧ t.vault.wrapBad = false) ∧
    (∃ (s : State) (l r : _), s.sw.rx.find? (fun r => r.link == l && r.frame.ftype == 5) = some r ∧
      let t := headerAck (popped s (fun r => r.link == l && r.frame.ftype == 5)) r.frame;
      let k := linkAt t l;
      let g := leNat (r.frame.payload.take 4);
      k.carries = true ∧ bit r.frame.opf 31 = false ∧ g = k.genRx + 1 ∧ t.vault.wrapBad = true) ∧
    (∃ (s : State) (l r : _), s.sw.rx.find? (fun r => r.link == l && r.frame.ftype == 5) = some r ∧
      let t := headerAck (popped s (fun r => r.link == l && r.frame.ftype == 5)) r.frame;
      let k := linkAt t l;
      let g := leNat (r.frame.payload.take 4);
      bit r.frame.opf 31 = true ∧ k.state = .rekey ∧ k.initiated = true ∧ g = k.genTx + 1 ∧ g = k.genRx + 1 ∧
      t.vault.wrapBad = false) ∧
    (∃ (s : State) (l r : _), s.sw.rx.find? (fun r => r.link == l && r.frame.ftype == 5) = some r ∧
      let t := headerAck (popped s (fun r => r.link == l && r.frame.ftype == 5)) r.frame;
      let k := linkAt t l;
      let g := leNat (r.frame.payload.take 4);
      bit r.frame.opf 31 = true ∧ k.state = .rekey ∧ k.initiated = true ∧ g = k.genTx + 1 ∧ g = k.genRx) :=
  ⟨⟨withRx (frame 0 0 0 []) (linked (fun x => { x with state := .auth, genRx := 0 })), 0, _, rfl,
    by decide +kernel⟩,
   ⟨withRx (frame 0 0 0 []) (withLink world), 0, _, rfl, by decide +kernel⟩,
   ⟨world, frame 0 0 0 [], by decide +kernel⟩,
   ⟨withFlow id world, { frame 0 0 0 [] with epoch := 1 }, _, rfl, by decide +kernel⟩,
   ⟨withRx { frame 1 0 0 [] with epoch := 1 } (withLink world), 9, _, _, rfl, rfl, by decide +kernel⟩,
   ⟨withRx { frame 1 0 0 [] with epoch := 2 } (withLink world), 9, _, _, rfl, rfl, by decide +kernel⟩,
   ⟨rxOnly (frame 2 0 (2 ^ 31) []), 9, _, rfl, by decide +kernel⟩,
   ⟨withFlow (fun x => { x with entry := true, opened := false }) (rxOnly
    { frame 2 0 (2 ^ 31) [] with epoch := 1 }), 9, _, rfl, _, by decide +kernel, rfl, by decide +kernel⟩,
   ⟨withFlow (fun x => { x with entry := true }) (rxOnly { frame 2 0 0 [] with epoch := 1 }), 9, _, rfl, _,
    by decide +kernel, rfl, by decide +kernel⟩,
   ⟨rxOnly (frame 2 0 0 []), 9, _, rfl, by decide +kernel⟩,
   ⟨rxOnly (frame 3 0 (2 ^ 31) []), 9, _, rfl, by decide +kernel⟩,
   ⟨withFlow (fun x => { x with closing := true }) (rxOnly (frame 3 0 0 [])), 9, _, rfl, by decide +kernel⟩,
   ⟨rxOnly (frame 4 0 0 []), 0, _, rfl, by decide +kernel⟩,
   ⟨withRx (frame 4 0 (2 ^ 30) []) (linked (fun x => { x with state := .training })), 0, _, rfl,
    by decide +kernel⟩,
   ⟨hailed [], 0, false, _, rfl, by decide +kernel⟩,
   ⟨hailed peerHello, 0, true, _, rfl, by decide +kernel, by decide +kernel, rfl, by decide +kernel, by decide +kernel,
    hailed_root, by decide +kernel⟩,
   ⟨(hailed peerHello).onVault (fun v => { v with wrapBad := true }), 0, true, _, rfl, by decide +kernel, by decide +kernel, rfl,
    by decide +kernel, by decide +kernel, hailed_root, by decide +kernel⟩,
   ⟨rxOnly (frame 5 0 0 [2, 0, 0, 0]), 0, _, rfl, by decide +kernel⟩,
   ⟨(rxOnly (frame 5 0 0 [2, 0, 0, 0])).onVault (fun v => { v with wrapBad := true }), 0, _, rfl, by decide +kernel⟩,
   ⟨withRx (frame 5 0 (2 ^ 31) [2, 0, 0, 0]) (linked (fun x => { x with state := .rekey, initiated := true })),
    0, _, rfl, by decide +kernel⟩,
   ⟨withRx (frame 5 0 (2 ^ 31) [2, 0, 0, 0]) (linked (fun x => { x with state := .rekey, initiated := true, genRx := 2 })),
    0, _, rfl, by decide +kernel⟩⟩

theorem witness_FramesArePerformed :
    (∃ (s : State) (src seq : _) (r : RxFrame), Accepted s src seq 6 r) ∧
    (∃ (s : State) (f h k u d n : _), Admitted s f 1 128 .wr h k ∧ homeWrite s h k.keySel (paLocal f.w4) (.whole
      d) f.level = (u, .ok, n)) ∧
    (∃ (s : State) (src seq r h k u n : _), Accepted s src seq 7 r ∧ Admitted (received s r) r.frame 1 128 .wr h
      k ∧ homeWrite (received s r) h k.keySel (paLocal r.frame.w4) (.partialWrite ((bitsOf (leNat
      (r.frame.payload.take 16)) 128).map (fun i => (i, nth r.frame.payload (16 + i) 0)))) r.frame.level = (u,
      .ok, n)) ∧
    (∃ (s : State) (f need : _), destination s f need (paLocal f.w4) = none) ∧
    (∃ (s : State) (f : _) (ks : List WriteKind) (need ok : _), (destination s f need (paLocal f.w4)).isSome =
      true ∧ (ok = false ∨ linesOk s (paLocal f.w4) ks.length 128 = false)) ∧
    (∃ (s : State) (src seq r h k u old : _), Accepted s src seq 9 r ∧ r.frame.opf / 2 ^ 29 = 0 ∧ Admitted
      (received s r) r.frame 1 (if bit r.frame.opf 28 then 8 else 4) .atom h k ∧ homeWrite (received s r) h
      k.keySel (lineOf (paLocal r.frame.w4)) (.atomic .add (bit r.frame.opf 28) (bit r.frame.opf 27) (paLocal
      r.frame.w4 % 128) (leNat (r.frame.payload.take 8)) (leNat (r.frame.payload.drop 8))) r.frame.level = (u,
      .ok, old)) ∧
    (∃ (s : State) (src seq r h k u d : _), Accepted s src seq 0xA r ∧ r.frame.opf / 2 ^ 29 = 0 ∧ Admitted
      (received s r) r.frame 1 128 .rd h k ∧ homeRead (received s r) h k.keySel (paLocal r.frame.w4)
      r.frame.level = (u, .ok, d) ∧ d.length = 128) ∧
    (∃ (s : State) (src seq : _) (r : RxFrame), Accepted s src seq 0xA r ∧ (destination (received s r) r.frame
      .rd (paLocal r.frame.w4)).isSome = true ∧ linesOk (received s r) (paLocal r.frame.w4) (r.frame.opf / 2 ^
      29 + 1) 128 = false) ∧
    (∃ (s : State) (src seq : Nat) (r : RxFrame) (x a y : Fmt) (n : Rnd), Accepted s src seq 8 r ∧ Fmt.ofNat?
      (fld r.frame.opf 27 5) = some x ∧ Fmt.ofNat? (fld r.frame.opf 22 5) = some a ∧ Fmt.ofNat? (fld r.frame.opf
      17 5) = some y ∧ Rnd.ofNat? (fld r.frame.opf 13 2) = some n ∧ fld r.frame.opf 15 2 = 0 ∧ 128 % y.size = 0) ∧
    (∃ (s : State) (src seq r : _), s.sw.rx.find? (fun x => x.frame.src == src && x.frame.seq == seq &&
      x.frame.ftype == 7) = some r ∧ ready s r = true ∧ linesFree s r.frame = false) ∧
    (∃ (s : State) (src seq : _) (r : RxFrame), Accepted s src seq 8 r ∧ reduceKinds r.frame = none ∧
      (destination (received s r) r.frame .atom (paLocal r.frame.w4)).isSome = true) ∧
    (∃ (s : State) (src seq : _) (r : RxFrame), Accepted s src seq 0xB r ∧ bit r.frame.opf 31 = true) ∧
    (∃ (s : State) (src seq : _) (r : RxFrame), Accepted s src seq 0xB r ∧ bit r.frame.opf 31 = false) ∧
    (∃ (s : State) (src seq r : _), Accepted s src seq 0xC r ∧
      let t := countPerformed (received s r) r.frame.src r.frame.seq;
      ∃ (x va n : _), t.sw.txns.find? (fun x => x.peer == r.frame.src && x.seq == fld r.frame.w4 32 32) = some x
      ∧ x.kind = .read va n ∧ fld r.frame.w4 24 8 = 0) ∧
    (∃ (s : State) (src seq r : _), Accepted s src seq 0xC r ∧
      let t := countPerformed (received s r) r.frame.src r.frame.seq;
      ∃ (x : _), t.sw.txns.find? (fun x => x.peer == r.frame.src && x.seq == fld r.frame.w4 32 32) = some x ∧ (∀
      va n, x.kind ≠ .read va n) ∧ fld r.frame.w4 24 8 = 0) ∧
    (∃ (s : State) (src seq r : _), Accepted s src seq 0xC r ∧
      let t := countPerformed (received s r) r.frame.src r.frame.seq;
      ∃ (x : _), t.sw.txns.find? (fun x => x.peer == r.frame.src && x.seq == fld r.frame.w4 32 32) = some x ∧
      fld r.frame.w4 24 8 ≠ 0) ∧
    (∃ (s : State) (src seq r : _), Accepted s src seq 0xC r ∧
      let t := countPerformed (received s r) r.frame.src r.frame.seq;
      t.sw.txns.find? (fun x => x.peer == r.frame.src && x.seq == fld r.frame.w4 32 32) = none) ∧
    (∃ (s : State) (src seq r : _), Accepted s src seq 0xD r ∧
      let t := countPerformed (received s r) r.frame.src r.frame.seq;
      ∃ (x : _), t.sw.txns.find? (fun x => x.peer == r.frame.src && x.seq == fld r.frame.w4 32 32) = some x ∧
      x.kind = .atomic ∧ fld r.frame.w4 24 8 = 0) ∧
    (∃ (s : State) (src seq r : _), Accepted s src seq 0xD r ∧
      let t := countPerformed (received s r) r.frame.src r.frame.seq;
      ∃ (x : _), t.sw.txns.find? (fun x => x.peer == r.frame.src && x.seq == fld r.frame.w4 32 32) = some x ∧
      x.kind ≠ .atomic ∧ fld r.frame.w4 24 8 = 0) ∧
    (∃ (s : State) (src seq r : _), Accepted s src seq 0xD r ∧
      let t := countPerformed (received s r) r.frame.src r.frame.seq;
      ∃ (x : _), t.sw.txns.find? (fun x => x.peer == r.frame.src && x.seq == fld r.frame.w4 32 32) = some x ∧
      fld r.frame.w4 24 8 ≠ 0) ∧
    (∃ (s : State) (src seq r : _), Accepted s src seq 0xD r ∧
      let t := countPerformed (received s r) r.frame.src r.frame.seq;
      t.sw.txns.find? (fun x => x.peer == r.frame.src && x.seq == fld r.frame.w4 32 32) = none) :=
  ⟨⟨withRx (frame 6 0 0 (List.replicate 128 7)) (withLink (runs [])), 9, 1, _, ⟨rfl, by decide +kernel⟩⟩,
   ⟨world, frame 6 0 0 [], 0, comb 0 4 1, _, List.replicate 128 7, _, ⟨by decide +kernel, rfl⟩, Prod.ext rfl
    (Prod.ext (by decide +kernel) rfl)⟩,
   ⟨withRx (frame 7 0 0 (List.replicate 144 7)) (withLink (runs [])), 9, 1, _, 0, comb 0 4 1, _, _, ⟨rfl,
    by decide +kernel⟩, ⟨by decide +kernel, rfl⟩, Prod.ext rfl (Prod.ext (by decide +kernel) rfl)⟩,
   ⟨world, frame 6 (2 ^ 30 * 7) 0 [], .atom, by decide +kernel⟩,
   ⟨world, frame 6 0 0 [], [], .wr, false, by decide +kernel, .inl rfl⟩,
   ⟨withRx (frame 9 4 0 (List.replicate 16 7)) (withLink (runs [])), 9, 1, _, 0, comb 0 4 1, _, _, ⟨rfl,
    by decide +kernel⟩, rfl, ⟨by decide +kernel, rfl⟩, Prod.ext rfl (Prod.ext (by decide +kernel) rfl)⟩,
   ⟨withRx (frame 10 0 0 []) (withLink world), 9, 1, _, 0, comb 0 4 1, _, _, ⟨rfl, by decide +kernel⟩, rfl,
    ⟨by decide +kernel, rfl⟩, Prod.ext rfl (Prod.ext (by decide +kernel) rfl), by decide +kernel⟩,
   ⟨withRx (frame 10 64 0 []) (withLink world), 9, 1, _, ⟨rfl, by decide +kernel⟩, by decide +kernel,
    by decide +kernel⟩,
   ⟨withRx (frame 8 0 0 []) (withLink (runs [])), 9, 1, _, _, _, _, _, ⟨rfl, by decide +kernel⟩, rfl, rfl, rfl,
    rfl, rfl, by decide +kernel⟩,
   ⟨withRx (frame 7 0 0 (List.replicate 144 7)) (withLink world), 9, 1, _, rfl, by decide +kernel⟩,
   ⟨withRx (frame 8 0 (2 ^ 32 - 1) []) (withLink (runs [])), 9, 1, _, ⟨rfl, by decide +kernel⟩, by decide +kernel,
    by decide +kernel⟩,
   ⟨withRx (frame 11 5 (2 ^ 31) []) (withLink world), 9, 1, _, ⟨rfl, by decide +kernel⟩, rfl⟩,
   ⟨withRx (frame 11 5 0 []) (withLink world), 9, 1, _, ⟨rfl, by decide +kernel⟩, rfl⟩,
   ⟨answered 12 0 (.read 0 128), 9, 1, _, ⟨rfl, by decide +kernel⟩, _, 0, 128, rfl, rfl, rfl⟩,
   ⟨answered 12 0 (.write 0), 9, 1, _, ⟨rfl, by decide +kernel⟩, _, rfl, nofun, rfl⟩,
   ⟨answered 12 (2 ^ 24) (.write 0), 9, 1, _, ⟨rfl, by decide +kernel⟩, _, rfl, by decide +kernel⟩,
   ⟨answered 12 (2 ^ 32) (.write 0), 9, 1, _, ⟨rfl, by decide +kernel⟩, rfl⟩,
   ⟨answered 13 0 .atomic, 9, 1, _, ⟨rfl, by decide +kernel⟩, _, rfl, rfl, rfl⟩,
   ⟨answered 13 0 (.write 0), 9, 1, _, ⟨rfl, by decide +kernel⟩, _, rfl, nofun, rfl⟩,
   ⟨answered 13 (2 ^ 24) (.write 0), 9, 1, _, ⟨rfl, by decide +kernel⟩, _, rfl, by decide +kernel⟩,
   ⟨answered 13 (2 ^ 32) (.write 0), 9, 1, _, ⟨rfl, by decide +kernel⟩, rfl⟩⟩

theorem witness_LinksTrainRekeyAndFall :
    (∃ (s : State) (l : _), l < Config.links ∧ (linkAt s l).locked = false ∧ s.clk.cold = false) ∧
    (∃ (s : State), (s.clk.stream.ready = false ∨ s.clk.control.ready = false)) ∧
    (∃ (s : State) (l : _), mayTrain s l = false) ∧
    (∃ (s : State) (l : _), mayTrain s l = true ∧ counterSpent (linkAt s l) = false) ∧
    (∃ (s : State) (l : _), (linkAt s l).locked = true) ∧
    (∃ (s : State) (l : _), (linkAt s l).state ≠ .down) ∧
    (∃ (s : State) (l : _), (linkAt s l).state ≠ .down ∧ s.sw.flows = [] ∧ s.sw.fwd = [] ∧ s.qm.jobs = []) ∧
    (∃ (s : State) (l : _), (linkAt s l).holdDown = true) ∧
    (∃ (s : State) (l : _), (linkAt s l).state = .training ∧ (linkAt s l).peerHello = []) ∧
    (∃ (s : State) (l : _), (linkAt s l).state = .rekey ∧ (linkAt s l).initiated = true) ∧
    (∃ (s : State) (l : _), ((linkAt s l).carries = true ∨ (linkAt s l).state = .auth)) ∧
    (∃ (s : State) (l : Nat) (f : Frame), f.ftype ≠ 4 ∧ counterSpent
      { linkAt s l with lctrTx := (linkAt s l).lctrTx + 1 } = true ∧ s.sw.flows = [] ∧ s.sw.fwd = []) ∧
    (∃ (s : State) (l : _), (linkAt s l).oldRx = true ∧ 0 < (linkAt s l).lctrRx) ∧
    (∃ (s : State) (c ls : _), RunsOp s c (.keyLink ls) ∧ ls ≠ 0 ∧ (bitsOf ls 16).any (fun l => !bit
      (linksConnected s) l) = false ∧ (bitsOf ls 16).any (fun l => !(linkAt s l).carries) = false) ∧
    (∃ (s : State) (c ls : _), RunsOp s c (.keyLink ls) ∧ (ls = 0 ∨ (bitsOf ls 16).any (fun l => !bit
      (linksConnected s) l) = true)) ∧
    (∃ (s : State) (c ls : _), RunsOp s c (.keyLink ls) ∧ ls ≠ 0 ∧ (bitsOf ls 16).any (fun l => !bit
      (linksConnected s) l) = false ∧ (bitsOf ls 16).any (fun l => !(linkAt s l).carries) = true) :=
  ⟨⟨world, 0, by decide +kernel⟩,
   ⟨State.reset, .inl rfl⟩,
   ⟨world, 0, by decide +kernel⟩,
   ⟨unwired, 0, by decide +kernel⟩,
   ⟨linked (fun _ => { Link.down with locked := true }), 0, by decide +kernel⟩,
   ⟨withLink world, 0, by decide +kernel⟩,
   ⟨withLink world, 0, by decide +kernel⟩,
   ⟨linked (fun x => { x with holdDown := true }), 0, by decide +kernel⟩,
   ⟨linked (fun x => { x with state := .training }), 0, by decide +kernel⟩,
   ⟨linked (fun x => { x with state := .rekey, initiated := true }), 0, by decide +kernel⟩,
   ⟨withLink world, 0, by decide +kernel⟩,
   ⟨linked (fun x => { x with lctrTx := 2 ^ 48 + 2 ^ 40 }), 0, frame 6 0 0 [], by decide +kernel⟩,
   ⟨linked (fun x => { x with oldRx := true, lctrRx := 1 }), 0, by decide +kernel⟩,
   ⟨withLink (runs [ins 0x86 [(1, 26)]]), 0, 1, by unfold RunsOp; decide +kernel⟩,
   ⟨runs [ins 0x86 [(2, 26)]], 0, 2, by unfold RunsOp; decide +kernel⟩,
   ⟨runs [ins 0x86 [(1, 26)]], 0, 1, by unfold RunsOp; decide +kernel⟩⟩

theorem witness_FlowTimersAct :
    (∃ (s : State) (p fl : _), flowAt s p = some fl ∧ fl.opened = false ∧ fl.entry = true) ∧
    (∃ (s : State) (p fl : _), flowAt s p = some fl ∧ fl.opened = false ∧ fl.entry = false) ∧
    (∃ (s : State) (p : _) (fl : Flow), flowAt s p = some fl ∧ 0 < fl.sinceAck) ∧
    (∃ (s : State) (p seq : _) (fl : Flow) (e : SentFrame), flowAt s p = some fl ∧ fl.retx.find? (fun e => e.seq
      == seq) = some e) ∧
    (∃ (s : State) (p fl f : _), flowAt s p = some fl ∧ fl.spray = false ∧ f ∈ toSend s p fl ∧ (∀ l ∈ primarySet
      s p, nth (linkAt s l).credit f.level 0 + (linkAt s l).shared < 16)) ∧
    (∃ (s : State) (p fl l : _), flowAt s p = some fl ∧ fl.spray = true ∧ l ∈ primarySet s p ∧ 64 ≤ (linkAt s
      l).credit.foldl (· + ·) (linkAt s l).shared) ∧
    (∃ (s : State) (p : _), flowIdle s p = true) ∧
    (∃ (s : State) (p : _) (fl : Flow), flowAt s p = some fl ∧ reachable s p = false) ∧
    (∃ (s : State) (p : _) (fl : Flow), flowAt s p = some fl ∧ reachable s p = false ∧ s.sw.txns = []) ∧
    (∃ (s : State) (k : Nat) (r : FwdFrame), s.sw.fwd[k]? = some r ∧ r.link ≠ Config.ownLink) :=
  ⟨⟨withFlow (fun x => { x with opened := false, entry := true }) world, 9, _, rfl, rfl, rfl⟩,
   ⟨withFlow (fun x => { x with opened := false, entry := false }) world, 9, _, rfl, rfl, rfl⟩,
   ⟨withFlow (fun x => { x with sinceAck := 1 }) world, 9, _, rfl, by decide +kernel⟩,
   ⟨withFlow (fun x => { x with retx := [{ seq := 4, frame := frame 6 0 0 [], link := none }] }) world, 9, 4,
    _, _, rfl, rfl⟩,
   ⟨withFlow (fun x => { x with held := [frame 6 0 0 []] }) (linked (fun x =>
    { x with credit := [0, 0, 0, 0], shared := 0 })), 9, _, frame 6 0 0 [], rfl, rfl, by decide +kernel⟩,
   ⟨withFlow (fun x => { x with spray := true }) (withLink world), 9, _, 0, rfl, rfl, by decide +kernel,
    by decide +kernel⟩,
   ⟨withFlow id world, 9, by decide +kernel⟩,
   ⟨withFlow id world, 9, _, rfl, by decide +kernel⟩,
   ⟨withFlow id world, 9, _, rfl, by decide +kernel, rfl⟩,
   ⟨world.onSw (fun w => { w with fwd := [{ link := 0, out := 1, frame := frame 6 0 0 [] }] }), 0, _, rfl, by
    decide⟩⟩

theorem witness_ClocksAndGatesMove :
    (∃ (s : State), s.clk.cold = false ∧ s.clk.osc = false) ∧
    (∃ (s : State), s.clk.cold = false ∧ s.clk.osc = true) ∧
    (∃ (s : State), s.clk.cold = false ∧ s.kp.mbox.clkFail = false ∧ s.clk.control.req = false) ∧
    (∃ (s : State), s.clk.cold = false ∧ s.kp.mbox.clkFail = false ∧ s.clk.stream.req = false ∧
      s.clk.control.req = true) ∧
    (∃ (s : State), s.clk.cold = false ∧ s.kp.mbox.clkFail = false ∧ s.clk.stream.req = false ∧
      s.clk.control.req = false) ∧
    (∃ (s : State), s.kp.mbox.clkFail = false ∧ s.clk.control.req = true ∧ s.clk.control.ready = false ∧
      s.clk.stream.ready = false) ∧
    (∃ (s : State), s.kp.mbox.clkFail = false ∧ s.clk.stream.req = true ∧ s.clk.stream.ready = false ∧
      s.clk.portsDue = false ∧ fld s.kp.settings.integ 16 8 ≠ 0) ∧
    (∃ (s : State), s.clk.portsDue = true ∧ portsReady s = true ∧ (s.clk.control.ready = false ∨ s.sw.links =
      [])) ∧
    (∃ (s : State), (s.clk.portsDue = false ∨ portsReady s = false)) ∧
    (∃ (s : State) (d : _), lockDue s d = true ∧ (clockOf s d).second = false) ∧
    (∃ (s : State) (d : _), lockDue s d = true ∧ (clockOf s d).second = true) ∧
    (∃ (s : State), s.kp.mbox.clkFail = false ∧ streamIdle s = true) ∧
    (∃ (s : State), s.kp.mbox.clkFail = false ∧ controlIdle s = true) ∧
    (∃ (s : State), s.kp.mbox.clkFail = true) ∧
    (∃ (s : State) (m : _), gateable s (.mover m) = true) ∧
    (∃ (s : State) (p : _), gateable s (.propolis p) = true) ∧
    (∃ (s : State) (l : _), gateable s (.link l) = true) ∧
    (∃ (s : State) (u : GUnit), isGated s u = true) :=
  ⟨⟨world, by decide +kernel⟩,
   ⟨world.onClk (fun c => { c with osc := true }), by decide +kernel⟩,
   ⟨clocked { req := false, second := false, ready := false } world, by decide +kernel⟩,
   ⟨clocked { req := false, second := false, ready := false } world |>.onClk (fun c => { c with control :=
    { req := true, second := false, ready := true } }), by decide +kernel⟩,
   ⟨clocked { req := false, second := false, ready := false } world, by decide +kernel⟩,
   ⟨clocked { req := true, second := false, ready := false } world, by decide +kernel⟩,
   ⟨clocked { req := true, second := false, ready := false } world, by decide +kernel⟩,
   ⟨dueports, by decide +kernel⟩,
   ⟨world, .inl rfl⟩,
   ⟨starting false, .stream, by decide +kernel⟩,
   ⟨starting true, .stream, by decide +kernel⟩,
   ⟨clocked { req := true, second := false, ready := true } world, by decide +kernel⟩,
   ⟨clocked { req := false, second := false, ready := false } world |>.onClk (fun c => { c with control :=
    { req := true, second := false, ready := true } }), by decide +kernel⟩,
   ⟨setMbox world (fun m => { m with clkFail := true }), rfl⟩,
   ⟨world, 63, by decide +kernel⟩,
   ⟨world, 63, by decide +kernel⟩,
   ⟨world, 15, by decide +kernel⟩,
   ⟨setMover world 3 (fun x => { x with gated := true }), .mover 3, by decide +kernel⟩⟩

theorem witness_ResetsAndBootRun :
    (∃ (s : State) (j : _), s.kp.warm = some j ∧ s.kp.mbox.clkFail = false ∧ j.stepsDone = false ∧ j.clearing =
      false ∧ warmReady s = false) ∧
    (∃ (s : State) (j : _), s.kp.warm = some j ∧ s.kp.mbox.clkFail = false ∧ j.stepsDone = false ∧ j.clearing =
      false ∧ vaultHolds s = false ∧ s.vault.lc ≠ .locked ∧ s.vault.lc ≠ .endOfLife ∧ s.clk.control.ready = true
      ∧ s.clk.stream.ready = true ∧ clustersAttached s = 0) ∧
    (∃ (s : State) (j n : _), s.kp.warm = some j ∧ s.kp.mbox.clkFail = false ∧ j.stepsDone = false ∧ j.clearing
      = false ∧ s.vault.lc ≠ .locked ∧ s.vault.lc ≠ .endOfLife ∧ s.clk.control.ready = true ∧ s.clk.stream.ready
      = true ∧ n < clustersAttached s) ∧
    (∃ (s : State) (j : _), s.kp.warm = some j ∧ s.kp.mbox.clkFail = false ∧ j.stepsDone = false ∧ j.clearing =
      true ∧ clustersCleared s = true) ∧
    (∃ (s : State) (j : _), s.kp.warm = some j ∧ s.kp.mbox.clkFail = false ∧ j.stepsDone = false ∧ j.clearing =
      true ∧ clustersCleared s = false) ∧
    (∃ (s : State) (j : WarmJob), s.kp.warm = some j ∧ s.kp.mbox.clkFail = false ∧ j.stepsDone = false ∧
      j.clearing = false ∧ (s.vault.lc = .locked ∨ s.vault.lc = .endOfLife)) ∧
    (∃ (s : State) (j : _), s.kp.warm = some j ∧ s.kp.mbox.clkFail = false ∧ j.stepsDone = true ∧ vaultHolds s =
      false) ∧
    (∃ (s : State) (j : _), s.kp.warm = some j ∧ s.kp.mbox.clkFail = false ∧ j.stepsDone = true ∧ vaultHolds s =
      true) ∧
    (∃ (s : State), s.vault.blow = none) ∧
    (∃ (s : State), s.clk.cold = false ∧ s.br.flashLog.length < Config.flashLogRecords ∧ s.br.log.length <
      Config.logRecords) ∧
    (∃ (s : State), (s.clk.cold = false ∨ s.vault.blow.isSome = true)) ∧
    (∃ (s : State), s.clk.cold = true ∧ s.vault.blow = none ∧ s.kp.sensed = false) ∧
    (∃ (s : State), missingCopies s = []) ∧
    (∃ (s : State), missingCopies s ≠ []) ∧
    (∃ (s : State), s.clk.cold = true ∧ s.vault.blow = none ∧ s.kp.sensed = true ∧ s.kp.mbox.bootStage = 0) ∧
    (∃ (s : State) (fwA fwB : _), s.clk.cold = true ∧ s.vault.blow = none ∧ s.kp.sensed = true ∧
      s.kp.mbox.bootStage = 1 ∧ engineSays s 1 0 fwA = true ∧ engineSays s 1 1 fwB = true ∧
      let okA := copyValid s 1 0 fwA;
      let okB := copyValid s 1 1 fwB;
      (asksEngine s 1 0 = false ∧ asksEngine s 1 1 = false ∨ s.clk.control.ready = true) ∧ preferred s 1 okA okB
      = none) ∧
    (∃ (s : State) (setA setB : _), s.clk.cold = true ∧ s.vault.blow = none ∧ s.kp.sensed = true ∧
      s.kp.mbox.bootStage = 2 ∧ engineSays s 2 0 setA = true ∧ engineSays s 2 1 setB = true ∧
      let okA := copyValid s 2 0 setA;
      let okB := copyValid s 2 1 setB;
      (asksEngine s 2 0 = false ∧ asksEngine s 2 1 = false ∨ s.clk.control.ready = true) ∧ preferred s 2 okA okB
      = none) :=
  ⟨⟨clocked { req := true, second := false, ready := false } (warming false world), _, rfl, by decide +kernel⟩,
   ⟨bare (warming false world), _, rfl, by decide +kernel⟩,
   ⟨withCluster none (warming false world), _, 0, rfl, by decide +kernel⟩,
   ⟨clearing world, _, rfl, by decide +kernel⟩,
   ⟨setCluster (clearing world) 0 (fun x => { x with state := .clearing }), _, rfl, by decide +kernel⟩,
   ⟨lcState .locked (warming false world), _, rfl, by decide +kernel⟩,
   ⟨warming true world, _, rfl, rfl, rfl, by decide +kernel⟩,
   ⟨warming true (blowing .enrol [.lc 0 1] 0 true), _, rfl, rfl, rfl, by decide +kernel⟩,
   ⟨world, rfl⟩,
   ⟨world, by decide +kernel⟩,
   ⟨world, .inl rfl⟩,
   ⟨State.reset, by decide +kernel⟩,
   ⟨State.reset, by decide +kernel⟩,
   ⟨State.reset.onVault (fun v => { v with fuses := { v.fuses with lc := [Config.lcEndOfLife, Config.lcEndOfLife, 0] } }),
    by decide +kernel⟩,
   ⟨bootAt 0 true, rfl, rfl, rfl, rfl⟩,
   ⟨State.reset.onKp (fun k => { k with sensed := true, mbox := { k.mbox with bootStage := 1 } }), false, false, rfl, rfl, rfl, rfl,
    by decide +kernel, by decide +kernel, .inl (by decide +kernel), by decide +kernel⟩,
   ⟨State.reset.onKp (fun k => { k with sensed := true, mbox := { k.mbox with bootStage := 2 } }), false, false, rfl, rfl, rfl, rfl,
    by decide +kernel, by decide +kernel, .inl (by decide +kernel), by decide +kernel⟩⟩

theorem witness_WaggleFramesAct :
    (∃ (s : State) (wire : _), s.clk.wgHold = true ∧ s.clk.cold = false ∧ readWaggle wire = none) ∧
    (∃ (s : State) (wire f : _), s.clk.wgHold = true ∧ s.clk.cold = false ∧ readWaggle wire = some f ∧ (f.whops
      = 0 ∨ 6 ≤ f.wtype)) ∧
    (∃ (s : State) (wire f : _), s.clk.wgHold = true ∧ s.clk.cold = false ∧ readWaggle wire = some f ∧ f.whops ≠
      0 ∧ f.wtype < 6 ∧ ownWaggle s f = true ∧ (s.kp.waggle.outWait = false ∨ f.wtype ≠ 3)) ∧
    (∃ (s : State) (wire f : _), s.clk.wgHold = true ∧ s.clk.cold = false ∧ readWaggle wire = some f ∧ f.whops ≠
      0 ∧ f.wtype < 6 ∧ ownWaggle s f = true ∧ s.kp.waggle.outWait = true ∧ f.wtype = 3) ∧
    (∃ (s : State) (wire f : _), s.clk.wgHold = true ∧ s.clk.cold = false ∧ readWaggle wire = some f ∧ f.whops ≠
      0 ∧ f.wtype < 6 ∧ ownWaggle s f = false ∧ s.kp.waggle.outDeclared = false ∧ s.kp.waggle.fwd.length < 4) ∧
    (∃ (s : State) (wire f : _), s.clk.wgHold = true ∧ s.clk.cold = false ∧ readWaggle wire = some f ∧ f.whops ≠
      0 ∧ f.wtype < 6 ∧ ownWaggle s f = false ∧ s.kp.waggle.outDeclared = false ∧ 4 ≤ s.kp.waggle.fwd.length) ∧
    (∃ (f : WFrame), f.dst < 2 ^ 16 ∧ f.src < 2 ^ 16 ∧ f.wtype < 2 ^ 4 ∧ f.whops < 2 ^ 8 ∧ f.wseq < 2 ^ 8 ∧
      f.payload.length ≤ 64) ∧
    (∃ (wire f : _), readWaggle wire = some f) ∧
    (∃ (s : State) (f r : _), s.kp.waggle.rx = f :: r ∧ f.wtype = 0) ∧
    (∃ (s : State) (f r : _), s.kp.waggle.rx = f :: r ∧ f.wtype = 1 ∧ s.kp.waggle.wakeAt = none ∧
      s.kp.mbox.clkFail = false ∧ s.clk.control.req = false) ∧
    (∃ (s : State) (f r : _), s.kp.waggle.rx = f :: r ∧ f.wtype = 1 ∧ ∃ (a : _), s.kp.waggle.wakeAt = some a ∧
      s.clk.coldTicks < a + 25000) ∧
    (∃ (s : State) (f r : _), s.kp.waggle.rx = f :: r ∧ f.wtype = 2 ∧ f.payload.length = 8 ∧ leNat
      ((f.payload.drop 2).take 2) = 0 ∧ 1 ≤ leNat ((f.payload.drop 4).take 4) ∧ leNat ((f.payload.drop 4).take
      4) ≤ 60000) ∧
    (∃ (s : State) (f r : _), s.kp.waggle.rx = f :: r ∧ f.wtype = 3) ∧
    (∃ (s : State) (f r : _), s.kp.waggle.rx = f :: r ∧ f.wtype = 4 ∧ s.kp.settings.chipIdValid = true ∧ f.wnoid
      = false ∧ s.kp.waggle.fwd = []) ∧
    (∃ (s : State) (f r : _), s.kp.waggle.rx = f :: r ∧ f.wtype = 4 ∧ (s.kp.settings.chipIdValid = false ∨
      f.wnoid = true)) ∧
    (∃ (s : State) (f r : _), s.kp.waggle.rx = f :: r ∧ f.wtype = 5) ∧
    (∃ (s : State), s.clk.wgHold = true ∧ s.clk.cold = false ∧ s.kp.waggle.outDeclared = false ∧ s.kp.waggle.fwd
      = []) ∧
    (∃ (s : State) (k : _), k < s.kp.waggle.census.length) ∧
    (∃ (s : State) (c : _), s.kp.waggle.cap = some c) ∧
    (∃ (s : State), s.kp.waggle.outWait = true) :=
  ⟨⟨world, [], by decide +kernel⟩,
   ⟨world, wireWaggle { wfr 0 0 with whops := 0 }, _, rfl, rfl, heard_of _ (by decide +kernel), by decide⟩,
   ⟨world, wireWaggle { wfr 0 0 with src := 3 }, _, rfl, rfl, heard_of _ (by decide +kernel), by decide +kernel⟩,
   ⟨onWaggle world (fun w => { w with outWait := true }), wireWaggle { wfr 3 0 with src := 3 }, _, rfl, rfl,
    heard_of _ (by decide +kernel), by decide +kernel⟩,
   ⟨world, wireWaggle { wfr 0 0 with dst := 4 }, _, rfl, rfl, heard_of _ (by decide +kernel), by decide +kernel⟩,
   ⟨onWaggle world (fun w => { w with fwd := List.replicate 4 (wfr 0 0) }), wireWaggle { wfr 0 0 with dst := 4 }, _, rfl, rfl,
    heard_of _ (by decide +kernel), by decide +kernel⟩,
   ⟨wfr 0 0, by decide⟩,
   ⟨wireWaggle (wfr 0 0), _, heard_of _ (by decide +kernel)⟩,
   ⟨withWaggle (wfr 0 0), _, _, rfl, rfl⟩,
   ⟨withWaggle (wfr 1 0) |>.onClk (fun k => { k with control := { k.control with req := false } }), _, _, rfl, by decide +kernel⟩,
   ⟨onWaggle (withWaggle (wfr 1 0)) (fun w => { w with wakeAt := some 0 }), _, _, rfl, rfl, 0, rfl, by decide +kernel⟩,
   ⟨withWaggle { wfr 2 0 with payload := [9, 0, 0, 0, 1, 0, 0, 0] }, _, _, rfl, rfl, rfl, by decide, by decide,
    by decide⟩,
   ⟨withWaggle (wfr 3 1), _, _, rfl, rfl⟩,
   ⟨withWaggle (wfr 4 1), _, _, rfl, rfl, rfl, rfl, rfl⟩,
   ⟨withWaggle { wfr 4 1 with wnoid := true }, _, _, rfl, rfl, .inr rfl⟩,
   ⟨withWaggle (wfr 5 1), _, _, rfl, rfl⟩,
   ⟨world, by decide +kernel⟩,
   ⟨onWaggle world (fun w => { w with census :=
    [{ byserial := false, key := 9, out := false, presence := [], echo := [] }] }), 0, by decide +kernel⟩,
   ⟨onWaggle world (fun w => { w with cap := some (9, 5) }), _, rfl⟩,
   ⟨onWaggle world (fun w => { w with outWait := true }), rfl⟩⟩

theorem witness_DebugAccessesAreChecked :
    (∃ (s : State) (space h a : _), s.clk.cold = false ∧ a < 2 ^ 41 ∧ space < 2 ∧ debugOpen s space h = false) ∧
    (∃ (s : State) (op space h a : _), s.clk.cold = false ∧ a < 2 ^ 41 ∧ (2 ≤ space ∨ debugOpen s space h = true) ∧ (2
      ≤ op ∨ 2 ≤ space ∨ (space = 1 ∧ a % 8 ≠ 0))) ∧
    (∃ (s : State) (op space h a d : _), s.clk.cold = false ∧ a < 2 ^ 41 ∧
      let line := lineOf a;
      let u :=
      { s with tap := { s.tap with ir := 0x10, dwData := d, dwOp := op, dwSpace := space, dwHive := h, dwAddr := a } };
      ∃ (k v bs : _), op = 0 ∧ space = 1 ∧ a % 8 = 0 ∧ debugOpen s 1 h = true ∧ combFor s h a = some k ∧ k.permits .rd
      = true ∧ s.clk.stream.ready = true ∧ mustWait s k.keySel line none = false ∧ homeRead u h k.keySel line 3 = (v,
      .ok, bs)) ∧
    (∃ (s : State) (op space h a : _), s.clk.cold = false ∧ a < 2 ^ 41 ∧ ∃ (k : _), op = 0 ∧ space = 1 ∧ a % 8 = 0 ∧
      debugOpen s 1 h = true ∧ combFor s h a = some k ∧ k.permits .rd = true ∧ s.clk.stream.ready = false) ∧
    (∃ (s : State) (op space h a : _), s.clk.cold = false ∧ a < 2 ^ 41 ∧
      let line := lineOf a;
      ∃ (k : _), op = 0 ∧ space = 1 ∧ a % 8 = 0 ∧ debugOpen s 1 h = true ∧ combFor s h a = some k ∧ k.permits .rd =
      true ∧ s.clk.stream.ready = true ∧ mustWait s k.keySel line none = true) ∧
    (∃ (s : State) (op space h a d : _), s.clk.cold = false ∧ a < 2 ^ 41 ∧
      let line := lineOf a;
      let w : WriteKind := .partialWrite ((leBytes 8 d.toNat).zipIdx.map (fun e => (a % 128 + e.2, e.1)));
      let u :=
      { s with tap := { s.tap with ir := 0x10, dwData := d, dwOp := op, dwSpace := space, dwHive := h, dwAddr := a } };
      ∃ (k v st n : _), op = 1 ∧ space = 1 ∧ a % 8 = 0 ∧ debugOpen s 1 h = true ∧ combFor s h a = some k ∧ k.permits
      .wr = true ∧ s.clk.stream.ready = true ∧ mustWait s k.keySel line (some w) = false ∧ homeWrite u h k.keySel line
      w 3 = (v, st, n)) ∧
    (∃ (s : State) (op space h a : _), s.clk.cold = false ∧ a < 2 ^ 41 ∧ op = 0 ∧ space = 0 ∧ debugOpen s 0 h = true) ∧
    (∃ (s : State) (op space h a : _), s.clk.cold = false ∧ a < 2 ^ 41 ∧ op = 1 ∧ space = 0 ∧ debugOpen s 0 h = true) ∧
    (∃ (s : State) (off : _), s.clk.cold = false ∧ (off % 8 ≠ 0 ∨ 0x10000 ≤ off)) ∧
    (∃ (s : State) (off : _), s.clk.cold = false ∧ off % 8 = 0 ∧ off < 0x10000) ∧
    (∃ (s : State) (x : TapScan), s.clk.cold = false ∧ x.ir = 0x11 ∧ debugOpen s 2 x.hive = false) ∧
    (∃ (s : State) (x : TapScan), s.clk.cold = false ∧ x.ir = 0x11 ∧ debugOpen s 2 x.hive = true) ∧
    (∃ (s : State) (x : TapScan), s.clk.cold = false ∧ x.ir = 0x01) ∧
    (∃ (s : State) (x : TapScan), s.clk.cold = false ∧ x.ir ≠ 0x01 ∧ x.ir ≠ 0x11 ∧ (x.ir < 0x80 ∨ 0xC0 ≤ x.ir ∨
      vendorOpen s = false)) :=
  ⟨⟨world, 1, 0, 0, by decide +kernel⟩,
   ⟨lcState .test world, 2, 0, 0, 0, by decide +kernel⟩,
   ⟨lcState .test world, 0, 1, 0, 0, 0, rfl, by decide, comb 0 4 1, _, _, rfl, rfl, rfl, by decide +kernel, by decide +kernel, rfl,
    by decide +kernel, by decide +kernel, Prod.ext rfl (Prod.ext (by decide +kernel) rfl)⟩,
   ⟨lcState .test (clocked { req := true, second := false, ready := false } world), 0, 1, 0, 0, rfl, by decide, comb 0 4 1, rfl, rfl, rfl,
    by decide +kernel, by decide +kernel, rfl, by decide +kernel⟩,
   ⟨lcState .test (slice4096 .opening world), 0, 1, 0, 4096, rfl, by decide, comb 0 4 1, rfl, rfl, rfl,
    by decide +kernel, by decide +kernel, rfl, by decide +kernel, by decide +kernel⟩,
   ⟨lcState .test (runs []), 1, 1, 0, 0, 0, rfl, by decide, comb 0 4 1, _, _, _, rfl, rfl, rfl, by decide +kernel, by decide +kernel, rfl,
    by decide +kernel, by decide +kernel, rfl⟩,
   ⟨lcState .test world, 0, 0, 0, 0, by decide +kernel⟩,
   ⟨lcState .test world, 1, 0, 0, 0, by decide +kernel⟩,
   ⟨world, 4, by decide +kernel⟩,
   ⟨world, 8, by decide +kernel⟩,
   ⟨world, ⟨0x11, 0⟩, by decide +kernel⟩,
   ⟨lcState .test world, ⟨0x11, 0⟩, by decide +kernel⟩,
   ⟨world, ⟨0x01, 0⟩, by decide +kernel⟩,
   ⟨world, ⟨0x02, 0⟩, by decide +kernel⟩⟩

theorem witness_LinesAreSpreadOverThePorts :
    (∃ (s : State), fld s.kp.settings.integ 24 8 ≠ 0) ∧
    (∃ (k : _), k ∈ [3, 4, 5, 6]) ∧
    (∃ (s : State), 1 ≤ fld s.kp.settings.integ 24 8 ∧ fld s.kp.settings.integ 24 8 ≤ 8 ∧ 30 ≤ fld
      s.kp.settings.integ 8 8 ∧ memBytes s ≤ 2 ^ 40 ∧ bandBytes s ≤ stackBytes s ∧ ∃ (a : _), a < stripedEnd s) ∧
    (∃ (s : State), 1 ≤ fld s.kp.settings.integ 24 8 ∧ fld s.kp.settings.integ 24 8 ≤ 8 ∧ 30 ≤ fld
      s.kp.settings.integ 8 8 ∧ memBytes s ≤ 2 ^ 40 ∧ bandBytes s ≤ stackBytes s ∧ ∃ (n x : _), n < stackCount s
      ∧ x < bandBytes s) ∧
    (∃ (s : State), 1 ≤ fld s.kp.settings.integ 24 8 ∧ fld s.kp.settings.integ 24 8 ≤ 8 ∧ 30 ≤ fld
      s.kp.settings.integ 8 8 ∧ memBytes s ≤ 2 ^ 40 ∧ bandBytes s ≤ stackBytes s ∧ ∃ (a : _), a < memBytes s) ∧
    (∃ (s : State), 1 ≤ fld s.kp.settings.integ 24 8 ∧ fld s.kp.settings.integ 24 8 ≤ 8 ∧ 30 ≤ fld
      s.kp.settings.integ 8 8 ∧ memBytes s ≤ 2 ^ 40 ∧ bandBytes s ≤ stackBytes s ∧ ∃ (a b : _), a < memBytes s ∧
      b < memBytes s ∧ homePort s a = homePort s b ∧ portOffset s a = portOffset s b) ∧
    (∃ (s : State), 1 ≤ fld s.kp.settings.integ 24 8 ∧ fld s.kp.settings.integ 24 8 ≤ 8 ∧ 30 ≤ fld
      s.kp.settings.integ 8 8 ∧ memBytes s ≤ 2 ^ 40 ∧ bandBytes s ≤ stackBytes s ∧ ∃ (p o : _), p < 8 *
      stackCount s ∧ o < stackBytes s / 8) :=
  ⟨⟨world, by decide +kernel⟩,
   ⟨3, by decide +kernel⟩,
   ⟨banded, by decide +kernel, by decide +kernel, by decide +kernel, by decide +kernel, by decide +kernel, 0, by decide +kernel⟩,
   ⟨banded, by decide +kernel, by decide +kernel, by decide +kernel, by decide +kernel, by decide +kernel, 0, 0, by decide +kernel⟩,
   ⟨world, by decide +kernel, by decide +kernel, by decide +kernel, by decide +kernel, by decide +kernel, 0, by decide +kernel⟩,
   ⟨world, by decide +kernel, by decide +kernel, by decide +kernel, by decide +kernel, by decide +kernel, 0, 0, by decide +kernel⟩,
   ⟨world, by decide +kernel, by decide +kernel, by decide +kernel, by decide +kernel, by decide +kernel, 0, 0, by decide +kernel⟩⟩

theorem witness_RemoteRequestsAreAdmitted :
    (∃ (s : State) (f : Frame) (need : Need) (a h : Nat) (k : Comb), destination s f need a = some (h, k)) ∧
    (∃ (s : State) (f : Frame) (need a e k : _), e ∈ s.he.hives ∧ combFor s e.1 a = some k ∧ (((hiveAt s
      e.1).state ∈ [HiveState.active, .resizing, .migrating] ∧ (hiveAt s e.1).colony ≠ 0 ∧ (hiveAt s e.1).colony
      = f.colony ∧ (hiveAt s e.1).peerLo ≤ f.src ∧ f.src ≤ (hiveAt s e.1).peerHi ∧ k.colonyPermits need = true)
      ∨ (f.colony = Config.managerColony ∧ f.srcHive = 0 ∧ need = .wr ∧ (hiveAt s e.1).state = .frozen ∧ (hiveAt
      s e.1).incoming = true))) :=
  ⟨⟨world, frame 6 0 0 [], .wr, 0, 0, comb 0 4 1, rfl⟩,
   ⟨world, frame 6 0 0 [], .wr, 0, (0, anyHive), comb 0 4 1, by decide +kernel, rfl, .inl ⟨by decide +kernel,
    by decide +kernel, rfl, by decide +kernel, by decide +kernel, rfl⟩⟩⟩

/-! The verdicts of the vault's engines are values outside the model (log 8): that one accepts is a hypothesis here. -/

theorem says_of (s : State) (t : List Byte) (h : verdict (verifyToken s t) = true) : tokenSays s t true = true := by
  simp [tokenSays, h]
def proven : State := (lcState .blank (mbx 3 [])).onVault (fun v => { v with provKey := some [] })
/-- The clauses of `LifecycleCommands` over a package that has an inner key. -/
theorem witness_LifecycleCommands_sealed :
    (provSays proven true true true = true → (∃ (s : State) (k : _), MailboxRuns s 0x3 ∧ EngineRuns s ∧
      provSays s true true true = true ∧ s.vault.lc = .blank ∧ s.vault.fuses.drk = 0 ∧ s.vault.provKey = some k)) ∧
    (Config.p384Point (arg proven 0 96) = false → (∃ (s : State) (k a b e : _), MailboxRuns s 0x3 ∧ EngineRuns s ∧
      provSays s a b e = true ∧ s.vault.provKey = some k ∧ (a = false ∨ b = false ∨ e = false))) :=
  ⟨fun h => ⟨proven, _, by unfold MailboxRuns; decide +kernel, ⟨rfl, rfl⟩, h, rfl, rfl, rfl⟩,
   fun h => ⟨proven, _, verdict (provVerify proven), Config.gcmVerifies (sealKey proven) (List.replicate 12 0)
      (arg proven 192 64), false, by unfold MailboxRuns; decide +kernel, ⟨rfl, rfl⟩, by
      simp only [provSays, h, beq_self_eq_true, Bool.and_true, Bool.or_true], rfl, .inr (.inr rfl)⟩⟩

def enrolling : State := rooted (mbx 5 (1 :: List.replicate 12 0 ++ token 0x10))
def revoking : State := rooted (mbx 6 (1 :: token 0x20))
def unlocking : State := rooted (mbx 8 (token 1))
/-- The clauses of `OwnerAndDebugCommands` over a signed token. -/
theorem witness_OwnerAndDebugCommands_signed :
    (verdict (verifyToken enrolling (arg enrolling 104 224)) = true → (∃ (s : State), MailboxRuns s 0x5 ∧ EngineRuns s ∧
      s.vault.lc = .production ∧ argNat s 1 7 = 0 ∧ argNat s 0 1 < 4 ∧ tokenSays s (arg s 104 224) true = true ∧
      tokenForm (arg s 104 224) = true ∧ tokenRights s (arg s 104 224) true = true ∧ tokenScope (arg s 104 224) = true ∧
      bit (tkPerms (arg s 104 224)) 4 = true ∧ s.vault.challenge.isSome = true ∧
      bit (majority s.vault.fuses.enrolled) (argNat s 0 1) = false ∧ nth s.vault.fuses.owner (argNat s 0 1) 0 = 0)) ∧
    (verdict (verifyToken revoking (arg revoking 8 224)) = true → (∃ (s : State), MailboxRuns s 0x6 ∧ EngineRuns s ∧
      s.vault.lc = .production ∧ argNat s 1 7 = 0 ∧ argNat s 0 1 < 4 ∧ tokenSays s (arg s 8 224) true = true ∧
      tokenForm (arg s 8 224) = true ∧ tokenRights s (arg s 8 224) true = true ∧ tkNat (arg s 8 224) 3 1 ≠ argNat s 0 1 ∧
      tokenScope (arg s 8 224) = true ∧ bit (tkPerms (arg s 8 224)) 5 = true ∧ s.vault.challenge.isSome = true ∧
      lastRoot s (argNat s 0 1) = false)) ∧
    (verdict (verifyToken unlocking (arg unlocking 0 224)) = true → (∃ (s : State) (slot : _), MailboxRuns s 0x8 ∧
      EngineRuns s ∧ s.vault.lc = .production ∧ tokenSays s (arg s 0 224) true = true ∧ tokenForm (arg s 0 224) = true ∧
      tokenRights s (arg s 0 224) true = true ∧ tokenScope (arg s 0 224) = true ∧ rz (tkPerms (arg s 0 224)) 0 4 = false ∧
      s.vault.challenge.isSome = true ∧ freeSlot s = some slot)) :=
  ⟨fun h => ⟨enrolling, by unfold MailboxRuns; decide +kernel, ⟨rfl, rfl⟩, rfl, by decide +kernel, by decide +kernel,
      says_of _ _ h, by decide +kernel, rights_ok _ _ rfl (by decide +kernel) (by decide +kernel)
        (key_eq _ _ _ (by decide +kernel) rfl), by decide +kernel⟩,
   fun h => ⟨revoking, by unfold MailboxRuns; decide +kernel, ⟨rfl, rfl⟩, rfl, by decide +kernel, by decide +kernel,
      says_of _ _ h, by decide +kernel, rights_ok _ _ rfl (by decide +kernel) (by decide +kernel)
        (key_eq _ _ _ (by decide +kernel) rfl), by decide +kernel⟩,
   fun h => ⟨unlocking, 0, by unfold MailboxRuns; decide +kernel, ⟨rfl, rfl⟩, rfl, says_of _ _ h, by decide +kernel,
      rights_ok _ _ rfl (by decide +kernel) (by decide +kernel) (key_eq _ _ _ (by decide +kernel) rfl), by decide +kernel⟩⟩

def scrapping : State := rooted (mbx 0xC (token 0x40))
/-- The clause of `AttestArbCommitAndScrap` over a signed token. -/
theorem witness_AttestArbCommitAndScrap_signed (h : verdict (verifyToken scrapping (arg scrapping 0 224)) = true) :
    (∃ (s : State) (b r : _), MailboxRuns s 0xC ∧ EngineRuns s ∧ s.vault.lc = .production ∧
      tokenSays s (arg s 0 224) true = true ∧ tokenForm (arg s 0 224) = true ∧ tokenRights s (arg s 0 224) true = true ∧
      tokenScope (arg s 0 224) = true ∧ bit (tkPerms (arg s 0 224)) 6 = true ∧ s.vault.challenge.isSome = true ∧
      addedBits s Config.lcEndOfLife = b :: r) :=
  ⟨scrapping, _, _, by unfold MailboxRuns; decide +kernel, ⟨rfl, rfl⟩, rfl, says_of _ _ h, by decide +kernel,
    rights_ok _ _ rfl (by decide +kernel) (by decide +kernel) (key_eq _ _ _ (by decide +kernel) rfl), by decide +kernel,
    by decide +kernel, rfl, rfl⟩

/-- The clause of `KeeperCommands` over a signed settings image. -/
theorem witness_KeeperCommands_signed (h : imageVerdict (settled (mbx 0x16 [])) 2 0 = true) :
    (∃ (s : State) (a b c : _), MailboxRuns s 0x16 ∧ EngineRuns s ∧ s.kp.warm = none ∧ engineSays s 2 0 a = true ∧
      engineSays s 2 1 b = true ∧ preferred s 2 (copyValid s 2 0 a) (copyValid s 2 1 b) = some c ∧ drbgHeld s = false) :=
  ⟨settled (mbx 0x16 []), true, false, 0, by unfold MailboxRuns; decide +kernel, ⟨rfl, rfl⟩, rfl, by simp [engineSays, h],
    by decide +kernel, image_preferred _ rfl (by decide +kernel) (by decide +kernel) (by decide +kernel)
      (settled_ok _ (by decide +kernel)) rfl, by decide +kernel⟩

/-- The clauses of `ResetsAndBootRun` over images that are asked about: a BLANK package whose keys are its vendor's (their hashes
are constants of the boot ROM that the spec leaves open, so that they match is a hypothesis here). -/
theorem witness_ResetsAndBootRun_signed (h : digest fwKey = Config.vendorKeyHash 1)
    (o : digest (List.replicate 96 0) = Config.vendorKeyHash 2) :
    (∃ (s : State) (fwA fwB : _), s.clk.cold = true ∧ s.vault.blow = none ∧ s.kp.sensed = true ∧ s.kp.mbox.bootStage = 1 ∧
      engineSays s 1 0 fwA = true ∧ engineSays s 1 1 fwB = true ∧ (asksEngine s 1 0 = true ∨ asksEngine s 1 1 = true) ∧
      s.clk.control.ready = false) ∧
    (imageVerdict (bootAt 1 true) 1 0 = true → (∃ (s : State) (fwA fwB : _), s.clk.cold = true ∧ s.vault.blow = none ∧
      s.kp.sensed = true ∧ s.kp.mbox.bootStage = 1 ∧ engineSays s 1 0 fwA = true ∧ engineSays s 1 1 fwB = true ∧
      let okA := copyValid s 1 0 fwA
      let okB := copyValid s 1 1 fwB
      (asksEngine s 1 0 = false ∧ asksEngine s 1 1 = false ∨ s.clk.control.ready = true) ∧
        ∃ (c : _), preferred s 1 okA okB = some c)) ∧
    (∃ (s : State) (setA setB : _), s.clk.cold = true ∧ s.vault.blow = none ∧ s.kp.sensed = true ∧ s.kp.mbox.bootStage = 2 ∧
      engineSays s 2 0 setA = true ∧ engineSays s 2 1 setB = true ∧ (asksEngine s 2 0 = true ∨ asksEngine s 2 1 = true) ∧
      s.clk.control.ready = false) ∧
    (imageVerdict booted 2 0 = true → (∃ (s : State) (setA setB : _), s.clk.cold = true ∧ s.vault.blow = none ∧
      s.kp.sensed = true ∧ s.kp.mbox.bootStage = 2 ∧ engineSays s 2 0 setA = true ∧ engineSays s 2 1 setB = true ∧
      let okA := copyValid s 2 0 setA
      let okB := copyValid s 2 1 setB
      (asksEngine s 2 0 = false ∧ asksEngine s 2 1 = false ∨ s.clk.control.ready = true) ∧
        ∃ (c : _), preferred s 2 okA okB = some c)) :=
  ⟨⟨bootAt 1 false, imageVerdict (bootAt 1 false) 1 0, false, rfl, rfl, rfl, rfl, by simp [engineSays], by decide +kernel,
      .inl (by simp only [asksEngine, fw_signer false h, Bool.and_true]; decide +kernel), rfl⟩,
   fun v => ⟨bootAt 1 true, true, false, rfl, rfl, rfl, rfl, by simp [engineSays, v], by decide +kernel, .inr rfl, 0, fw_preferred h⟩,
   ⟨bootAt 2 false, imageVerdict (bootAt 2 false) 2 0, false, rfl, rfl, rfl, rfl, by simp [engineSays], by decide +kernel,
      .inl (booted_asks false o), rfl⟩,
   fun v => ⟨booted, true, false, rfl, rfl, rfl, rfl, by simp [engineSays, v], by decide +kernel, .inr rfl, 0, booted_valid o⟩⟩

theorem witness_EveryCommandAnswersANextState :
    (∃ (i : Instr) (s : State), (∀ r, i = .propolisRead r → lineOf r.addr < memBytes s) ∧ (∀ r k, i =
      .propolisWrite r k → lineOf r.addr < memBytes s) ∧ (∀ a co er po m, i = .memoryScrub a co er po m → lineOf a < memBytes s)) :=
  ⟨.propolisRead lreq, world, fun r h => (by cases h; decide +kernel), nofun, nofun⟩

end Sys2Proof.Tests
end

section
/-! The placement of local lines over the memory ports (R41, R42). A region of 2^k ports is treated once, as a function
of the offset in the region; the striped region and the bands are its two uses. -/

namespace Sys2Proof.Placement

open Sys2Proof Sys2Proof.Machine

/-! ## The fold -/

theorem fld_eq (w lo n : Nat) : fld w lo n = w / 2 ^ lo % 2 ^ n := by
  rw [fld, Nat.shiftRight_eq_div_pow]

theorem fld_lt (w lo n : Nat) : fld w lo n < 2 ^ n := Nat.mod_lt _ (Nat.two_pow_pos n)

theorem foldl_xor_init (f : Nat → Nat) (l : List Nat) (b : Nat) :
    l.foldl (fun a j => a ^^^ f j) b = b ^^^ l.foldl (fun a j => a ^^^ f j) 0 := by
  induction l generalizing b with
  | nil => simp
  | cons j r ih => rw [List.foldl_cons, ih, List.foldl_cons, ih (0 ^^^ f j), Nat.zero_xor, Nat.xor_assoc]

theorem foldl_xor_lt {f : Nat → Nat} {k : Nat} (hf : ∀ j, f j < 2 ^ k) (l : List Nat) {b : Nat} (hb : b < 2 ^ k) :
    l.foldl (fun a j => a ^^^ f j) b < 2 ^ k := by
  induction l generalizing b with
  | nil => exact hb
  | cons j r ih => exact ih (Nat.xor_lt_two_pow hb (hf j))

/-- The fields of the fold above the first, as a function of the bits above the first. -/
def highFold (y k : Nat) : Nat := (List.range ((28 + k - 1) / k - 1)).foldl (fun a j => a ^^^ fld y (j * k) k) 0

theorem highFold_lt (y k : Nat) : highFold y k < 2 ^ k :=
  foldl_xor_lt (fun j => fld_lt y (j * k) k) _ (Nat.two_pow_pos k)

/-- The fold is its lowest field masked by a value of the higher bits: this makes it invertible. -/
theorem foldPort_eq_xor (x : Nat) {k : Nat} (hk : 0 < k) :
    foldPort x k = fld x 12 k ^^^ highFold (x / 2 ^ (12 + k)) k := by
  obtain ⟨n, hn⟩ : ∃ n, (28 + k - 1) / k = n + 1 :=
    Nat.exists_eq_succ_of_ne_zero (Nat.div_pos (by omega) hk).ne'
  have shift (j : Nat) : fld x (12 + (j + 1) * k) k = fld (x / 2 ^ (12 + k)) (j * k) k := by
    rw [fld_eq, fld_eq, Nat.div_div_eq_div_mul, ← pow_add]
    congr 3
    ring
  simp only [foldPort, highFold, hn, hk.ne', if_false, Nat.add_sub_cancel, List.range_succ_eq_map, List.foldl_cons,
    List.foldl_map, Nat.succ_eq_add_one, shift]
  rw [foldl_xor_init]
  simp

theorem foldPort_lt (x : Nat) {k : Nat} (hk : 0 < k) : foldPort x k < 2 ^ k := by
  rw [foldPort_eq_xor x hk]
  exact Nat.xor_lt_two_pow (fld_lt x 12 k) (highFold_lt _ k)

/-- R42 as the spec's loop writes it: a field at every `k`-th bit from bit 12 up to bit 40. -/
theorem foldPort_eq_loop (x : Nat) {k : Nat} (hk : k ∈ [3, 4, 5, 6]) : foldPort x k =
    (((List.range 28).filter (fun i => i % k == 0)).map (fun i => x / 2 ^ (12 + i) % 2 ^ k)).foldl Nat.xor 0 := by
  have starts : (List.range 28).filter (fun i => i % k == 0) = (List.range ((28 + k - 1) / k)).map (· * k) := by
    revert k
    decide
  have pos : k ≠ 0 := by
    rintro rfl
    exact absurd hk (by decide)
  rw [starts, foldPort, if_neg pos, List.map_map, List.foldl_map]
  simp only [fld_eq, Function.comp]
  rfl

/-! ## A region of 2^k ports -/

/-- R42: the offset at its port of the offset `x` in a region of 2^k ports. -/
def spreadOffset (k x : Nat) : Nat := x / 2 ^ (12 + k) * 4096 + x % 4096

theorem spreadOffset_eq_bits (k x : Nat) : (x >>> (12 + k)) <<< 12 ||| x % 4096 = spreadOffset k x := by
  rw [← Nat.shiftLeft_add_eq_or_of_lt (Nat.mod_lt x (by decide : 0 < 2 ^ 12)), Nat.shiftRight_eq_div_pow,
    Nat.shiftLeft_eq, spreadOffset]

theorem spreadOffset_div (k x : Nat) : spreadOffset k x / 4096 = x / 2 ^ (12 + k) := by
  unfold spreadOffset
  omega

theorem spreadOffset_mod (k x : Nat) : spreadOffset k x % 4096 = x % 4096 := by
  unfold spreadOffset
  omega

/-- An offset in a region is its high bits, its lowest fold field and its place in the 4 KiB block. -/
theorem eq_high_field_low (k x : Nat) : x = (x / 2 ^ (12 + k) * 2 ^ k + fld x 12 k) * 4096 + x % 4096 := by
  have field : x / 2 ^ 12 = x / 2 ^ (12 + k) * 2 ^ k + fld x 12 k := by
    rw [fld_eq, pow_add, ← Nat.div_div_eq_div_mul, Nat.div_add_mod']
  omega

theorem spread_injective {k x y : Nat} (hk : 0 < k) (port : foldPort x k = foldPort y k)
    (offset : spreadOffset k x = spreadOffset k y) : x = y := by
  have high : x / 2 ^ (12 + k) = y / 2 ^ (12 + k) := by rw [← spreadOffset_div, offset, spreadOffset_div]
  have low : x % 4096 = y % 4096 := by rw [← spreadOffset_mod k x, offset, spreadOffset_mod]
  have field : fld x 12 k = fld y 12 k := by
    rw [foldPort_eq_xor x hk, foldPort_eq_xor y hk, high] at port
    exact Nat.xor_left_injective port
  rw [eq_high_field_low k x, eq_high_field_low k y, high, low, field]

/-- The offset in a region of 2^k ports that lies at offset `o` of the region's port `p`. -/
def gather (k p o : Nat) : Nat := (o / 4096 * 2 ^ k + (p ^^^ highFold (o / 4096) k)) * 4096 + o % 4096

theorem gather_block (k p o : Nat) :
    gather k p o / 2 ^ 12 = o / 4096 * 2 ^ k + (p ^^^ highFold (o / 4096) k) := by
  unfold gather
  omega

theorem gather_high {k p : Nat} (hp : p < 2 ^ k) (o : Nat) : gather k p o / 2 ^ (12 + k) = o / 4096 := by
  rw [pow_add, ← Nat.div_div_eq_div_mul, gather_block, Nat.add_comm, Nat.add_mul_div_right _ _ (Nat.two_pow_pos k),
    Nat.div_eq_of_lt (Nat.xor_lt_two_pow hp (highFold_lt _ k)), Nat.zero_add]

theorem gather_field {k p : Nat} (hp : p < 2 ^ k) (o : Nat) :
    fld (gather k p o) 12 k = p ^^^ highFold (o / 4096) k := by
  rw [fld_eq, gather_block, Nat.add_comm, Nat.add_mul_mod_self_right,
    Nat.mod_eq_of_lt (Nat.xor_lt_two_pow hp (highFold_lt _ k))]

theorem foldPort_gather {k p : Nat} (hk : 0 < k) (hp : p < 2 ^ k) (o : Nat) : foldPort (gather k p o) k = p := by
  rw [foldPort_eq_xor _ hk, gather_field hp, gather_high hp, Nat.xor_assoc, Nat.xor_self, Nat.xor_zero]

theorem spreadOffset_gather {k p : Nat} (hp : p < 2 ^ k) (o : Nat) : spreadOffset k (gather k p o) = o := by
  have low : gather k p o % 4096 = o % 4096 := by
    unfold gather
    omega
  rw [spreadOffset, gather_high hp, low, Nat.div_add_mod']

/-- A region of 2^k ports with whole 4 KiB blocks at each port fills them exactly. -/
theorem spreadOffset_lt_iff (k x blocks : Nat) : spreadOffset k x < blocks * 4096 ↔ x < 2 ^ k * (blocks * 4096) := by
  rw [← Nat.div_lt_iff_lt_mul (by decide), spreadOffset_div, Nat.div_lt_iff_lt_mul (Nat.two_pow_pos _), pow_add]
  ring_nf

/-! ## The geometry of local memory -/

theorem stackCount_eq_pow {s : State} (h : fld s.kp.settings.integ 24 8 ≠ 0) :
    stackCount s = 2 ^ (fld s.kp.settings.integ 24 8).log2 := by
  rw [stackCount, if_neg h]

theorem stackCount_is_greatest_pow {s : State} (h : fld s.kp.settings.integ 24 8 ≠ 0) :
    (∃ m, stackCount s = 2 ^ m) ∧ stackCount s ≤ fld s.kp.settings.integ 24 8 ∧
      fld s.kp.settings.integ 24 8 < 2 * stackCount s := by
  rw [stackCount_eq_pow h]
  refine ⟨⟨_, rfl⟩, Nat.log2_self_le h, ?_⟩
  rw [← Nat.pow_succ']
  exact Nat.lt_log2_self

/-- The valid settings in whole 4 KiB blocks: 2^m stacks, at each port `stripe` blocks of the striped region and `band`
blocks of its stack's band. -/
structure Geometry (s : State) (m stripe band : Nat) : Prop where
  count : stackCount s = 2 ^ m
  banded : bandBytes s = 8 * (band * 4096)
  whole : stackBytes s = 8 * (stripe * 4096) + 8 * (band * 4096)

theorem exists_geometry {s : State} (populated : 1 ≤ fld s.kp.settings.integ 24 8)
    (capacity : 30 ≤ fld s.kp.settings.integ 8 8) (fits : bandBytes s ≤ stackBytes s) :
    ∃ m stripe band, Geometry s m stripe band := by
  have gib : stackBytes s = 2 ^ (fld s.kp.settings.integ 8 8 - 30) * 2 ^ 30 := by
    rw [stackBytes, ← pow_add, Nat.sub_add_cancel capacity]
  generalize 2 ^ (fld s.kp.settings.integ 8 8 - 30) = g at gib
  have band : bandBytes s = s.kp.settings.bandGib * 2 ^ 30 := rfl
  exact ⟨_, (g - s.kp.settings.bandGib) * 2 ^ 15, s.kp.settings.bandGib * 2 ^ 15,
    stackCount_eq_pow (by omega), by omega, by omega⟩

section geometry
variable {s : State} {m stripe band : Nat} (G : Geometry s m stripe band)
include G

theorem Geometry.ports : 8 * stackCount s = 2 ^ (m + 3) := by
  rw [G.count]
  ring

theorem Geometry.log2_ports : (8 * stackCount s).log2 = m + 3 := by
  rw [G.ports, Nat.log2_two_pow]

theorem Geometry.stripedEnd_eq : stripedEnd s = 2 ^ (m + 3) * (stripe * 4096) := by
  rw [stripedEnd, G.whole, G.banded, Nat.add_sub_cancel, G.count]
  ring

theorem Geometry.bandStart_eq : (stackBytes s - bandBytes s) / 8 = stripe * 4096 := by
  rw [G.whole, G.banded]
  omega

theorem Geometry.portBytes_eq : stackBytes s / 8 = stripe * 4096 + band * 4096 := by
  rw [G.whole]
  omega

theorem Geometry.memBytes_eq : memBytes s = stripedEnd s + stackCount s * bandBytes s := by
  rw [memBytes, stripedEnd, ← Nat.mul_add, Nat.sub_add_cancel]
  rw [G.whole, G.banded]
  omega

theorem Geometry.band_lt_memBytes {n x : Nat} (hn : n < stackCount s) (hx : x < bandBytes s) :
    stripedEnd s + n * bandBytes s + x < memBytes s := by
  have : (n + 1) * bandBytes s ≤ stackCount s * bandBytes s := Nat.mul_le_mul_right _ hn
  rw [G.memBytes_eq]
  rw [Nat.succ_mul] at this
  omega

/-- Every address with memory lies in the striped region or in the band of one stack. -/
theorem Geometry.striped_or_band {a : Nat} (ha : a < memBytes s) :
    a < stripedEnd s ∨ ∃ n x, n < stackCount s ∧ x < bandBytes s ∧ a = stripedEnd s + n * bandBytes s + x := by
  rw [G.memBytes_eq] at ha
  refine (Nat.lt_or_ge a (stripedEnd s)).imp_right fun above => ?_
  have inBands : a - stripedEnd s < stackCount s * bandBytes s := by omega
  have pos : 0 < bandBytes s := Nat.pos_of_mul_pos_left (Nat.zero_lt_of_lt inBands)
  refine ⟨(a - stripedEnd s) / bandBytes s, (a - stripedEnd s) % bandBytes s,
    (Nat.div_lt_iff_lt_mul pos).2 inBands, Nat.mod_lt _ pos, ?_⟩
  rw [Nat.add_assoc, Nat.div_add_mod']
  omega

end geometry

/-! ## The two uses of a region -/

theorem homePort_striped {s : State} {a : Nat} (ha : a < stripedEnd s) :
    homePort s a = foldPort a (8 * stackCount s).log2 := by
  simp [homePort, region, ha]

theorem portOffset_striped {s : State} {a : Nat} (ha : a < stripedEnd s) :
    portOffset s a = spreadOffset (8 * stackCount s).log2 a := by
  simp only [portOffset, region, ha, if_true, Nat.sub_zero, spreadOffset_eq_bits]

theorem region_band (s : State) (n : Nat) {x : Nat} (hx : x < bandBytes s) :
    region s (stripedEnd s + n * bandBytes s + x) = (stripedEnd s + n * bandBytes s, 3, 8 * n) := by
  have stack : (stripedEnd s + n * bandBytes s + x - stripedEnd s) / bandBytes s = n := by
    rw [Nat.add_assoc, Nat.add_sub_cancel_left, Nat.add_comm, Nat.add_mul_div_right _ _ (Nat.zero_lt_of_lt hx),
      Nat.div_eq_of_lt hx, Nat.zero_add]
  rw [region, if_neg (by omega), stack]

theorem homePort_band (s : State) (n : Nat) {x : Nat} (hx : x < bandBytes s) :
    homePort s (stripedEnd s + n * bandBytes s + x) = 8 * n + foldPort x 3 := by
  rw [homePort, region_band s n hx, Nat.add_sub_cancel_left]

theorem portOffset_band (s : State) (n : Nat) {x : Nat} (hx : x < bandBytes s) :
    portOffset s (stripedEnd s + n * bandBytes s + x) =
      spreadOffset 3 x + (stackBytes s - bandBytes s) / 8 := by
  rw [portOffset, region_band s n hx, if_neg (by omega), Nat.add_sub_cancel_left, spreadOffset_eq_bits]

section geometry
variable {s : State} {m stripe band : Nat} (G : Geometry s m stripe band)
include G

theorem Geometry.portOffset_striped_lt {a : Nat} (ha : a < stripedEnd s) : portOffset s a < stripe * 4096 := by
  rw [portOffset_striped ha, G.log2_ports, spreadOffset_lt_iff, ← G.stripedEnd_eq]
  exact ha

theorem Geometry.spreadOffset_band_lt_iff (x : Nat) : spreadOffset 3 x < band * 4096 ↔ x < bandBytes s := by
  rw [spreadOffset_lt_iff, G.banded]
  rfl

theorem Geometry.placement_lt {a : Nat} (ha : a < memBytes s) :
    homePort s a < 8 * stackCount s ∧ portOffset s a < stackBytes s / 8 := by
  rw [G.portBytes_eq]
  rcases G.striped_or_band ha with ha | ⟨n, x, hn, hx, rfl⟩
  · refine ⟨?_, Nat.lt_add_right _ (G.portOffset_striped_lt ha)⟩
    rw [homePort_striped ha, G.log2_ports, G.ports]
    exact foldPort_lt a (Nat.succ_pos _)
  · have port := foldPort_lt x (k := 3) (by decide)
    have offset := (G.spreadOffset_band_lt_iff x).2 hx
    rw [homePort_band s n hx, portOffset_band s n hx, G.bandStart_eq]
    omega

/-- The striped part of a port lies below the band part, so no striped line shares an offset with a band line. -/
theorem Geometry.portOffset_striped_lt_band {a : Nat} (ha : a < stripedEnd s) (n : Nat) {x : Nat}
    (hx : x < bandBytes s) : portOffset s a < portOffset s (stripedEnd s + n * bandBytes s + x) := by
  have striped := G.portOffset_striped_lt ha
  rw [portOffset_band s n hx, G.bandStart_eq]
  omega

theorem Geometry.placement_injective {a b : Nat} (ha : a < memBytes s) (hb : b < memBytes s)
    (port : homePort s a = homePort s b) (offset : portOffset s a = portOffset s b) : a = b := by
  rcases G.striped_or_band ha with ha | ⟨n, x, -, hx, rfl⟩ <;>
    rcases G.striped_or_band hb with hb | ⟨j, y, -, hy, rfl⟩
  case inl.inl =>
    rw [homePort_striped ha, homePort_striped hb, G.log2_ports] at port
    rw [portOffset_striped ha, portOffset_striped hb, G.log2_ports] at offset
    exact spread_injective (Nat.succ_pos _) port offset
  case inl.inr => exact absurd offset (G.portOffset_striped_lt_band ha j hy).ne
  case inr.inl => exact absurd offset (G.portOffset_striped_lt_band hb n hx).ne'
  case inr.inr =>
    rw [homePort_band s n hx, homePort_band s j hy] at port
    rw [portOffset_band s n hx, portOffset_band s j hy, Nat.add_right_cancel_iff] at offset
    have fx := foldPort_lt x (k := 3) (by decide)
    have fy := foldPort_lt y (k := 3) (by decide)
    obtain rfl : n = j := by omega
    rw [spread_injective (by decide) (by omega) offset]

theorem Geometry.placement_surjective {p o : Nat} (hp : p < 8 * stackCount s) (ho : o < stackBytes s / 8) :
    ∃ a, a < memBytes s ∧ homePort s a = p ∧ portOffset s a = o := by
  rw [G.portBytes_eq] at ho
  rcases Nat.lt_or_ge o (stripe * 4096) with striped | above
  · rw [G.ports] at hp
    have offset := spreadOffset_gather hp o
    have ha : gather (m + 3) p o < stripedEnd s := by
      rwa [G.stripedEnd_eq, ← spreadOffset_lt_iff, offset]
    refine ⟨gather (m + 3) p o, ?_, ?_, ?_⟩
    · rw [G.memBytes_eq]
      omega
    · rw [homePort_striped ha, G.log2_ports, foldPort_gather (Nat.succ_pos _) hp]
    · rw [portOffset_striped ha, G.log2_ports, offset]
  · have controller : p % 8 < 2 ^ 3 := Nat.mod_lt p (by decide)
    have offset := spreadOffset_gather controller (o - stripe * 4096)
    have hx : gather 3 (p % 8) (o - stripe * 4096) < bandBytes s := by
      rw [← G.spreadOffset_band_lt_iff, offset]
      omega
    refine ⟨_, G.band_lt_memBytes (n := p / 8) (by omega) hx, ?_, ?_⟩
    · rw [homePort_band s _ hx, foldPort_gather (by decide) controller, Nat.div_add_mod]
    · rw [portOffset_band s _ hx, offset, G.bandStart_eq, Nat.sub_add_cancel above]

end geometry

/-- Settles O58: in each region the port is a field of the address masked by the bits that the offset keeps, and the
striped and the band offsets of a port do not meet. -/
theorem linesAreSpreadOverThePorts : Obligations.LinesAreSpreadOverThePorts := by
  unfold Obligations.LinesAreSpreadOverThePorts
  refine ⟨fun s => stackCount_is_greatest_pow, fun x k hk => foldPort_eq_loop x hk, ?_⟩
  intro s populated _ capacity _ fits
  obtain ⟨m, stripe, band, G⟩ := exists_geometry populated capacity fits
  refine ⟨fun a ha => ⟨homePort_striped ha, ?_⟩, fun n x _ hx => ⟨homePort_band s n hx, portOffset_band s n hx⟩,
    fun a ha => G.placement_lt ha, fun a b ha hb => G.placement_injective ha hb,
    fun p o hp ho => G.placement_surjective hp ho⟩
  rw [portOffset_striped ha, G.log2_ports, G.ports, spreadOffset, pow_add 2 12]
  rfl

end Sys2Proof.Placement
end

section
/-! The check of a remote request at its destination (R49). -/

namespace Sys2Proof.RemoteAdmission

open Sys2Proof.Machine

/-- R49, R51: the hive that a request reaches admits it through the comb that is answered. -/
theorem admits_of_destination {s : State} {f : Frame} {need : Need} {a h : Nat} {k : Comb}
    (reached : destination s f need a = some (h, k)) : admits s f need a h = some k := by
  obtain ⟨g, -, hg⟩ := List.exists_of_findSome?_eq_some reached
  obtain ⟨c, admitted, pair⟩ := Option.map_eq_some_iff.1 hg
  cases pair
  exact admitted

/-- A hive of the table that admits a request gives it a destination. -/
theorem exists_destination_of_admits {s : State} {f : Frame} {need : Need} {a : Nat} {e : Nat × Hive} {k : Comb}
    (he : e ∈ s.he.hives) (admitted : admits s f need a e.1 = some k) : ∃ p, destination s f need a = some p := by
  rw [← Option.isSome_iff_exists, destination, List.findSome?_isSome_iff]
  exact ⟨e.1, List.mem_map_of_mem he, by rw [admitted]; rfl⟩

theorem holds_of_combFor {s : State} {h a : Nat} {k : Comb} (found : combFor s h a = some k) : k.holds a = true :=
  List.find?_some (p := fun c : Comb => c.holds a) found

/-- Settles O59: what `admits_iff` says of one hive, carried to the search over the table of hives. -/
theorem remoteRequestsAreAdmitted : Obligations.RemoteRequestsAreAdmitted := by
  unfold Obligations.RemoteRequestsAreAdmitted
  refine ⟨fun s dst t h level w4 opf p => ⟨rfl, rfl, rfl⟩, ?_, ?_⟩
  · intro s f need a h k reached
    obtain ⟨found, allowed⟩ := Laws.admits_iff.1 (admits_of_destination reached)
    exact ⟨found, holds_of_combFor found, allowed⟩
  · intro s f need a e k he found allowed
    exact exists_destination_of_admits he (Laws.admits_iff.2 ⟨found, allowed⟩)

end Sys2Proof.RemoteAdmission
end

section
/-! The checks of the device root and of the owner roots (R363), with the majority read of their bits (R359). -/

namespace Sys2Proof.RootChecks

open Sys2Proof.Machine

/-- The model's bit of a word is the library's, so bitwise operators distribute by `Nat.testBit_or` and `Nat.testBit_and`. -/
theorem bit_eq_testBit (w i : Nat) : bit w i = w.testBit i := by
  rw [bit, fld, pow_one, Nat.shiftRight_eq_div_pow, Nat.testBit_eq_decide_div_mod_eq, beq_eq_decide]

@[simp] theorem bit_or (a b i : Nat) : bit (a ||| b) i = (bit a i || bit b i) := by
  simp only [bit_eq_testBit, Nat.testBit_or]

@[simp] theorem bit_and (a b i : Nat) : bit (a &&& b) i = (bit a i && bit b i) := by
  simp only [bit_eq_testBit, Nat.testBit_and]

theorem majority_copies (a b c : Nat) : majority [a, b, c] = (a &&& b) ||| (a &&& c) ||| (b &&& c) := rfl

/-- R359: a bit reads blown exactly when two of its three copies do. -/
theorem bit_majority_iff (a b c i : Nat) : bit (majority [a, b, c]) i = true ↔
    (bit a i = true ∧ bit b i = true) ∨ (bit a i = true ∧ bit c i = true) ∨ (bit b i = true ∧ bit c i = true) := by
  rw [majority_copies]
  simp only [bit_or, bit_and, Bool.or_eq_true, Bool.and_eq_true, or_assoc]

theorem drkOk_iff (s : State) : drkOk s = true ↔
    leNat ((digest (leBytes 48 s.vault.fuses.drk)).take 4) = s.vault.fuses.drkChk ∧ s.vault.fuses.drk ≠ 0 ∧
      s.vault.fuses.drk ≠ 2 ^ 384 - 1 := by
  simp only [drkOk, Bool.and_eq_true, bne_iff_ne, beq_iff_eq]
  exact and_comm

theorem rootLive_iff (s : State) (i : Nat) : rootLive s i = true ↔
    i < 4 ∧ bit (majority s.vault.fuses.enrolled) i = true ∧ bit (majority s.vault.fuses.revoked) i = false := by
  simp only [rootLive, Bool.and_eq_true, decide_eq_true_eq, Bool.not_eq_true', and_assoc]

/-- A presented key matches root `i` when the root is live and holds the key's hash. -/
theorem rootMatches_iff (s : State) (i : Nat) (key : List Byte) : rootMatches s i key = true ↔
    rootLive s i = true ∧ leNat (digest key) = nth s.vault.fuses.owner i 0 := by
  rw [rootMatches, Bool.and_eq_true, beq_iff_eq]

/-- Settles O60: each check, a conjunction of tests, is read as the conditions it tests; the majority is read bit by bit. -/
theorem rootsAreChecked : Obligations.RootsAreChecked := by
  unfold Obligations.RootsAreChecked
  refine ⟨drkOk_iff, fun s i key => ?_, bit_majority_iff⟩
  rw [rootMatches_iff, rootLive_iff, and_assoc, and_assoc]

end Sys2Proof.RootChecks
end

section
/-! What every command and every tick keeps of the block: the queue of the commands that wait, what the ports have
  carried,
the canonical form of the four byte memories, and each blown fuse. The relation is proved once for each operation of the
model, from the updates of the state's parts up to `exec` and `step`. -/

namespace Sys2Proof.Standing

open Sys2Proof.Machine Sys2Proof.Safety

/-! ## Fuses -/

theorem bitsStay_refl (a : Nat) : BitsStay a a := fun _ h => h

theorem bitsStay_trans {a b c : Nat} (p : BitsStay a b) (q : BitsStay b c) : BitsStay a c := fun i h => q i (p i h)

@[simp] theorem fusesStay_refl (a : Fuses) : FusesStay a a := by
  refine ⟨?_, ?_, ?_, ?_, ?_, ?_, ?_, ?_, ?_, ?_⟩ <;> intros <;> exact bitsStay_refl _

theorem fusesStay_trans {a b c : Fuses} (p : FusesStay a b) (q : FusesStay b c) : FusesStay a c := by
  obtain ⟨p1, p2, p3, p4, p5, p6, p7, p8, p9, p10⟩ := p
  obtain ⟨q1, q2, q3, q4, q5, q6, q7, q8, q9, q10⟩ := q
  exact ⟨fun k => bitsStay_trans (p1 k) (q1 k), bitsStay_trans p2 q2, bitsStay_trans p3 q3, bitsStay_trans p4 q4, fun k =>
    bitsStay_trans (p5 k) (q5 k),
    fun k => bitsStay_trans (p6 k) (q6 k), fun k => bitsStay_trans (p7 k) (q7 k), bitsStay_trans p8 q8, bitsStay_trans p9
      q9, bitsStay_trans p10 q10⟩

/-! ## The relation -/

/-- What no operation of the block takes back: `t` may come after `s`. -/
structure Keeps (s t : State) : Prop where
  pending : t.pending = s.pending
  sent : s.sent <+: t.sent
  mem : cellsWf 0 s.pr.mem = true → cellsWf 0 t.pr.mem = true
  spads : cellsWf 0 s.mv.spads = true → cellsWf 0 t.mv.spads = true
  args : cellsWf 0 s.kp.mbox.args = true → cellsWf 0 t.kp.mbox.args = true
  flash : cellsWf 0xFF s.kp.flash = true → cellsWf 0xFF t.kp.flash = true
  fuses : FusesStay s.vault.fuses t.vault.fuses

variable {s t u : State}

theorem keeps_refl (s : State) : Keeps s s :=
  ⟨rfl, List.prefix_rfl, id, id, id, id, fusesStay_refl _⟩

theorem Keeps.trans (a : Keeps s t) (b : Keeps t u) : Keeps s u :=
  ⟨b.pending.trans a.pending, a.sent.trans b.sent, b.mem ∘ a.mem, b.spads ∘ a.spads, b.args ∘ a.args, b.flash ∘ a.flash,
    fusesStay_trans a.fuses b.fuses⟩

/-- A state with the same queue, outputs, byte memories and fuses may stand for another. -/
theorem Keeps.congr (h : Keeps s t) (pending : u.pending = t.pending) (sent : u.sent = t.sent) (mem : u.pr.mem = t.pr.mem)
    (spads : u.mv.spads = t.mv.spads) (args : u.kp.mbox.args = t.kp.mbox.args) (flash : u.kp.flash = t.kp.flash)
    (fuses : u.vault.fuses = t.vault.fuses) : Keeps s u :=
  ⟨pending.trans h.pending, sent ▸ h.sent, mem ▸ h.mem, spads ▸ h.spads, args ▸ h.args, flash ▸ h.flash, fuses ▸ h.fuses⟩

theorem answers_ite {p : Prop} [Decidable p] {a b : Host.Outcome State Fault Refusal} {P : State → Prop} (ha : Answers a
    P)
    (hb : Answers b P) : Answers (if p then a else b) P := by
  split
  · exact ha
  · exact hb

theorem answers_next (k : Keeps s t) : Answers (.next t) (Keeps s) := ⟨t, rfl, k⟩

theorem answers_taken {can : Bool} (k : Keeps s t) : Answers (taken can s t) (Keeps s) := by
  refine answers_next ?_
  split
  · exact k
  · exact keeps_refl s

theorem keeps_memoryWf (h : Keeps s t) (w : MemoryWf s) : MemoryWf t :=
  ⟨h.mem w.1, h.spads w.2.1, h.args w.2.2.1, h.flash w.2.2.2⟩

/-! ## Control structure -/

theorem keeps_ite {p : Prop} [Decidable p] (ht : Keeps s t) (hu : Keeps s u) : Keeps s (if p then t else u) := by
  split
  · exact ht
  · exact hu

theorem keeps_foldl {α : Type} {f : State → α → State} {l : List α} (hf : ∀ x a, Keeps x (f x a)) (k : Keeps s t) :
    Keeps s (l.foldl f t) := by
  induction l generalizing t with
  | nil => exact k
  | cons a l ih => exact ih (k.trans (hf t a))

theorem keeps_foldl_fst {α β : Type} {f : State × β → α → State × β} {l : List α} {p : State × β}
    (hf : ∀ x a, Keeps x.1 (f x a).1) (k : Keeps s p.1) : Keeps s (l.foldl f p).1 := by
  induction l generalizing p with
  | nil => exact k
  | cons a l ih => exact ih (k.trans (hf p a))

/-- What a pair keeps in its state, its parts keep. -/
theorem keeps_fst {α : Type} {p : State × α} {x : α} (k : Keeps s p.1) (e : p = (u, x)) : Keeps s u := by
  rw [e] at k
  exact k

theorem keeps_snd {α : Type} {p : α × State} {x : α} (k : Keeps s p.2) (e : p = (x, u)) : Keeps s u := by
  rw [e] at k
  exact k

theorem keeps_ite_fst {α : Type} {p : Prop} [Decidable p] {a b : State × α} (ha : Keeps s a.1) (hb : Keeps s b.1) :
    Keeps s (if p then a else b).1 := by
  split
  · exact ha
  · exact hb

theorem keeps_ite_snd {α : Type} {p : Prop} [Decidable p] {a b : α × State} (ha : Keeps s a.2) (hb : Keeps s b.2) :
    Keeps s (if p then a else b).2 := by
  split
  · exact ha
  · exact hb

/-! ## The parts of the state -/

theorem keeps_onClk {f : Clocks → Clocks} (k : Keeps s t) : Keeps s (t.onClk f) := k.congr rfl rfl rfl rfl rfl rfl rfl
theorem keeps_onHp {f : HostPort → HostPort} (k : Keeps s t) : Keeps s (t.onHp f) := k.congr rfl rfl rfl rfl rfl rfl rfl
theorem keeps_onHe {f : HiveEngine → HiveEngine} (k : Keeps s t) : Keeps s (t.onHe f) := k.congr rfl rfl rfl rfl rfl rfl
    rfl
theorem keeps_onQm {f : QueueMgr → QueueMgr} (k : Keeps s t) : Keeps s (t.onQm f) := k.congr rfl rfl rfl rfl rfl rfl rfl
theorem keeps_onXl {f : Translation → Translation} (k : Keeps s t) : Keeps s (t.onXl f) := k.congr rfl rfl rfl rfl rfl rfl
    rfl
theorem keeps_onSw {f : Swarm → Swarm} (k : Keeps s t) : Keeps s (t.onSw f) := k.congr rfl rfl rfl rfl rfl rfl rfl
theorem keeps_onRg {f : Regulator → Regulator} (k : Keeps s t) : Keeps s (t.onRg f) := k.congr rfl rfl rfl rfl rfl rfl rfl
theorem keeps_onSq {f : Sequencer → Sequencer} (k : Keeps s t) : Keeps s (t.onSq f) := k.congr rfl rfl rfl rfl rfl rfl rfl
theorem keeps_onBr {f : Brood → Brood} (k : Keeps s t) : Keeps s (t.onBr f) := k.congr rfl rfl rfl rfl rfl rfl rfl

/-- Local memory, where it is written, is written in canonical form. -/
theorem keeps_onPr {f : Propolis → Propolis} (k : Keeps s t)
    (hf : cellsWf 0 t.pr.mem = true → cellsWf 0 (f t.pr).mem = true) : Keeps s (t.onPr f) :=
  ⟨k.pending, k.sent, hf ∘ k.mem, k.spads, k.args, k.flash, k.fuses⟩

theorem keeps_onMv {f : Movers → Movers} (k : Keeps s t)
    (hf : cellsWf 0 t.mv.spads = true → cellsWf 0 (f t.mv).spads = true) : Keeps s (t.onMv f) :=
  ⟨k.pending, k.sent, k.mem, hf ∘ k.spads, k.args, k.flash, k.fuses⟩

theorem keeps_onKp {f : Keeper → Keeper} (k : Keeps s t)
    (ha : cellsWf 0 t.kp.mbox.args = true → cellsWf 0 (f t.kp).mbox.args = true)
    (hf : cellsWf 0xFF t.kp.flash = true → cellsWf 0xFF (f t.kp).flash = true) : Keeps s (t.onKp f) :=
  ⟨k.pending, k.sent, k.mem, k.spads, ha ∘ k.args, hf ∘ k.flash, k.fuses⟩

theorem keeps_onVault {f : Vault → Vault} (k : Keeps s t) (hf : FusesStay t.vault.fuses (f t.vault).fuses) :
    Keeps s (t.onVault f) :=
  ⟨k.pending, k.sent, k.mem, k.spads, k.args, k.flash, fusesStay_trans k.fuses hf⟩

theorem keeps_withPorts {p : Tab Port} (k : Keeps s t) : Keeps s { t with ports := p } :=
  k.congr rfl rfl rfl rfl rfl rfl rfl

theorem keeps_withFree {n : Nat} (k : Keeps s t) : Keeps s { t with free := n } :=
  k.congr rfl rfl rfl rfl rfl rfl rfl

theorem keeps_emit {o : Output} (k : Keeps s t) : Keeps s (emit t o) :=
  ⟨k.pending, k.sent.trans (List.prefix_append _ _), k.mem, k.spads, k.args, k.flash, k.fuses⟩

theorem keeps_drawNat (k : Keeps s t) : Keeps s (drawNat t).2 := k.congr rfl rfl rfl rfl rfl rfl rfl
theorem keeps_drawBytes {n : Nat} (k : Keeps s t) : Keeps s (drawBytes t n).2 := k.congr rfl rfl rfl rfl rfl rfl rfl

theorem keeps_drawDrbg {n : Nat} (k : Keeps s t) : Keeps s (drawDrbg t n).2 := by
  unfold drawDrbg
  dsimp only
  exact keeps_onVault (keeps_drawBytes k) (fusesStay_refl _)

end Sys2Proof.Standing
end

section
/-! What the operations of the model's Ops part keep. -/

namespace Sys2Proof.Standing

open Sys2Proof.Machine Sys2Proof.Safety

variable {s t u : State}

theorem keeps_setClock {d f} (k : Keeps s t) : Keeps s (setClock t d f) := by
  unfold setClock
  split
  · exact keeps_onClk k
  · exact keeps_onClk k

theorem keeps_requestClock {d} (k : Keeps s t) : Keeps s (requestClock t d) :=
  keeps_ite k (keeps_emit (keeps_setClock k))

theorem keeps_demand {d} (k : Keeps s t) : Keeps s (demand t d) := by
  unfold demand
  refine keeps_ite k ?_
  split
  · exact keeps_requestClock k
  · exact keeps_requestClock (keeps_requestClock k)

theorem keeps_wakeStream (k : Keeps s t) : Keeps s (wakeStream t) :=
  keeps_ite k (keeps_demand k)

theorem keeps_inStream {a2} (k : Keeps s t) (k1 : Keeps s a2) : Keeps s (inStream t a2) :=
  keeps_ite k1 (keeps_demand k)

theorem keeps_inControl {a2} (k : Keeps s t) (k1 : Keeps s a2) : Keeps s (inControl t a2) :=
  keeps_ite k1 (keeps_demand k)

theorem keeps_hostWaits (k : Keeps s t) : Keeps s (hostWaits t) :=
  keeps_ite k (keeps_demand k)

theorem answers_hostAccess {a2} (k1 : Keeps s a2) : Answers (hostAccess s a2) (Keeps s) :=
  answers_next (keeps_ite k1 (keeps_hostWaits (keeps_refl _)))

theorem keeps_setHive {h f} (k : Keeps s t) : Keeps s (setHive t h f) :=
  keeps_onHe k

theorem keeps_setCluster {n f} (k : Keeps s t) : Keeps s (setCluster t n f) :=
  keeps_onHe k

theorem keeps_logErr {l} (k : Keeps s t) : Keeps s (logErr t l) :=
  keeps_ite (keeps_onBr k) (keeps_onBr k)

theorem keeps_refuseInput {logged ugroup unit} (k : Keeps s t) : Keeps s (refuseInput t logged ugroup unit) :=
  keeps_ite (keeps_logErr (keeps_onBr k)) (keeps_onBr k)

theorem keeps_setCtx {c f} (k : Keeps s t) : Keeps s (setCtx t c f) :=
  keeps_onQm k

theorem keeps_setQueue {q f} (k : Keeps s t) : Keeps s (setQueue t q f) :=
  keeps_onQm k

theorem keeps_setLabel {l f} (k : Keeps s t) : Keeps s (setLabel t l f) :=
  keeps_onRg k

theorem keeps_setChan {c f} (k : Keeps s t) : Keeps s (setChan t c f) :=
  keeps_onMv k id

theorem keeps_setMover {m f} (k : Keeps s t) : Keeps s (setMover t m f) :=
  keeps_onMv k id

end Sys2Proof.Standing
end

section
/-! What the operations of the model's Store part keep. -/

namespace Sys2Proof.Standing

open Sys2Proof.Machine Sys2Proof.Safety

variable {s t u : State}

theorem keeps_setSlice {a f} (k : Keeps s t) : Keeps s (setSlice t a f) :=
  keeps_onPr k id

theorem keeps_useTweak {keySel line} (k : Keeps s t) : Keeps s (useTweak t keySel line) := by
  unfold useTweak
  exact keeps_onPr k id

theorem keeps_setSlot {a2 f} (k : Keeps s t) : Keeps s (setSlot t a2 f) :=
  keeps_onPr k id

theorem keeps_setCond {line c} (k : Keeps s t) : Keeps s (setCond t line c) :=
  keeps_onPr k id

theorem keeps_logDirty {a} (k : Keeps s t) : Keeps s (logDirty t a) :=
  keeps_onXl k

theorem keeps_storeLine {line bytes} (k : Keeps s t) : Keeps s (storeLine t line bytes) :=
  keeps_logDirty (keeps_onPr (keeps_setSlice k) (cellsWf_cellWriteN _ _ _ _))

theorem keeps_markFresh {c} (k : Keeps s t) : Keeps s (markFresh t c) :=
  keeps_onPr k (cellsWf_filter _ _ _)

theorem keeps_zeroSlot {a2} (k : Keeps s t) : Keeps s (zeroSlot t a2) :=
  keeps_onPr (keeps_setSlot k) id

theorem keeps_loadSlot {a2 gen material} (k : Keeps s t) : Keeps s (loadSlot t a2 gen material) :=
  keeps_ite (keeps_logErr (keeps_zeroSlot (keeps_onVault k (fusesStay_refl _)))) (keeps_setSlot k)

end Sys2Proof.Standing
end

section
/-! What the operations of the model's Units part keep. -/

namespace Sys2Proof.Standing

open Sys2Proof.Machine Sys2Proof.Safety

variable {s t u : State}

theorem keeps_setPort {p f} (k : Keeps s t) : Keeps s (setPort t p f) :=
  keeps_withPorts k

theorem keeps_answerReq {h st data} (k : Keeps s t) : Keeps s (answerReq t h st data) :=
  keeps_emit k

theorem keeps_wakeLines (k : Keeps s t) : Keeps s (wakeLines t) :=
  keeps_onMv k id

theorem keeps_trySend {h} (k : Keeps s t) (e : trySend t h = some u) : Keeps s u := by
  unfold trySend at e
  dsimp only at e
  split at e
  · split at e
    · cases e
    · cases e
      exact keeps_wakeLines (keeps_onPr k id)
  · split at e
    · cases e
    · split at e
      · split at e
        · cases e
        · obtain ⟨_, -, rfl⟩ := Option.map_eq_some_iff.1 e
          exact keeps_emit (keeps_emit (keeps_setPort k))
      · obtain ⟨_, -, rfl⟩ := Option.map_eq_some_iff.1 e
        exact keeps_emit (keeps_setPort k)

theorem keeps_passOver {served waiting} (k : Keeps s t) : Keeps s (passOver t served waiting) :=
  keeps_foldl (fun _ _ => keeps_setLabel (keeps_drawNat (keeps_refl _))) k

theorem keeps_drainPort {n p} (k : Keeps s t) : Keeps s (drainPort t p n) := by
  induction n generalizing t with
  | zero => exact k
  | succ n ih =>
    rw [drainPort]
    split
    · exact k
    · split
      · rename_i e
        exact ih (keeps_passOver (keeps_setPort (keeps_trySend k e)))
      · exact k

theorem keeps_sendOut {h} (k : Keeps s t) : Keeps s (sendOut t h) :=
  keeps_drainPort (keeps_setPort (keeps_useTweak k))

theorem keeps_wakeHome {line a3} (k : Keeps s t) : Keeps s (wakeHome t line a3) :=
  keeps_ite (keeps_setMover k) k

theorem keeps_addLock {a rmw waiting} (k : Keeps s t) : Keeps s (addLock t a rmw waiting) :=
  keeps_onPr k id

theorem keeps_lineRequest {h} (k : Keeps s t) : Keeps s (lineRequest t h) :=
  keeps_ite (keeps_onPr k id) (keeps_ite (keeps_onPr k id) (keeps_ite (keeps_addLock k) (keeps_ite (keeps_ite (keeps_onPr
    k id) (keeps_sendOut (keeps_addLock k))) (keeps_sendOut k))))

theorem keeps_putSlice {a2 v} (k : Keeps s t) : Keeps s (putSlice t a2 v) :=
  keeps_onPr k id

theorem keeps_beginFill {a2} (k : Keeps s t) : Keeps s (beginFill t a2) :=
  keeps_ite k (keeps_emit (keeps_foldl (fun _ _ => keeps_useTweak (keeps_refl _)) (keeps_onPr (keeps_putSlice k) id)))

theorem keeps_openSlice {h} (k : Keeps s t) : Keeps s (openSlice t h) :=
  keeps_beginFill (keeps_onPr (keeps_setSlice k) id)

theorem keeps_awaitSlice {h} (k : Keeps s t) : Keeps s (awaitSlice t h) :=
  keeps_onPr k id

theorem keeps_emptySlot {hive line} (k : Keeps s t) : Keeps s (emptySlot t hive line) :=
  keeps_logErr k

theorem keeps_wakeUnit {p} (k : Keeps s t) : Keeps s (wakeUnit t p) :=
  keeps_ite (keeps_onPr k id) k

theorem keeps_arrive {h} (k : Keeps s t) : Keeps s (arrive t h) := by
  unfold arrive
  refine keeps_ite (keeps_answerReq (keeps_emptySlot (keeps_wakeHome (keeps_wakeUnit k)))) ?_
  split
  · exact keeps_ite (keeps_answerReq (keeps_wakeHome (keeps_wakeUnit k))) (keeps_ite (keeps_answerReq (keeps_wakeHome
      (keeps_wakeUnit k))) (keeps_ite (keeps_answerReq (keeps_wakeHome (keeps_wakeUnit k))) (keeps_openSlice
      (keeps_awaitSlice (keeps_wakeHome (keeps_wakeUnit k))))))
  · exact keeps_awaitSlice (keeps_wakeHome (keeps_wakeUnit k))
  · exact keeps_ite (keeps_answerReq (keeps_wakeHome (keeps_wakeUnit k))) (keeps_lineRequest (keeps_wakeHome
      (keeps_wakeUnit k)))

theorem keeps_releaseLine {a} (k : Keeps s t) : Keeps s (releaseLine t a) :=
  keeps_ite k (keeps_wakeLines (keeps_foldl (fun _ _ => keeps_arrive (keeps_refl _)) (keeps_onPr (keeps_foldl (fun _ _ =>
    keeps_arrive (keeps_refl _)) (keeps_onPr k id)) id)))

theorem keeps_settle {h st data} (k : Keeps s t) : Keeps s (settle t h st data) :=
  keeps_drainPort (keeps_releaseLine (keeps_answerReq k))

theorem keeps_openingDone {a2} (k : Keeps s t) : Keeps s (openingDone t a2) := by
  unfold openingDone
  dsimp only
  split
  · exact keeps_wakeLines (keeps_beginFill (keeps_foldl (fun _ _ => keeps_arrive (keeps_refl _)) (keeps_onPr
      (keeps_putSlice k) id)))
  · exact keeps_wakeLines (keeps_foldl (fun _ _ => keeps_arrive (keeps_refl _)) (keeps_onPr (keeps_putSlice k) id))

theorem keeps_takePlace {h} (k : Keeps s t) : Keeps s (takePlace t h) :=
  keeps_ite k (keeps_arrive k)

theorem keeps_redeem {o a} (k : Keeps s t) : Keeps s (redeem t o a) :=
  keeps_ite (keeps_releaseLine (keeps_onPr k id)) k

theorem keeps_dropWhere {p} (k : Keeps s t) : Keeps s (dropWhere t p) :=
  keeps_ite k (keeps_foldl (fun _ _ => keeps_releaseLine (keeps_refl _)) (keeps_onPr (keeps_withPorts k) id))

theorem keeps_dropTickets {o} (k : Keeps s t) : Keeps s (dropTickets t o) :=
  keeps_dropWhere k

theorem keeps_showRead {line level} (k : Keeps s t) : Keeps s (showRead t line level) :=
  keeps_emit k

theorem keeps_showCipher {keySel line level poison cipher} (k : Keeps s t) : Keeps s (showCipher t keySel line level
    poison cipher) :=
  keeps_emit (keeps_emit k)

theorem keeps_showWrite {keySel line level plain} (k : Keeps s t) : Keeps s (showWrite t keySel line level plain) :=
  keeps_showCipher k

theorem keeps_poisonLine {keySel line level} (k : Keeps s t) : Keeps s (poisonLine t keySel line level) :=
  keeps_showCipher (keeps_setCond (keeps_drawBytes k))

end Sys2Proof.Standing
end

section
/-! What the operations of the model's Home part keep. -/

namespace Sys2Proof.Standing

open Sys2Proof.Machine Sys2Proof.Safety

variable {s t u : State}

theorem keeps_meetLine {hive keySel line level} (k : Keeps s t) : Keeps s (meetLine t hive keySel line level).1 := by
  unfold meetLine
  split
  · dsimp only
    exact k
  · dsimp only
    exact k
  · split
    · dsimp only
      exact keeps_logErr (keeps_poisonLine k)
    · dsimp only
      exact keeps_poisonLine k
  · dsimp only
    exact keeps_ite (keeps_poisonLine (keeps_drawNat (keeps_logErr k))) (keeps_drawNat (keeps_logErr k))

theorem keeps_coreRead {hive keySel line level} (k : Keeps s t) : Keeps s (coreRead t hive keySel line level).1 := by
  unfold coreRead
  dsimp only
  split
  · dsimp only
    exact keeps_emptySlot (keeps_wakeUnit k)
  · split
    · dsimp only
      exact keeps_wakeUnit k
    · split
      · dsimp only
        exact keeps_wakeUnit k
      · dsimp only
        exact keeps_meetLine (keeps_useTweak (keeps_showRead (keeps_wakeUnit k)))

theorem keeps_coreWrite {hive keySel line a5 level} (k : Keeps s t) : Keeps s (coreWrite t hive keySel line a5 level).1 :=
    by
  unfold coreWrite
  dsimp only
  split
  · dsimp only
    exact keeps_emptySlot (keeps_wakeHome (keeps_wakeUnit k))
  · split
    · dsimp only
      exact keeps_wakeHome (keeps_wakeUnit k)
    · split
      · dsimp only
        exact keeps_storeLine (keeps_showWrite (keeps_useTweak (keeps_wakeHome (keeps_wakeUnit k))))
      · split
        · dsimp only
          exact keeps_storeLine (keeps_showWrite (keeps_meetLine (keeps_useTweak (keeps_showRead (keeps_wakeHome
            (keeps_wakeUnit k))))))
        · dsimp only
          exact keeps_meetLine (keeps_useTweak (keeps_showRead (keeps_wakeHome (keeps_wakeUnit k))))

end Sys2Proof.Standing
end

section
/-! What the operations of the model's Keys part keep. -/

namespace Sys2Proof.Standing

open Sys2Proof.Machine Sys2Proof.Safety

variable {s t u : State}

theorem keeps_lineKey {name tail} (k : Keeps s t) : Keeps s (lineKey t name tail).2 :=
  keeps_drawDrbg k

theorem keeps_deriveHiveKey {h} (k : Keeps s t) : Keeps s (deriveHiveKey t h) :=
  keeps_loadSlot (keeps_setHive (keeps_lineKey k))

theorem keeps_deriveCommonsKey {sel} (k : Keeps s t) : Keeps s (deriveCommonsKey t sel) :=
  keeps_loadSlot (keeps_onVault (keeps_lineKey k) (fusesStay_refl _))

theorem keeps_deriveManagerKey (k : Keeps s t) : Keeps s (deriveManagerKey t) :=
  keeps_loadSlot (keeps_onVault (keeps_ite_snd (keeps_lineKey k) (keeps_drawDrbg k)) (fusesStay_refl _))

theorem keeps_commonsLeft {c} (k : Keeps s t) : Keeps s (commonsLeft t c) :=
  keeps_ite k (keeps_markFresh (keeps_zeroSlot k))

end Sys2Proof.Standing
end

section
/-! What the operations of the model's Events part keep. -/

namespace Sys2Proof.Standing

open Sys2Proof.Machine Sys2Proof.Safety

variable {s t u : State}

theorem keeps_charge {lab bytes} (k : Keeps s t) : Keeps s (charge t lab bytes) :=
  keeps_ite k (keeps_setLabel k)

theorem keeps_pendMessage {vector hive} (k : Keeps s t) : Keeps s (pendMessage t vector hive) :=
  keeps_ite k (keeps_onSq k)

theorem keeps_tablePut {line w go} (hgo : ∀ x, Keeps x (go x).1) (k : Keeps s t) : Keeps s (tablePut t line w go).1 := by
  unfold tablePut
  split
  · exact keeps_arrive k
  · exact k.trans (hgo t)

theorem keeps_eventBy {write code hive a0 a1} (hw : ∀ x a b, Keeps x (write x a b)) (k : Keeps s t) :
    Keeps s (eventBy write t code hive a0 a1) := by
  have kw := fun a b => k.trans (hw t a b)
  unfold eventBy
  dsimp only
  split
  · exact keeps_ite (keeps_pendMessage (keeps_onSq (kw _ _))) (keeps_onSq (kw _ _))
  · exact keeps_onSq k

theorem keeps_alarmBy {event hive keySel line ctx off st} (he : ∀ x a b c d, Keeps x (event x a b c d)) (k : Keeps s t) :
    Keeps s (alarmBy event t hive keySel line ctx off st) := by
  unfold alarmBy
  exact keeps_ite (keeps_setHive (keeps_logErr k)) ((keeps_setHive (keeps_logErr k)).trans (he _ _ _ _ _))

theorem keeps_recordBy {alarm a bytes} (ha : ∀ x b c d, Keeps x (alarm x b c d)) (k : Keeps s t) :
    Keeps s (recordBy alarm t a bytes).1 :=
  keeps_tablePut (fun _ => keeps_ite ((keeps_coreWrite (keeps_refl _)).trans (ha _ _ _ _)) (keeps_coreWrite (keeps_refl
    _)))
    (keeps_wakeStream k)

theorem keeps_alarmEvent {code hive a0 a1} (k : Keeps s t) : Keeps s (alarmEvent t code hive a0 a1) :=
  keeps_eventBy (fun _ _ _ => keeps_recordBy (fun _ _ _ _ => keeps_alarmBy (fun _ _ _ _ _ => keeps_refl _) (keeps_refl _))
    (keeps_refl _)) k

theorem keeps_writeRecord {a bytes} (k : Keeps s t) : Keeps s (writeRecord t a bytes).1 :=
  keeps_recordBy (fun _ _ _ _ => keeps_alarmBy (fun _ _ _ _ _ => keeps_alarmEvent (keeps_refl _)) (keeps_refl _)) k

theorem keeps_hiveEvent {code hive a0 a1} (k : Keeps s t) : Keeps s (hiveEvent t code hive a0 a1) :=
  keeps_eventBy (fun _ _ _ => keeps_writeRecord (keeps_refl _)) k

theorem keeps_retarget {hive vector} (k : Keeps s t) : Keeps s (retarget t hive vector) := by
  unfold retarget
  dsimp only
  split
  · exact keeps_onSq (keeps_writeRecord k)
  · exact keeps_ite (keeps_onSq (keeps_hiveEvent k)) (keeps_hiveEvent k)

theorem keeps_raiseIrq {hive vector} (k : Keeps s t) : Keeps s (raiseIrq t hive vector) :=
  keeps_ite (keeps_retarget k) (keeps_pendMessage k)

theorem keeps_refuseRemote {hive pa} (k : Keeps s t) : Keeps s (refuseRemote t hive pa) :=
  keeps_ite (keeps_setHive k) (keeps_hiveEvent (keeps_setHive k))

theorem keeps_securityAlarm {hive keySel line ctx off st} (k : Keeps s t) : Keeps s (securityAlarm t hive keySel line ctx
    off st) :=
  keeps_alarmBy (fun _ _ _ _ _ => keeps_hiveEvent (keeps_refl _)) k

theorem keeps_homeRead {hive keySel line level} (k : Keeps s t) : Keeps s (homeRead t hive keySel line level).1 :=
  keeps_ite (keeps_securityAlarm (keeps_coreRead k)) (keeps_coreRead k)

theorem keeps_homeWrite {hive keySel line a5 level ctx off} (k : Keeps s t) : Keeps s (homeWrite t hive keySel line a5
    level ctx off).1 :=
  keeps_ite (keeps_securityAlarm (keeps_coreWrite k)) (keeps_coreWrite k)

theorem keeps_tableLine {line} (k : Keeps s t) : Keeps s (tableLine t line).1 :=
  keeps_homeRead (keeps_charge k)

theorem keeps_tableWord {a} (k : Keeps s t) : Keeps s (tableWord t a).1 :=
  keeps_tableLine k

theorem keeps_tableWrite {a bytes} (k : Keeps s t) : Keeps s (tableWrite t a bytes).1 :=
  keeps_tablePut (fun _ => keeps_homeWrite (keeps_refl _)) (keeps_charge k)

end Sys2Proof.Standing
end

section
/-! What the operations of the model's Frames part keep. -/

namespace Sys2Proof.Standing

open Sys2Proof.Machine Sys2Proof.Safety

variable {s t u : State}

theorem keeps_setLink {l f} (k : Keeps s t) : Keeps s (setLink t l f) :=
  keeps_onSw k

theorem keeps_setFlow {peer f} (k : Keeps s t) : Keeps s (setFlow t peer f) :=
  keeps_onSw k

theorem keeps_unwait {p} (k : Keeps s t) : Keeps s (unwait t p) :=
  keeps_onSw k

theorem keeps_oweCredit {l f} (k : Keeps s t) : Keeps s (oweCredit t l f) :=
  keeps_ite (keeps_setLink k) k

theorem keeps_dropForward {link f} (k : Keeps s t) : Keeps s (dropForward t link f) :=
  keeps_oweCredit (keeps_onSw k)

theorem keeps_enqueue {w} (k : Keeps s t) : Keeps s (enqueue t w) :=
  keeps_onSw k

theorem keeps_routeOwn {peer f} (k : Keeps s t) : Keeps s (routeOwn t peer f).1 := by
  unfold routeOwn
  split
  · dsimp only
    exact k
  · dsimp only
    exact keeps_unwait (keeps_setFlow k)

theorem keeps_requeue {w} (k : Keeps s t) : Keeps s (requeue t w) := by
  unfold requeue
  split
  · exact keeps_enqueue k
  · exact keeps_dropForward k

theorem keeps_dropLink {l} (k : Keeps s t) : Keeps s (dropLink t l) := by
  unfold dropLink
  refine keeps_foldl (fun x e => keeps_foldl (fun y w => ?_) (keeps_refl _)) (keeps_foldl (fun x w => keeps_requeue
    (keeps_refl _))
    (keeps_onSw (keeps_onVault (keeps_setLink k) (fusesStay_refl _))))
  have r := keeps_routeOwn (keeps_refl y) (peer := e.1) (f := w.frame)
  split
  · rename_i q
    exact keeps_enqueue (keeps_fst r q)
  · rename_i q
    exact keeps_fst r q

theorem keeps_putFrame {l f} (k : Keeps s t) : Keeps s (putFrame t l f) :=
  keeps_ite (keeps_dropLink (keeps_emit (keeps_setLink k))) (keeps_emit (keeps_setLink k))

theorem keeps_sendFwd {w} (k : Keeps s t) : Keeps s (sendFwd t w) :=
  keeps_ite (keeps_putFrame k) (keeps_oweCredit (keeps_putFrame k))

theorem keeps_sendOrWait {w} (k : Keeps s t) : Keeps s (sendOrWait t w) :=
  keeps_ite (keeps_sendFwd k) (keeps_enqueue k)

theorem keeps_serveLink {l n} (k : Keeps s t) : Keeps s (serveLink t l n) := by
  induction n generalizing t with
  | zero => exact k
  | succ n ih =>
    rw [serveLink]
    split
    · exact k
    · exact ih (keeps_passOver (keeps_sendFwd (keeps_onSw k)))

theorem keeps_drainForward (k : Keeps s t) : Keeps s (drainForward t) :=
  keeps_ite k (keeps_foldl (fun _ _ => keeps_serveLink (keeps_refl _)) k)

theorem keeps_sendCtl {peer f} (k : Keeps s t) : Keeps s (sendCtl t peer f) := by
  unfold sendCtl
  split
  · exact keeps_putFrame k
  · exact k

theorem keeps_sendOpen {peer reply} (k : Keeps s t) : Keeps s (sendOpen t peer reply) := by
  unfold sendOpen
  split
  · exact k
  · exact keeps_sendCtl k

theorem keeps_transmit {peer f} (k : Keeps s t) : Keeps s (transmit t peer f) := by
  unfold transmit
  split
  · rename_i e
    exact keeps_sendOrWait (keeps_fst (keeps_routeOwn k) e)
  · rename_i e
    exact keeps_fst (keeps_routeOwn k) e

theorem keeps_dropFlow {peer} (k : Keeps s t) : Keeps s (dropFlow t peer) :=
  keeps_onSw (keeps_unwait k)

theorem keeps_closeFlow {peer} (k : Keeps s t) : Keeps s (closeFlow t peer) :=
  keeps_setFlow (keeps_sendCtl k)

theorem keeps_freeEntry (k : Keeps s t) : Keeps s (freeEntry t) := by
  unfold freeEntry
  dsimp only
  refine keeps_ite k ?_
  split
  · exact keeps_closeFlow (keeps_drawNat k)
  · exact k

theorem keeps_enterFlow {peer} (k : Keeps s t) : Keeps s (enterFlow t peer) :=
  keeps_ite (keeps_sendOpen (keeps_setFlow (keeps_onSw (keeps_freeEntry k)))) (keeps_freeEntry k)

theorem keeps_takeFlow {peer} (k : Keeps s t) : Keeps s (takeFlow t peer) := by
  unfold takeFlow
  split
  · exact keeps_ite (keeps_enterFlow (keeps_onSw k)) k
  · exact keeps_enterFlow (keeps_onSw k)

theorem keeps_sendSeq {peer f} (k : Keeps s t) : Keeps s (sendSeq t peer f).1 := by
  unfold sendSeq
  dsimp only
  split
  · dsimp only
    exact keeps_takeFlow k
  · split
    · dsimp only
      exact keeps_transmit (keeps_setFlow (keeps_takeFlow k))
    · dsimp only
      exact keeps_setFlow (keeps_setFlow (keeps_takeFlow k))

theorem keeps_releaseHeld {peer n} (k : Keeps s t) : Keeps s (releaseHeld t peer n) := by
  induction n generalizing t with
  | zero => exact k
  | succ n ih =>
    rw [releaseHeld]
    split
    · exact k
    · split
      · exact k
      · exact keeps_ite (ih (keeps_transmit (keeps_setFlow k))) k

theorem keeps_releaseFlows (k : Keeps s t) : Keeps s (releaseFlows t) :=
  keeps_foldl (fun _ _ => keeps_ite (keeps_refl _) (keeps_releaseHeld (keeps_refl _))) k

theorem keeps_openTxn {dst f chan kind lines} (k : Keeps s t) : Keeps s (openTxn t dst f chan kind lines) := by
  unfold openTxn
  exact keeps_onSw (keeps_sendSeq k)

theorem keeps_sendResp {peer rseq level st word} (k : Keeps s t) : Keeps s (sendResp t peer rseq level st word) :=
  keeps_ite (keeps_sendSeq k) (keeps_setFlow (keeps_sendSeq k))

theorem keeps_sendRdata {peer rseq level st data} (k : Keeps s t) : Keeps s (sendRdata t peer rseq level st data) := by
  unfold sendRdata
  have d : Keeps s (if st = .ok then (data, t) else drawBytes t data.length).2 := keeps_ite_snd k (keeps_drawBytes k)
  exact keeps_ite (keeps_sendSeq d) (keeps_setFlow (keeps_sendSeq d))

theorem keeps_countPerformed {peer seq} (k : Keeps s t) : Keeps s (countPerformed t peer seq) :=
  keeps_setFlow k

end Sys2Proof.Standing
end

section
/-! What the operations of the model's Records part keep. -/

namespace Sys2Proof.Standing

open Sys2Proof.Machine Sys2Proof.Safety

variable {s t u : State}

theorem keeps_putFault {bytes} (k : Keeps s t) : Keeps s (putFault t bytes) :=
  keeps_ite (keeps_pendMessage (keeps_onXl (keeps_tableWrite k))) (keeps_onXl (keeps_tableWrite k))

theorem keeps_armTimers {va rs} (k : Keeps s t) : Keeps s (armTimers t va rs) :=
  keeps_onXl k

theorem keeps_disarm {r va} (k : Keeps s t) : Keeps s (disarm t r va) :=
  keeps_onXl k

theorem keeps_resolvableFault {a2 level acc ctx va reqs} (k : Keeps s t) : Keeps s (resolvableFault t a2 level acc ctx va
    reqs) :=
  keeps_ite (keeps_onXl (keeps_armTimers k)) (keeps_ite (keeps_onXl (keeps_armTimers k)) (keeps_ite (keeps_onXl
    (keeps_putFault (keeps_armTimers k))) (keeps_onXl (keeps_armTimers k))))

theorem keeps_drainFaults {n} (k : Keeps s t) : Keeps s (drainFaults t n) := by
  induction n generalizing t with
  | zero => exact k
  | succ n ih =>
    rw [drainFaults]
    refine keeps_ite k ?_
    split
    · exact ih (keeps_putFault (keeps_onXl k))
    · split
      · exact keeps_ite (ih (keeps_onXl (keeps_putFault (keeps_onXl k)))) k
      · exact k

theorem keeps_drainAll (k : Keeps s t) : Keeps s (drainAll t) :=
  keeps_drainFaults k

theorem keeps_dropForager {c} (k : Keeps s t) : Keeps s (dropForager t c) :=
  keeps_onXl k

theorem keeps_dropRequester {r} (k : Keeps s t) : Keeps s (dropRequester t r) :=
  keeps_drainAll (keeps_onXl k)

end Sys2Proof.Standing
end

section
/-! What the operations of the model's Chan part keep. -/

namespace Sys2Proof.Standing

open Sys2Proof.Machine Sys2Proof.Safety

variable {s t u : State}

theorem keeps_dropWaits {c} (k : Keeps s t) : Keeps s (dropWaits t c) := by
  unfold dropWaits
  exact keeps_onQm k

theorem keeps_cancelRemoteWaits {c} (k : Keeps s t) : Keeps s (cancelRemoteWaits t c) :=
  keeps_foldl (fun _ _ => keeps_sendSeq (keeps_refl _)) (keeps_onSw k)

theorem keeps_spadLose {n} (k : Keeps s t) : Keeps s (spadLose t n) := by
  unfold spadLose
  exact keeps_withFree (keeps_onMv k (cellsWf_filter _ _ _))

theorem keeps_spadClear {n} (k : Keeps s t) : Keeps s (spadClear t n) :=
  keeps_onMv k (cellsWf_filter _ _ _)

theorem keeps_spadWrite {n bs} (k : Keeps s t) : Keeps s (spadWrite t n bs) :=
  keeps_onMv k (cellsWf_cellWriteAll _ _ _)

theorem keeps_clearPins {n} (k : Keeps s t) : Keeps s (clearPins t n) :=
  keeps_ite (keeps_emit (keeps_emit k)) k

theorem keeps_clearCluster {n dest} (k : Keeps s t) : Keeps s (clearCluster t n dest) :=
  keeps_spadLose (keeps_clearPins (keeps_setCluster k))

theorem keeps_freeKernel {n} (k : Keeps s t) : Keeps s (freeKernel t n) :=
  keeps_ite (keeps_clearCluster k) (keeps_setCluster k)

theorem keeps_releaseClusters {c} (k : Keeps s t) : Keeps s (releaseClusters t c) :=
  keeps_setChan (keeps_foldl (fun _ _ => keeps_freeKernel (keeps_refl _)) k)

theorem keeps_chargeKernel {c} (k : Keeps s t) : Keeps s (chargeKernel t c) := by
  unfold chargeKernel
  exact keeps_setChan (keeps_drawNat k)

theorem keeps_endKernels {c} (k : Keeps s t) : Keeps s (endKernels t c) :=
  keeps_releaseClusters (keeps_ite (keeps_foldl (fun _ _ => keeps_spadLose (keeps_emit (keeps_refl _))) (keeps_foldl (fun
    _ _ => keeps_chargeKernel (keeps_refl _)) (keeps_onHe k))) (keeps_onHe k))

theorem keeps_letGo {c} (k : Keeps s t) : Keeps s (letGo t c) :=
  keeps_endKernels (keeps_dropTickets (keeps_dropForager (keeps_dropRequester (keeps_cancelRemoteWaits (keeps_dropWaits
    k)))))

theorem keeps_abortChan {c st inKill} (k : Keeps s t) : Keeps s (abortChan t c st inKill) :=
  keeps_ite k (keeps_setChan (keeps_letGo k))

theorem keeps_retire {c st} (k : Keeps s t) : Keeps s (retire t c st) :=
  keeps_ite k (keeps_ite (keeps_setChan (keeps_ite k (keeps_letGo k))) (keeps_abortChan (keeps_setChan k)))

theorem keeps_retireTo {c pc} (k : Keeps s t) : Keeps s (retireTo t c pc) :=
  keeps_setChan k

theorem keeps_stall {c h} (k : Keeps s t) : Keeps s (stall t c h) :=
  keeps_setChan k

theorem keeps_holdChan {c h} (k : Keeps s t) : Keeps s (holdChan t c h) :=
  keeps_setChan k

theorem keeps_skip {c} (k : Keeps s t) : Keeps s (skip t c) :=
  keeps_setChan k

theorem answers_runInstr {c p eff} (he : Keeps s (eff (chanAt s c).op)) : Answers (runInstr s c p eff) (Keeps s) := by
  unfold runInstr
  exact answers_taken (keeps_ite he (keeps_skip (keeps_refl s)))

end Sys2Proof.Standing
end

section
/-! What the operations of the model's Fences part keep. -/

namespace Sys2Proof.Standing

open Sys2Proof.Machine Sys2Proof.Safety

variable {s t u : State}

theorem keeps_setFence {f g} (k : Keeps s t) : Keeps s (setFence t f g) :=
  keeps_onQm k

theorem keeps_scopeCheck {f fe w} (k : Keeps s t) : Keeps s (scopeCheck t f fe w) := by
  unfold scopeCheck
  split
  · exact keeps_ite (keeps_hiveEvent k) k
  · exact keeps_ite (keeps_hiveEvent k) k

theorem keeps_answerWait {w st} (k : Keeps s t) : Keeps s (answerWait t w st) := by
  unfold answerWait
  split
  · exact keeps_retire k
  · exact keeps_sendResp k

theorem keeps_wakeWaits {f} (k : Keeps s t) : Keeps s (wakeWaits t f) := by
  unfold wakeWaits
  split
  · exact k
  · refine keeps_foldl ?_ (keeps_setFence k)
    intro _ _
    split
    · exact keeps_answerWait (keeps_ite (keeps_scopeCheck (keeps_refl _)) (keeps_refl _))
    · exact keeps_refl _

theorem keeps_poisonCached {f err} (k : Keeps s t) : Keeps s (poisonCached t f err) := by
  unfold poisonCached
  split
  · exact keeps_ite (keeps_wakeWaits (keeps_setFence k)) k
  · exact k

theorem keeps_signalled {c} (k : Keeps s t) : Keeps s (signalled t c) :=
  keeps_setChan k

theorem keeps_performOp {f fe o} (k : Keeps s t) : Keeps s (performOp t f fe o) := by
  unfold performOp
  split
  · exact keeps_retire (keeps_ite (keeps_signalled (keeps_wakeWaits (keeps_setFence k))) (keeps_wakeWaits (keeps_setFence
      k)))
  · refine keeps_ite (keeps_retire k) ?_
    refine keeps_ite (keeps_retire k) ?_
    split
    · exact keeps_retire (keeps_ite (keeps_scopeCheck k) k)
    · exact keeps_setFence k
  · refine keeps_ite (keeps_sendResp (keeps_refuseRemote k)) ?_
    refine keeps_ite (keeps_sendResp k) ?_
    split
    · exact keeps_ite (keeps_countPerformed (keeps_sendResp (keeps_scopeCheck k))) (keeps_sendResp k)
    · exact keeps_countPerformed (keeps_setFence k)
  · exact keeps_ite (keeps_poisonCached k) k
  · exact keeps_ite (keeps_wakeWaits (keeps_setFence k)) k

theorem keeps_failOp {o st} (k : Keeps s t) : Keeps s (failOp t o st) := by
  unfold failOp
  split
  · exact keeps_retire k
  · exact keeps_retire k
  · exact keeps_sendResp k
  · exact k
  · exact k

theorem keeps_writeBack {f} (k : Keeps s t) : Keeps s (writeBack t f) := by
  unfold writeBack
  split
  · exact k
  · exact keeps_ite (keeps_setFence (keeps_tableWrite k)) (keeps_poisonCached (keeps_tableWrite k))

theorem keeps_evictFence {l} (k : Keeps s t) : Keeps s (evictFence l t) := by
  induction l generalizing t with
  | nil => exact k
  | cons e l ih =>
    rw [evictFence]
    have w : Keeps s (if e.2.dirty then writeBack t e.1 else t) := keeps_ite (keeps_writeBack k) k
    exact keeps_ite k (keeps_ite (ih k) (keeps_ite (ih w) (keeps_onQm w)))

theorem keeps_makeRoom (k : Keeps s t) : Keeps s (makeRoom t) :=
  keeps_evictFence k

theorem keeps_putFailed {f st} (k : Keeps s t) : Keeps s (putFailed t f st) :=
  keeps_withFree (keeps_onQm k)

theorem keeps_fill {f} (k : Keeps s t) : Keeps s (fill t f).1 := by
  have r := keeps_tableLine (keeps_makeRoom k) (line := lineOf (fenceAddr t f))
  unfold fill
  refine keeps_ite_fst k (keeps_ite_fst (keeps_makeRoom k) (keeps_ite_fst (keeps_putFailed r) (keeps_ite_fst r
    (keeps_ite_fst r ?_))))
  split
  · dsimp only
    exact keeps_onQm r
  · dsimp only
    exact keeps_onQm r

theorem keeps_drainOps {f l} (k : Keeps s t) : Keeps s (drainOps t f l) := by
  induction l generalizing t with
  | nil => exact k
  | cons o l ih =>
    rw [drainOps]
    split
    · exact ih (keeps_performOp k)
    · exact ih (keeps_failOp k)

theorem keeps_settleFill {f} (k : Keeps s t) : Keeps s (settleFill t f).1 := by
  have r := keeps_fill k (f := f)
  unfold settleFill
  dsimp only
  split
  · exact r
  · exact keeps_drainOps (keeps_onQm r)
  · exact keeps_foldl (fun _ _ => keeps_failOp (keeps_refl _)) (keeps_onQm r)

theorem keeps_fillDone {f} (k : Keeps s t) : Keeps s (fillDone t f) :=
  keeps_settleFill k

theorem keeps_fenceOp {f o} (k : Keeps s t) : Keeps s (fenceOp t f o) := by
  unfold fenceOp
  split
  · exact keeps_performOp k
  · exact keeps_onQm k

theorem keeps_fenceNow {f o} (k : Keeps s t) : Keeps s (fenceNow t f o) := by
  unfold fenceNow
  dsimp only
  split
  · exact keeps_fenceOp (keeps_settleFill k)
  · exact keeps_performOp (keeps_settleFill k)
  · exact keeps_failOp (keeps_settleFill k)

theorem keeps_poisonOwed {ctx hive err f} (k : Keeps s t) : Keeps s (poisonOwed t ctx hive err f) :=
  keeps_fenceNow k

theorem keeps_poisonAllOwed {ctx hive err fs} (k : Keeps s t) : Keeps s (poisonAllOwed t ctx hive err fs) :=
  keeps_foldl (fun _ _ => keeps_poisonOwed (keeps_refl _)) k

end Sys2Proof.Standing
end

section
/-! What the operations of the model's Xlate part keep. -/

namespace Sys2Proof.Standing

open Sys2Proof.Machine Sys2Proof.Safety

variable {s t u : State}

theorem keeps_l1Put {m e} (k : Keeps s t) : Keeps s (l1Put t m e) :=
  keeps_onXl k

theorem keeps_l2Put {e} (k : Keeps s t) : Keeps s (l2Put t e) :=
  keeps_onXl k

theorem keeps_shootdown {ctx va len} (k : Keeps s t) : Keeps s (shootdown t ctx va len) := by
  unfold shootdown
  exact keeps_onXl k

theorem keeps_shootdownAll {ctx} (k : Keeps s t) : Keeps s (shootdownAll t ctx) :=
  keeps_shootdown k

theorem keeps_raiseInv {ctx} (k : Keeps s t) : Keeps s (raiseInv t ctx) :=
  keeps_setCtx k

theorem keeps_grantRights {gs page len} (k : Keeps s t) : Keeps s (grantRights t gs page len).1 :=
  keeps_foldl_fst (fun _ _ => keeps_ite_fst (keeps_tableWord (keeps_refl _)) (keeps_tableWord (keeps_refl _))) k

theorem keeps_finishLeaf {ctx va e level} (k : Keeps s t) : Keeps s (finishLeaf t ctx va e level).1 := by
  unfold finishLeaf
  refine keeps_ite_fst k (keeps_ite_fst k (keeps_ite_fst k ?_))
  have g : Keeps s (if ctx = 0 then (t, some (true, true, true)) else
      grantRights t (ctxAt t ctx).grants (paLocal (fld e 25 32 * 2 ^ 25)) (2 ^ (if level = 2 then 30 else 25))).1 :=
    keeps_ite_fst k (keeps_grantRights k)
  dsimp only
  split
  · exact g
  · exact g

theorem keeps_dirPut {d} (k : Keeps s t) : Keeps s (dirPut t d) :=
  keeps_onXl k

theorem keeps_walkFrom {ctx va a level n} (k : Keeps s t) : Keeps s (walkFrom t ctx va a level n).1 := by
  induction n generalizing t a level with
  | zero => exact k
  | succ n ih =>
    have r := keeps_tableWord k (a := paLocal a + vaIndex va level * 8)
    rw [walkFrom]
    exact keeps_ite_fst k (keeps_ite_fst r (keeps_ite_fst r (keeps_ite_fst r
      (keeps_ite_fst (ih (keeps_ite (keeps_dirPut r) r)) (keeps_finishLeaf r)))))

theorem keeps_walk {ctx va} (k : Keeps s t) : Keeps s (walk t ctx va).1 := by
  unfold walk
  dsimp only
  split
  · exact keeps_walkFrom (keeps_dirPut k)
  · split
    · exact keeps_walkFrom (keeps_dirPut k)
    · exact keeps_walkFrom k

theorem keeps_lookup {m ctx va n} (k : Keeps s t) : Keeps s (lookup t m ctx va n).1 := by
  unfold lookup
  split
  · dsimp only
    exact keeps_l1Put k
  · split
    · dsimp only
      exact keeps_l1Put (keeps_onXl k)
    · dsimp only
      exact k

theorem keeps_xlate {c va n} (k : Keeps s t) : Keeps s (xlate t c va n).1 := by
  unfold xlate
  split
  · rename_i e
    dsimp only
    exact keeps_fst (keeps_lookup k) e
  · rename_i e
    dsimp only
    exact keeps_disarm (keeps_fst (keeps_lookup k) e)

theorem keeps_install {m e} (k : Keeps s t) : Keeps s (install t m e) :=
  keeps_l1Put (keeps_ite k (keeps_l2Put k))

theorem keeps_atsPut {e} (k : Keeps s t) : Keeps s (atsPut t e) :=
  keeps_ite (keeps_onXl k) (keeps_onXl (keeps_drawNat k))

theorem keeps_atsRequest {leaf va wants forager} (k : Keeps s t) (e : atsRequest t leaf va wants forager = some u) : Keeps
    s u := by
  unfold atsRequest at e
  dsimp only at e
  split at e
  · cases e
    exact keeps_onXl k
  · split at e
    · cases e
    · cases e
      exact keeps_onXl (keeps_emit k)

theorem keeps_askWalk {ctx va wants forager} (k : Keeps s t) : Keeps s (askWalk t ctx va wants forager) := by
  unfold askWalk
  exact keeps_onXl k

theorem keeps_forage {h} (k : Keeps s t) : Keeps s (forage t h) :=
  keeps_ite k (keeps_ite (keeps_askWalk k) (keeps_ite (keeps_onXl k) k))

theorem keeps_forageOn {n} (k : Keeps s t) : Keeps s (forageOn t n) := by
  induction n generalizing t with
  | zero => exact k
  | succ n ih =>
    rw [forageOn]
    split
    · exact k
    · exact keeps_ite (ih (keeps_forage (keeps_onXl k))) k

theorem keeps_forageLines {c lines} (k : Keeps s t) : Keeps s (forageLines t c lines) :=
  keeps_foldl (fun _ _ => keeps_forage (keeps_refl _)) k

theorem keeps_foragerLeaf {e hints} (k : Keeps s t) : Keeps s (foragerLeaf t e hints) := by
  unfold foragerLeaf
  refine keeps_ite k ?_
  refine keeps_ite (keeps_ite (keeps_l2Put k) k) ?_
  refine keeps_ite k ?_
  refine keeps_foldl ?_ k
  intro _ _
  refine keeps_ite (keeps_refl _) ?_
  split
  · rename_i e'
    exact keeps_atsRequest (keeps_refl _) e'
  · exact keeps_ite (keeps_onXl (keeps_refl _)) (keeps_refl _)

theorem keeps_releasePins {q idx} (k : Keeps s t) : Keeps s (releasePins t q idx) :=
  keeps_onQm k

theorem keeps_releaseQueuePins {q} (k : Keeps s t) : Keeps s (releaseQueuePins t q) :=
  keeps_onQm k

theorem keeps_permFault {a2 st level acc ctx va r} (k : Keeps s t) : Keeps s (permFault t a2 st level acc ctx va r) :=
  keeps_ite (keeps_putFault k) (keeps_ite (keeps_onXl k) (keeps_onHp k))

end Sys2Proof.Standing
end

section
/-! What the operations of the model's Lines part keep. -/

namespace Sys2Proof.Standing

open Sys2Proof.Machine Sys2Proof.Safety

variable {s t u : State}

theorem keeps_chargeLine {c bytes} (k : Keeps s t) : Keeps s (chargeLine t c bytes) :=
  keeps_charge k

theorem keeps_refuseLine {c pa} (k : Keeps s t) : Keeps s (refuseLine t c pa) :=
  keeps_logErr k

theorem keeps_startWalk {c va acc} (k : Keeps s t) : Keeps s (startWalk t c va acc) :=
  keeps_setChan (keeps_askWalk k)

theorem keeps_showSpadRead {n off level} (k : Keeps s t) : Keeps s (showSpadRead t n off level) :=
  keeps_emit k

theorem keeps_showSpadWrite {n off level bytes} (k : Keeps s t) : Keeps s (showSpadWrite t n off level bytes) :=
  keeps_emit (keeps_emit k)

theorem keeps_flushPack {c} (k : Keeps s t) : Keeps s (flushPack t c) := by
  unfold flushPack
  split
  · exact k
  · exact keeps_openTxn (keeps_setChan k)

theorem keeps_flushFor {c pa} (k : Keeps s t) : Keeps s (flushFor t c pa) := by
  unfold flushFor
  split
  · exact keeps_ite (keeps_flushPack k) k
  · exact k

theorem keeps_packLine {c q} (k : Keeps s t) : Keeps s (packLine t c q) := by
  unfold packLine
  split
  · exact keeps_ite (keeps_setChan k) (keeps_setChan (keeps_flushPack k))
  · exact keeps_setChan k

theorem keeps_readHost {c ua a translated acc} (k : Keeps s t) : Keeps s (readHost t c ua a translated acc) :=
  keeps_ite (keeps_stall k) (keeps_stall (keeps_onHp (keeps_emit (keeps_chargeLine k))))

theorem keeps_readLineAs {acc c ua ahead} (k : Keeps s t) : Keeps s (readLineAs acc t c ua ahead).1 := by
  unfold readLineAs
  dsimp only
  split
  · dsimp only
    exact k
  · refine keeps_ite_fst ?_ ?_
    · split
      · dsimp only
        exact keeps_refuseLine k
      · dsimp only
        exact k
      · split
        · dsimp only
          exact keeps_stall k
        · split
          · dsimp only
            exact keeps_showSpadRead (keeps_chargeLine k)
          · dsimp only
            exact keeps_showSpadRead (keeps_chargeLine k)
    · split
      · dsimp only
        exact keeps_startWalk (keeps_xlate k)
      · dsimp only
        exact keeps_xlate k
      · dsimp only
        exact keeps_readHost (keeps_xlate k)
      · refine keeps_ite_fst ?_ ?_
        · split
          · dsimp only
            exact keeps_refuseLine (keeps_xlate k)
          · split
            · dsimp only
              exact keeps_xlate k
            · split
              · dsimp only
                exact keeps_stall (keeps_flushPack (keeps_xlate k))
              · dsimp only
                exact keeps_stall (keeps_openTxn (keeps_chargeLine (keeps_flushPack (keeps_xlate k))))
        · split
          · split
            · dsimp only
              exact keeps_refuseLine (keeps_xlate k)
            · split
              · dsimp only
                exact keeps_stall (keeps_takePlace (keeps_xlate k))
              · dsimp only
                exact keeps_redeem (keeps_homeRead (keeps_chargeLine (keeps_xlate k)))
          · dsimp only
            exact keeps_refuseLine (keeps_xlate k)

theorem keeps_readLine {c ua} (k : Keeps s t) : Keeps s (readLine t c ua).1 :=
  keeps_readLineAs k

theorem keeps_spadMend {n off a4} (k : Keeps s t) : Keeps s (spadMend t n off a4) := by
  unfold spadMend
  split
  · exact keeps_onMv k id
  · exact k

theorem keeps_putRemote {c pa w capping} (k : Keeps s t) : Keeps s (putRemote t c pa w capping).1 := by
  have f := keeps_flushPack k (c := c)
  have g : Keeps s (if (chanAt t c).sent = 0 then chargeLine (flushPack t c) c (chargeOf w) else flushPack t c) :=
    keeps_ite (keeps_chargeLine f) f
  unfold putRemote
  exact keeps_ite_fst (keeps_stall f) (keeps_ite_fst (keeps_stall (keeps_setChan (keeps_openTxn g)))
    (keeps_ite (keeps_stall (keeps_openTxn g)) (keeps_setChan (keeps_openTxn g))))

theorem keeps_putLine {c ua a4 bulk capping} (k : Keeps s t) : Keeps s (putLine t c ua a4 bulk capping).1 := by
  unfold putLine
  dsimp only
  refine keeps_ite_fst ?_ ?_
  · split
    · dsimp only
      exact keeps_refuseLine k
    · dsimp only
      exact k
    · split
      · dsimp only
        exact keeps_stall k
      · split
        · dsimp only
          exact keeps_showSpadWrite (keeps_chargeLine k)
        · dsimp only
          exact keeps_spadWrite (keeps_spadMend (keeps_showSpadWrite (keeps_chargeLine k)))
  · split
    · dsimp only
      exact keeps_startWalk (keeps_xlate k)
    · dsimp only
      exact keeps_xlate k
    · dsimp only
      exact keeps_setChan (keeps_foldl (fun _ _ => keeps_emit (keeps_refl _)) (keeps_chargeLine (keeps_xlate k)))
    · refine keeps_ite_fst ?_ ?_
      · split
        · dsimp only
          exact keeps_refuseLine (keeps_xlate k)
        · split
          · dsimp only
            exact keeps_xlate k
          · split
            · split
              · dsimp only
                exact keeps_stall (keeps_flushFor (keeps_xlate k))
              · dsimp only
                exact keeps_packLine (keeps_chargeLine (keeps_flushFor (keeps_xlate k)))
            · exact keeps_putRemote (keeps_xlate k)
      · split
        · split
          · dsimp only
            exact keeps_refuseLine (keeps_xlate k)
          · split
            · dsimp only
              exact keeps_stall (keeps_takePlace (keeps_xlate k))
            · dsimp only
              exact keeps_redeem (keeps_homeWrite (keeps_chargeLine (keeps_xlate k)))
        · dsimp only
          exact keeps_refuseLine (keeps_xlate k)

theorem keeps_writeLine {c ua a4 bulk capping} (k : Keeps s t) : Keeps s (writeLine t c ua a4 bulk capping).1 :=
  keeps_flushPack (keeps_putLine k)

theorem keeps_takeLine {c l ahead} (k : Keeps s t) : Keeps s (takeLine t c l ahead).1 := by
  unfold takeLine
  split
  · rename_i e
    dsimp only
    exact keeps_setChan (keeps_fst (keeps_readLineAs k) e)
  · exact keeps_readLineAs k

theorem keeps_readLines {c later ls acc} (k : Keeps s t) : Keeps s (readLines t c later ls acc).1 := by
  induction ls generalizing t acc with
  | nil => exact k
  | cons l ls ih =>
    have r := keeps_takeLine k (c := c) (l := l) (ahead := ls ++ later)
    rw [readLines]
    split
    · rename_i e
      exact ih (keeps_fst r e)
    · rename_i e
      exact keeps_fst r e

theorem keeps_drawPick {c p} (k : Keeps s t) : Keeps s (drawPick t c p) :=
  keeps_ite (keeps_withFree (keeps_setChan k)) k

theorem keeps_noteWrite {c line a4} (k : Keeps s t) : Keeps s (noteWrite t c line a4) := by
  unfold noteWrite
  split
  · exact keeps_setChan k
  · exact k

theorem keeps_runPiece {c p later} (k : Keeps s t) : Keeps s (runPiece t c p later).1 := by
  unfold runPiece
  dsimp only
  split
  · rename_i e
    split
    · rename_i e'
      dsimp only
      exact keeps_setChan (keeps_noteWrite (keeps_fst (keeps_putLine (keeps_drawPick (keeps_fst (keeps_readLines k) e)))
        e'))
    · exact keeps_putLine (keeps_drawPick (keeps_fst (keeps_readLines k) e))
  · rename_i e
    dsimp only
    exact keeps_fst (keeps_readLines k) e

theorem keeps_keepBefore {c line later} (k : Keeps s t) : Keeps s (keepBefore t c line later) := by
  unfold keepBefore
  refine keeps_ite ?_ k
  split
  · exact keeps_setChan k
  · exact k

theorem keeps_finish {c st} (k : Keeps s t) : Keeps s (finish t c st) :=
  keeps_ite (keeps_setChan (keeps_stall k)) (keeps_retire (keeps_dropForager k))

theorem keeps_pieceDone {c keep later} (k : Keeps s t) : Keeps s (pieceDone t c keep later) :=
  keeps_setChan k

theorem keeps_runPieces {c keep ps} (k : Keeps s t) : Keeps s (runPieces t c keep ps).1 := by
  induction ps generalizing t with
  | nil => exact k
  | cons p ps ih =>
    have r := keeps_runPiece (keeps_keepBefore k (c := c) (line := p.dst) (later := ps)) (c := c) (p := p) (later :=
      ps.flatMap (·.srcs))
    rw [runPieces]
    split
    · rename_i e
      exact ih (keeps_pieceDone (keeps_fst r e))
    · rename_i e
      exact keeps_fst r e
    · rename_i e
      exact keeps_fst r e

theorem keeps_runPlan {c ps} (k : Keeps s t) : Keeps s (runPlan t c ps) := by
  unfold runPlan
  split
  · exact keeps_finish k
  · split
    · rename_i e'
      exact keeps_finish (keeps_flushPack (keeps_fst (keeps_runPieces k) e'))
    · rename_i e'
      exact keeps_forageLines (keeps_flushPack (keeps_fst (keeps_runPieces k) e'))

theorem keeps_memInstr {c plan} (k : Keeps s t) : Keeps s (memInstr t c plan) := by
  unfold memInstr
  split
  · exact keeps_retire k
  · exact keeps_runPlan k

end Sys2Proof.Standing
end

section
/-! What the operations of the model's Launch part keep. -/

namespace Sys2Proof.Standing

open Sys2Proof.Machine Sys2Proof.Safety

variable {s t u : State}

theorem keeps_writeLaunchRecord {c cl seq} (k : Keeps s t) : Keeps s (writeLaunchRecord t c cl seq).1 := by
  unfold writeLaunchRecord
  dsimp only
  split
  · rename_i e
    dsimp only
    exact keeps_setChan (keeps_fst (keeps_writeLine k) e)
  · exact keeps_writeLine k

theorem keeps_startKernels {c} (k : Keeps s t) : Keeps s (startKernels t c) :=
  keeps_holdChan (keeps_foldl (fun _ _ => keeps_emit (keeps_refl _)) k)

theorem keeps_takeSeq {c} (k : Keeps s t) : Keeps s (takeSeq t c) := by
  unfold takeSeq
  exact keeps_setHive (keeps_setChan k)

theorem keeps_launchGo {c} (k : Keeps s t) : Keeps s (launchGo t c) := by
  unfold launchGo
  dsimp only
  split
  · exact keeps_ite (keeps_stall k) (keeps_retire (keeps_releaseClusters k))
  · refine keeps_ite ?_ (keeps_ite (keeps_stall k) (keeps_startKernels k))
    split
    · rename_i e'
      exact keeps_fst (keeps_writeLaunchRecord k) e'
    · rename_i e'
      exact keeps_retire (keeps_releaseClusters (keeps_fst (keeps_writeLaunchRecord k) e'))
    · rename_i e'
      exact keeps_ite (keeps_stall (keeps_takeSeq (keeps_fst (keeps_writeLaunchRecord k) e'))) (keeps_startKernels
        (keeps_takeSeq (keeps_fst (keeps_writeLaunchRecord k) e')))

theorem keeps_reserve {c cl} (k : Keeps s t) : Keeps s (reserve t c cl) :=
  keeps_setChan (keeps_foldl (fun _ _ => keeps_setCluster (keeps_refl _)) k)

theorem keeps_launchRequest {c r} (k : Keeps s t) : Keeps s (launchRequest t c r) := by
  unfold launchRequest
  dsimp only
  split
  · exact keeps_retire k
  · split
    · exact keeps_launchGo (keeps_reserve k)
    · exact keeps_holdChan (keeps_setHive k)

theorem keeps_recheckLaunches {h} (k : Keeps s t) : Keeps s (recheckLaunches t h) := by
  refine keeps_foldl (fun x r => ?_) k
  split
  · exact keeps_retire (keeps_setHive (keeps_refl _))
  · exact keeps_refl _

theorem keeps_serveLaunch {h} (k : Keeps s t) (e : serveLaunch t h = some u) : Keeps s u := by
  unfold serveLaunch at e
  split at e
  · cases e
  · split at e
    · cases e
    · cases e
      exact keeps_launchGo (keeps_reserve (keeps_setHive k))

end Sys2Proof.Standing
end

section
/-! What the operations of the model's Tenant part keep. -/

namespace Sys2Proof.Standing

open Sys2Proof.Machine Sys2Proof.Safety

variable {s t u : State}

theorem keeps_retireG {c r v} (k : Keeps s t) : Keeps s (retireG t c r v) :=
  keeps_retire (keeps_setChan k)

theorem keeps_twoTiles {c td ts pairD pairS plan} (k : Keeps s t) : Keeps s (twoTiles t c td ts pairD pairS plan) := by
  unfold twoTiles
  dsimp only
  split
  · exact keeps_memInstr k
  · exact keeps_retire k

theorem answers_execRet {c} : Answers (execRet c s) (Keeps s) := by
  unfold execRet
  dsimp only
  refine answers_runInstr ?_
  split
  · exact keeps_setChan (keeps_refl _)
  · exact keeps_setChan (keeps_refl _)

theorem answers_execLoop {c} : Answers (execLoop c s) (Keeps s) := by
  unfold execLoop
  refine answers_runInstr ?_
  split
  · exact keeps_ite (keeps_retireTo (keeps_setChan (keeps_refl _))) (keeps_retireG (keeps_refl _))
  · exact keeps_refl _

theorem answers_execBr {c} : Answers (execBr c s) (Keeps s) := by
  unfold execBr
  refine answers_runInstr ?_
  split
  · exact keeps_retireTo (keeps_refl _)
  · exact keeps_refl _

theorem answers_execSetp {c} : Answers (execSetp c s) (Keeps s) := by
  unfold execSetp
  refine answers_runInstr ?_
  split
  · exact keeps_retire (keeps_setChan (keeps_refl _))
  · exact keeps_refl _

theorem answers_execLdG {c} : Answers (execLdG c s) (Keeps s) := by
  unfold execLdG
  refine answers_runInstr ?_
  split
  · refine keeps_ite (keeps_retire (keeps_refl _)) ?_
    split
    · exact keeps_finish (keeps_refl _)
    · split
      · rename_i e''
        exact keeps_fst (keeps_readLine (keeps_refl _)) e''
      · rename_i e''
        exact keeps_finish (keeps_fst (keeps_readLine (keeps_refl _)) e'')
      · rename_i e''
        exact keeps_ite (keeps_retire (keeps_setChan (keeps_fst (keeps_readLine (keeps_refl _)) e''))) (keeps_retireG
          (keeps_fst (keeps_readLine (keeps_refl _)) e''))
  · exact keeps_refl _

theorem keeps_oneWrite {c line a4 capping} (k : Keeps s t) : Keeps s (oneWrite t c line a4 capping) := by
  unfold oneWrite
  dsimp only
  split
  · exact keeps_finish k
  · refine keeps_ite ?_ (keeps_finish k)
    split
    · rename_i e'
      exact keeps_fst (keeps_writeLine k) e'
    · rename_i e'
      exact keeps_finish (keeps_fst (keeps_writeLine k) e')
    · rename_i e'
      exact keeps_finish (keeps_setChan (keeps_fst (keeps_writeLine k) e'))

theorem answers_execStG {c} : Answers (execStG c s) (Keeps s) := by
  unfold execStG
  refine answers_runInstr ?_
  split
  · exact keeps_ite (keeps_retire (keeps_refl _)) (keeps_oneWrite (keeps_refl _))
  · exact keeps_refl _

theorem keeps_enterObject {c va words} (k : Keeps s t) : Keeps s (enterObject t c va words) :=
  keeps_setChan k

theorem keeps_decodeObject {c va words} (k : Keeps s t) : Keeps s (decodeObject t c va words) := by
  unfold decodeObject
  split
  · exact keeps_retire k
  · exact keeps_enterObject k

theorem keeps_fetchObject {c va} (k : Keeps s t) : Keeps s (fetchObject t c va) := by
  unfold fetchObject
  split
  · rename_i e
    exact keeps_fst (keeps_readLineAs k) e
  · rename_i e
    exact keeps_finish (keeps_fst (keeps_readLineAs k) e)
  · rename_i e
    refine keeps_ite ?_ (keeps_decodeObject (keeps_fst (keeps_readLineAs k) e))
    split
    · rename_i e'
      exact keeps_fst (keeps_readLineAs (keeps_setChan (keeps_fst (keeps_readLineAs k) e))) e'
    · rename_i e'
      exact keeps_finish (keeps_fst (keeps_readLineAs (keeps_setChan (keeps_fst (keeps_readLineAs k) e))) e')
    · rename_i e'
      exact keeps_decodeObject (keeps_fst (keeps_readLineAs (keeps_setChan (keeps_fst (keeps_readLineAs k) e))) e')

theorem answers_execCall {c} : Answers (execCall c s) (Keeps s) := by
  unfold execCall
  refine answers_runInstr ?_
  split
  · refine keeps_ite (keeps_retire (keeps_refl _)) ?_
    split
    · exact keeps_enterObject (keeps_refl _)
    · exact keeps_finish (keeps_refl _)
    · exact keeps_fetchObject (keeps_refl _)
  · exact keeps_refl _

theorem answers_execMoveSpan {c} : Answers (execMoveSpan c s) (Keeps s) := by
  unfold execMoveSpan
  refine answers_runInstr ?_
  split
  · exact keeps_ite (keeps_retire (keeps_refl _)) (keeps_ite (keeps_retire (keeps_refl _)) (keeps_runPlan (keeps_refl _)))
  · exact keeps_refl _

theorem answers_execMoveGset {c} : Answers (execMoveGset c s) (Keeps s) := by
  unfold execMoveGset
  refine answers_runInstr ?_
  split
  · exact keeps_retireG (keeps_refl _)
  · exact keeps_refl _

theorem answers_execMoveTset {c} : Answers (execMoveTset c s) (Keeps s) := by
  unfold execMoveTset
  refine answers_runInstr ?_
  split
  · exact keeps_retire (keeps_setChan (keeps_refl _))
  · exact keeps_refl _

theorem answers_execMoveT {c} : Answers (execMoveT c s) (Keeps s) := by
  unfold execMoveT
  refine answers_runInstr ?_
  split
  · exact keeps_twoTiles (keeps_refl _)
  · exact keeps_refl _

theorem keeps_runRows {c o n} (k : Keeps s t) : Keeps s (runRows t c o n).1 := by
  induction n generalizing t with
  | zero => exact k
  | succ n ih =>
    rw [runRows]
    dsimp only
    refine keeps_ite_fst k ?_
    split
    · rename_i e
      exact keeps_fst (keeps_takeLine k) e
    · rename_i e
      exact keeps_fst (keeps_takeLine k) e
    · rename_i e
      have r := keeps_fst (keeps_takeLine k) e
      refine keeps_ite_fst (ih (keeps_setChan r)) (keeps_ite_fst r ?_)
      split
      · exact r
      · split
        · rename_i e'
          exact ih (keeps_setChan (keeps_fst (keeps_runPieces r) e'))
        · exact keeps_runPieces r

theorem keeps_rowInstr {c o} (k : Keeps s t) : Keeps s (rowInstr t c o) := by
  unfold rowInstr
  refine keeps_ite (keeps_retire k) ?_
  split
  · exact keeps_finish k
  · split
    · rename_i e'
      exact keeps_finish (keeps_flushPack (keeps_fst (keeps_runRows k) e'))
    · rename_i e'
      exact keeps_forageLines (keeps_flushPack (keeps_fst (keeps_runRows k) e'))

theorem answers_execGather {c} : Answers (execGather c s) (Keeps s) := by
  unfold execGather
  refine answers_runInstr ?_
  split
  · exact keeps_rowInstr (keeps_refl _)
  · exact keeps_refl _

theorem answers_execScatter {c} : Answers (execScatter c s) (Keeps s) := by
  unfold execScatter
  refine answers_runInstr ?_
  split
  · exact keeps_rowInstr (keeps_refl _)
  · exact keeps_refl _

theorem answers_execFill {c} : Answers (execFill c s) (Keeps s) := by
  unfold execFill
  refine answers_runInstr ?_
  split
  · split
    · exact keeps_memInstr (keeps_refl _)
    · exact keeps_retire (keeps_refl _)
  · exact keeps_memInstr (keeps_refl _)
  · exact keeps_refl _

theorem answers_execReduce {c} : Answers (execReduce c s) (Keeps s) := by
  unfold execReduce
  refine answers_runInstr ?_
  split
  · exact keeps_twoTiles (keeps_refl _)
  · exact keeps_refl _

theorem answers_execConvert {c} : Answers (execConvert c s) (Keeps s) := by
  unfold execConvert
  refine answers_runInstr ?_
  split
  · exact keeps_twoTiles (keeps_refl _)
  · exact keeps_refl _

theorem answers_execReduceCvt {c} : Answers (execReduceCvt c s) (Keeps s) := by
  unfold execReduceCvt
  refine answers_runInstr ?_
  split
  · exact keeps_twoTiles (keeps_refl _)
  · exact keeps_refl _

theorem keeps_atomEnd {c rv gd old} (k : Keeps s t) : Keeps s (atomEnd t c rv gd old) :=
  keeps_ite (keeps_retireG k) (keeps_retire k)

theorem keeps_atomInstr {c o} (k : Keeps s t) : Keeps s (atomInstr t c o) := by
  unfold atomInstr
  split
  · refine keeps_ite (keeps_retire k) ?_
    split
    · exact keeps_atomEnd k
    · exact keeps_finish k
    · split
      · rename_i e''
        exact keeps_fst (keeps_writeLine k) e''
      · rename_i e''
        exact keeps_finish (keeps_fst (keeps_writeLine k) e'')
      · rename_i e''
        exact keeps_ite (keeps_fst (keeps_writeLine k) e'') (keeps_atomEnd (keeps_fst (keeps_writeLine k) e''))
  · exact k

theorem answers_execAtomAdd {c} : Answers (execAtomAdd c s) (Keeps s) :=
  answers_runInstr (keeps_atomInstr (keeps_refl _))

theorem answers_execAtomMax {c} : Answers (execAtomMax c s) (Keeps s) :=
  answers_runInstr (keeps_atomInstr (keeps_refl _))

theorem answers_execAtomMin {c} : Answers (execAtomMin c s) (Keeps s) :=
  answers_runInstr (keeps_atomInstr (keeps_refl _))

theorem answers_execAtomXchg {c} : Answers (execAtomXchg c s) (Keeps s) :=
  answers_runInstr (keeps_atomInstr (keeps_refl _))

theorem answers_execAtomCas {c} : Answers (execAtomCas c s) (Keeps s) :=
  answers_runInstr (keeps_atomInstr (keeps_refl _))

theorem keeps_flushRead {c} (k : Keeps s t) : Keeps s (flushRead t c) :=
  keeps_ite (keeps_stall k) (keeps_stall (keeps_onHp (keeps_emit k)))

theorem answers_execSignal {c} : Answers (execSignal c s) (Keeps s) := by
  unfold execSignal
  dsimp only
  refine answers_runInstr ?_
  split
  · split
    · exact keeps_retire (keeps_refl _)
    · exact keeps_ite (keeps_flushRead (keeps_refl _)) (keeps_ite (keeps_retire (keeps_refl _)) (keeps_fenceOp
        (keeps_stall (keeps_refl _))))
  · exact keeps_refl _

theorem keeps_remoteWait {c chip n a5} (k : Keeps s t) : Keeps s (remoteWait t c chip n a5) :=
  keeps_ite (keeps_retire k) (keeps_openTxn (keeps_holdChan k))

theorem answers_execWait {c} : Answers (execWait c s) (Keeps s) := by
  unfold execWait
  refine answers_runInstr ?_
  split
  · exact keeps_ite (keeps_retire (keeps_refl _)) (keeps_ite (keeps_remoteWait (keeps_refl _)) (keeps_fenceOp
      (keeps_holdChan (keeps_refl _))))
  · exact keeps_refl _

theorem answers_execFlush {c} : Answers (execFlush c s) (Keeps s) := by
  unfold execFlush
  refine answers_runInstr ?_
  split
  · split
    · exact keeps_retire (keeps_refl _)
    · exact keeps_ite (keeps_flushRead (keeps_refl _)) (keeps_retire (keeps_refl _))
  · exact keeps_refl _

theorem answers_execCap {c} : Answers (execCap c s) (Keeps s) := by
  unfold execCap
  refine answers_runInstr ?_
  split
  · exact keeps_ite (keeps_retire (keeps_refl _)) (keeps_oneWrite (keeps_refl _))
  · exact keeps_refl _

theorem answers_execLaunch {c} : Answers (execLaunch c s) (Keeps s) := by
  unfold execLaunch
  dsimp only
  refine answers_runInstr ?_
  split
  · exact keeps_refl _
  · exact keeps_ite (keeps_launchGo (keeps_refl _)) (keeps_ite (keeps_retire (keeps_refl _)) (keeps_launchRequest
      (keeps_refl _)))

theorem answers_execLaunchQuery {c} : Answers (execLaunchQuery c s) (Keeps s) := by
  unfold execLaunchQuery
  refine answers_runInstr ?_
  refine keeps_ite (keeps_retire (keeps_refl _)) ?_
  split
  · exact keeps_finish (keeps_refl _)
  · refine keeps_ite ?_ (keeps_finish (keeps_refl _))
    split
    · rename_i e'
      exact keeps_fst (keeps_writeLaunchRecord (keeps_refl _)) e'
    · rename_i e'
      exact keeps_finish (keeps_fst (keeps_writeLaunchRecord (keeps_refl _)) e')
    · rename_i e'
      exact keeps_finish (keeps_fst (keeps_writeLaunchRecord (keeps_refl _)) e')

theorem answers_execLaunchReservation {h} : Answers (execLaunchReservation h s) (Keeps s) := by
  unfold execLaunchReservation
  split
  · rename_i e
    exact answers_next (keeps_serveLaunch (keeps_refl s) e)
  · exact answers_next (keeps_refl s)

end Sys2Proof.Standing
end

section
/-! What the operations of the model's Complete part keep. -/

namespace Sys2Proof.Standing

open Sys2Proof.Machine Sys2Proof.Safety

variable {s t u : State}

theorem keeps_pinnedEntry {ctx va n r} (k : Keeps s t) : Keeps s (pinnedEntry t ctx va n r).1 := by
  unfold pinnedEntry
  dsimp only
  split
  · split
    · dsimp only
      exact k
    · split
      · split
        · dsimp only
          exact keeps_permFault (keeps_walk k)
        · dsimp only
          exact keeps_walk k
      · split
        · dsimp only
          exact keeps_ite (keeps_walk k) (keeps_l2Put (keeps_walk k))
        · dsimp only
          exact keeps_walk k
  · split
    · split
      · dsimp only
        exact keeps_permFault (keeps_walk k)
      · dsimp only
        exact keeps_walk k
    · split
      · dsimp only
        exact keeps_ite (keeps_walk k) (keeps_l2Put (keeps_walk k))
      · dsimp only
        exact keeps_walk k

theorem keeps_hostSend {leaf va n r} (k : Keeps s t) : Keeps s (hostSend t leaf va n r).1 := by
  unfold hostSend
  split
  · exact k
  · dsimp only
    cases e : atsRequest t leaf va [{ r := r, access := accessOf n, va := va }] [] with
    | none => exact k
    | some u => exact keeps_atsRequest k e

theorem keeps_lostRecord {ctx pa st told} (k : Keeps s t) : Keeps s (lostRecord t ctx pa st told) :=
  keeps_ite k (keeps_logErr k)

theorem keeps_setEnded {q idx} (k : Keeps s t) : Keeps s (setEnded t q idx) :=
  keeps_setQueue k

theorem keeps_freeChan {c} (k : Keeps s t) : Keeps s (freeChan t c) :=
  keeps_ite (keeps_raiseIrq (keeps_setChan (keeps_releasePins k))) (keeps_setChan (keeps_releasePins k))

theorem keeps_recordDone {r} (k : Keeps s t) : Keeps s (recordDone t r) := by
  unfold recordDone
  split
  · exact keeps_freeChan (keeps_setEnded (keeps_onQm k))
  · exact keeps_setEnded (keeps_onQm k)

theorem keeps_refuseRecord {r hive ctx pa} (k : Keeps s t) : Keeps s (refuseRecord t r hive ctx pa) :=
  keeps_recordDone (keeps_logErr k)

theorem keeps_recordGo {r e} (k : Keeps s t) : Keeps s (recordGo t r e) := by
  unfold recordGo
  refine keeps_ite ?_ (keeps_ite (keeps_ite (keeps_refuseRecord k) (keeps_ite (keeps_recordDone (keeps_lostRecord k))
    (keeps_openTxn k))) (keeps_ite (keeps_takePlace k) (keeps_recordDone (keeps_lostRecord (keeps_redeem (keeps_homeWrite
    k))))))
  split
  · rename_i e'
    exact keeps_recordDone (keeps_emit (keeps_fst (keeps_hostSend k) e'))
  · rename_i e'
    exact keeps_fst (keeps_hostSend k) e'

theorem keeps_startRecord {r} (k : Keeps s t) : Keeps s (startRecord t r) := by
  unfold startRecord
  dsimp only
  split
  · exact keeps_recordGo k
  · exact keeps_askWalk k

theorem keeps_recordEnds {q idx pa st} (k : Keeps s t) : Keeps s (recordEnds t q idx pa st) := by
  unfold recordEnds
  split
  · exact keeps_recordDone (keeps_lostRecord k)
  · exact k

theorem keeps_leaveQueue {q idx st depth word m c chan} (k : Keeps s t) : Keeps s (leaveQueue t q idx st depth word m c
    chan) :=
  keeps_startRecord (keeps_onQm (keeps_charge k))

theorem keeps_account {q ctx m c} (k : Keeps s t) : Keeps s (account t q ctx m c) := by
  unfold account
  exact keeps_setCtx (keeps_setQueue k)

theorem keeps_stopOnErr {q st} (k : Keeps s t) : Keeps s (stopOnErr t q st) :=
  keeps_setQueue k

theorem keeps_endCommand {c st depth word} (k : Keeps s t) : Keeps s (endCommand t c st depth word) :=
  keeps_leaveQueue (keeps_stall (keeps_stopOnErr (keeps_account (keeps_ite (keeps_drawNat k) (keeps_ite (keeps_onQm
    (keeps_drawNat k)) (keeps_poisonAllOwed (keeps_drawNat k)))))))

theorem keeps_dropCmd {q idx} (k : Keeps s t) : Keeps s (dropCmd t q idx) :=
  keeps_onQm (keeps_dropRequester (keeps_releasePins k))

theorem keeps_setCmd {q idx f} (k : Keeps s t) : Keeps s (setCmd t q idx f) :=
  keeps_onQm k

theorem keeps_discard {q idx st word} (k : Keeps s t) : Keeps s (Machine.discard t q idx st word) := by
  unfold Machine.discard
  split
  · exact k
  · exact keeps_stopOnErr (keeps_poisonAllOwed (keeps_leaveQueue (keeps_dropCmd k)))

end Sys2Proof.Standing
end

section
/-! What the operations of the model's Kill part keep. -/

namespace Sys2Proof.Standing

open Sys2Proof.Machine Sys2Proof.Safety

variable {s t u : State}

theorem keeps_recordRest {q} (k : Keeps s t) : Keeps s (recordRest t q) :=
  keeps_foldl (fun _ _ => keeps_leaveQueue (keeps_refl _)) k

theorem keeps_startQueueReset {q chan unbind} (k : Keeps s t) : Keeps s (startQueueReset t q chan unbind) :=
  keeps_foldl (fun _ _ => keeps_abortChan (keeps_refl _)) (keeps_foldl (fun _ _ => keeps_discard (keeps_refl _))
    (keeps_onQm (keeps_setQueue k)))

theorem keeps_finishQueueReset {q chan unbind} (k : Keeps s t) : Keeps s (finishQueueReset t q chan unbind) := by
  unfold finishQueueReset
  dsimp only
  refine keeps_ite (keeps_recordRest k) ?_
  split
  · exact keeps_retire (keeps_onQm (keeps_ite (keeps_setQueue (keeps_releaseQueuePins (keeps_recordRest k)))
      (keeps_setQueue (keeps_recordRest k))))
  · exact keeps_onQm (keeps_ite (keeps_setQueue (keeps_releaseQueuePins (keeps_recordRest k))) (keeps_setQueue
      (keeps_recordRest k)))

theorem keeps_logObjectLine {o st} (k : Keeps s t) : Keeps s (logObjectLine t o st) :=
  keeps_ite k (keeps_logErr k)

theorem keeps_unloadGrants {hive dies gs} (k : Keeps s t) : Keeps s (unloadGrants t hive dies gs) :=
  keeps_foldl (fun _ _ => keeps_ite (keeps_logObjectLine (keeps_tableWord (keeps_refl _))) (keeps_ite (keeps_logObjectLine
    (keeps_tableWrite (keeps_tableWord (keeps_refl _)))) (keeps_ite (keeps_hiveEvent (keeps_tableWrite (keeps_tableWord
    (keeps_refl _)))) (keeps_tableWrite (keeps_tableWord (keeps_refl _)))))) k

theorem keeps_startKill {ctx chan noRecords} (k : Keeps s t) : Keeps s (startKill t ctx chan noRecords) :=
  keeps_foldl (fun _ _ => keeps_abortChan (keeps_refl _)) (keeps_onQm (keeps_foldl (fun _ _ => keeps_dropCmd (keeps_refl
    _)) (keeps_foldl (fun _ _ => keeps_setQueue (keeps_refl _)) (keeps_setCtx k))))

theorem keeps_beginSweep (k : Keeps s t) : Keeps s (beginSweep t) := by
  unfold beginSweep
  refine keeps_ite k ?_
  refine keeps_foldl ?_ (keeps_onHe (keeps_onQm k))
  intro _ _
  split
  · exact keeps_poisonCached (keeps_refl _)
  · exact keeps_refl _

theorem keeps_sweepLine {line} (k : Keeps s t) : Keeps s (sweepLine t line) := by
  unfold sweepLine
  dsimp only
  refine keeps_foldl ?_ (keeps_tableLine k)
  intro _ _
  refine keeps_ite (keeps_refl _) ?_
  refine keeps_ite (keeps_ite (keeps_makeRoom (keeps_refl _)) (keeps_putFailed (keeps_makeRoom (keeps_refl _)))) ?_
  split
  · exact keeps_tableWrite (keeps_refl _)
  · exact keeps_refl _

theorem keeps_stopHost {ctx} (k : Keeps s t) : Keeps s (stopHost t ctx) := by
  unfold stopHost
  refine keeps_ite ?_ ?_
  · refine keeps_emit ?_
    refine keeps_onXl ?_
    refine keeps_foldl ?_ k
    intro _ _
    split
    · exact keeps_setChan (keeps_refl _)
    · exact keeps_refl _
  · refine keeps_onXl ?_
    refine keeps_foldl ?_ k
    intro _ _
    split
    · exact keeps_setChan (keeps_refl _)
    · exact keeps_refl _

theorem keeps_recordKill {a2} (k : Keeps s t) : Keeps s (recordKill t a2) := by
  unfold recordKill
  exact keeps_onQm (keeps_ite (keeps_poisonAllOwed k) (keeps_foldl (fun _ _ => keeps_recordRest (keeps_refl _))
    (keeps_poisonAllOwed k)))

theorem keeps_finishKill {a2} (k : Keeps s t) : Keeps s (finishKill t a2) := by
  unfold finishKill
  dsimp only
  split
  · refine keeps_retire ?_
    refine keeps_onQm ?_
    refine keeps_onHp ?_
    refine keeps_setCtx ?_
    refine keeps_stopHost ?_
    refine keeps_unloadGrants ?_
    refine keeps_shootdownAll ?_
    refine keeps_raiseInv ?_
    refine keeps_foldl ?_ k
    intro _ _
    split
    · exact keeps_retire (keeps_onQm (keeps_setQueue (keeps_releaseQueuePins (keeps_refl _))))
    · exact keeps_onQm (keeps_setQueue (keeps_releaseQueuePins (keeps_refl _)))
  · refine keeps_onQm ?_
    refine keeps_onHp ?_
    refine keeps_setCtx ?_
    refine keeps_stopHost ?_
    refine keeps_unloadGrants ?_
    refine keeps_shootdownAll ?_
    refine keeps_raiseInv ?_
    refine keeps_foldl ?_ k
    intro _ _
    split
    · exact keeps_retire (keeps_onQm (keeps_setQueue (keeps_releaseQueuePins (keeps_refl _))))
    · exact keeps_onQm (keeps_setQueue (keeps_releaseQueuePins (keeps_refl _)))

theorem keeps_clearClusters {h teardown} (k : Keeps s t) : Keeps s (clearClusters t h teardown) := by
  unfold clearClusters
  refine keeps_foldl ?_ k
  intro _ _
  split
  · exact keeps_ite (keeps_clearCluster (keeps_refl _)) (keeps_refl _)
  · exact keeps_clearCluster (keeps_refl _)
  · exact keeps_clearCluster (keeps_refl _)
  · exact keeps_ite (keeps_setCluster (keeps_refl _)) (keeps_refl _)
  · exact keeps_refl _

theorem keeps_endHiveWork {h keep} (k : Keeps s t) : Keeps s (endHiveWork t h keep) :=
  keeps_foldl (fun _ _ => keeps_retire (keeps_refl _)) (keeps_ite (keeps_onHe k) (keeps_onXl (keeps_onHe k)))

theorem keeps_startHiveReset {h teardown chan cause detail noRecords} (k : Keeps s t) : Keeps s (startHiveReset t h
    teardown chan cause detail noRecords) := by
  unfold startHiveReset
  exact keeps_onHe (keeps_clearClusters (keeps_foldl (fun _ _ => keeps_startKill (keeps_refl _)) (keeps_endHiveWork
    (keeps_setHive k))))

theorem keeps_resetFailed {r} (k : Keeps s t) : Keeps s (resetFailed t r) := by
  unfold resetFailed
  split
  · exact keeps_retire (keeps_onHe k)
  · exact keeps_onHe k

theorem keeps_hiveMiddle {r} (k : Keeps s t) : Keeps s (hiveMiddle t r) :=
  keeps_ite (keeps_resetFailed (keeps_zeroSlot (keeps_foldl (fun _ _ => keeps_setLabel (keeps_refl _)) k))) (keeps_ite
    (keeps_resetFailed (keeps_ite (keeps_zeroSlot (keeps_foldl (fun _ _ => keeps_setLabel (keeps_refl _)) k))
    (keeps_deriveHiveKey (keeps_zeroSlot (keeps_foldl (fun _ _ => keeps_setLabel (keeps_refl _)) k))))) (keeps_onHe
    (keeps_foldl (fun _ _ => keeps_markFresh (keeps_refl _)) (keeps_ite (keeps_zeroSlot (keeps_foldl (fun _ _ =>
    keeps_setLabel (keeps_refl _)) k)) (keeps_deriveHiveKey (keeps_zeroSlot (keeps_foldl (fun _ _ => keeps_setLabel
    (keeps_refl _)) k)))))))

theorem keeps_clearMessages {h teardown} (k : Keeps s t) : Keeps s (clearMessages t h teardown) := by
  unfold clearMessages
  exact keeps_onSq (keeps_onHp k)

theorem keeps_releaseHive {h} (k : Keeps s t) : Keeps s (releaseHive t h) :=
  keeps_foldl (fun _ _ => keeps_retire (keeps_refl _)) (keeps_foldl (fun _ _ => keeps_commonsLeft (keeps_refl _))
    (keeps_onVault (keeps_onHp (keeps_setHive (keeps_foldl (fun _ _ => keeps_setLabel (keeps_refl _)) (keeps_onQm
    (keeps_foldl (fun _ _ => keeps_setCluster (keeps_refl _)) k))))) (fusesStay_refl _)))

theorem keeps_finishHiveReset {r} (k : Keeps s t) : Keeps s (finishHiveReset t r) := by
  unfold finishHiveReset
  dsimp only
  split
  · exact keeps_retire (keeps_ite (keeps_onXl (keeps_onHe (keeps_ite (keeps_releaseHive (keeps_clearMessages k))
      (keeps_foldl (fun _ _ => keeps_setLabel (keeps_refl _)) (keeps_setHive (keeps_clearMessages k)))))) (keeps_onHe
      (keeps_ite (keeps_releaseHive (keeps_clearMessages k)) (keeps_foldl (fun _ _ => keeps_setLabel (keeps_refl _))
      (keeps_setHive (keeps_clearMessages k))))))
  · exact keeps_hiveEvent (keeps_ite (keeps_onXl (keeps_onHe (keeps_ite (keeps_releaseHive (keeps_clearMessages k))
      (keeps_foldl (fun _ _ => keeps_setLabel (keeps_refl _)) (keeps_setHive (keeps_clearMessages k)))))) (keeps_onHe
      (keeps_ite (keeps_releaseHive (keeps_clearMessages k)) (keeps_foldl (fun _ _ => keeps_setLabel (keeps_refl _))
      (keeps_setHive (keeps_clearMessages k))))))

theorem keeps_undoCreate {j} (k : Keeps s t) : Keeps s (undoCreate t j) :=
  keeps_retire (keeps_onHe (keeps_releaseHive (keeps_foldl (fun _ _ => keeps_markFresh (keeps_refl _)) (keeps_zeroSlot
    (keeps_foldl (fun _ _ => keeps_clearCluster (keeps_refl _)) k)))))

theorem keeps_finishCreate {j} (k : Keeps s t) : Keeps s (finishCreate t j) :=
  keeps_retire (keeps_onHe (keeps_setHive k))

theorem keeps_advanceCreate {j} (k : Keeps s t) : Keeps s (advanceCreate t j) :=
  keeps_ite (keeps_undoCreate k) (keeps_ite (keeps_finishCreate k) k)

theorem keeps_endResize {j st} (k : Keeps s t) : Keeps s (endResize t j st) :=
  keeps_retire (keeps_onHe (keeps_setHive k))

theorem keeps_finishJob {j} (k : Keeps s t) : Keeps s (finishJob t j) := by
  unfold finishJob
  refine keeps_retire ?_
  split
  · exact keeps_commonsLeft (keeps_onQm k)
  · exact keeps_onQm k

theorem keeps_endMigration {j st to_} (k : Keeps s t) : Keeps s (endMigration t j st to_) :=
  keeps_retire (keeps_onXl (keeps_onHe (keeps_setHive k)))

theorem keeps_closeFence {f} (k : Keeps s t) : Keeps s (closeFence t f) :=
  keeps_fenceNow k

theorem keeps_handover {j} (k : Keeps s t) : Keeps s (handover t j) :=
  keeps_startHiveReset (keeps_onHe (keeps_foldl (fun _ _ => keeps_closeFence (keeps_refl _)) k))

theorem keeps_migrationGoes {j} (k : Keeps s t) : Keeps s (migrationGoes t j) := by
  unfold migrationGoes
  refine keeps_ite k ?_
  split
  · exact keeps_endMigration k
  · exact keeps_endMigration k
  · exact keeps_handover k
  · exact k

theorem keeps_performTurn {h} (k : Keeps s t) : Keeps s (performTurn t h) := by
  unfold performTurn
  split
  · exact keeps_redeem (keeps_homeWrite k)
  · split
    · exact keeps_ite (keeps_startRecord k) (keeps_startRecord (keeps_redeem k))
    · exact keeps_redeem k
  · exact k

theorem keeps_settleTurns {n} (k : Keeps s t) : Keeps s (settleTurns t n) := by
  induction n generalizing t with
  | zero => exact k
  | succ n ih =>
    rw [settleTurns]
    dsimp only
    split
    · exact ih (keeps_performTurn k)
    · exact k

theorem keeps_sweptOn (k : Keeps s t) : Keeps s (sweptOn t) :=
  keeps_foldl (fun _ _ => keeps_ite (keeps_hiveMiddle (keeps_refl _)) (keeps_refl _)) (keeps_foldl (fun _ _ => keeps_ite
    (keeps_finishKill (keeps_refl _)) (keeps_refl _)) k)

theorem keeps_endLinkJobs (k : Keeps s t) : Keeps s (endLinkJobs t) :=
  keeps_foldl (fun _ _ => keeps_retire (keeps_refl _)) (keeps_onQm k)

theorem keeps_settleLinks (k : Keeps s t) : Keeps s (settleLinks t) :=
  keeps_endLinkJobs (keeps_drainForward k)

theorem keeps_progress (k : Keeps s t) : Keeps s (progress t) :=
  keeps_settleLinks (keeps_foldl (fun _ _ => keeps_ite (keeps_finishJob (keeps_refl _)) (keeps_refl _)) (keeps_foldl (fun
    _ _ => keeps_ite (keeps_endResize (keeps_refl _)) (keeps_refl _)) (keeps_foldl (fun _ _ => keeps_advanceCreate
    (keeps_refl _)) (keeps_foldl (fun _ _ => keeps_ite (keeps_finishHiveReset (keeps_refl _)) (keeps_refl _))
    (keeps_sweptOn (keeps_beginSweep (keeps_foldl (fun _ _ => keeps_migrationGoes (keeps_refl _)) (keeps_foldl (fun _ _ =>
    keeps_ite (keeps_finishQueueReset (keeps_refl _)) (keeps_refl _)) (keeps_settleTurns k)))))))))

theorem keeps_sweepDone (k : Keeps s t) : Keeps s (sweepDone t) :=
  keeps_progress (keeps_onHe (keeps_foldl (fun _ _ => keeps_recordKill (keeps_refl _)) (keeps_onQm (keeps_foldl (fun _ _
    => keeps_sweepLine (keeps_refl _)) k))))

end Sys2Proof.Standing
end

section
/-! What the operations of the model's Path part keep. -/

namespace Sys2Proof.Standing

open Sys2Proof.Machine Sys2Proof.Safety

variable {s t u : State}

theorem keeps_issueSlotRead {q idx} (k : Keeps s t) : Keeps s (issueSlotRead t q idx) := by
  unfold issueSlotRead
  dsimp only
  split
  · rename_i e
    refine keeps_ite ?_ (keeps_fst (keeps_pinnedEntry k) e)
    split
    · rename_i e'
      exact keeps_onHp (keeps_emit (keeps_fst (keeps_hostSend (keeps_fst (keeps_pinnedEntry k) e)) e'))
    · rename_i e'
      exact keeps_fst (keeps_hostSend (keeps_fst (keeps_pinnedEntry k) e)) e'
  · exact k

theorem answers_execSlotFetch {q} : Answers (execSlotFetch q s) (Keeps s) :=
  answers_taken (keeps_inStream (keeps_refl _) (keeps_issueSlotRead (keeps_onQm (keeps_setQueue (keeps_charge (keeps_refl
    _))))))

theorem keeps_fetched {q idx words} (k : Keeps s t) : Keeps s (fetched t q idx words) := by
  unfold fetched
  split
  · exact keeps_discard (keeps_setCmd k)
  · exact keeps_setCmd k

theorem keeps_readSlot {q idx} (k : Keeps s t) : Keeps s (readSlot t q idx).1 := by
  unfold readSlot
  dsimp only
  split
  · rename_i e
    dsimp only
    exact keeps_fst (keeps_pinnedEntry k) e
  · rename_i e
    split
    · dsimp only
      exact keeps_fst (keeps_pinnedEntry k) e
    · split
      · dsimp only
        exact keeps_logErr (keeps_fst (keeps_pinnedEntry k) e)
      · split
        · dsimp only
          exact keeps_logErr (keeps_fst (keeps_pinnedEntry k) e)
        · split
          · dsimp only
            exact keeps_fst (keeps_pinnedEntry k) e
          · split
            · dsimp only
              exact keeps_homeRead (keeps_fst (keeps_pinnedEntry k) e)
            · dsimp only
              exact keeps_logErr (keeps_fst (keeps_pinnedEntry k) e)

theorem answers_execSlotReadDone {q idx} : Answers (execSlotReadDone q idx s) (Keeps s) := by
  unfold execSlotReadDone
  split
  · exact answers_next (keeps_refl _)
  · refine answers_taken ?_
    refine keeps_ite (keeps_fetched (keeps_refl _)) ?_
    split
    · rename_i e'
      exact keeps_fetched (keeps_fst (keeps_readSlot (keeps_refl _)) e')
    · rename_i e'
      exact keeps_issueSlotRead (keeps_fst (keeps_readSlot (keeps_refl _)) e')
    · rename_i e'
      exact keeps_progress (keeps_discard (keeps_fst (keeps_readSlot (keeps_refl _)) e'))

theorem keeps_faultOf {a2 st level acc ctx va r} (k : Keeps s t) : Keeps s (faultOf t a2 st level acc ctx va r).1 := by
  unfold faultOf
  split
  · dsimp only
    exact keeps_resolvableFault k
  · dsimp only
    exact keeps_permFault k

theorem keeps_preHost {r pass e p l n} (hp : ∀ x, Keeps x (pass x)) (k : Keeps s t) : Keeps s (preHost t r pass e p l n).1
    := by
  induction l generalizing t n with
  | nil => exact k
  | cons a l ih =>
    cases n with
    | succ n => exact ih k
    | zero =>
      rw [preHost]
      split
      · exact ih (k.trans (hp t))
      · split
        · rename_i e
          exact keeps_atsRequest k e
        · exact k

theorem keeps_prePage {q idx ctx tmo p va skip} (k : Keeps s t) : Keeps s (prePage t q idx ctx tmo p va skip).1 := by
  unfold prePage
  dsimp only
  split
  · split
    · dsimp only
      exact k
    · split
      · dsimp only
        exact keeps_faultOf k
      · split
        · dsimp only
          exact keeps_faultOf (keeps_walk k)
        · refine keeps_ite_fst ?_ ?_
          · split
            · dsimp only
              exact keeps_walk k
            · split
              · exact keeps_preHost (fun _ => keeps_setCmd (keeps_refl _)) (keeps_walk k)
              · dsimp only
                exact keeps_faultOf (keeps_walk k)
          · split
            · dsimp only
              exact keeps_l2Put (keeps_walk k)
            · dsimp only
              exact keeps_faultOf (keeps_walk k)
  · split
    · dsimp only
      exact keeps_faultOf k
    · split
      · dsimp only
        exact keeps_faultOf (keeps_walk k)
      · refine keeps_ite_fst ?_ ?_
        · split
          · dsimp only
            exact keeps_walk k
          · split
            · exact keeps_preHost (fun _ => keeps_setCmd (keeps_refl _)) (keeps_walk k)
            · dsimp only
              exact keeps_faultOf (keeps_walk k)
        · split
          · dsimp only
            exact keeps_l2Put (keeps_walk k)
          · dsimp only
            exact keeps_faultOf (keeps_walk k)

theorem keeps_prePages {q idx ctx tmo l n} (k : Keeps s t) : Keeps s (prePages t q idx ctx tmo l n).1 := by
  induction l generalizing t n with
  | nil => exact k
  | cons x r ih =>
    rw [prePages]
    split
    · rename_i e
      exact ih (keeps_disarm (keeps_fst (keeps_prePage k) e))
    · rename_i e
      exact keeps_fst (keeps_prePage k) e

theorem keeps_reenter {q hive} (k : Keeps s t) : Keeps s (reenter t q hive) :=
  keeps_ite k (keeps_setQueue k)

theorem answers_execPreTranslate {q idx} : Answers (execPreTranslate q idx s) (Keeps s) := by
  unfold execPreTranslate
  split
  · exact answers_next (keeps_refl _)
  · refine answers_taken ?_
    refine keeps_ite (keeps_refl _) ?_
    split
    · rename_i e'
      exact keeps_setCmd (keeps_onQm (keeps_reenter (keeps_fst (keeps_prePages (keeps_refl _)) e')))
    · rename_i e'
      exact keeps_setCmd (keeps_fst (keeps_prePages (keeps_refl _)) e')
    · rename_i e'
      exact keeps_fst (keeps_prePages (keeps_refl _)) e'
    · rename_i e'
      exact keeps_progress (keeps_discard (keeps_fst (keeps_prePages (keeps_refl _)) e'))

theorem keeps_preReadTimeout {q idx} (k : Keeps s t) : Keeps s (preReadTimeout t q idx) := by
  unfold preReadTimeout
  split
  · exact k
  · refine keeps_ite ?_ k
    split
    · rename_i e'
      exact keeps_progress (keeps_discard (keeps_fst (keeps_prePages k) e'))
    · exact k

theorem answers_execPreTranslationTimeout {q idx} : Answers (execPreTranslationTimeout q idx s) (Keeps s) := by
  unfold execPreTranslationTimeout
  split
  · exact answers_next (keeps_refl _)
  · exact answers_taken (keeps_progress (keeps_discard (keeps_refl _)))

theorem answers_execDispatch {c} : Answers (execDispatch c s) (Keeps s) := by
  unfold execDispatch
  split
  · exact answers_next (keeps_refl _)
  · split
    · exact answers_next (keeps_refl _)
    · exact answers_taken (keeps_onQm (keeps_setMover (keeps_setChan (keeps_refl _))))

theorem answers_execCommandComplete {c} : Answers (execCommandComplete c s) (Keeps s) :=
  answers_taken (keeps_ite (keeps_flushRead (keeps_refl _)) (keeps_progress (keeps_endCommand (keeps_refl _))))

theorem answers_execAbortSettleDone {c} : Answers (execAbortSettleDone c s) (Keeps s) :=
  answers_taken (keeps_progress (keeps_endCommand (keeps_refl _)))

end Sys2Proof.Standing
end

section
/-! What the operations of the model's Faults part keep. -/

namespace Sys2Proof.Standing

open Sys2Proof.Machine Sys2Proof.Safety

variable {s t u : State}

theorem keeps_count {f} (k : Keeps s t) : Keeps s (count t f) :=
  keeps_onHp k

theorem keeps_refuseHost (k : Keeps s t) : Keeps s (refuseHost t) :=
  keeps_emit (keeps_refuseInput k)

theorem keeps_sinkWrite {logged} (k : Keeps s t) : Keeps s (sinkWrite t logged) :=
  keeps_ite (keeps_refuseHost (keeps_count k)) (keeps_count k)

theorem keeps_wake {c} (k : Keeps s t) : Keeps s (wake t c) :=
  keeps_setChan k

theorem keeps_endReq {st r} (k : Keeps s t) : Keeps s (endReq t st r) := by
  unfold endReq
  dsimp only
  split
  · exact keeps_finish (keeps_wake (keeps_dropRequester k))
  · exact keeps_discard (keeps_dropRequester k)
  · split
    · exact keeps_recordDone (keeps_lostRecord (keeps_dropRequester k))
    · exact keeps_dropRequester k

theorem keeps_unpark {q idx} (k : Keeps s t) : Keeps s (unpark t q idx) := by
  unfold unpark
  split
  · exact k
  · exact keeps_ite (keeps_issueSlotRead (keeps_setCmd k)) (keeps_setCmd k)

theorem keeps_retryReq {a2} (k : Keeps s t) : Keeps s (retryReq t a2) := by
  unfold retryReq
  split
  · exact keeps_wake k
  · exact keeps_unpark k
  · split
    · exact keeps_startRecord k
    · exact k

theorem keeps_faultReq {a2} (k : Keeps s t) : Keeps s (faultReq t a2) := by
  unfold faultReq
  split
  · exact keeps_setChan k
  · exact keeps_setCmd k
  · exact k

theorem keeps_hostReq {a2} (k : Keeps s t) : Keeps s (hostReq t a2) := by
  unfold hostReq
  split
  · exact keeps_setChan k
  · exact keeps_setCmd k
  · exact k

theorem keeps_permAll {a2 st level acc ctx va rs} (k : Keeps s t) : Keeps s (permAll t a2 st level acc ctx va rs) :=
  keeps_foldl (fun _ _ => keeps_endReq (keeps_permFault (keeps_refl _))) k

theorem keeps_meetFault {a2 st level acc ctx va reqs} (k : Keeps s t) : Keeps s (meetFault t a2 st level acc ctx va reqs)
    :=
  keeps_ite (keeps_foldl (fun _ _ => keeps_endReq (keeps_refl _)) k) (keeps_ite (keeps_foldl (fun _ _ => keeps_faultReq
    (keeps_refl _)) (keeps_resolvableFault (keeps_foldl (fun _ _ => keeps_endReq (keeps_refl _)) k))) (keeps_permAll
    (keeps_foldl (fun _ _ => keeps_endReq (keeps_refl _)) k)))

theorem keeps_faultAll {a2 st level ctx ws} (k : Keeps s t) : Keeps s (faultAll t a2 st level ctx ws) :=
  keeps_foldl (fun _ _ => keeps_meetFault (keeps_refl _)) k

theorem keeps_granted {e w} (k : Keeps s t) : Keeps s (granted t e w) := by
  unfold granted
  split
  · exact keeps_retryReq (keeps_disarm (keeps_install k))
  · split
    · exact keeps_recordGo (keeps_ite k (keeps_l2Put k))
    · exact k
  · exact keeps_retryReq (keeps_disarm k)

theorem keeps_hostWant {leaf w} (k : Keeps s t) (e : hostWant t leaf w = some u) : Keeps s u := by
  unfold hostWant at e
  split at e
  · cases e
    exact keeps_granted k
  · exact keeps_atsRequest (keeps_hostReq k) e

theorem keeps_hostWantOr {leaf w} (k : Keeps s t) : Keeps s ((hostWant t leaf w).getD t) := by
  cases e : hostWant t leaf w with
  | none => exact k
  | some u => exact keeps_hostWant k e

theorem keeps_leafWant {e lr gr w} (k : Keeps s t) (h : leafWant t e lr gr w = some u) : Keeps s u := by
  unfold leafWant at h
  dsimp only at h
  split at h
  · cases h
    exact keeps_endReq k
  · split at h
    · split at h
      · exact keeps_hostWant k h
      · cases h
        exact keeps_granted k
    · split at h
      · cases h
        split
        · exact keeps_retryReq (keeps_l1Put k)
        · split
          · exact keeps_recordGo k
          · exact k
        · exact k
      · cases h
        exact keeps_meetFault k

theorem keeps_leafWants {e lr gr l} (k : Keeps s t) : Keeps s (leafWants t e lr gr l).1 := by
  induction l generalizing t with
  | nil => exact k
  | cons w r ih =>
    rw [leafWants]
    split
    · rename_i h
      exact ih (keeps_leafWant k h)
    · exact ih k

theorem keeps_settleWalk {w} (k : Keeps s t) : Keeps s (settleWalk t w) := by
  unfold settleWalk
  refine keeps_forageOn ?_
  split
  · exact keeps_faultAll (keeps_walk (keeps_onXl k))
  · exact keeps_ite (keeps_leafWants (keeps_foragerLeaf (keeps_walk (keeps_onXl k)))) (keeps_onXl (keeps_leafWants
      (keeps_foragerLeaf (keeps_walk (keeps_onXl k)))))

theorem answers_execTableWalkDone {w} : Answers (execTableWalkDone w s) (Keeps s) := by
  unfold execTableWalkDone
  split
  · exact answers_next (keeps_refl _)
  · exact answers_next (keeps_ite (keeps_progress (keeps_settleWalk (keeps_refl _))) (keeps_onXl (keeps_refl _)))

theorem keeps_sendOnePri (k : Keeps s t) : Keeps s (sendOnePri t) := by
  unfold sendOnePri
  dsimp only
  split
  · exact keeps_onXl (keeps_emit (keeps_onXl k))
  · exact keeps_onXl k

theorem keeps_sendPri (k : Keeps s t) : Keeps s (sendPri t) :=
  keeps_ite (keeps_foldl (fun _ _ => keeps_sendOnePri (keeps_refl _)) k) k

theorem keeps_pageRequest {ctx va acc reqs} (k : Keeps s t) : Keeps s (pageRequest t ctx va acc reqs) :=
  keeps_ite (keeps_meetFault k) (keeps_ite (keeps_permAll k) (keeps_ite (keeps_meetFault (keeps_permAll k)) (keeps_sendPri
    (keeps_onXl (keeps_meetFault (keeps_permAll k))))))

theorem keeps_dropRec {f} (k : Keeps s t) : Keeps s (dropRec t f) :=
  keeps_onXl k

theorem keeps_retryRec {f} (k : Keeps s t) : Keeps s (retryRec t f) :=
  keeps_foldl (fun _ _ => keeps_retryReq (keeps_refl _)) (keeps_onXl (keeps_dropRec k))

theorem keeps_denyRec {f} (k : Keeps s t) : Keeps s (denyRec t f) :=
  keeps_permAll (keeps_dropRec k)

theorem keeps_endPri {f} (k : Keeps s t) : Keeps s (endPri t f) :=
  keeps_ite (keeps_onXl k) k

theorem keeps_dupResponse (k : Keeps s t) : Keeps s (dupResponse t) :=
  keeps_count k

theorem answers_execFaultAnswer {w} : Answers (execFaultAnswer w s) (Keeps s) := by
  unfold execFaultAnswer
  refine answers_hostAccess ?_
  refine keeps_ite (keeps_sinkWrite (keeps_refl _)) ?_
  split
  · exact keeps_dupResponse (keeps_refl _)
  · exact keeps_ite (keeps_progress (keeps_drainAll (keeps_retryRec (keeps_endPri (keeps_refl _))))) (keeps_ite
      (keeps_progress (keeps_drainAll (keeps_foldl (fun _ _ => keeps_endReq (keeps_refl _)) (keeps_dropRec (keeps_endPri
      (keeps_refl _)))))) (keeps_ite (keeps_progress (keeps_drainAll (keeps_foldl (fun _ _ => keeps_endReq (keeps_refl _))
      (keeps_dropRec (keeps_endPri (keeps_refl _)))))) (keeps_dupResponse (keeps_refl _))))

theorem answers_execFaultConsumed {w} : Answers (execFaultConsumed w s) (Keeps s) :=
  answers_hostAccess (keeps_ite (keeps_sinkWrite (keeps_refl _)) (keeps_ite (keeps_drainAll (keeps_onXl (keeps_refl _)))
    (keeps_count (keeps_refl _))))

theorem answers_execPageFaultServiceTimeout {r} : Answers (execPageFaultServiceTimeout r s) (Keeps s) :=
  answers_taken (keeps_progress (keeps_endReq (keeps_refl _)))

theorem keeps_hostOn (k : Keeps s t) : Keeps s (hostOn t) :=
  keeps_foldl (fun _ _ => keeps_ite (keeps_refl _) (keeps_setChan (keeps_refl _))) k

theorem keeps_sendWaiting (k : Keeps s t) : Keeps s (sendWaiting t) :=
  keeps_foldl (fun _ _ => keeps_startRecord (keeps_refl _)) (keeps_hostOn k)

theorem answers_execAtsTranslationCompletion {id a} : Answers (execAtsTranslationCompletion id a s) (Keeps s) := by
  unfold execAtsTranslationCompletion
  split
  · exact answers_next (keeps_onXl (keeps_refl _))
  · refine answers_next ?_
    refine keeps_progress ?_
    refine keeps_sendWaiting ?_
    refine keeps_ite (keeps_foldl (fun _ _ => keeps_retryReq (keeps_refl _)) (keeps_onXl (keeps_refl _))) ?_
    split
    · exact keeps_faultAll (keeps_onXl (keeps_refl _))
    · exact keeps_foldl (fun _ _ => keeps_pageRequest (keeps_refl _)) (keeps_foldl (fun _ _ => keeps_hostWantOr
        (keeps_refl _)) (keeps_ite (keeps_atsPut (keeps_onXl (keeps_refl _))) (keeps_onXl (keeps_refl _))))

theorem answers_execAtsRequestTimeout {id} : Answers (execAtsRequestTimeout id s) (Keeps s) := by
  unfold execAtsRequestTimeout
  split
  · exact answers_next (keeps_refl _)
  · exact answers_next (keeps_progress (keeps_sendWaiting (keeps_foldl (fun _ _ => keeps_endReq (keeps_refl _))
      (keeps_onXl (keeps_refl _)))))

theorem answers_execPrgResponse {pasid group code} : Answers (execPrgResponse pasid group code s) (Keeps s) := by
  unfold execPrgResponse
  refine answers_hostAccess ?_
  split
  · split
    · exact keeps_ite (keeps_sendPri (keeps_dupResponse (keeps_onXl (keeps_refl _)))) (keeps_progress (keeps_sendPri
        (keeps_drainAll (keeps_foldl (fun _ _ => keeps_retryRec (keeps_refl _)) (keeps_onXl (keeps_refl _))))))
    · exact keeps_ite (keeps_sendPri (keeps_dupResponse (keeps_onXl (keeps_refl _)))) (keeps_progress (keeps_sendPri
        (keeps_drainAll (keeps_foldl (fun _ _ => keeps_denyRec (keeps_refl _)) (keeps_onXl (keeps_refl _))))))
    · exact keeps_progress (keeps_drainAll (keeps_foldl (fun _ _ => keeps_denyRec (keeps_refl _)) (keeps_onHp (keeps_onXl
        (keeps_onXl (keeps_refl _))))))
  · exact keeps_dupResponse (keeps_refl _)

theorem keeps_settleInvs (k : Keeps s t) : Keeps s (settleInvs t) :=
  keeps_foldl (fun _ _ => keeps_emit (keeps_refl _)) (keeps_onXl k)

theorem answers_execAtsInvalidationRequest {itag pasid va sizeLog2} : Answers (execAtsInvalidationRequest itag pasid va
    sizeLog2 s) (Keeps s) := by
  unfold execAtsInvalidationRequest
  refine answers_hostAccess ?_
  split
  · exact keeps_emit (keeps_count (keeps_refl _))
  · exact keeps_settleInvs (keeps_onXl (keeps_refl _))

theorem answers_execPriEnableChange {ats pri} : Answers (execPriEnableChange ats pri s) (Keeps s) :=
  answers_next (keeps_ite (keeps_sendPri (keeps_ite (keeps_onHp (keeps_refl _)) (keeps_onXl (keeps_onHp (keeps_refl _)))))
    (keeps_progress (keeps_drainAll (keeps_foldl (fun _ _ => keeps_denyRec (keeps_refl _)) (keeps_onXl (keeps_ite
    (keeps_onHp (keeps_refl _)) (keeps_onXl (keeps_onHp (keeps_refl _)))))))))

theorem answers_execHostReadCompletion {id ok data} : Answers (execHostReadCompletion id ok data s) (Keeps s) := by
  unfold execHostReadCompletion
  split
  · exact answers_next (keeps_refl _)
  · refine answers_next ?_
    refine keeps_ite (keeps_settleInvs (keeps_hostOn (keeps_onHp (keeps_refl _)))) ?_
    refine keeps_ite ?_ (keeps_progress (keeps_endReq (keeps_permFault (keeps_settleInvs (keeps_hostOn (keeps_onHp
      (keeps_refl _)))))))
    split
    · exact keeps_setChan (keeps_wake (keeps_settleInvs (keeps_hostOn (keeps_onHp (keeps_refl _)))))
    · exact keeps_setCmd (keeps_settleInvs (keeps_hostOn (keeps_onHp (keeps_refl _))))
    · exact keeps_settleInvs (keeps_hostOn (keeps_onHp (keeps_refl _)))

theorem answers_execHostFlushReadCompletion {id} : Answers (execHostFlushReadCompletion id s) (Keeps s) := by
  unfold execHostFlushReadCompletion
  split
  · exact answers_next (keeps_refl _)
  · exact answers_next (keeps_setChan (keeps_wake (keeps_hostOn (keeps_onHp (keeps_refl _)))))

end Sys2Proof.Standing
end

section
/-! What the operations of the model's Sequencer part keep. -/

namespace Sys2Proof.Standing

open Sys2Proof.Machine Sys2Proof.Safety

variable {s t u : State}

theorem keeps_dropPcie (k : Keeps s t) : Keeps s (dropPcie t) :=
  keeps_onSq (keeps_onHp k)

theorem keeps_startWarm {keepPcie} (k : Keeps s t) : Keeps s (startWarm t keepPcie) :=
  keeps_ite (keeps_ite k (keeps_dropPcie k)) (keeps_onKp k id id)

theorem keeps_fatal {hive ugroup unit cause} (k : Keeps s t) : Keeps s (fatal t hive ugroup unit cause) :=
  keeps_startWarm (keeps_logErr k)

theorem keeps_hwHiveReset {h cause detail} (k : Keeps s t) : Keeps s (hwHiveReset t h cause detail) := by
  unfold hwHiveReset
  refine keeps_ite (keeps_fatal k) ?_
  split
  · exact k
  · exact k
  · exact k
  · exact k
  · exact keeps_startHiveReset (keeps_wakeStream k)

theorem keeps_logEscalation {h} (k : Keeps s t) : Keeps s (logEscalation t h) :=
  keeps_logErr k

theorem answers_execResetEscalation {o} : Answers (execResetEscalation o s) (Keeps s) := by
  unfold execResetEscalation
  split
  · exact answers_taken (keeps_progress (keeps_hwHiveReset (keeps_logEscalation (keeps_refl _))))
  · exact answers_taken (keeps_progress (keeps_hwHiveReset (keeps_logEscalation (keeps_refl _))))
  · exact answers_taken (keeps_progress (keeps_hwHiveReset (keeps_logEscalation (keeps_refl _))))
  · exact answers_taken (keeps_startWarm (keeps_logEscalation (keeps_refl _)))
  · exact answers_taken (keeps_onKp (keeps_logEscalation (keeps_refl _)) id id)

theorem keeps_setMsg {v f} (k : Keeps s t) : Keeps s (setMsg t v f) :=
  keeps_onSq k

theorem keeps_setPending {v} (k : Keeps s t) : Keeps s (setPending t v) :=
  keeps_onHp k

theorem keeps_chargeMessage {m} (k : Keeps s t) : Keeps s (chargeMessage t m).1 := by
  unfold chargeMessage
  dsimp only
  split
  · dsimp only
    exact k
  · split
    · dsimp only
      exact k
    · split
      · dsimp only
        exact keeps_setMsg (keeps_setHive k)
      · split
        · dsimp only
          exact k
        · dsimp only
          exact keeps_setLabel (keeps_setMsg (keeps_setPending k))

theorem keeps_sendMessage {v} (k : Keeps s t) : Keeps s (sendMessage t v) :=
  keeps_ite (keeps_setPending k) (keeps_ite (keeps_logErr k) (keeps_onSq (keeps_onHp (keeps_emit k))))

theorem answers_execMsixMessageSend {v} : Answers (execMsixMessageSend v s) (Keeps s) := by
  unfold execMsixMessageSend
  split
  · exact answers_next (keeps_refl _)
  · exact answers_next (keeps_ite (keeps_sendMessage (keeps_chargeMessage (keeps_refl _))) (keeps_chargeMessage
      (keeps_refl _)))

theorem answers_execEventConsumed {w} : Answers (execEventConsumed w s) (Keeps s) :=
  answers_hostAccess (keeps_ite (keeps_sinkWrite (keeps_refl _)) (keeps_ite (keeps_ite (keeps_hiveEvent (keeps_onSq
    (keeps_onSq (keeps_refl _)))) (keeps_onSq (keeps_refl _))) (keeps_count (keeps_refl _))))

theorem answers_execQueueWatchdogExpiry {c} : Answers (execQueueWatchdogExpiry c s) (Keeps s) :=
  answers_taken (keeps_ite (keeps_abortChan (keeps_hiveEvent (keeps_setQueue (keeps_refl _)))) (keeps_hiveEvent
    (keeps_setQueue (keeps_refl _))))

theorem answers_execWaitTimeout {c} : Answers (execWaitTimeout c s) (Keeps s) :=
  answers_taken (keeps_retire (keeps_refl _))

theorem answers_execFenceCacheFillDone {f} : Answers (execFenceCacheFillDone f s) (Keeps s) :=
  answers_taken (keeps_inStream (keeps_refl _) (keeps_fillDone (keeps_refl _)))

theorem answers_execFenceCacheWriteback {f} : Answers (execFenceCacheWriteback f s) (Keeps s) :=
  answers_taken (keeps_inStream (keeps_refl _) (keeps_writeBack (keeps_refl _)))

theorem answers_execFenceTableSweepDone : Answers (execFenceTableSweepDone s) (Keeps s) :=
  answers_taken (keeps_sweepDone (keeps_refl _))

end Sys2Proof.Standing
end

section
/-! What the operations of the model's Clusters part keep. -/

namespace Sys2Proof.Standing

open Sys2Proof.Machine Sys2Proof.Safety

variable {s t u : State}

theorem answers_heard {n a3} (k2 : Keeps s a3) : Answers (heard s n a3) (Keeps s) :=
  answers_next (keeps_ite k2 (keeps_refl _))

theorem keeps_leftResize {n} (k : Keeps s t) : Keeps s (leftResize t n) :=
  keeps_onHe k

theorem keeps_failCluster {n} (k : Keeps s t) : Keeps s (failCluster t n) :=
  keeps_setCluster (keeps_leftResize k)

theorem keeps_clusterMoved {h} (k : Keeps s t) : Keeps s (clusterMoved t h) :=
  keeps_progress (keeps_recheckLaunches k)

theorem answers_execClusterFault {n} : Answers (execClusterFault n s) (Keeps s) :=
  answers_heard (keeps_clusterMoved (keeps_ite (keeps_hwHiveReset (keeps_hiveEvent (keeps_failCluster (keeps_refl _))))
    (keeps_hiveEvent (keeps_failCluster (keeps_refl _)))))

theorem answers_execClusterPowerGood {n} : Answers (execClusterPowerGood n s) (Keeps s) :=
  answers_taken (keeps_emit (keeps_setCluster (keeps_refl _)))

theorem keeps_clearFailed {n} (k : Keeps s t) : Keeps s (clearFailed t n) :=
  keeps_clusterMoved (keeps_logErr (keeps_failCluster k))

theorem answers_execClusterClearDone {n spadLog2} : Answers (execClusterClearDone n spadLog2 s) (Keeps s) :=
  answers_heard (keeps_ite (keeps_refuseInput (keeps_refl _)) (keeps_ite (keeps_clearFailed (keeps_refl _)) (keeps_ite
    (keeps_clusterMoved (keeps_setCluster (keeps_spadClear (keeps_refl _)))) (keeps_clusterMoved (keeps_ite
    (keeps_hiveEvent (keeps_setCluster (keeps_leftResize (keeps_spadClear (keeps_refl _))))) (keeps_setCluster
    (keeps_leftResize (keeps_spadClear (keeps_refl _)))))))))

theorem answers_execClusterClearTimeout {n} : Answers (execClusterClearTimeout n s) (Keeps s) :=
  answers_taken (keeps_clearFailed (keeps_refl _))

theorem keeps_collectEnd {c n exit} (k : Keeps s t) : Keeps s (collectEnd t c n exit) :=
  keeps_ite (keeps_retire (keeps_setChan (keeps_setChan (keeps_chargeKernel k)))) (keeps_setChan (keeps_chargeKernel k))

theorem answers_execKernelEnd {n exit writes} : Answers (execKernelEnd n exit writes s) (Keeps s) := by
  unfold execKernelEnd
  refine answers_heard ?_
  split
  · exact keeps_ite (keeps_clusterMoved (keeps_freeKernel (keeps_collectEnd (keeps_spadWrite (keeps_refl _)))))
      (keeps_refuseInput (keeps_refl _))
  · exact keeps_refuseInput (keeps_refl _)

theorem answers_execClusterInterrupt {n} : Answers (execClusterInterrupt n s) (Keeps s) :=
  answers_heard (keeps_ite (keeps_raiseIrq (keeps_refl _)) (keeps_refuseInput (keeps_refl _)))

theorem answers_execResizeTimeout {h} : Answers (execResizeTimeout h s) (Keeps s) := by
  unfold execResizeTimeout
  split
  · exact answers_next (keeps_refl _)
  · exact answers_next (keeps_endResize (keeps_foldl (fun _ _ => keeps_setCluster (keeps_refl _)) (keeps_refl _)))

end Sys2Proof.Standing
end

section
/-! What the operations of the model's Images part keep. -/

namespace Sys2Proof.Standing

open Sys2Proof.Machine Sys2Proof.Safety

variable {s t u : State}

theorem keeps_imageLines {c n l} (k : Keeps s t) : Keeps s (imageLines t c n l).1 := by
  induction l generalizing t with
  | nil => exact k
  | cons a r ih =>
    rw [imageLines]
    split
    · rename_i e
      have x := keeps_fst (keeps_xlate k) e
      exact keeps_ite_fst x (keeps_startWalk x)
    · rename_i e
      have x := keeps_fst (keeps_xlate k) e
      exact keeps_ite_fst (ih x) x
    · rename_i e
      exact keeps_fst (keeps_xlate k) e

theorem keeps_imageRead {c l acc} (k : Keeps s t) : Keeps s (imageRead t c l acc).1 := by
  induction l generalizing t acc with
  | nil => exact k
  | cons a r ih =>
    rw [imageRead]
    split
    · rename_i e
      exact ih (keeps_setChan (keeps_fst (keeps_readLine k) e))
    · rename_i e
      exact keeps_fst (keeps_readLine k) e

theorem keeps_withImage {c a align n f} (k : Keeps s t) (hf : ∀ x bs, Keeps x (f x bs)) :
    Keeps s (withImage t c a align n f) := by
  unfold withImage
  refine keeps_ite (keeps_retire k) ?_
  split
  · exact keeps_retire k
  · split
    · rename_i e
      exact keeps_retire (keeps_fst (keeps_imageLines k) e)
    · rename_i e
      exact keeps_fst (keeps_imageLines k) e
    · rename_i e
      have x := keeps_fst (keeps_imageLines k) e
      split
      · rename_i e'
        exact keeps_retire (keeps_fst (keeps_imageRead x) e')
      · rename_i e'
        exact keeps_fst (keeps_imageRead x) e'
      · rename_i e'
        exact (keeps_fst (keeps_imageRead x) e').trans (hf _ _)

theorem keeps_recordWrite {c a bytes l} (k : Keeps s t) : Keeps s (recordWrite t c a bytes l).1 := by
  induction l generalizing t with
  | nil => exact k
  | cons b r ih =>
    rw [recordWrite]
    dsimp only
    split
    · rename_i e
      exact ih (keeps_setChan (keeps_fst (keeps_writeLine k) e))
    · rename_i e
      exact keeps_fst (keeps_writeLine k) e

theorem keeps_withRecord {c a align check bytes} (k : Keeps s t) : Keeps s (withRecord t c a align check bytes) := by
  unfold withRecord
  refine keeps_ite (keeps_retire k) ?_
  split
  · exact keeps_retire k
  · split
    · rename_i e'
      exact keeps_retire (keeps_fst (keeps_imageLines k) e')
    · rename_i e'
      exact keeps_fst (keeps_imageLines k) e'
    · rename_i e'
      split
      · exact keeps_retire (keeps_fst (keeps_imageLines k) e')
      · split
        · rename_i e'''
          exact keeps_retire (keeps_fst (keeps_recordWrite (keeps_fst (keeps_imageLines k) e')) e''')
        · rename_i e'''
          exact keeps_fst (keeps_recordWrite (keeps_fst (keeps_imageLines k) e')) e'''
        · rename_i e'''
          exact keeps_retire (keeps_fst (keeps_recordWrite (keeps_fst (keeps_imageLines k) e')) e''')

theorem keeps_checked {c checks eff} (k : Keeps s t) (k3 : Keeps s eff) : Keeps s (checked t c checks eff) := by
  unfold checked
  split
  · exact keeps_retire k
  · exact k3

theorem keeps_prepareComb {c} (k : Keeps s t) : Keeps s (prepareComb t c) :=
  keeps_ite (keeps_ite k (keeps_markFresh (keeps_deriveCommonsKey k))) (keeps_markFresh k)

theorem keeps_pendSettings {ls} (k : Keeps s t) : Keeps s (pendSettings t ls) :=
  keeps_foldl (fun _ _ => keeps_setLabel (keeps_refl _)) k

end Sys2Proof.Standing
end

section
/-! What the operations of the model's Hives part keep. -/

namespace Sys2Proof.Standing

open Sys2Proof.Machine Sys2Proof.Safety

variable {s t u : State}

theorem keeps_await {c f} (k : Keeps s t) (hf : ∀ x, Keeps x (f x)) : Keeps s (await t c f) :=
  keeps_progress ((keeps_stall k).trans (hf _))

theorem keeps_joinClusters {h cl} (k : Keeps s t) : Keeps s (joinClusters t h cl) :=
  keeps_foldl (fun _ _ => keeps_setCluster (keeps_refl _)) k

theorem keeps_createHive {c h x cl} (k : Keeps s t) : Keeps s (createHive t c h x cl) :=
  keeps_ite (keeps_undoCreate (keeps_onHe (keeps_foldl (fun _ _ => keeps_setLabel (keeps_refl _)) (keeps_joinClusters
    (keeps_deriveHiveKey (keeps_setHive (keeps_foldl (fun _ _ => keeps_prepareComb (keeps_refl _)) k))))))) (keeps_onHe
    (keeps_foldl (fun _ _ => keeps_setLabel (keeps_refl _)) (keeps_joinClusters (keeps_deriveHiveKey (keeps_setHive
    (keeps_foldl (fun _ _ => keeps_prepareComb (keeps_refl _)) k))))))

theorem answers_execHiveCreate {c} : Answers (execHiveCreate c s) (Keeps s) := by
  unfold execHiveCreate
  refine answers_runInstr ?_
  split
  · exact keeps_ite (keeps_retire (keeps_refl _)) (keeps_withImage (keeps_refl _) (fun _ _ => keeps_checked (keeps_refl _)
      (keeps_await (keeps_refl _) (fun _ => keeps_createHive (keeps_refl _)))))
  · exact keeps_refl _

theorem keeps_resizeHive {c h bm ceiling guar ls} (k : Keeps s t) : Keeps s (resizeHive t c h bm ceiling guar ls) :=
  keeps_recheckLaunches (keeps_pendSettings (keeps_onHe (keeps_foldl (fun _ _ => keeps_ite (keeps_setCluster (keeps_refl
    _)) (keeps_clearCluster (keeps_refl _))) (keeps_joinClusters (keeps_foldl (fun _ _ => keeps_setCluster (keeps_refl _))
    (keeps_setHive k))))))

theorem answers_execHiveResize {c} : Answers (execHiveResize c s) (Keeps s) := by
  unfold execHiveResize
  refine answers_runInstr ?_
  split
  · exact keeps_withImage (keeps_refl _) (fun _ _ => keeps_ite (keeps_retire (keeps_refl _)) (keeps_ite (keeps_retire
      (keeps_refl _)) (keeps_withImage (keeps_refl _) (fun _ _ => keeps_checked (keeps_refl _) (keeps_await (keeps_refl _)
      (fun _ => keeps_resizeHive (keeps_refl _)))))))
  · exact keeps_refl _

theorem answers_execHiveReset {c} : Answers (execHiveReset c s) (Keeps s) := by
  unfold execHiveReset
  refine answers_runInstr ?_
  split
  · exact keeps_checked (keeps_refl _) (keeps_await (keeps_refl _) (fun _ => keeps_startHiveReset (keeps_refl _)))
  · exact keeps_refl _

theorem answers_execHiveDestroy {c} : Answers (execHiveDestroy c s) (Keeps s) := by
  unfold execHiveDestroy
  refine answers_runInstr ?_
  split
  · exact keeps_checked (keeps_refl _) (keeps_await (keeps_refl _) (fun _ => keeps_startHiveReset (keeps_refl _)))
  · exact keeps_refl _

theorem answers_execColonyJoin {c} : Answers (execColonyJoin c s) (Keeps s) := by
  unfold execColonyJoin
  refine answers_runInstr ?_
  split
  · exact keeps_checked (keeps_refl _) (keeps_retire (keeps_setHive (keeps_refl _)))
  · exact keeps_refl _

theorem answers_execCombGrantAttach {c} : Answers (execCombGrantAttach c s) (Keeps s) := by
  unfold execCombGrantAttach
  refine answers_runInstr ?_
  split
  · exact keeps_withImage (keeps_refl _) (fun _ _ => keeps_checked (keeps_refl _) (keeps_ite (keeps_retire
      (keeps_prepareComb (keeps_refl _))) (keeps_retire (keeps_setHive (keeps_prepareComb (keeps_refl _))))))
  · exact keeps_refl _

theorem keeps_evictPins {ps} (k : Keeps s t) : Keeps s (evictPins t ps) := by
  unfold evictPins
  refine keeps_foldl ?_ k
  intro _ _
  split
  · exact keeps_refl _
  · exact keeps_ite (keeps_refl _) (keeps_foldl (fun _ _ => keeps_abortChan (keeps_refl _)) (keeps_discard (keeps_refl
      _)))

theorem answers_execCombGrantRights {c} : Answers (execCombGrantRights c s) (Keeps s) := by
  unfold execCombGrantRights
  refine answers_runInstr ?_
  split
  · split
    · exact keeps_retire (keeps_refl _)
    · exact keeps_ite (keeps_retire (keeps_refl _)) (keeps_await (keeps_setHive (keeps_refl _)) (fun _ => keeps_onQm
        (keeps_evictPins (keeps_refl _))))
  · exact keeps_refl _

theorem answers_execCombGrantDetach {c} : Answers (execCombGrantDetach c s) (Keeps s) := by
  unfold execCombGrantDetach
  refine answers_runInstr ?_
  split
  · split
    · exact keeps_retire (keeps_refl _)
    · exact keeps_checked (keeps_refl _) (keeps_await (keeps_setHive (keeps_refl _)) (fun _ => keeps_onQm (keeps_ite
        (keeps_evictPins (keeps_refl _)) (keeps_refl _))))
  · exact keeps_refl _

theorem answers_execLabelSet {c} : Answers (execLabelSet c s) (Keeps s) := by
  unfold execLabelSet
  refine answers_runInstr ?_
  split
  · exact keeps_withImage (keeps_refl _) (fun _ _ => keeps_checked (keeps_refl _) (keeps_await (keeps_refl _) (fun _ =>
      keeps_onQm (keeps_pendSettings (keeps_refl _)))))
  · exact keeps_refl _

theorem answers_execResume {c} : Answers (execResume c s) (Keeps s) := by
  unfold execResume
  refine answers_runInstr ?_
  split
  · exact keeps_ite (keeps_retire (keeps_refl _)) (keeps_retire (keeps_setHive (keeps_foldl (fun _ _ => keeps_endMigration
      (keeps_refl _)) (keeps_refl _))))
  · exact keeps_refl _

theorem answers_execQueryHive {c} : Answers (execQueryHive c s) (Keeps s) := by
  unfold execQueryHive
  refine answers_runInstr ?_
  split
  · exact keeps_withRecord (keeps_refl _)
  · exact keeps_refl _

theorem answers_execKeyDeriveFingerprint {c} : Answers (execKeyDeriveFingerprint c s) (Keeps s) := by
  unfold execKeyDeriveFingerprint
  refine answers_runInstr ?_
  split
  · exact keeps_withRecord (keeps_refl _)
  · exact keeps_refl _

end Sys2Proof.Standing
end

section
/-! What the operations of the model's Contexts part keep. -/

namespace Sys2Proof.Standing

open Sys2Proof.Machine Sys2Proof.Safety

variable {s t u : State}

theorem keeps_readGrants {base l acc} (k : Keeps s t) : Keeps s (readGrants t base l acc).1 := by
  induction l generalizing t acc with
  | nil => exact k
  | cons i r ih =>
    rw [readGrants]
    exact keeps_ite_fst (ih (keeps_tableWord k)) (keeps_tableWord k)

theorem keeps_objEntry {o} (k : Keeps s t) : Keeps s (objEntry t o).1 :=
  keeps_tableLine k

theorem keeps_checkGrants {hive l st} (k : Keeps s t) : Keeps s (checkGrants t hive l st).1 := by
  induction l generalizing t st with
  | nil => exact k
  | cons g r ih =>
    unfold checkGrants
    dsimp only
    refine keeps_ite_fst (keeps_objEntry k) ?_
    split
    · exact ih (keeps_objEntry k)
    · exact ih (keeps_objEntry k)
    · exact ih (keeps_objEntry k)

theorem keeps_raiseHolder {o} (k : Keeps s t) : Keeps s (raiseHolder t o).1 := by
  unfold raiseHolder
  dsimp only
  split
  · dsimp only
    exact keeps_tableWord k
  · exact keeps_tableWrite (keeps_tableWord k)

theorem keeps_raiseHolders {hive l done} (k : Keeps s t) : Keeps s (raiseHolders t hive l done).1 := by
  induction l generalizing t done with
  | nil => exact k
  | cons g r ih =>
    rw [raiseHolders]
    split
    · rename_i e
      exact ih (keeps_fst (keeps_raiseHolder k) e)
    · rename_i e
      exact keeps_unloadGrants (keeps_fst (keeps_raiseHolder k) e)

theorem keeps_readGrantList {hive base n} (k : Keeps s t) : Keeps s (readGrantList t hive base n).1 := by
  unfold readGrantList
  dsimp only
  split
  · rename_i e
    dsimp only
    exact keeps_fst (keeps_readGrants k) e
  · rename_i e
    split
    · dsimp only
      exact keeps_fst (keeps_readGrants k) e
    · split
      · rename_i e'
        dsimp only
        exact keeps_fst (keeps_checkGrants (keeps_fst (keeps_readGrants k) e)) e'
      · rename_i e'
        split
        · dsimp only
          exact keeps_fst (keeps_checkGrants (keeps_fst (keeps_readGrants k) e)) e'
        · dsimp only
          exact keeps_fst (keeps_checkGrants (keeps_fst (keeps_readGrants k) e)) e'

theorem keeps_createCtx {c n w gs} (k : Keeps s t) : Keeps s (createCtx t c n w gs) := by
  unfold createCtx
  dsimp only
  split
  · rename_i e
    exact keeps_retire (keeps_fst (keeps_raiseHolders k) e)
  · rename_i e
    exact keeps_retire (keeps_onHp (keeps_setCtx (keeps_fst (keeps_raiseHolders k) e)))

theorem answers_execCtxCreate {c} : Answers (execCtxCreate c s) (Keeps s) := by
  unfold execCtxCreate
  refine answers_runInstr ?_
  split
  · refine keeps_withImage (keeps_refl _) ?_
    intro _ _
    refine keeps_checked (keeps_refl _) ?_
    split
    · rename_i e'
      exact keeps_retire (keeps_fst (keeps_readGrantList (keeps_refl _)) e')
    · rename_i e'
      exact keeps_checked (keeps_fst (keeps_readGrantList (keeps_refl _)) e') (keeps_createCtx (keeps_fst
        (keeps_readGrantList (keeps_refl _)) e'))
  · exact keeps_refl _

theorem answers_execCtxKill {c} : Answers (execCtxKill c s) (Keeps s) := by
  unfold execCtxKill
  refine answers_runInstr ?_
  split
  · exact keeps_checked (keeps_refl _) (keeps_await (keeps_refl _) (fun _ => keeps_startKill (keeps_refl _)))
  · exact keeps_refl _

theorem answers_execQueryCtx {c} : Answers (execQueryCtx c s) (Keeps s) := by
  unfold execQueryCtx
  refine answers_runInstr ?_
  split
  · exact keeps_withRecord (keeps_refl _)
  · exact keeps_refl _

theorem keeps_bindPage {c ctx tmo p va skip} (k : Keeps s t) : Keeps s (bindPage t c ctx tmo p va skip).1 := by
  unfold bindPage
  dsimp only
  split
  · split
    · dsimp only
      exact k
    · split
      · dsimp only
        exact keeps_permFault k
      · split
        · dsimp only
          exact keeps_permFault (keeps_walk k)
        · refine keeps_ite_fst ?_ ?_
          · split
            · exact keeps_preHost (fun _ => keeps_setChan (keeps_refl _)) (keeps_walk k)
            · dsimp only
              exact keeps_permFault (keeps_walk k)
          · split
            · dsimp only
              exact keeps_l2Put (keeps_walk k)
            · dsimp only
              exact keeps_permFault (keeps_walk k)
  · split
    · dsimp only
      exact keeps_permFault k
    · split
      · dsimp only
        exact keeps_permFault (keeps_walk k)
      · refine keeps_ite_fst ?_ ?_
        · split
          · exact keeps_preHost (fun _ => keeps_setChan (keeps_refl _)) (keeps_walk k)
          · dsimp only
            exact keeps_permFault (keeps_walk k)
        · split
          · dsimp only
            exact keeps_l2Put (keeps_walk k)
          · dsimp only
            exact keeps_permFault (keeps_walk k)

theorem keeps_bindPages {c ctx tmo l n} (k : Keeps s t) : Keeps s (bindPages t c ctx tmo l n).1 := by
  induction l generalizing t n with
  | nil => exact k
  | cons x r ih =>
    rw [bindPages]
    split
    · rename_i e
      exact ih (keeps_fst (keeps_bindPage k) e)
    · rename_i e
      exact keeps_fst (keeps_bindPage k) e

theorem keeps_bindQueue {c n tmo x tail done} (k : Keeps s t) : Keeps s (bindQueue t c n tmo x tail done) := by
  unfold bindQueue
  dsimp only
  split
  · rename_i e
    exact keeps_retire (keeps_fst (keeps_bindPages (keeps_setChan k)) e)
  · rename_i e
    exact keeps_ite k (keeps_ite (keeps_stall (keeps_fst (keeps_bindPages (keeps_setChan k)) e)) (keeps_ite (keeps_fst
      (keeps_bindPages (keeps_setChan k)) e) (keeps_retire (keeps_setQueue (keeps_onQm (keeps_fst (keeps_bindPages
      (keeps_setChan k)) e))))))

theorem keeps_bindInstr {c tmo o} (k : Keeps s t) : Keeps s (bindInstr t c tmo o) := by
  unfold bindInstr
  split
  · exact keeps_withImage k (fun _ _ => keeps_checked (keeps_refl _) (keeps_bindQueue (keeps_refl _)))
  · exact k

theorem answers_execQueueBind {c} : Answers (execQueueBind c s) (Keeps s) :=
  answers_runInstr (keeps_bindInstr (keeps_refl _))

theorem keeps_bindReadTimeout {c} (k : Keeps s t) : Keeps s (bindReadTimeout t c) :=
  keeps_ite (keeps_bindInstr k) k

theorem keeps_resetQueue {c n unbind} (k : Keeps s t) : Keeps s (resetQueue t c n unbind) :=
  keeps_checked k (keeps_await k (fun _ => keeps_startQueueReset (keeps_refl _)))

theorem answers_execQueueReset {c} : Answers (execQueueReset c s) (Keeps s) := by
  unfold execQueueReset
  refine answers_runInstr ?_
  split
  · exact keeps_resetQueue (keeps_refl _)
  · exact keeps_refl _

theorem answers_execQueueUnbind {c} : Answers (execQueueUnbind c s) (Keeps s) := by
  unfold execQueueUnbind
  refine answers_runInstr ?_
  split
  · exact keeps_resetQueue (keeps_refl _)
  · exact keeps_refl _

theorem answers_execInvalidatePages {c} : Answers (execInvalidatePages c s) (Keeps s) := by
  unfold execInvalidatePages
  refine answers_runInstr ?_
  split
  · exact keeps_checked (keeps_refl _) (keeps_await (keeps_refl _) (fun _ => keeps_onQm (keeps_shootdown (keeps_raiseInv
      (keeps_refl _)))))
  · exact keeps_refl _

theorem keeps_replaceGrants {c n base a5 gs} (k : Keeps s t) : Keeps s (replaceGrants t c n base a5 gs) := by
  unfold replaceGrants
  dsimp only
  split
  · rename_i e
    exact keeps_retire (keeps_fst (keeps_raiseHolders k) e)
  · rename_i e
    exact keeps_retire (keeps_unloadGrants (keeps_ite (keeps_shootdownAll (keeps_raiseInv (keeps_setCtx (keeps_fst
      (keeps_raiseHolders k) e)))) (keeps_setCtx (keeps_fst (keeps_raiseHolders k) e))))

theorem answers_execInvalidateContext {c} : Answers (execInvalidateContext c s) (Keeps s) := by
  unfold execInvalidateContext
  refine answers_runInstr ?_
  split
  · refine keeps_checked (keeps_refl _) ?_
    split
    · rename_i e'
      exact keeps_retire (keeps_fst (keeps_readGrantList (keeps_refl _)) e')
    · rename_i e'
      exact keeps_replaceGrants (keeps_fst (keeps_readGrantList (keeps_refl _)) e')
  · exact keeps_refl _

theorem answers_execInvalidateObject {c} : Answers (execInvalidateObject c s) (Keeps s) := by
  unfold execInvalidateObject
  refine answers_runInstr ?_
  split
  · exact keeps_ite (keeps_retire (keeps_objEntry (keeps_refl _))) (keeps_checked (keeps_objEntry (keeps_refl _))
      (keeps_retire (keeps_tableWrite (keeps_objEntry (keeps_refl _)))))
  · exact keeps_refl _

theorem answers_execInvalidateFence {c} : Answers (execInvalidateFence c s) (Keeps s) := by
  unfold execInvalidateFence
  dsimp only
  refine answers_runInstr ?_
  split
  · split
    · exact keeps_retire (keeps_settleFill (keeps_refl _))
    · exact keeps_ite (keeps_retire (keeps_settleFill (keeps_refl _))) (keeps_ite (keeps_retire (keeps_onQm
        (keeps_tableWrite (keeps_settleFill (keeps_refl _))))) (keeps_retire (keeps_tableWrite (keeps_settleFill
        (keeps_refl _)))))
    · exact keeps_settleFill (keeps_refl _)
  · exact keeps_refl _

end Sys2Proof.Standing
end

section
/-! What the operations of the model's Migrate part keep. -/

namespace Sys2Proof.Standing

open Sys2Proof.Machine Sys2Proof.Safety

variable {s t u : State}

theorem keeps_clearLog {h} (k : Keeps s t) : Keeps s (clearLog t h) :=
  keeps_onXl k

theorem keeps_copyWrite {j pa f bytes} (k : Keeps s t) : Keeps s (copyWrite t j pa f bytes).1 := by
  unfold copyWrite
  split
  · dsimp only
    exact keeps_refuseLine k
  · split
    · dsimp only
      exact k
    · dsimp only
      exact keeps_openTxn (keeps_charge k)

theorem keeps_copyLine {j a3 dst a} (k : Keeps s t) : Keeps s (copyLine t j a3 dst a).1 := by
  unfold copyLine
  dsimp only
  split
  · dsimp only
    exact keeps_refuseLine k
  · split
    · dsimp only
      exact keeps_homeRead (keeps_charge k)
    · exact keeps_copyWrite (keeps_homeRead (keeps_charge k))

theorem keeps_untilFail {α : Type} {f : State → α → State × Option Status} {l} (hf : ∀ x a, Keeps x (f x a).1) (k : Keeps
    s t) :
    Keeps s (untilFail f t l).1 := by
  induction l generalizing t with
  | nil => exact k
  | cons a r ih =>
    rw [untilFail]
    split
    · rename_i e
      exact ih (keeps_fst (k.trans (hf t a)) e)
    · exact k.trans (hf t a)

theorem keeps_copyCell {j cell} (k : Keeps s t) : Keeps s (copyCell t j cell).1 := by
  unfold copyCell
  split
  · split
    · exact keeps_untilFail (fun _ _ => keeps_copyLine (keeps_refl _)) k
    · dsimp only
      exact k
  · dsimp only
    exact k

theorem keeps_copyCells {j cells} (k : Keeps s t) : Keeps s (copyCells t j cells).1 :=
  keeps_untilFail (fun _ _ => keeps_copyCell (keeps_refl _)) k

theorem keeps_setMig {h f} (k : Keeps s t) : Keeps s (setMig t h f) :=
  keeps_onHe k

theorem keeps_copyFailed {h st} (k : Keeps s t) : Keeps s (copyFailed t h st) := by
  unfold copyFailed
  split
  · exact keeps_migrationGoes (keeps_setChan k)
  · exact k

theorem keeps_startRound {h round cells} (k : Keeps s t) : Keeps s (startRound t h round cells) := by
  unfold startRound
  dsimp only
  split
  · exact keeps_setMig (keeps_clearLog k)
  · split
    · rename_i e'
      exact keeps_fst (keeps_copyCells (keeps_setMig (keeps_clearLog k))) e'
    · rename_i e'
      exact keeps_copyFailed (keeps_fst (keeps_copyCells (keeps_setMig (keeps_clearLog k))) e')

theorem keeps_startMigration {c h w fences} (k : Keeps s t) : Keeps s (startMigration t c h w fences) :=
  keeps_startRound (keeps_onHe (keeps_onXl (keeps_setHive k)))

theorem answers_execMigrate {c} : Answers (execMigrate c s) (Keeps s) := by
  unfold execMigrate
  refine answers_runInstr ?_
  split
  · exact keeps_withImage (keeps_refl _) (fun _ _ => keeps_ite (keeps_retire (keeps_refl _)) (keeps_withImage (keeps_refl
      _) (fun _ _ => keeps_checked (keeps_refl _) (keeps_await (keeps_refl _) (fun _ => keeps_startMigration (keeps_refl
      _))))))
  · exact keeps_refl _

theorem keeps_returnCommands {h} (k : Keeps s t) : Keeps s (returnCommands t h) :=
  keeps_foldl (fun _ _ => keeps_setQueue (keeps_dropCmd (keeps_refl _))) k

theorem keeps_freeze {j d} (k : Keeps s t) : Keeps s (freeze t j d) :=
  keeps_returnCommands (keeps_hiveEvent (keeps_setMig (keeps_setHive k)))

theorem answers_execMigrateRoundDone {h} : Answers (execMigrateRoundDone h s) (Keeps s) := by
  unfold execMigrateRoundDone
  split
  · exact answers_next (keeps_refl _)
  · exact answers_taken (keeps_ite (keeps_freeze (keeps_refl _)) (keeps_startRound (keeps_refl _)))

theorem keeps_fenceRecord {f} (k : Keeps s t) : Keeps s (fenceRecord t f).1 := by
  unfold fenceRecord
  dsimp only
  split
  · dsimp only
    exact keeps_fill k
  · dsimp only
    exact keeps_tableLine (keeps_fill k)

theorem keeps_package {j} (k : Keeps s t) : Keeps s (package t j).1 := by
  unfold package
  exact keeps_foldl_fst (fun _ _ => keeps_fenceRecord (keeps_refl _)) k

theorem keeps_writePackage {j bytes} (k : Keeps s t) : Keeps s (writePackage t j bytes).1 :=
  keeps_untilFail (fun _ _ => keeps_ite_fst (keeps_copyWrite (keeps_refl _)) (keeps_copyWrite (keeps_refl _))) k

theorem answers_execMigrateDrainDone {h} : Answers (execMigrateDrainDone h s) (Keeps s) := by
  unfold execMigrateDrainDone
  dsimp only
  split
  · exact answers_next (keeps_refl _)
  · refine answers_taken ?_
    split
    · exact keeps_setMig (keeps_clearLog (keeps_refl _))
    · split
      · rename_i e''
        exact keeps_copyFailed (keeps_fst (keeps_copyCells (keeps_setMig (keeps_clearLog (keeps_refl _)))) e'')
      · rename_i e''
        split
        · rename_i e'''
          exact keeps_copyFailed (keeps_fst (keeps_writePackage (keeps_package (keeps_fst (keeps_copyCells (keeps_setMig
            (keeps_clearLog (keeps_refl _)))) e''))) e''')
        · rename_i e'''
          exact keeps_progress (keeps_fst (keeps_writePackage (keeps_package (keeps_fst (keeps_copyCells (keeps_setMig
            (keeps_clearLog (keeps_refl _)))) e''))) e''')

theorem answers_execMigrateFreezeTimeout {h} : Answers (execMigrateFreezeTimeout h s) (Keeps s) := by
  unfold execMigrateFreezeTimeout
  split
  · exact answers_next (keeps_refl _)
  · exact answers_taken (keeps_endMigration (keeps_refl _))

end Sys2Proof.Standing
end

section
/-! What the operations of the model's HostPort part keep. -/

namespace Sys2Proof.Standing

open Sys2Proof.Machine Sys2Proof.Safety

variable {s t u : State}

theorem keeps_urRead {logged} (k : Keeps s t) : Keeps s (urRead t logged) :=
  keeps_ite (keeps_refuseHost (keeps_emit (keeps_count k))) (keeps_emit (keeps_count k))

theorem keeps_urAtomic {logged} (k : Keeps s t) : Keeps s (urAtomic t logged) :=
  keeps_ite (keeps_refuseHost (keeps_emit (keeps_count k))) (keeps_emit (keeps_count k))

theorem keeps_sinkDoorbell (k : Keeps s t) : Keeps s (sinkDoorbell t) :=
  keeps_count k

theorem keeps_apertureLines {h c l acc} (k : Keeps s t) : Keeps s (apertureLines t h c l acc).1 := by
  induction l generalizing t acc with
  | nil => exact k
  | cons a r ih =>
    rw [apertureLines]
    exact keeps_ite_fst (ih (keeps_redeem (keeps_homeRead (keeps_charge k))))
      (ih (keeps_drawBytes (keeps_redeem (keeps_homeRead (keeps_charge k)))))

theorem keeps_apertureReadGo {off len} (k : Keeps s t) : Keeps s (apertureReadGo t off len) := by
  unfold apertureReadGo
  refine keeps_ite (keeps_urRead k) ?_
  split
  · exact keeps_urRead k
  · exact keeps_emit (keeps_apertureLines k)

theorem keeps_apertureLine {h a3 l w} (k : Keeps s t) : Keeps s (apertureLine t h a3 l w).1 :=
  keeps_redeem (keeps_homeWrite (keeps_charge k))

theorem keeps_apertureWriteGo {off data} (k : Keeps s t) : Keeps s (apertureWriteGo t off data) := by
  unfold apertureWriteGo
  refine keeps_ite (keeps_sinkWrite k) ?_
  split
  · exact keeps_sinkWrite k
  · exact keeps_foldl (fun _ _ => keeps_apertureLine (keeps_refl _)) k

theorem keeps_apertureAtomicGo {off op size operand compare} (k : Keeps s t) : Keeps s (apertureAtomicGo t off op size
    operand compare) := by
  unfold apertureAtomicGo
  refine keeps_ite (keeps_urAtomic k) ?_
  split
  · exact keeps_urAtomic k
  · exact keeps_ite (keeps_emit (keeps_apertureLine k)) (keeps_emit (keeps_drawNat (keeps_apertureLine k)))

theorem answers_execWindowEntryWrite {i w} : Answers (execWindowEntryWrite i w s) (Keeps s) :=
  answers_hostAccess (keeps_ite (keeps_sinkWrite (keeps_refl _)) (keeps_ite (keeps_sinkWrite (keeps_refl _)) (keeps_onHp
    (keeps_refl _))))

theorem keeps_fenceWords {f} (k : Keeps s t) : Keeps s (fenceWords t f).1 := by
  unfold fenceWords
  dsimp only
  split
  · dsimp only
    exact keeps_ite (keeps_fill k) k
  · dsimp only
    exact keeps_tableLine (keeps_ite (keeps_fill k) k)

theorem answers_execFenceWindowRead {off size} : Answers (execFenceWindowRead off size s) (Keeps s) :=
  answers_hostAccess (keeps_ite (keeps_urRead (keeps_refl _)) (keeps_ite (keeps_urRead (keeps_refl _)) (keeps_ite
    (keeps_emit (keeps_fenceWords (keeps_refl _))) (keeps_inStream (keeps_refl _) (keeps_emit (keeps_fenceWords
    (keeps_refl _)))))))

theorem keeps_setMbox {f} (k : Keeps s t) (hf : cellsWf 0 t.kp.mbox.args = true → cellsWf 0 (f t.kp.mbox).args = true) :
    Keeps s (setMbox t f) := keeps_onKp k hf id

theorem keeps_mbEnd {st reply} (k : Keeps s t) : Keeps s (mbEnd t st reply) := by
  refine keeps_setMbox k fun w => ?_
  dsimp only
  split
  · exact w
  · exact w

theorem keeps_mbRefuse {st} (k : Keeps s t) : Keeps s (mbRefuse t st) :=
  keeps_mbEnd (keeps_ite (keeps_refuseInput k) k)

theorem keeps_mbStart {op len tag} (k : Keeps s t) : Keeps s (mbStart t op len tag) :=
  keeps_ite (keeps_setMbox k id) (keeps_mbRefuse (keeps_setMbox k id))

theorem keeps_mbWrite {off len v} (k : Keeps s t) : Keeps s (mbWrite t off len v) :=
  keeps_ite (keeps_ite (keeps_setMbox k id) (keeps_setMbox k id)) (keeps_ite (keeps_mbStart k) (keeps_ite (keeps_mbStart
    k) (keeps_setMbox k id)))

theorem keeps_mailboxWrite {off data} (k : Keeps s t) : Keeps s (mailboxWrite t off data) :=
  keeps_ite (keeps_mbWrite k) (keeps_ite (keeps_setMbox k (cellsWf_cellWriteN _ _ _ _)) k)

theorem keeps_msixWord {off data} (k : Keeps s t) : Keeps s (msixWord t off data) := by
  unfold msixWord
  exact keeps_onHp k

theorem keeps_msixWrite {off data} (k : Keeps s t) : Keeps s (msixWrite t off data) :=
  keeps_foldl (fun _ _ => keeps_msixWord (keeps_refl _)) k

theorem keeps_doorbell {page q d} (k : Keeps s t) : Keeps s (doorbell t page q d) :=
  keeps_ite (keeps_sinkDoorbell k) (keeps_ite (keeps_setQueue k) (keeps_ite (keeps_hiveEvent (keeps_setQueue k))
    (keeps_setQueue k)))

theorem keeps_doorbellGo {page off be data} (k : Keeps s t) : Keeps s (doorbellGo t page off be data) :=
  keeps_ite (keeps_sinkWrite k) (keeps_foldl (fun _ _ => keeps_doorbell (keeps_refl _)) k)

theorem keeps_hostPerform {a2} (k : Keeps s t) : Keeps s (hostPerform t a2) := by
  unfold hostPerform
  split
  · exact keeps_apertureReadGo k
  · exact keeps_apertureWriteGo k
  · exact keeps_apertureAtomicGo k
  · exact keeps_doorbellGo k

theorem keeps_hostClaim {op} (k : Keeps s t) : Keeps s (hostClaim t op) :=
  keeps_ite (keeps_foldl (fun _ _ => keeps_takePlace (keeps_refl _)) k) (keeps_demand k)

theorem keeps_hostDrain {n} (k : Keeps s t) : Keeps s (hostDrain t n) := by
  induction n generalizing t with
  | zero => exact k
  | succ n ih =>
    rw [hostDrain]
    split
    · exact k
    · exact keeps_ite (ih (keeps_hostPerform (keeps_onHp k))) (keeps_hostClaim k)

theorem keeps_hostGoes (k : Keeps s t) : Keeps s (hostGoes t) :=
  keeps_hostDrain k

theorem keeps_onward (k : Keeps s t) : Keeps s (onward t) :=
  keeps_hostGoes (keeps_progress k)

theorem keeps_hostTake {op} (k : Keeps s t) : Keeps s (hostTake t op) :=
  keeps_hostGoes (keeps_onHp k)

theorem keeps_hostTimeout (k : Keeps s t) : Keeps s (hostTimeout t) := by
  unfold hostTimeout
  split
  · exact k
  · refine keeps_hostGoes ?_
    split
    · exact keeps_emit (keeps_drawBytes (keeps_dropTickets (keeps_onHp k)))
    · exact keeps_emit (keeps_drawNat (keeps_dropTickets (keeps_onHp k)))
    · exact keeps_dropTickets (keeps_onHp k)

theorem keeps_refuseQueue (k : Keeps s t) : Keeps s (refuseQueue t) := by
  unfold refuseQueue
  refine keeps_foldl ?_ (keeps_dropTickets (keeps_onHp k))
  intro _ _
  split
  · exact keeps_urRead (keeps_refl _)
  · exact keeps_urAtomic (keeps_refl _)
  · exact keeps_sinkWrite (keeps_refl _)
  · exact keeps_doorbellGo (keeps_refl _)

theorem answers_execApertureRead {off len} : Answers (execApertureRead off len s) (Keeps s) :=
  answers_hostAccess (keeps_hostTake (keeps_refl _))

theorem answers_execApertureWrite {off data} : Answers (execApertureWrite off data s) (Keeps s) :=
  answers_hostAccess (keeps_hostTake (keeps_refl _))

theorem answers_execApertureAtomicop {bar off op size operand compare} : Answers (execApertureAtomicop bar off op size
    operand compare s) (Keeps s) :=
  answers_hostAccess (keeps_ite (keeps_urAtomic (keeps_refl _)) (keeps_ite (keeps_urAtomic (keeps_refl _)) (keeps_hostTake
    (keeps_refl _))))

theorem answers_execDoorbellWrite {page off be data} : Answers (execDoorbellWrite page off be data s) (Keeps s) :=
  answers_hostAccess (keeps_hostTake (keeps_refl _))

theorem keeps_loadRoutes {l} (k : Keeps s t) : Keeps s (loadRoutes t l) := by
  induction l generalizing t with
  | nil => exact k
  | cons n r ih =>
    rw [loadRoutes]
    dsimp only
    split
    · exact ih (keeps_onSw (keeps_tableWord k))
    · exact ih (keeps_onSw (keeps_logErr (keeps_tableWord k)))

theorem answers_execRouteReload {w} : Answers (execRouteReload w s) (Keeps s) :=
  answers_hostAccess (keeps_ite (keeps_sinkWrite (keeps_refl _)) (keeps_inStream (keeps_refl _) (keeps_loadRoutes
    (keeps_refl _))))

theorem keeps_refusedWrite {bar off len logged} (k : Keeps s t) : Keeps s (refusedWrite t bar off len logged) :=
  keeps_ite (keeps_hostTake k) (keeps_sinkWrite k)

theorem answers_pageZeroWrite {o w} : Answers (pageZeroWrite s o w) (Keeps s) :=
  answers_ite answers_execFaultAnswer (answers_ite answers_execEventConsumed (answers_ite answers_execRouteReload
    (answers_ite answers_execFaultConsumed answers_execWindowEntryWrite)))

theorem answers_execRegisterWrite {bar off data} : Answers (execRegisterWrite bar off data s) (Keeps s) := by
  unfold execRegisterWrite
  refine answers_ite (answers_next (keeps_hostWaits (keeps_refl _))) ?_
  split
  · exact answers_next (keeps_refusedWrite (keeps_refl _))
  · exact answers_ite (answers_ite (answers_next (keeps_mailboxWrite (keeps_refl _))) (answers_ite (answers_next
      (keeps_msixWrite (keeps_refl _))) (answers_next (keeps_sinkWrite (keeps_refl _))))) (answers_ite (answers_next
      (keeps_hostTake (keeps_refl _))) (answers_ite (answers_next (keeps_sinkWrite (keeps_refl _))) (answers_ite
      (answers_next (keeps_hostTake (keeps_refl _))) answers_pageZeroWrite)))

theorem answers_execInboundUnsupportedRequest {a1} : Answers (execInboundUnsupportedRequest a1 s) (Keeps s) := by
  unfold execInboundUnsupportedRequest
  refine answers_ite (answers_next (keeps_hostWaits (keeps_refl _))) ?_
  split
  · exact answers_next (keeps_ite (keeps_urRead (keeps_refl _)) (keeps_refuseHost (keeps_emit (keeps_refl _))))
  · exact answers_next (keeps_refuseHost (keeps_emit (keeps_refl _)))
  · refine answers_ite (answers_next (keeps_hostTake (keeps_refl _))) ?_
    refine answers_ite answers_execFenceWindowRead ?_
    split
    · exact answers_next (keeps_emit (keeps_refl _))
    · exact answers_next (keeps_urRead (keeps_refl _))
  · split
    · exact answers_next (keeps_refusedWrite (keeps_refl _))
    · exact answers_next (keeps_refl _)

theorem answers_execPcieConventionalReset : Answers (execPcieConventionalReset s) (Keeps s) :=
  answers_next (keeps_startWarm (keeps_onHp (keeps_refl _)))

theorem answers_execFunctionLevelReset : Answers (execFunctionLevelReset s) (Keeps s) :=
  answers_next (keeps_startWarm (keeps_onHp (keeps_refl _)))

theorem answers_execPciePowerStateChange {d3hot} : Answers (execPciePowerStateChange d3hot s) (Keeps s) :=
  answers_next (keeps_onHp (keeps_refl _))

end Sys2Proof.Standing
end

section
/-! What the operations of the model's Regulator part keep. -/

namespace Sys2Proof.Standing

open Sys2Proof.Machine Sys2Proof.Safety

variable {s t u : State}

theorem keeps_closeWindow {l} (k : Keeps s t) : Keeps s (closeWindow t l) := by
  unfold closeWindow
  split
  · exact keeps_ite (keeps_ite (keeps_setLabel k) k) (keeps_hiveEvent (keeps_setHive (keeps_ite (keeps_setLabel k) k)))
  · exact keeps_ite (keeps_setLabel k) k

theorem keeps_releaseMessages {b l} (k : Keeps s t) : Keeps s (releaseMessages t b l) := by
  induction l generalizing t with
  | nil => exact k
  | cons v r ih =>
    rw [releaseMessages]
    split
    · exact keeps_ite (ih (keeps_chargeMessage k)) (ih k)
    · exact ih k

theorem keeps_hiveWindow {l} (k : Keeps s t) : Keeps s (hiveWindow t l) :=
  keeps_ite k (keeps_releaseMessages (keeps_onHe k))

theorem keeps_settingApplied {l} (k : Keeps s t) : Keeps s (settingApplied t l) := by
  unfold settingApplied
  exact keeps_onHe (keeps_onQm k)

theorem answers_execLabelWindowBoundary {l} : Answers (execLabelWindowBoundary l s) (Keeps s) :=
  answers_taken (keeps_progress (keeps_hiveWindow (keeps_settingApplied (keeps_setLabel (keeps_ite (keeps_writeRecord
    (keeps_closeWindow (keeps_refl _))) (keeps_closeWindow (keeps_refl _)))))))

theorem answers_execMeterRefresh : Answers (execMeterRefresh s) (Keeps s) :=
  answers_next (keeps_onRg (keeps_refl _))

theorem keeps_askPmb {i} (k : Keeps s t) : Keeps s (askPmb t i) := by
  unfold askPmb
  split
  · exact keeps_emit (keeps_ite k (keeps_emit k))
  · exact k

theorem keeps_onPower {f} (k : Keeps s t) : Keeps s (onPower t f) :=
  keeps_onKp k id id

theorem keeps_failedSample (k : Keeps s t) : Keeps s (failedSample t) :=
  keeps_ite (keeps_hiveEvent (keeps_setMbox (keeps_onPower (keeps_onPower k)) id)) (keeps_onPower k)

theorem keeps_goodSample {p a3} (k : Keeps s t) : Keeps s (goodSample t p a3) :=
  keeps_ite (keeps_hiveEvent (keeps_onPower (keeps_setMbox (keeps_onPower k) id))) (keeps_onPower (keeps_setMbox
    (keeps_onPower k) id))

theorem keeps_keepReadings {answers} (k : Keeps s t) : Keeps s (keepReadings t answers) := by
  unfold keepReadings
  exact keeps_onPower (keeps_foldl (fun _ _ => keeps_askPmb (keeps_refl _)) k)

theorem answers_execPowerCapSample {answers} : Answers (execPowerCapSample answers s) (Keeps s) := by
  unfold execPowerCapSample
  refine answers_taken ?_
  refine keeps_ite (keeps_keepReadings (keeps_refl _)) ?_
  split
  · exact keeps_failedSample (keeps_keepReadings (keeps_refl _))
  · exact keeps_ite (keeps_failedSample (keeps_keepReadings (keeps_refl _))) (keeps_goodSample (keeps_keepReadings
      (keeps_refl _)))

end Sys2Proof.Standing
end

section
/-! What the operations of the model's Swarm part keep. -/

namespace Sys2Proof.Standing

open Sys2Proof.Machine Sys2Proof.Safety

variable {s t u : State}

theorem keeps_endTxn {a2 st} (k : Keeps s t) : Keeps s (endTxn t a2 st) := by
  unfold endTxn
  split
  · exact keeps_progress (keeps_recordEnds (keeps_releaseFlows (keeps_onSw k)))
  · exact keeps_retire (keeps_releaseFlows (keeps_onSw k))
  · exact keeps_ite (keeps_progress (keeps_setChan (keeps_releaseFlows (keeps_onSw k)))) (keeps_setChan
      (keeps_releaseFlows (keeps_onSw k)))

theorem keeps_keepData {c key d} (k : Keeps s t) : Keeps s (keepData t c key d) :=
  keeps_ite k (keeps_setChan k)

theorem keeps_sendKeyx {l gen reply} (k : Keeps s t) : Keeps s (sendKeyx t l gen reply) :=
  keeps_putFrame k

theorem keeps_startRekey {l} (k : Keeps s t) : Keeps s (startRekey t l) :=
  keeps_ite (keeps_sendKeyx (keeps_setLink k)) k

theorem keeps_sendHello {l phase payload} (k : Keeps s t) : Keeps s (sendHello t l phase payload) :=
  keeps_putFrame (keeps_drawNat k)

theorem keeps_train {l} (k : Keeps s t) : Keeps s (train t l) :=
  keeps_ite (keeps_sendHello (keeps_setLink (keeps_drawDrbg (keeps_drawBytes k)))) k

theorem keeps_linkDown {l} (k : Keeps s t) : Keeps s (linkDown t l) :=
  keeps_ite k (keeps_settleLinks (keeps_dropLink k))

theorem keeps_rekeyDone {l} (k : Keeps s t) : Keeps s (rekeyDone t l) :=
  keeps_progress (keeps_onQm (keeps_setLink k))

theorem keeps_sendAck {peer} (k : Keeps s t) : Keeps s (sendAck t peer) := by
  unfold sendAck
  split
  · exact k
  · exact keeps_sendCtl (keeps_setFlow k)

theorem keeps_withdrawWaits {peer} (k : Keeps s t) : Keeps s (withdrawWaits t peer) := by
  unfold withdrawWaits
  exact keeps_onQm k

theorem keeps_resetPeer {peer} (k : Keeps s t) : Keeps s (resetPeer t peer) :=
  keeps_foldl (fun _ _ => keeps_ite (keeps_endTxn (keeps_refl _)) (keeps_refl _)) (keeps_onSw (keeps_withdrawWaits k))

theorem keeps_killFlow {peer} (k : Keeps s t) : Keeps s (killFlow t peer) :=
  keeps_resetPeer (keeps_dropFlow k)

theorem keeps_resetFlow {peer epoch opened} (k : Keeps s t) : Keeps s (resetFlow t peer epoch opened) :=
  keeps_resetPeer (keeps_onSw (keeps_unwait k))

theorem keeps_takeAck {peer ack landed marks} (k : Keeps s t) : Keeps s (takeAck t peer ack landed marks) :=
  keeps_releaseFlows (keeps_releaseHeld (keeps_foldl (fun _ _ => keeps_endTxn (keeps_refl _)) (keeps_foldl (fun _ _ =>
    keeps_countPerformed (keeps_refl _)) (keeps_unwait (keeps_setFlow k)))))

theorem keeps_discardFrame {l} (k : Keeps s t) : Keeps s (discardFrame t l) :=
  keeps_ite (keeps_linkDown (keeps_setLink (keeps_onSw k))) (keeps_setLink (keeps_onSw k))

theorem keeps_forward {r} (k : Keeps s t) : Keeps s (forward t r) := by
  unfold forward
  split
  · exact keeps_dropForward k
  · exact keeps_ite (keeps_sendOrWait k) (keeps_putFrame k)

theorem keeps_countArrival {peer} (k : Keeps s t) : Keeps s (countArrival t peer) := by
  unfold countArrival
  dsimp only
  split
  · exact keeps_ite (keeps_sendAck (keeps_setFlow k)) (keeps_setFlow k)
  · exact keeps_setFlow k

theorem keeps_receiveSeq {r} (k : Keeps s t) : Keeps s (receiveSeq t r) := by
  unfold receiveSeq
  dsimp only
  split
  · exact keeps_oweCredit (keeps_onSw k)
  · exact keeps_ite (keeps_oweCredit (keeps_onSw k)) (keeps_ite (keeps_oweCredit (keeps_sendAck (keeps_setFlow
      (keeps_takeAck k)))) (keeps_ite (keeps_oweCredit (keeps_setFlow (keeps_takeAck k))) (keeps_ite (keeps_oweCredit
      (keeps_takeAck k)) (keeps_countArrival (keeps_onSw (keeps_setFlow (keeps_takeAck k)))))))

theorem keeps_carryKey {l key} (k : Keeps s t) : Keeps s (carryKey t l key).1 := by
  unfold carryKey
  split
  · dsimp only
    exact keeps_logErr (keeps_onVault k (fusesStay_refl _))
  · dsimp only
    exact k

theorem keeps_loadPair {l neighbour g put} (k : Keeps s t) : Keeps s (loadPair t l neighbour g put).1 := by
  unfold loadPair
  dsimp only
  split
  · rename_i e
    dsimp only
    exact keeps_fst (keeps_carryKey k) e
  · rename_i e
    split
    · rename_i e'
      dsimp only
      exact keeps_fst (keeps_carryKey (keeps_fst (keeps_carryKey k) e)) e'
    · rename_i e'
      dsimp only
      exact keeps_setLink (keeps_fst (keeps_carryKey (keeps_fst (keeps_carryKey k) e)) e')

theorem keeps_linkKeyFailed {l} (k : Keeps s t) : Keeps s (linkKeyFailed t l) :=
  keeps_linkDown (keeps_foldl (fun _ _ => keeps_retire (keeps_refl _)) (keeps_onQm k))

theorem keeps_acceptLink {l f} (k : Keeps s t) : Keeps s (acceptLink t l f) :=
  keeps_ite k (keeps_drainForward (keeps_ite (keeps_rekeyDone (keeps_setLink k)) (keeps_ite (keeps_startRekey
    (keeps_setLink k)) (keeps_setLink k))))

theorem keeps_keepOpen {f} (k : Keeps s t) : Keeps s (keepOpen t f) := by
  unfold keepOpen
  split
  · exact keeps_ite (keeps_ite (keeps_setFlow (keeps_freeEntry k)) (keeps_freeEntry k)) k
  · exact k

theorem answers_execSwarmFrameReceive {l f tagOk} : Answers (execSwarmFrameReceive l f tagOk s) (Keeps s) :=
  answers_taken (keeps_ite (keeps_discardFrame (keeps_refl _)) (keeps_ite (keeps_refl _) (keeps_ite (keeps_linkDown
    (keeps_acceptLink (keeps_refl _))) (keeps_ite (keeps_onSw (keeps_acceptLink (keeps_refl _))) (keeps_ite (keeps_ite
    (keeps_dropForward (keeps_acceptLink (keeps_refl _))) (keeps_forward (keeps_acceptLink (keeps_refl _)))) (keeps_ite
    (keeps_receiveSeq (keeps_keepOpen (keeps_acceptLink (keeps_refl _)))) (keeps_onSw (keeps_keepOpen (keeps_acceptLink
    (keeps_refl _))))))))))

theorem keeps_popRx {p r} (k : Keeps s t) (e : popRx t p = some (r, u)) : Keeps s u := by
  unfold popRx at e
  obtain ⟨x, -, e⟩ := Option.map_eq_some_iff.mp e
  cases e
  exact keeps_onSw k

theorem answers_onRx {p eff} (hf : ∀ x r, Keeps x (eff x r)) : Answers (onRx s p eff) (Keeps s) := by
  unfold onRx
  split
  · exact answers_next (keeps_refl s)
  · rename_i r e
    exact answers_next ((keeps_popRx (keeps_refl s) e).trans (hf _ _))

theorem keeps_headerAck {f} (k : Keeps s t) : Keeps s (headerAck t f) := by
  unfold headerAck
  split
  · exact keeps_ite (keeps_takeAck k) k
  · exact k

theorem answers_execProbe {link} : Answers (execProbe link s) (Keeps s) :=
  answers_onRx (fun _ _ => keeps_ite (keeps_setLink (keeps_headerAck (keeps_refl _))) (keeps_headerAck (keeps_refl _)))

theorem answers_execAck {src} : Answers (execAck src s) (Keeps s) := by
  unfold execAck
  refine answers_onRx ?_
  intro _ _
  split
  · exact keeps_ite (keeps_takeAck (keeps_refl _)) (keeps_refl _)
  · exact keeps_refl _

theorem keeps_openFlow {peer epoch} (k : Keeps s t) : Keeps s (openFlow t peer epoch) :=
  keeps_releaseHeld (keeps_setFlow k)

theorem answers_execOpn {src} : Answers (execOpn src s) (Keeps s) := by
  unfold execOpn
  dsimp only
  refine answers_onRx ?_
  intro _ _
  split
  · exact keeps_ite (keeps_headerAck (keeps_refl _)) (keeps_ite (keeps_sendOpen (keeps_onSw (keeps_freeEntry
      (keeps_headerAck (keeps_refl _))))) (keeps_sendCtl (keeps_freeEntry (keeps_headerAck (keeps_refl _)))))
  · exact keeps_ite (keeps_ite (keeps_openFlow (keeps_headerAck (keeps_refl _))) (keeps_headerAck (keeps_refl _)))
      (keeps_ite (keeps_ite (keeps_sendOpen (keeps_onSw (keeps_freeEntry (keeps_headerAck (keeps_refl _)))))
      (keeps_sendCtl (keeps_freeEntry (keeps_headerAck (keeps_refl _))))) (keeps_ite (keeps_ite (keeps_sendOpen
      (keeps_openFlow (keeps_setFlow (keeps_freeEntry (keeps_headerAck (keeps_refl _)))))) (keeps_sendCtl (keeps_freeEntry
      (keeps_headerAck (keeps_refl _))))) (keeps_ite (keeps_ite (keeps_sendOpen (keeps_openFlow (keeps_setFlow
      (keeps_headerAck (keeps_refl _))))) (keeps_sendOpen (keeps_openFlow (keeps_headerAck (keeps_refl _))))) (keeps_ite
      (keeps_sendOpen (keeps_headerAck (keeps_refl _))) (keeps_sendOpen (keeps_resetFlow (keeps_headerAck (keeps_refl
      _))))))))

theorem answers_execClose {src} : Answers (execClose src s) (Keeps s) :=
  answers_onRx (fun _ _ => keeps_ite (keeps_headerAck (keeps_refl _)) (keeps_ite (keeps_dropFlow (keeps_headerAck
    (keeps_refl _))) (keeps_headerAck (keeps_refl _))))

theorem answers_execHello {link verified} : Answers (execHello link verified s) (Keeps s) := by
  unfold execHello
  dsimp only
  refine answers_onRx ?_
  intro _ _
  refine keeps_ite (keeps_refl _) ?_
  refine keeps_ite (keeps_sendHello (keeps_setLink (keeps_refl _))) ?_
  refine keeps_ite ?_ (keeps_linkDown (keeps_refl _))
  split
  · rename_i e
    exact keeps_fst (keeps_loadPair (keeps_onVault (keeps_refl _) (fusesStay_refl _))) e
  · rename_i e
    exact keeps_linkKeyFailed (keeps_fst (keeps_loadPair (keeps_onVault (keeps_refl _) (fusesStay_refl _))) e)

theorem answers_execKeyx {link} : Answers (execKeyx link s) (Keeps s) := by
  unfold execKeyx
  refine answers_onRx ?_
  intro _ _
  refine keeps_ite (keeps_headerAck (keeps_refl _)) ?_
  refine keeps_ite ?_ ?_
  · refine keeps_ite ?_ (keeps_headerAck (keeps_refl _))
    refine keeps_ite ?_ (keeps_setLink (keeps_headerAck (keeps_refl _)))
    split
    · rename_i e
      exact keeps_fst (keeps_loadPair (keeps_headerAck (keeps_refl _))) e
    · rename_i e
      exact keeps_linkKeyFailed (keeps_fst (keeps_loadPair (keeps_headerAck (keeps_refl _))) e)
  · refine keeps_ite ?_ (keeps_ite (keeps_sendKeyx (keeps_headerAck (keeps_refl _))) (keeps_headerAck (keeps_refl _)))
    split
    · rename_i e
      exact keeps_sendKeyx (keeps_fst (keeps_loadPair (keeps_headerAck (keeps_refl _))) e)
    · rename_i e
      exact keeps_linkKeyFailed (keeps_fst (keeps_loadPair (keeps_headerAck (keeps_refl _))) e)

theorem answers_execPcsLock {link} : Answers (execPcsLock link s) (Keeps s) :=
  answers_taken (keeps_train (keeps_demand (keeps_setLink (keeps_refl _))))

theorem answers_execPcsLockLoss {link} : Answers (execPcsLockLoss link s) (Keeps s) :=
  answers_taken (keeps_linkDown (keeps_setLink (keeps_refl _)))

theorem answers_execLinkSilenceTimeout {link} : Answers (execLinkSilenceTimeout link s) (Keeps s) :=
  answers_taken (keeps_linkDown (keeps_refl _))

theorem answers_execHoldDownEnd {link} : Answers (execHoldDownEnd link s) (Keeps s) :=
  answers_taken (keeps_train (keeps_setLink (keeps_refl _)))

theorem answers_execHelloRepeat {link} : Answers (execHelloRepeat link s) (Keeps s) :=
  answers_taken (keeps_sendHello (keeps_refl _))

theorem answers_execKeyxRepeat {link} : Answers (execKeyxRepeat link s) (Keeps s) :=
  answers_taken (keeps_sendKeyx (keeps_refl _))

theorem answers_execProbeInterval {link} : Answers (execProbeInterval link s) (Keeps s) :=
  answers_taken (keeps_drainForward (keeps_putFrame (keeps_refl _)))

theorem answers_execOldKeyRetire {link} : Answers (execOldKeyRetire link s) (Keeps s) :=
  answers_taken (keeps_setLink (keeps_refl _))

theorem answers_execOpenRepeat {peer} : Answers (execOpenRepeat peer s) (Keeps s) := by
  unfold execOpenRepeat
  split
  · exact answers_next (keeps_refl _)
  · exact answers_taken (keeps_ite (keeps_sendOpen (keeps_refl _)) (keeps_enterFlow (keeps_refl _)))

theorem answers_execAckDelay {peer} : Answers (execAckDelay peer s) (Keeps s) := by
  unfold execAckDelay
  split
  · exact answers_next (keeps_refl _)
  · exact answers_taken (keeps_sendAck (keeps_refl _))

theorem answers_execRetransmitTimeout {peer seq} : Answers (execRetransmitTimeout peer seq s) (Keeps s) := by
  unfold execRetransmitTimeout
  split
  · exact answers_next (keeps_refl _)
  · exact answers_next (keeps_transmit (keeps_refl _))

theorem answers_execSprayEnter {peer} : Answers (execSprayEnter peer s) (Keeps s) := by
  unfold execSprayEnter
  split
  · exact answers_next (keeps_refl _)
  · exact answers_taken (keeps_setFlow (keeps_refl _))

theorem answers_execOrderedReturn {peer} : Answers (execOrderedReturn peer s) (Keeps s) := by
  unfold execOrderedReturn
  split
  · exact answers_next (keeps_refl _)
  · exact answers_taken (keeps_setFlow (keeps_refl _))

theorem answers_execFlowIdleClose {peer} : Answers (execFlowIdleClose peer s) (Keeps s) :=
  answers_taken (keeps_closeFlow (keeps_refl _))

theorem answers_execFlowUnreachableTimeout {peer} : Answers (execFlowUnreachableTimeout peer s) (Keeps s) :=
  answers_taken (keeps_killFlow (keeps_refl _))

theorem answers_execForwardQueueTimeout {a1} : Answers (execForwardQueueTimeout a1 s) (Keeps s) := by
  unfold execForwardQueueTimeout
  split
  · exact answers_next (keeps_refl _)
  · exact answers_taken (keeps_dropForward (keeps_onSw (keeps_refl _)))

theorem answers_execKeyDeriveLink {c} : Answers (execKeyDeriveLink c s) (Keeps s) := by
  unfold execKeyDeriveLink
  refine answers_runInstr ?_
  split
  · exact keeps_ite (keeps_retire (keeps_refl _)) (keeps_ite (keeps_retire (keeps_refl _)) (keeps_await (keeps_refl _)
      (fun _ => keeps_foldl (fun _ _ => keeps_startRekey (keeps_refl _)) (keeps_onQm (keeps_refl _)))))
  · exact keeps_refl _

end Sys2Proof.Standing
end

section
/-! What the operations of the model's Requests part keep. -/

namespace Sys2Proof.Standing

open Sys2Proof.Machine Sys2Proof.Safety

variable {s t u : State}

theorem keeps_frameClaim {f} (k : Keeps s t) : Keeps s (frameClaim t f) :=
  keeps_foldl (fun _ _ => keeps_takePlace (keeps_refl _)) k

theorem keeps_frameLeaves {f} (k : Keeps s t) : Keeps s (frameLeaves t f) :=
  keeps_foldl (fun _ _ => keeps_redeem (keeps_refl _)) k

theorem answers_perform {src seq ftype eff} (hf : ∀ x r, Keeps x (eff x r)) : Answers (perform s src seq ftype eff) (Keeps
    s) := by
  unfold perform
  split
  · exact answers_next (keeps_refl s)
  · exact answers_ite (answers_next (keeps_refl s)) (answers_ite (answers_next (keeps_frameClaim (keeps_refl s)))
      (answers_next (keeps_frameLeaves ((keeps_oweCredit (keeps_onSw (keeps_refl s))).trans (hf _ _)))))

theorem keeps_countRefusal {a} (k : Keeps s t) : Keeps s (countRefusal t a) := by
  unfold countRefusal
  split
  · exact keeps_refuseRemote k
  · exact k

theorem keeps_refuseFrame {f st} (k : Keeps s t) : Keeps s (refuseFrame t f st) :=
  keeps_ite (keeps_sendRdata (keeps_countRefusal k)) (keeps_sendResp (keeps_countRefusal k))

theorem keeps_frameTimeout {src seq} (k : Keeps s t) : Keeps s (frameTimeout t src seq) := by
  unfold frameTimeout
  split
  · exact keeps_dropTickets k
  · exact keeps_ite (keeps_sendRdata (keeps_oweCredit (keeps_onSw (keeps_dropTickets k)))) (keeps_sendResp
      (keeps_oweCredit (keeps_onSw (keeps_dropTickets k))))

theorem keeps_onRequest {f need n align ok eff} (k : Keeps s t) (hf : ∀ h c, Keeps s (eff h c)) :
    Keeps s (onRequest t f need n align ok eff) := by
  unfold onRequest
  split
  · exact hf _ _
  · exact keeps_refuseFrame k
  · exact keeps_refuseFrame k

theorem keeps_writeLines {f need rangeOk ks} (k : Keeps s t) : Keeps s (writeLines t f need rangeOk ks) := by
  unfold writeLines
  exact keeps_onRequest k (fun _ _ => keeps_ite (keeps_countPerformed (keeps_foldl_fst (fun _ _ => keeps_homeWrite
    (keeps_refl _)) k)) (keeps_sendResp (keeps_foldl_fst (fun _ _ => keeps_homeWrite (keeps_refl _)) k)))

theorem answers_execWrite {src seq} : Answers (execWrite src seq s) (Keeps s) :=
  answers_perform (fun _ _ => keeps_writeLines (keeps_refl _))

theorem answers_execWritep {src seq} : Answers (execWritep src seq s) (Keeps s) :=
  answers_perform (fun _ _ => keeps_writeLines (keeps_refl _))

theorem answers_execReduceFrame {src seq} : Answers (execReduceFrame src seq s) (Keeps s) := by
  unfold execReduceFrame
  refine answers_perform ?_
  intro _ _
  split
  · exact keeps_writeLines (keeps_refl _)
  · exact keeps_writeLines (keeps_refl _)

theorem answers_execAtom {src seq} : Answers (execAtom src seq s) (Keeps s) :=
  answers_perform (fun _ _ => keeps_onRequest (keeps_refl _) (fun _ _ => keeps_ite (keeps_countPerformed (keeps_sendResp
    (keeps_homeWrite (keeps_refl _)))) (keeps_sendResp (keeps_homeWrite (keeps_refl _)))))

theorem answers_execRead {src seq} : Answers (execRead src seq s) (Keeps s) :=
  answers_perform (fun _ _ => keeps_onRequest (keeps_refl _) (fun _ _ => keeps_ite (keeps_countPerformed (keeps_sendRdata
    (keeps_foldl_fst (fun _ _ => keeps_homeRead (keeps_refl _)) (keeps_refl _)))) (keeps_sendRdata (keeps_foldl_fst (fun _
    _ => keeps_homeRead (keeps_refl _)) (keeps_refl _)))))

theorem keeps_cancelWait {n src srcHive target} (k : Keeps s t) : Keeps s (cancelWait t n src srcHive target) := by
  unfold cancelWait
  refine keeps_ite (keeps_onQm k) ?_
  split
  · exact keeps_countPerformed (keeps_onQm k)
  · exact keeps_onQm k

theorem answers_execWaitFrame {src seq} : Answers (execWaitFrame src seq s) (Keeps s) :=
  answers_perform (fun _ _ => keeps_ite (keeps_countPerformed (keeps_cancelWait (keeps_refl _))) (keeps_fenceOp
    (keeps_refl _)))

theorem keeps_answer {f data} (k : Keeps s t) (hf : ∀ x y, Keeps x (data x y)) : Keeps s (answer t f data) := by
  unfold answer
  dsimp only
  split
  · exact keeps_onSw (keeps_countPerformed k)
  · exact keeps_endTxn (keeps_ite ((keeps_countPerformed k).trans (hf _ _)) (keeps_countPerformed k))

theorem answers_execRdata {src seq} : Answers (execRdata src seq s) (Keeps s) := by
  unfold execRdata
  refine answers_perform ?_
  intro _ _
  refine keeps_answer (keeps_refl _) ?_
  intro _ _
  split
  · exact keeps_foldl (fun _ _ => keeps_keepData (keeps_refl _)) (keeps_refl _)
  · exact keeps_refl _

theorem answers_execResp {src seq} : Answers (execResp src seq s) (Keeps s) := by
  unfold execResp
  refine answers_perform ?_
  intro _ _
  refine keeps_answer (keeps_refl _) ?_
  intro _ _
  split
  · exact keeps_keepData (keeps_refl _)
  · exact keeps_refl _

end Sys2Proof.Standing
end

section
/-! What the operations of the model's Brood part keep. -/

namespace Sys2Proof.Standing

open Sys2Proof.Machine Sys2Proof.Safety

variable {s t u : State}

theorem keeps_spareRecord {cls group unit phys cause} (k : Keeps s t) : Keeps s (spareRecord t cls group unit phys cause)
    :=
  keeps_logErr k

theorem keeps_onWay {group way retire_} (k : Keeps s t) : Keeps s (onWay t group way retire_) :=
  keeps_onXl k

theorem keeps_switchUnit {cls group unit} (k : Keeps s t) : Keeps s (switchUnit t cls group unit) := by
  unfold switchUnit
  split
  · exact keeps_onWay k
  · exact keeps_linkDown k
  · exact k

theorem keeps_retireUnit {cls group unit} (k : Keeps s t) : Keeps s (retireUnit t cls group unit) := by
  unfold retireUnit
  refine keeps_spareRecord ?_
  split
  · exact keeps_setMover k
  · exact keeps_onWay k
  · exact keeps_setSlot k
  · exact keeps_setLink (keeps_linkDown k)
  · exact k

theorem keeps_swapDone {cls group unit spare} (k : Keeps s t) : Keeps s (swapDone t cls group unit spare) :=
  keeps_spareRecord (keeps_switchUnit (keeps_onBr k))

theorem keeps_drainMover {m spare chan} (k : Keeps s t) : Keeps s (drainMover t m spare chan) := by
  unfold drainMover
  exact keeps_onBr (keeps_setMover k)

theorem keeps_keeperSwap {cls group unit} (k : Keeps s t) : Keeps s (keeperSwap t cls group unit) := by
  unfold keeperSwap
  refine keeps_ite k ?_
  split
  · exact keeps_retireUnit k
  · exact keeps_ite (keeps_ite (keeps_drainMover k) k) (keeps_swapDone k)

theorem answers_execSpareSwap {c} : Answers (execSpareSwap c s) (Keeps s) := by
  unfold execSpareSwap
  refine answers_runInstr ?_
  split
  · refine keeps_ite (keeps_retire (keeps_refl _)) ?_
    refine keeps_ite (keeps_retire (keeps_refl _)) ?_
    split
    · exact keeps_retire (keeps_retireUnit (keeps_refl _))
    · exact keeps_ite (keeps_await (keeps_refl _) (fun _ => keeps_drainMover (keeps_onQm (keeps_refl _)))) (keeps_retire
        (keeps_swapDone (keeps_refl _)))
  · exact keeps_refl _

theorem keeps_endSwapJob {chan st} (k : Keeps s t) : Keeps s (endSwapJob t chan st) := by
  unfold endSwapJob
  split
  · exact keeps_retire (keeps_onQm k)
  · exact k

theorem keeps_homeGoes (k : Keeps s t) : Keeps s (homeGoes t) :=
  keeps_onward (keeps_wakeLines (keeps_foldl (fun _ _ => keeps_arrive (keeps_refl _)) (keeps_onPr k id)))

theorem answers_execHomeSideSwitch {m} : Answers (execHomeSideSwitch m s) (Keeps s) := by
  unfold execHomeSideSwitch
  split
  · exact answers_next (keeps_refl _)
  · exact answers_taken (keeps_homeGoes (keeps_setMover (keeps_refl _)))

theorem answers_execMoverQuietPoint {m} : Answers (execMoverQuietPoint m s) (Keeps s) := by
  unfold execMoverQuietPoint
  split
  · exact answers_next (keeps_refl _)
  · exact answers_taken (keeps_endSwapJob (keeps_onXl (keeps_setMover (keeps_swapDone (keeps_refl _)))))

theorem answers_execSpareSwapTimeout {uclass unit sub} : Answers (execSpareSwapTimeout uclass unit sub s) (Keeps s) := by
  unfold execSpareSwapTimeout
  split
  · exact answers_next (keeps_refl _)
  · refine answers_taken ?_
    split
    · exact keeps_endSwapJob (keeps_onBr (keeps_homeGoes (keeps_setMover (keeps_refl _))))
    · exact keeps_ite (keeps_spareRecord (keeps_onBr (keeps_homeGoes (keeps_setMover (keeps_refl _))))) (keeps_onBr
        (keeps_homeGoes (keeps_setMover (keeps_refl _))))

theorem answers_execSpareRetryTimer {m} : Answers (execSpareRetryTimer m s) (Keeps s) := by
  unfold execSpareRetryTimer
  split
  · exact answers_next (keeps_refl _)
  · exact answers_taken (keeps_inControl (keeps_refl _) (keeps_onBr (keeps_setMover (keeps_refl _))))

theorem keeps_countWear {cls group unit corrected} (k : Keeps s t) : Keeps s (countWear t cls group unit corrected) := by
  unfold countWear
  exact keeps_onBr k

theorem keeps_wearError {cls group unit corrected} (k : Keeps s t) : Keeps s (wearError t cls group unit corrected) :=
  keeps_ite (keeps_keeperSwap (keeps_countWear k)) (keeps_countWear k)

theorem keeps_errorRecord {a2 told hive ugroup unit sub} (k : Keeps s t) : Keeps s (errorRecord t a2 told hive ugroup unit
    sub) :=
  keeps_logErr k

theorem keeps_abortMover {m} (k : Keeps s t) : Keeps s (abortMover t m) :=
  keeps_foldl (fun _ _ => keeps_ite (keeps_abortChan (keeps_refl _)) (keeps_refl _)) k

theorem keeps_uncertainSlice {a2} (k : Keeps s t) : Keeps s (uncertainSlice t a2) :=
  keeps_ite (keeps_ite (keeps_putSlice (keeps_openingDone k)) (keeps_openingDone k)) (keeps_putSlice k)

theorem keeps_uncertainWord {port cell} (k : Keeps s t) : Keeps s (uncertainWord t port cell) := by
  unfold uncertainWord
  exact keeps_logErr (keeps_foldl (fun _ _ => keeps_uncertainSlice (keeps_refl _)) k)

theorem keeps_loseFlow {peer} (k : Keeps s t) : Keeps s (loseFlow t peer) :=
  keeps_ite (keeps_sendOpen (keeps_resetFlow (keeps_onSw k))) k

theorem keeps_loseStorage {inst hive} (k : Keeps s t) : Keeps s (loseStorage t inst hive) := by
  unfold loseStorage
  split
  · exact keeps_ite (keeps_fatal k) (keeps_hwHiveReset k)
  · exact keeps_fatal k

theorem keeps_loseRow {inst row} (k : Keeps s t) : Keeps s (loseRow t inst row) := by
  unfold loseRow
  refine keeps_ite (keeps_abortMover k) (keeps_ite (keeps_foldl (fun _ _ => keeps_uncertainWord (keeps_refl _)) k)
    (keeps_ite (keeps_foldl (fun x i => ?_) k) (keeps_ite ?_ (keeps_ite (keeps_loadRoutes k) (keeps_ite (keeps_loseStorage
      k)
      (keeps_fatal k))))))
  · split
    · exact keeps_poisonCached (keeps_refl x)
    · exact keeps_refl x
  · split
    · exact keeps_loseFlow k
    · exact k

theorem keeps_loseKeyRow {slot} (k : Keeps s t) : Keeps s (loseKeyRow t slot) :=
  keeps_ite (keeps_setSlot k) k

theorem keeps_spareFails {p} (k : Keeps s t) : Keeps s (spareFails t p) := by
  unfold spareFails
  dsimp only
  split
  · exact k
  · split
    · exact keeps_onBr (keeps_onBr k)
    · exact keeps_endSwapJob (keeps_retireUnit (keeps_onBr (keeps_onBr k)))

theorem keeps_rowError {a2 hive inst row} (k : Keeps s t) : Keeps s (rowError t a2 hive inst row) :=
  keeps_ite (keeps_wearError (keeps_wearError (keeps_ite k (keeps_errorRecord k)))) (keeps_ite (keeps_countWear
    (keeps_wearError (keeps_ite k (keeps_errorRecord k)))) (keeps_wearError (keeps_ite k (keeps_errorRecord k))))

theorem keeps_reportError {a2 a3} (k : Keeps s t) : Keeps s (reportError t a2 a3) := by
  unfold reportError
  split
  · exact keeps_ite (keeps_ite (keeps_countWear (keeps_errorRecord k)) (keeps_spareFails (keeps_countWear
      (keeps_errorRecord k)))) (keeps_ite (keeps_wearError (keeps_errorRecord k)) (keeps_abortMover (keeps_wearError
      (keeps_errorRecord k))))
  · exact keeps_wearError (keeps_ite (keeps_errorRecord k) (keeps_onWay (keeps_errorRecord k)))
  · exact keeps_ite (keeps_wearError (keeps_errorRecord k)) (keeps_loseKeyRow (keeps_wearError (keeps_errorRecord k)))
  · exact keeps_ite (keeps_rowError k) (keeps_loseRow (keeps_rowError k))
  · exact keeps_wearError (keeps_errorRecord k)
  · exact keeps_ite (keeps_countWear (keeps_errorRecord k)) (keeps_uncertainWord (keeps_countWear k))
  · exact keeps_ite (keeps_rowError k) (keeps_poisonCached (keeps_rowError k))
  · exact keeps_ite (keeps_rowError k) (keeps_loseStorage (keeps_rowError k))
  · exact keeps_ite (keeps_rowError k) (keeps_loadRoutes (keeps_rowError k))
  · exact keeps_ite (keeps_rowError k) (keeps_loseFlow (keeps_rowError k))
  · exact keeps_ite (keeps_rowError k) (keeps_fatal (keeps_rowError k))
  · exact keeps_wearError (keeps_errorRecord (keeps_ite k (keeps_onXl k)))
  · exact keeps_countWear (keeps_errorRecord (keeps_ite k (keeps_onXl k)))
  · exact keeps_countWear (keeps_errorRecord (keeps_ite k (keeps_onXl k)))
  · exact keeps_ite (keeps_countWear (keeps_errorRecord k)) (keeps_onMv (keeps_countWear (keeps_errorRecord k)) id)
  · exact keeps_ite k (keeps_onVault k (fusesStay_refl _))
  · exact keeps_ite (keeps_countWear (keeps_errorRecord k)) (keeps_onKp (keeps_countWear (keeps_errorRecord k)) id id)

theorem answers_execErrorReport {a1 a2} : Answers (execErrorReport a1 a2 s) (Keeps s) :=
  answers_next (keeps_progress (keeps_reportError (keeps_refl _)))

theorem answers_execSramScrub {a entry corr uncorr} : Answers (execSramScrub a entry corr uncorr s) (Keeps s) :=
  answers_taken (keeps_ite (keeps_progress (keeps_reportError (keeps_refl _))) (keeps_ite (keeps_progress
    (keeps_reportError (keeps_refl _))) (keeps_refl _)))

theorem answers_execWearBucketRoll : Answers (execWearBucketRoll s) (Keeps s) :=
  answers_next (keeps_onBr (keeps_refl _))

theorem answers_execWearCountSave : Answers (execWearCountSave s) (Keeps s) :=
  answers_next (keeps_emit (keeps_onBr (keeps_refl _)))

theorem answers_execLogPersist : Answers (execLogPersist s) (Keeps s) :=
  answers_next (keeps_emit (keeps_onBr (keeps_refl _)))

end Sys2Proof.Standing
end

section
/-! What the operations of the model's Ports part keep. -/

namespace Sys2Proof.Standing

open Sys2Proof.Machine Sys2Proof.Safety

variable {s t u : State}

theorem answers_request {h} (a : h.req.addr < memBytes s) : Answers (request s h) (Keeps s) := by
  unfold request
  rw [if_neg (Nat.not_le.mpr a)]
  exact answers_next (keeps_inStream (keeps_refl s) (keeps_arrive (keeps_refl s)))

theorem answers_execPropolisRead {r} (a : lineOf r.addr < memBytes s) : Answers (execPropolisRead r s) (Keeps s) :=
  answers_request a

theorem answers_execPropolisWrite {r w} (a : lineOf r.addr < memBytes s) : Answers (execPropolisWrite r w s) (Keeps s) :=
  answers_request a

theorem answers_execSliceOpeningDone {cell port} : Answers (execSliceOpeningDone cell port s) (Keeps s) :=
  answers_taken (keeps_onward (keeps_openingDone (keeps_refl _)))

theorem keeps_waitFirst {h} (k : Keeps s t) : Keeps s (waitFirst t h) :=
  keeps_ite (keeps_onPr k id) (keeps_addLock k)

theorem keeps_poisonThen {h raw st} (k : Keeps s t) : Keeps s (poisonThen t h raw st) :=
  keeps_ite (keeps_sendOut k) (keeps_waitFirst k)

theorem keeps_corrected {p} (k : Keeps s t) : Keeps s (corrected t p) :=
  keeps_countWear (keeps_logErr k)

theorem keeps_observe {a c plain} (k : Keeps s t) : Keeps s (observe t a c plain) :=
  keeps_ite k (keeps_ite (keeps_onPr (keeps_setCond k) (cellsWf_cellWriteN _ _ _ _)) (keeps_setCond k))

theorem keeps_readBack {p h corr err poison rsMeta data} (k : Keeps s t) : Keeps s (readBack t p h corr err poison rsMeta
    data) := by
  unfold readBack
  dsimp only
  refine keeps_ite (keeps_poisonThen (keeps_ite (keeps_securityAlarm (keeps_countWear (keeps_logErr (keeps_observe k))))
    (keeps_countWear (keeps_logErr (keeps_observe k))))) ?_
  split
  · exact keeps_settle (keeps_observe k)
  · exact keeps_ite (keeps_sendOut (keeps_observe k)) (keeps_ite (keeps_sendOut (keeps_observe k)) (keeps_settle
      (keeps_observe k)))
  · exact keeps_ite (keeps_poisonThen (keeps_logErr (keeps_observe k))) (keeps_poisonThen (keeps_securityAlarm
      (keeps_observe k)))

theorem keeps_landed {r} (k : Keeps s t) : Keeps s (landed t r) := by
  unfold landed
  refine keeps_ite k ?_
  split
  · exact keeps_ite (keeps_observe k) (keeps_storeLine k)
  · exact keeps_ite (keeps_observe k) (keeps_storeLine k)
  · exact keeps_setCond k

theorem keeps_writeBackDone {r err} (k : Keeps s t) : Keeps s (writeBackDone t r err) := by
  unfold writeBackDone
  dsimp only
  split
  · exact keeps_ite (keeps_settle (keeps_ite (keeps_drawNat k) (keeps_landed (keeps_drawNat k)))) (keeps_settle
      (keeps_landed k))
  · exact keeps_ite (keeps_settle (keeps_ite (keeps_drawNat k) (keeps_landed (keeps_drawNat k)))) (keeps_settle
      (keeps_landed k))
  · exact keeps_settle (keeps_ite k (keeps_landed k))

theorem keeps_refusePort {p} (k : Keeps s t) : Keeps s (refusePort t p) :=
  keeps_refuseInput k

theorem answers_execStreamResponse {p write tag corr err poison m} : Answers (execStreamResponse p write tag corr err
    poison m s) (Keeps s) := by
  unfold execStreamResponse
  dsimp only
  split
  · exact answers_taken (keeps_refusePort (keeps_refl _))
  · exact answers_ite (answers_next (keeps_refusePort (keeps_refl _))) (answers_next (keeps_onward (keeps_ite
      (keeps_writeBackDone (keeps_ite (keeps_corrected (keeps_setPort (keeps_refl _))) (keeps_setPort (keeps_refl _))))
      (keeps_readBack (keeps_ite (keeps_corrected (keeps_setPort (keeps_refl _))) (keeps_setPort (keeps_refl _)))))))

theorem keeps_resetPorts (k : Keeps s t) : Keeps s (resetPorts t) :=
  ⟨k.pending, k.sent.trans (List.prefix_append _ _), k.mem, k.spads, k.args, k.flash, k.fuses⟩

theorem keeps_clockReady {d} (k : Keeps s t) : Keeps s (clockReady t d) :=
  keeps_onward (keeps_ite (keeps_foldl (fun _ _ => keeps_train (keeps_refl _)) (keeps_onClk (keeps_setClock k)))
    (keeps_onClk (keeps_setClock k)))

theorem keeps_portsUp (k : Keeps s t) : Keeps s (portsUp t) :=
  keeps_ite (keeps_clockReady k) k

theorem answers_execCreditReturn {p req wd} : Answers (execCreditReturn p req wd s) (Keeps s) :=
  answers_taken (keeps_onward (keeps_wakeLines (keeps_drainPort (keeps_portsUp (keeps_ite (keeps_refusePort (keeps_setPort
    (keeps_refl _))) (keeps_setPort (keeps_refl _)))))))

theorem keeps_endWaiting {h st} (k : Keeps s t) : Keeps s (endWaiting t h st) :=
  keeps_ite k (keeps_answerReq k)

theorem answers_execInitialCreditTimeout {p} : Answers (execInitialCreditTimeout p s) (Keeps s) :=
  answers_taken (keeps_onward (keeps_wakeLines (keeps_portsUp (keeps_logErr (keeps_foldl (fun _ _ => keeps_releaseLine
    (keeps_endWaiting (keeps_refl _))) (keeps_setPort (keeps_refl _)))))))

theorem answers_execArbiterAgeExpiry {p a2} : Answers (execArbiterAgeExpiry p a2 s) (Keeps s) := by
  unfold execArbiterAgeExpiry
  dsimp only
  split
  · split
    · exact answers_next (keeps_refl _)
    · exact answers_taken (keeps_drainPort (keeps_setPort (keeps_refl _)))
  · split
    · exact answers_next (keeps_refl _)
    · exact answers_taken (keeps_settleLinks (keeps_sendFwd (keeps_onSw (keeps_refl _))))
  · exact answers_next (keeps_refl _)

theorem keeps_portTimeout {p write r} (k : Keeps s t) : Keeps s (portTimeout t p write r) :=
  keeps_settle (keeps_ite (keeps_landed (keeps_drawNat (keeps_setPort k))) (keeps_drawNat (keeps_setPort k)))

theorem keeps_lineTimeout {c} (k : Keeps s t) : Keeps s (lineTimeout t c) := by
  unfold lineTimeout
  dsimp only
  split
  · exact keeps_setChan (keeps_dropTickets k)
  · exact k

theorem keeps_ticketTimeout {o a} (k : Keeps s t) : Keeps s (ticketTimeout t o a) := by
  unfold ticketTimeout
  split
  · exact keeps_lineTimeout k
  · exact keeps_hostTimeout k
  · exact keeps_frameTimeout k
  · split
    · exact keeps_recordDone (keeps_lostRecord (keeps_dropTickets k))
    · exact keeps_dropTickets k
  · exact keeps_dropWhere k

theorem keeps_waitingTimeout {o a} (k : Keeps s t) : Keeps s (waitingTimeout t o a) := by
  unfold waitingTimeout
  refine keeps_ite (keeps_ticketTimeout k) ?_
  split
  · exact keeps_answerReq (keeps_onPr k id)
  · exact keeps_answerReq (keeps_onPr k id)
  · exact keeps_answerReq (keeps_onPr k id)
  · exact keeps_settle (keeps_setPort k)
  · exact k

theorem keeps_hostReadTimeout {r} (k : Keeps s t) : Keeps s (hostReadTimeout t r) := by
  unfold hostReadTimeout
  split
  · exact keeps_setChan (keeps_wake (keeps_settleInvs (keeps_hostOn (keeps_onHp k))))
  · exact keeps_discard (keeps_settleInvs (keeps_hostOn (keeps_onHp k)))
  · exact keeps_settleInvs (keeps_hostOn (keeps_onHp k))

theorem keeps_slotWalkTimeout {q idx} (k : Keeps s t) : Keeps s (slotWalkTimeout t q idx) :=
  keeps_discard (keeps_permFault k)

theorem answers_execStreamRequestTimeout {x} : Answers (execStreamRequestTimeout x s) (Keeps s) := by
  unfold execStreamRequestTimeout
  dsimp only
  split
  · split
    · exact answers_next (keeps_refl _)
    · exact answers_next (keeps_onward (keeps_portTimeout (keeps_refl _)))
  · split
    · exact answers_next (keeps_refl _)
    · exact answers_next (keeps_endTxn (keeps_refl _))
  · split
    · exact answers_next (keeps_refl _)
    · exact answers_next (keeps_setChan (keeps_wake (keeps_onHp (keeps_refl _))))
  · split
    · exact answers_next (keeps_refl _)
    · exact answers_next (keeps_progress (keeps_faultAll (keeps_onXl (keeps_refl _))))
  · exact answers_next (keeps_progress (keeps_preReadTimeout (keeps_refl _)))
  · exact answers_next (keeps_progress (keeps_bindReadTimeout (keeps_refl _)))
  · exact answers_next (keeps_lineTimeout (keeps_refl _))
  · exact answers_next (keeps_onward (keeps_waitingTimeout (keeps_refl _)))
  · split
    · exact answers_next (keeps_refl _)
    · exact answers_taken (keeps_progress (keeps_discard (keeps_refl _)))
  · split
    · exact answers_next (keeps_refl _)
    · exact answers_taken (keeps_progress (keeps_slotWalkTimeout (keeps_refl _)))
  · split
    · exact answers_next (keeps_refl _)
    · exact answers_next (keeps_progress (keeps_hostReadTimeout (keeps_refl _)))

theorem Keeps.answers {o} (k : Keeps s t) (a : Answers o (Keeps t)) : Answers o (Keeps s) := by
  obtain ⟨u, e, a⟩ := a
  exact ⟨u, e, k.trans a⟩

theorem answers_execMemoryScrub {addr corr err poison m} (a : lineOf addr < memBytes s) :
    Answers (execMemoryScrub addr corr err poison m s) (Keeps s) := by
  unfold execMemoryScrub
  dsimp only
  rw [if_neg (Nat.not_le.mpr a)]
  refine answers_ite (answers_next (keeps_demand (keeps_refl s))) ?_
  split
  · exact answers_next (keeps_refl s)
  · refine answers_ite ?_ (answers_next (keeps_refl s))
    split
    · exact (keeps_arrive (keeps_refl s)).answers answers_execStreamResponse
    · exact answers_next (keeps_arrive (keeps_refl s))

end Sys2Proof.Standing
end

section
/-! What the operations of the model's Boot part keep. -/

namespace Sys2Proof.Standing

open Sys2Proof.Machine Sys2Proof.Safety

variable {s t u : State}

theorem keeps_withIdentity (k : Keeps s t) : Keeps s (withIdentity t) :=
  keeps_ite (keeps_onVault k (fusesStay_refl _)) k

theorem keeps_senseLc (k : Keeps s t) : Keeps s (senseLc t) :=
  keeps_ite (keeps_ite (keeps_foldl (fun _ _ => keeps_zeroSlot (keeps_refl _)) (keeps_withIdentity (keeps_onVault
    (keeps_ite (keeps_refuseInput k) k) (fusesStay_refl _)))) (keeps_withIdentity (keeps_onVault (keeps_ite
    (keeps_refuseInput k) k) (fusesStay_refl _)))) (keeps_foldl (fun _ _ => keeps_linkDown (keeps_refl _)) (keeps_ite
    (keeps_foldl (fun _ _ => keeps_zeroSlot (keeps_refl _)) (keeps_withIdentity (keeps_onVault (keeps_ite
    (keeps_refuseInput k) k) (fusesStay_refl _)))) (keeps_withIdentity (keeps_onVault (keeps_ite (keeps_refuseInput k) k)
    (fusesStay_refl _)))))

theorem keeps_setBlow {b} (k : Keeps s t) : Keeps s (setBlow t b) :=
  keeps_onVault k (fusesStay_refl _)

theorem keeps_repairLc (k : Keeps s t) : Keeps s (repairLc t) :=
  keeps_ite k (keeps_setBlow k)

theorem keeps_flashWrite {a bs} (k : Keeps s t) : Keeps s (flashWrite t a bs) :=
  keeps_emit (keeps_onKp k id (cellsWf_cellWriteN _ _ _ _))

theorem keeps_flashErase {a n} (k : Keeps s t) : Keeps s (flashErase t a n) :=
  keeps_onKp k id (cellsWf_filter _ _ _)

theorem keeps_countInvalid {kind okA okB} (k : Keeps s t) : Keeps s (countInvalid t kind okA okB) :=
  keeps_foldl (fun _ _ => keeps_refuseInput (keeps_refl _)) k

theorem keeps_writeBootTree {root} (k : Keeps s t) : Keeps s (writeBootTree t root) :=
  keeps_foldl (fun _ _ => keeps_writeRecord (keeps_refl _)) k

theorem keeps_bindLabels0 (k : Keeps s t) : Keeps s (bindLabels0 t) :=
  keeps_foldl (fun _ _ => keeps_setLabel (keeps_refl _)) (keeps_foldl (fun _ _ => keeps_setLabel (keeps_refl _)) k)

theorem keeps_createHive0 (k : Keeps s t) : Keeps s (createHive0 t) := by
  unfold createHive0
  exact keeps_setMbox (keeps_setQueue (keeps_onQm (keeps_writeBootTree (keeps_onHp (keeps_setCtx (keeps_bindLabels0
    (keeps_deriveManagerKey (keeps_setHive k)))))))) id

theorem keeps_finishSwaps (k : Keeps s t) : Keeps s (finishSwaps t) :=
  keeps_foldl (fun _ _ => keeps_ite (keeps_setMover (keeps_swapDone (keeps_refl _))) (keeps_refl _)) k

theorem keeps_renumber (k : Keeps s t) : Keeps s (renumber t) :=
  keeps_ite k (keeps_onBr (keeps_foldl (fun _ _ => keeps_setMover (keeps_refl _)) k))

/-- Queue manager and movers leave with nothing in them; the scratchpads are then empty. -/
theorem keeps_emptied {m : Tab Mover} (k : Keeps s t) :
    Keeps s { t with qm := QueueMgr.reset, mv := { Movers.reset with movers := m } } :=
  ⟨k.pending, k.sent, k.mem, fun _ => rfl, k.args, k.flash, k.fuses⟩

theorem keeps_clearBlock {keepPcie} (k : Keeps s t) : Keeps s (clearBlock t keepPcie) := by
  have q := keeps_refuseQueue k
  have v {l : List Nat} {m : Tab Mover} := keeps_renumber (keeps_finishSwaps (keeps_emptied (m := m)
    (keeps_resetPorts (keeps_foldl (f := fun t p => emit t (.stopMarker p)) (l := l) (fun x _ => keeps_emit (keeps_refl
      x)) q))))
  exact ⟨v.pending, v.sent, fun _ => rfl, v.spads, q.args, q.flash, q.fuses⟩

theorem keeps_abortVaultCommand (k : Keeps s t) : Keeps s (abortVaultCommand t) :=
  keeps_ite (keeps_mbEnd (keeps_ite (keeps_onVault k (fusesStay_refl _)) k)) k

theorem keeps_rebuild (k : Keeps s t) : Keeps s (rebuild t) :=
  keeps_createHive0 (keeps_onKp (keeps_onSw (keeps_drawDrbg (keeps_onVault (keeps_drawDrbg (keeps_onVault k
    (fusesStay_refl _))) (fusesStay_refl _)))) id id)

theorem keeps_endAsked (k : Keeps s t) : Keeps s (endAsked t) :=
  keeps_ite (keeps_mbEnd k) k

theorem keeps_finishWarm (k : Keeps s t) : Keeps s (finishWarm t) :=
  keeps_endAsked (keeps_onVault (keeps_onKp (keeps_setMbox (keeps_ite k (keeps_dropPcie k)) id) id id) (fusesStay_refl _))

theorem keeps_resetClusters {a} (k : Keeps s t) : Keeps s (resetClusters a t) :=
  keeps_foldl (fun _ _ => keeps_clearPins (keeps_setCluster (keeps_refl _))) k

theorem keeps_dropClock {d} (k : Keeps s t) : Keeps s (dropClock t d) :=
  keeps_ite (keeps_emit (keeps_setClock k)) k

theorem keeps_holdBlock (k : Keeps s t) : Keeps s (holdBlock t) := by
  unfold holdBlock
  exact keeps_onClk (keeps_dropClock (keeps_dropClock (keeps_onKp (keeps_setMbox k id) id id)))

theorem keeps_holdLocked {keepPcie} (k : Keeps s t) : Keeps s (holdLocked t keepPcie) :=
  keeps_endAsked (keeps_holdBlock (keeps_clearBlock k))

theorem keeps_setWarm {w} (k : Keeps s t) : Keeps s (t.onKp (fun x => { x with warm := w })) := keeps_onKp k id id

theorem keeps_warmRest {keepPcie} (k : Keeps s t) : Keeps s (warmRest t keepPcie) :=
  keeps_ite (keeps_setWarm (keeps_rebuild k)) (keeps_finishWarm (keeps_setWarm (keeps_rebuild k)))

theorem keeps_warmSteps {keepPcie} (k : Keeps s t) : Keeps s (warmSteps t keepPcie) :=
  keeps_ite (keeps_holdLocked (keeps_abortVaultCommand k)) (keeps_ite (keeps_warmRest (keeps_onKp (keeps_resetClusters
    (keeps_clearBlock (keeps_abortVaultCommand k))) id id)) (keeps_onKp (keeps_resetClusters (keeps_clearBlock
    (keeps_abortVaultCommand k))) id id))

theorem answers_execBlockWarmReset : Answers (execBlockWarmReset s) (Keeps s) := by
  unfold execBlockWarmReset
  split
  · exact answers_next (keeps_refl _)
  · exact answers_ite (answers_next (keeps_refl _)) (answers_ite (answers_taken (keeps_finishWarm (keeps_refl _)))
      (answers_ite (answers_taken (keeps_warmRest (keeps_refl _))) (answers_next (keeps_ite (keeps_warmSteps (keeps_refl
      _)) (keeps_demand (keeps_refl _))))))

theorem bitsStay_or (a m : Nat) : BitsStay a (a ||| m) := by
  intro i h
  rw [Nat.testBit_or, h, Bool.true_or]

theorem bitsStay_set (l : List Nat) (c m k : Nat) : BitsStay (nth l k 0) (nth (l.set c (nth l c 0 ||| m)) k 0) := by
  unfold nth
  rw [List.getElem?_set]
  split
  · rename_i e
    subst e
    split
    · exact bitsStay_or _ m
    · rename_i n
      rw [List.getElem?_eq_none (Nat.not_lt.mp n)]
      exact bitsStay_refl _
  · exact bitsStay_refl _

/-- R361, R362: blowing a copy leaves every blown copy blown. -/
theorem fusesStay_blow (f : Fuses) (x : FuseBit) : FusesStay f (f.blow x) := by
  cases x <;> refine ⟨?_, ?_, ?_, ?_, ?_, ?_, ?_, ?_, ?_, ?_⟩ <;> intros <;>
    first | exact bitsStay_refl _ | exact bitsStay_or _ _ | exact bitsStay_set _ _ _ _

theorem keeps_cutBlow {f} (hf : ∀ x b, FusesStay x (f x b)) (k : Keeps s t) : Keeps s (cutBlow t f) := by
  unfold cutBlow
  split
  · exact k
  · dsimp only
    split
    · exact keeps_ite (keeps_onVault (keeps_drawNat k) (hf _ _)) (keeps_drawNat k)
    · exact k

theorem keeps_coldReset (k : Keeps s t) : Keeps s (coldReset t) :=
  keeps_resetPorts ⟨k.pending, k.sent, fun _ => rfl, fun _ => rfl, fun _ => rfl, k.flash, (keeps_cutBlow fusesStay_blow
    k).fuses⟩

theorem answers_execColdReset : Answers (execColdReset s) (Keeps s) :=
  answers_next (keeps_coldReset (keeps_refl _))

theorem answers_execBrownOut : Answers (execBrownOut s) (Keeps s) :=
  answers_next (keeps_coldReset (keeps_onClk (keeps_refl _)))

theorem answers_execKeeperWatchdogExpiry : Answers (execKeeperWatchdogExpiry s) (Keeps s) :=
  answers_taken (keeps_coldReset (keeps_emit (keeps_onBr (keeps_logErr (keeps_refl _)))))

theorem keeps_eraseKeeper (k : Keeps s t) : Keeps s (eraseKeeper t) :=
  keeps_onBr (keeps_flashErase k)

theorem keeps_applySettings {copy} (k : Keeps s t) : Keeps s (applySettings t copy) := by
  unfold applySettings
  exact keeps_onKp (keeps_setMbox k id) id id

theorem keeps_beginWarm (k : Keeps s t) : Keeps s (beginWarm t) :=
  keeps_onKp (keeps_setMbox k id) id id

theorem keeps_askAgain (k : Keeps s t) : Keeps s (askAgain t) := by
  unfold askAgain
  refine keeps_foldl ?_ k
  intro _ _
  split
  · exact keeps_ite (keeps_keeperSwap (keeps_refl _)) (keeps_refl _)
  · exact keeps_refl _

theorem keeps_bootSettings {sigA sigB} (k : Keeps s t) : Keeps s (bootSettings t sigA sigB) := by
  unfold bootSettings
  dsimp only
  split
  · exact keeps_holdBlock (keeps_setMbox (keeps_countInvalid k) id)
  · exact keeps_beginWarm (keeps_askAgain (keeps_onClk (keeps_onKp (keeps_applySettings (keeps_countInvalid k)) id id)))

theorem keeps_bootFirmware {sigA sigB} (k : Keeps s t) : Keeps s (bootFirmware t sigA sigB) := by
  unfold bootFirmware
  dsimp only
  split
  · exact keeps_onClk (keeps_setMbox (keeps_countInvalid k) id)
  · exact keeps_onClk (keeps_setMbox (keeps_countInvalid k) id)

theorem keeps_withEngine {kind a3} (k : Keeps s t) (k2 : Keeps s a3) : Keeps s (withEngine t kind a3) :=
  keeps_ite (keeps_inControl k k2) k2

theorem keeps_discoverFlash (k : Keeps s t) : Keeps s (discoverFlash t) :=
  keeps_emit (keeps_onKp k id id)

theorem keeps_bootRom (k : Keeps s t) : Keeps s (bootRom t) :=
  keeps_ite (keeps_eraseKeeper (keeps_foldl (fun _ _ => keeps_setSlot (keeps_refl _)) (keeps_foldl (fun _ _ =>
    keeps_setMover (keeps_refl _)) (keeps_onBr (keeps_repairLc (keeps_senseLc (keeps_discoverFlash (keeps_onKp k id
    id)))))))) (keeps_foldl (fun _ _ => keeps_setSlot (keeps_refl _)) (keeps_foldl (fun _ _ => keeps_setMover (keeps_refl
    _)) (keeps_onBr (keeps_repairLc (keeps_senseLc (keeps_discoverFlash (keeps_onKp k id id)))))))

theorem answers_execColdBoot {fwA fwB setA setB} : Answers (execColdBoot fwA fwB setA setB s) (Keeps s) :=
  answers_ite (answers_next (keeps_refl _)) (answers_ite (answers_next (keeps_bootRom (keeps_refl _))) (answers_ite
    (answers_next (keeps_setMbox (keeps_refl _) id)) (answers_ite (answers_taken (keeps_withEngine (keeps_refl _)
    (keeps_bootFirmware (keeps_refl _)))) (answers_taken (keeps_withEngine (keeps_refl _) (keeps_bootSettings (keeps_refl
    _)))))))

end Sys2Proof.Standing
end

section
/-! What the operations of the model's Waggle part keep. -/

namespace Sys2Proof.Standing

open Sys2Proof.Machine Sys2Proof.Safety

variable {s t u : State}

theorem keeps_onWaggle {f} (k : Keeps s t) : Keeps s (onWaggle t f) :=
  keeps_onKp k id id

theorem keeps_flushForward (k : Keeps s t) : Keeps s (flushForward t) :=
  keeps_onWaggle (keeps_foldl (fun _ _ => keeps_emit (keeps_refl _)) k)

theorem keeps_sendWaggle {wtype dst bcast payload} (k : Keeps s t) : Keeps s (sendWaggle t wtype dst bcast payload) :=
  keeps_ite k (keeps_onWaggle (keeps_emit (keeps_flushForward k)))

theorem keeps_declareOut (k : Keeps s t) : Keeps s (declareOut t) :=
  keeps_ite (keeps_setMbox k id) (keeps_onWaggle (keeps_sendWaggle (keeps_drawBytes (keeps_flushForward (keeps_setMbox k
    id)))))

theorem keeps_releaseHold (k : Keeps s t) : Keeps s (releaseHold t) :=
  keeps_onWaggle (keeps_onClk k)

theorem keeps_discardWaggle (k : Keeps s t) : Keeps s (discardWaggle t) :=
  keeps_onWaggle k

theorem keeps_forwardWaggle {f} (k : Keeps s t) : Keeps s (forwardWaggle t f) :=
  keeps_ite k (keeps_ite (keeps_discardWaggle k) (keeps_onWaggle k))

theorem keeps_receiveWaggle {wire} (k : Keeps s t) : Keeps s (receiveWaggle t wire) := by
  unfold receiveWaggle
  split
  · exact keeps_discardWaggle k
  · exact keeps_ite (keeps_discardWaggle k) (keeps_ite (keeps_ite (keeps_releaseHold k) k) (keeps_forwardWaggle (keeps_ite
      (keeps_onWaggle k) k)))

theorem answers_execWaggleFrameReceive {wire} : Answers (execWaggleFrameReceive wire s) (Keeps s) :=
  answers_taken (keeps_receiveWaggle (keeps_refl _))

theorem answers_onWaggleFrame {wtype eff} (hf : ∀ x f, Keeps x (eff x f)) : Answers (onWaggleFrame s wtype eff) (Keeps s)
    := by
  unfold onWaggleFrame
  split
  · exact answers_taken ((keeps_onWaggle (keeps_refl s)).trans (hf _ _))
  · exact answers_next (keeps_refl s)

theorem answers_execPresence : Answers (execPresence s) (Keeps s) :=
  answers_onWaggleFrame (fun _ _ => keeps_onWaggle (keeps_refl _))

theorem answers_execWake : Answers (execWake s) (Keeps s) :=
  answers_onWaggleFrame (fun x _ => keeps_ite (keeps_refl x) (keeps_demand (keeps_onWaggle (keeps_refl x))))

theorem keeps_capFrame {f} (k : Keeps s t) : Keeps s (capFrame t f) :=
  keeps_ite (keeps_discardWaggle k) (keeps_onWaggle k)

theorem answers_execCapFrame : Answers (execCapFrame s) (Keeps s) :=
  answers_onWaggleFrame (fun _ _ => keeps_capFrame (keeps_refl _))

theorem answers_execOut : Answers (execOut s) (Keeps s) :=
  answers_onWaggleFrame (fun _ _ => keeps_onWaggle (keeps_refl _))

theorem answers_execEcho : Answers (execEcho s) (Keeps s) :=
  answers_onWaggleFrame (fun _ _ => keeps_ite (keeps_refl _) (keeps_sendWaggle (keeps_refl _)))

theorem answers_execEchoReply : Answers (execEchoReply s) (Keeps s) :=
  answers_onWaggleFrame (fun _ _ => keeps_onWaggle (keeps_refl _))

theorem answers_execPresenceTimer : Answers (execPresenceTimer s) (Keeps s) :=
  answers_taken (keeps_sendWaggle (keeps_refl _))

theorem answers_execCensusAgeOut {a1} : Answers (execCensusAgeOut a1 s) (Keeps s) :=
  answers_taken (keeps_onWaggle (keeps_refl _))

theorem answers_execWaggleCapExpiry : Answers (execWaggleCapExpiry s) (Keeps s) :=
  answers_taken (keeps_onWaggle (keeps_refl _))

theorem answers_execOutWaitTimeout : Answers (execOutWaitTimeout s) (Keeps s) :=
  answers_taken (keeps_releaseHold (keeps_refl _))

theorem keeps_forwardOne (k : Keeps s t) : Keeps s (forwardOne t) := by
  unfold forwardOne
  split
  · exact k
  · exact keeps_onWaggle (keeps_emit k)

end Sys2Proof.Standing
end

section
/-! What the operations of the model's Vault part keep. -/

namespace Sys2Proof.Standing

open Sys2Proof.Machine Sys2Proof.Safety

variable {s t u : State}

theorem answers_mailbox {op inRecovery eff} (k3 : Keeps s eff) : Answers (mailbox s op inRecovery eff) (Keeps s) :=
  answers_taken (keeps_ite (keeps_mbRefuse (keeps_refl _)) k3)

theorem keeps_onEngine {a2 eff} (k : Keeps s t) (k1 : Keeps s a2) (k2 : Keeps s eff) : Keeps s (onEngine t a2 eff) :=
  keeps_ite (keeps_mbEnd k1) (keeps_inControl k k2)

theorem keeps_mbChecked {checks eff} (k : Keeps s t) (k2 : Keeps s eff) : Keeps s (mbChecked t checks eff) := by
  unfold mbChecked
  split
  · exact keeps_mbRefuse k
  · exact k2

theorem keeps_consume (k : Keeps s t) : Keeps s (consume t) :=
  keeps_onVault k (fusesStay_refl _)

theorem keeps_verifyToken {a2} (k : Keeps s t) : Keeps s (verifyToken t a2) :=
  keeps_onVault k (fusesStay_refl _)

theorem keeps_blowDone {a2} (k : Keeps s t) : Keeps s (blowDone t a2) := by
  unfold blowDone
  split
  · exact keeps_setBlow (keeps_senseLc k)
  · exact keeps_setBlow k
  · exact keeps_mbEnd (keeps_eraseKeeper (keeps_declareOut (keeps_senseLc (keeps_setBlow k))))
  · exact keeps_senseLc (keeps_setBlow k)
  · exact keeps_ite (keeps_mbEnd (keeps_senseLc (keeps_setBlow k))) (keeps_setBlow (keeps_senseLc (keeps_setBlow k)))

theorem keeps_startBlow {a2 todo} (k : Keeps s t) : Keeps s (startBlow t a2 todo) :=
  keeps_ite (keeps_blowDone k) (keeps_setBlow k)

theorem keeps_blowFailed {a2} (k : Keeps s t) : Keeps s (blowFailed t a2) :=
  keeps_ite (keeps_senseLc (keeps_logErr (keeps_setBlow k))) (keeps_mbEnd (keeps_senseLc (keeps_logErr (keeps_setBlow
    k))))

theorem keeps_endRevoked {a2} (k : Keeps s t) : Keeps s (endRevoked t a2) := by
  unfold endRevoked
  split
  · exact keeps_ite (keeps_onVault k (fusesStay_refl _)) k
  · exact k

theorem keeps_copyBlown {b x rest} (k : Keeps s t) : Keeps s (copyBlown t b x rest) :=
  keeps_ite (keeps_blowDone (keeps_endRevoked (keeps_onVault k (fusesStay_blow _ _))))
    (keeps_setBlow (keeps_endRevoked (keeps_onVault k (fusesStay_blow _ _))))

theorem keeps_pulseEnd {b blown} (k : Keeps s t) : Keeps s (pulseEnd t b blown) := by
  unfold pulseEnd
  split
  · exact keeps_blowDone k
  · exact keeps_ite (keeps_copyBlown k) (keeps_ite (keeps_blowFailed k) (keeps_setBlow k))

theorem answers_execFusePulseEnd {blown} : Answers (execFusePulseEnd blown s) (Keeps s) := by
  unfold execFusePulseEnd
  split
  · exact answers_taken (keeps_pulseEnd (keeps_refl _))
  · exact answers_next (keeps_refl _)

theorem answers_execFuseVppOk : Answers (execFuseVppOk s) (Keeps s) := by
  unfold execFuseVppOk
  split
  · exact answers_taken (keeps_setBlow (keeps_refl _))
  · exact answers_next (keeps_refl _)

theorem answers_execFuseVppTimeout : Answers (execFuseVppTimeout s) (Keeps s) := by
  unfold execFuseVppTimeout
  split
  · exact answers_taken (keeps_blowFailed (keeps_refl _))
  · exact answers_next (keeps_refl _)

theorem answers_execLcQuery : Answers (execLcQuery s) (Keeps s) :=
  answers_mailbox (keeps_mbEnd (keeps_refl _))

theorem keeps_provBegin (k : Keeps s t) : Keeps s (provBegin t) :=
  keeps_mbEnd (keeps_onVault (keeps_drawDrbg k) (fusesStay_refl _))

theorem answers_execProvBegin : Answers (execProvBegin s) (Keeps s) :=
  answers_mailbox (keeps_mbChecked (keeps_refl _) (keeps_onEngine (keeps_refl _) (keeps_refl _) (keeps_mbChecked
    (keeps_refl _) (keeps_provBegin (keeps_refl _)))))

theorem keeps_provVerify (k : Keeps s t) : Keeps s (provVerify t) :=
  keeps_onVault k (fusesStay_refl _)

theorem answers_execProvInject {sigOk sealOk keyOk} : Answers (execProvInject sigOk sealOk keyOk s) (Keeps s) :=
  answers_ite (answers_next (keeps_refl _)) (answers_mailbox (keeps_onEngine (keeps_refl _) (keeps_onVault
    (keeps_provVerify (keeps_refl _)) (fusesStay_refl _)) (keeps_mbChecked (keeps_onVault (keeps_provVerify (keeps_refl
    _)) (fusesStay_refl _)) (keeps_setBlow (keeps_onVault (keeps_provVerify (keeps_refl _)) (fusesStay_refl _))))))

theorem answers_execLcAdvance : Answers (execLcAdvance s) (Keeps s) :=
  answers_mailbox (keeps_mbChecked (keeps_refl _) (keeps_startBlow (keeps_refl _)))

theorem answers_execOwnerEnrol {sigOk} : Answers (execOwnerEnrol sigOk s) (Keeps s) :=
  answers_ite (answers_ite (answers_next (keeps_refl _)) (answers_mailbox (keeps_onEngine (keeps_refl _) (keeps_consume
    (keeps_verifyToken (keeps_refl _))) (keeps_mbChecked (keeps_consume (keeps_verifyToken (keeps_refl _)))
    (keeps_startBlow (keeps_consume (keeps_verifyToken (keeps_refl _)))))))) (answers_mailbox (keeps_mbChecked (keeps_refl
    _) (keeps_startBlow (keeps_refl _))))

theorem answers_execOwnerRevoke {sigOk} : Answers (execOwnerRevoke sigOk s) (Keeps s) :=
  answers_ite (answers_next (keeps_refl _)) (answers_mailbox (keeps_onEngine (keeps_refl _) (keeps_consume
    (keeps_verifyToken (keeps_refl _))) (keeps_mbChecked (keeps_consume (keeps_verifyToken (keeps_refl _)))
    (keeps_startBlow (keeps_consume (keeps_verifyToken (keeps_refl _)))))))

theorem keeps_dbgChallenge (k : Keeps s t) : Keeps s (dbgChallenge t) :=
  keeps_mbEnd (keeps_onVault (keeps_drawBytes k) (fusesStay_refl _))

theorem answers_execDbgChallenge : Answers (execDbgChallenge s) (Keeps s) :=
  answers_mailbox (keeps_mbChecked (keeps_refl _) (keeps_dbgChallenge (keeps_refl _)))

theorem answers_execDbgUnlock {sigOk} : Answers (execDbgUnlock sigOk s) (Keeps s) :=
  answers_ite (answers_next (keeps_refl _)) (answers_mailbox (keeps_onEngine (keeps_refl _) (keeps_consume
    (keeps_verifyToken (keeps_refl _))) (keeps_mbChecked (keeps_consume (keeps_verifyToken (keeps_refl _))) (keeps_mbEnd
    (keeps_onVault (keeps_consume (keeps_verifyToken (keeps_refl _))) (fusesStay_refl _))))))

theorem answers_execDbgRelock : Answers (execDbgRelock s) (Keeps s) :=
  answers_mailbox (keeps_mbChecked (keeps_refl _) (keeps_mbEnd (keeps_onVault (keeps_refl _) (fusesStay_refl _))))

theorem keeps_attest {nonce hs} (k : Keeps s t) : Keeps s (attest t nonce hs) :=
  keeps_mbEnd k

theorem answers_execAttest : Answers (execAttest s) (Keeps s) :=
  answers_mailbox (keeps_mbChecked (keeps_refl _) (keeps_onEngine (keeps_refl _) (keeps_refl _) (keeps_attest (keeps_refl
    _))))

theorem answers_execArbCommit {otherSigOk} : Answers (execArbCommit otherSigOk s) (Keeps s) :=
  answers_ite (answers_next (keeps_refl _)) (answers_mailbox (keeps_onEngine (keeps_refl _) (keeps_refl _)
    (keeps_mbChecked (keeps_refl _) (keeps_startBlow (keeps_refl _)))))

theorem keeps_zeroiseAll (k : Keeps s t) : Keeps s (zeroiseAll t) := by
  unfold zeroiseAll
  exact keeps_onVault (keeps_foldl (fun _ _ => keeps_linkDown (keeps_refl _)) (keeps_foldl (fun _ _ => keeps_zeroSlot
    (keeps_refl _)) k)) (fusesStay_refl _)

theorem keeps_startScrap (k : Keeps s t) : Keeps s (startScrap t) :=
  keeps_startBlow (keeps_zeroiseAll k)

theorem answers_execScrap {sigOk} : Answers (execScrap sigOk s) (Keeps s) :=
  answers_ite (answers_ite (answers_next (keeps_refl _)) (answers_mailbox (keeps_onEngine (keeps_refl _) (keeps_consume
    (keeps_verifyToken (keeps_refl _))) (keeps_mbChecked (keeps_consume (keeps_verifyToken (keeps_refl _)))
    (keeps_startScrap (keeps_consume (keeps_verifyToken (keeps_refl _)))))))) (answers_mailbox (keeps_mbChecked
    (keeps_refl _) (keeps_startScrap (keeps_refl _))))

theorem answers_execChallengeExpiry : Answers (execChallengeExpiry s) (Keeps s) :=
  answers_taken (keeps_consume (keeps_refl _))

theorem answers_execDrbgReseed : Answers (execDrbgReseed s) (Keeps s) :=
  answers_taken (keeps_onVault (keeps_refl _) (fusesStay_refl _))

theorem keeps_instantiationFails (k : Keeps s t) : Keeps s (instantiationFails t) :=
  keeps_ite (keeps_endAsked (keeps_holdBlock (keeps_declareOut (keeps_clearBlock (keeps_abortVaultCommand (keeps_setMbox
    (keeps_onVault (keeps_logErr k) (fusesStay_refl _)) id)))))) (keeps_onBr (keeps_setMbox (keeps_onVault (keeps_logErr
    k) (fusesStay_refl _)) id))

theorem answers_execDrbgHealthFail : Answers (execDrbgHealthFail s) (Keeps s) := by
  unfold execDrbgHealthFail
  split
  · exact answers_taken (keeps_instantiationFails (keeps_refl _))
  · exact answers_taken (keeps_fatal (keeps_onVault (keeps_refl _) (fusesStay_refl _)))

end Sys2Proof.Standing
end

section
/-! What the operations of the model's Mail part keep. -/

namespace Sys2Proof.Standing

open Sys2Proof.Machine Sys2Proof.Safety

variable {s t u : State}

theorem keeps_askReset (k : Keeps s t) : Keeps s (askReset t) :=
  keeps_setMbox k id

theorem answers_execWarmReset : Answers (execWarmReset s) (Keeps s) :=
  answers_mailbox (keeps_ite (keeps_mbEnd (keeps_refl _)) (keeps_askReset (keeps_startWarm (keeps_refl _))))

theorem answers_execReboot : Answers (execReboot s) (Keeps s) :=
  answers_mailbox (keeps_coldReset (keeps_declareOut (keeps_refl _)))

theorem answers_execPwrCap : Answers (execPwrCap s) (Keeps s) :=
  answers_mailbox (keeps_mbChecked (keeps_refl _) (keeps_mbEnd (keeps_onPower (keeps_refl _))))

theorem keeps_pwrQuery (k : Keeps s t) : Keeps s (pwrQuery t) :=
  keeps_mbEnd k

theorem answers_execPwrQuery : Answers (execPwrQuery s) (Keeps s) :=
  answers_mailbox (keeps_pwrQuery (keeps_refl _))

theorem keeps_stageImage {kind copy off n} (k : Keeps s t) : Keeps s (stageImage t kind copy off n) :=
  keeps_mbEnd (keeps_flashWrite (keeps_flashErase k))

theorem answers_execImgStage : Answers (execImgStage s) (Keeps s) :=
  answers_mailbox (keeps_mbChecked (keeps_refl _) (keeps_stageImage (keeps_refl _)))

theorem answers_execImgCheck {sigOk} : Answers (execImgCheck sigOk s) (Keeps s) :=
  answers_ite (answers_next (keeps_refl _)) (answers_mailbox (keeps_mbChecked (keeps_refl _) (keeps_onEngine (keeps_refl
    _) (keeps_refl _) (keeps_mbEnd (keeps_ite (keeps_refl _) (keeps_refuseInput (keeps_refl _)))))))

theorem keeps_applyAndReset {c} (k : Keeps s t) : Keeps s (applyAndReset t c) :=
  keeps_ite (keeps_mbEnd (keeps_applySettings k)) (keeps_askReset (keeps_beginWarm (keeps_applySettings k)))

theorem keeps_setApply {sigA sigB} (k : Keeps s t) : Keeps s (setApply t sigA sigB) := by
  unfold setApply
  dsimp only
  split
  · exact keeps_mbRefuse (keeps_countInvalid k)
  · exact keeps_applyAndReset (keeps_countInvalid k)

theorem answers_execSetApply {sigA sigB} : Answers (execSetApply sigA sigB s) (Keeps s) :=
  answers_ite (answers_next (keeps_refl _)) (answers_mailbox (keeps_onEngine (keeps_refl _) (keeps_refl _) (keeps_setApply
    (keeps_refl _))))

theorem answers_execLogRead : Answers (execLogRead s) (Keeps s) :=
  answers_mailbox (keeps_mbChecked (keeps_refl _) (keeps_mbEnd (keeps_refl _)))

theorem keeps_waggleQuery (k : Keeps s t) : Keeps s (waggleQuery t) :=
  keeps_mbEnd k

theorem answers_execWaggleQuery : Answers (execWaggleQuery s) (Keeps s) :=
  answers_mailbox (keeps_waggleQuery (keeps_refl _))

theorem answers_execWaggleSend : Answers (execWaggleSend s) (Keeps s) :=
  answers_mailbox (keeps_mbChecked (keeps_refl _) (keeps_mbEnd (keeps_sendWaggle (keeps_refl _))))

end Sys2Proof.Standing
end

section
/-! What the operations of the model's Clock part keep. -/

namespace Sys2Proof.Standing

open Sys2Proof.Machine Sys2Proof.Safety

variable {s t u : State}

theorem answers_execRefclkLoss : Answers (execRefclkLoss s) (Keeps s) :=
  answers_taken (keeps_onClk (keeps_refuseInput (keeps_refl _)))

theorem answers_execRefclkRestore : Answers (execRefclkRestore s) (Keeps s) :=
  answers_taken (keeps_onClk (keeps_refl _))

theorem answers_execClockStartDemand {d} : Answers (execClockStartDemand d s) (Keeps s) :=
  answers_taken (keeps_demand (keeps_refl _))

theorem keeps_clockLocked {a2} (k : Keeps s t) : Keeps s (clockLocked t a2) := by
  unfold clockLocked
  split
  · exact keeps_clockReady k
  · exact keeps_portsUp (keeps_onClk (keeps_resetPorts k))

theorem answers_execClockLock {d} : Answers (execClockLock d s) (Keeps s) :=
  answers_taken (keeps_clockLocked (keeps_refl _))

theorem keeps_clockFailed {d} (k : Keeps s t) : Keeps s (clockFailed t d) :=
  keeps_declareOut (keeps_setMbox (keeps_onClk (keeps_logErr (keeps_emit (keeps_setClock k)))) id)

theorem answers_execClockStartTimeout {d} : Answers (execClockStartTimeout d s) (Keeps s) :=
  answers_taken (keeps_ite (keeps_clockFailed (keeps_refuseInput (keeps_refl _))) (keeps_emit (keeps_emit (keeps_setClock
    (keeps_refuseInput (keeps_refl _))))))

theorem keeps_stopClock {d} (k : Keeps s t) : Keeps s (stopClock t d) := by
  unfold stopClock
  split
  · exact keeps_onClk (keeps_emit (keeps_setClock k))
  · exact keeps_onQm (keeps_emit (keeps_setClock k))

theorem answers_execClockIdleStop {d} : Answers (execClockIdleStop d s) (Keeps s) :=
  answers_taken (keeps_stopClock (keeps_refl _))

theorem keeps_gate {a2} (k : Keeps s t) : Keeps s (gate t a2) := by
  unfold gate
  split
  · exact keeps_onXl (keeps_setMover k)
  · exact keeps_onPr k id
  · exact keeps_setLink k

theorem keeps_ungate {a2} (k : Keeps s t) : Keeps s (ungate t a2) := by
  unfold ungate
  split
  · exact keeps_setMover k
  · exact keeps_onPr k id
  · exact keeps_setLink k

theorem answers_execUnitGate {a1} : Answers (execUnitGate a1 s) (Keeps s) :=
  answers_taken (keeps_gate (keeps_refl _))

theorem answers_execUnitWake {a1} : Answers (execUnitWake a1 s) (Keeps s) :=
  answers_taken (keeps_ungate (keeps_refl _))

theorem keeps_withTap {p : Tap} (k : Keeps s t) : Keeps s { t with tap := p } := k.congr rfl rfl rfl rfl rfl rfl rfl

end Sys2Proof.Standing
end

section
/-! What the operations of the model's Debug part keep. -/

namespace Sys2Proof.Standing

open Sys2Proof.Machine Sys2Proof.Safety

variable {s t u : State}

theorem keeps_setIr {ir} (k : Keeps s t) : Keeps s (setIr t ir) := keeps_withTap k

theorem keeps_dbgEnd {data st} (k : Keeps s t) : Keeps s (dbgEnd t data st) :=
  keeps_emit (keeps_withTap k)

theorem keeps_dbgRefuse {st} (k : Keeps s t) : Keeps s (dbgRefuse t st) :=
  keeps_dbgEnd (keeps_refuseInput k)

theorem keeps_dbgMemory {write hive addr data} (k : Keeps s t) : Keeps s (dbgMemory t write hive addr data) := by
  unfold dbgMemory
  split
  · exact keeps_dbgRefuse k
  · refine keeps_ite (keeps_dbgRefuse k) ?_
    refine keeps_ite (keeps_demand k) ?_
    refine keeps_ite k ?_
    split
    · exact keeps_dbgEnd (keeps_homeWrite k)
    · exact keeps_ite (keeps_dbgEnd (keeps_homeRead k)) (keeps_dbgEnd (keeps_homeRead k))

theorem keeps_dbgObject {write hive addr} (k : Keeps s t) : Keeps s (dbgObject t write hive addr) :=
  keeps_ite (keeps_dbgRefuse k) (keeps_dbgEnd (keeps_withFree k))

theorem keeps_dbgAccess {op space hive addr data} (k : Keeps s t) : Keeps s (dbgAccess t op space hive addr data) :=
  keeps_ite (keeps_dbgRefuse k) (keeps_ite (keeps_dbgRefuse k) (keeps_ite (keeps_dbgObject k) (keeps_dbgMemory k)))

theorem keeps_dbgUpdate {op space hive addr data} (k : Keeps s t) : Keeps s (dbgUpdate t op space hive addr data) :=
  keeps_dbgAccess (keeps_withTap k)

theorem answers_execDbgWinAccess {op space hive addr data} : Answers (execDbgWinAccess op space hive addr data s) (Keeps
    s) :=
  answers_taken (keeps_dbgUpdate (keeps_refl _))

theorem keeps_tapMbox {off isWrite data} (k : Keeps s t) : Keeps s (tapMbox t off isWrite data) :=
  keeps_ite (keeps_emit k) (keeps_ite (keeps_emit (keeps_mailboxWrite k)) (keeps_emit k))

theorem answers_execTapMboxAccess {off isWrite data} : Answers (execTapMboxAccess off isWrite data s) (Keeps s) :=
  answers_taken (keeps_demand (keeps_setIr (keeps_tapMbox (keeps_refl _))))

theorem keeps_tapScan {x} (k : Keeps s t) : Keeps s (tapScan t x) :=
  keeps_ite (keeps_emit (keeps_setIr k)) (keeps_ite (keeps_ite (keeps_emit (keeps_withFree (keeps_setIr k))) (keeps_emit
    (keeps_refuseInput (keeps_setIr k)))) (keeps_ite (keeps_emit (keeps_withFree (keeps_setIr k))) (keeps_emit
    (keeps_setIr k))))

theorem answers_execTapTraceRead {x} : Answers (execTapTraceRead x s) (Keeps s) :=
  answers_taken (keeps_tapScan (keeps_refl _))

end Sys2Proof.Standing
end

section
/-! What the operations of the model's Dispatch part keep. -/

namespace Sys2Proof.Standing

open Sys2Proof.Machine Sys2Proof.Safety

variable {s t u : State}

/-- R8: every command answers a next state that keeps what the present one had. A line request and a scrub do so below
S × C. -/
theorem answers_exec {i : Instr} (hr : ∀ r, i = .propolisRead r → lineOf r.addr < memBytes s)
    (hw : ∀ r k, i = .propolisWrite r k → lineOf r.addr < memBytes s)
    (hm : ∀ a co er po m, i = .memoryScrub a co er po m → lineOf a < memBytes s) : Answers (exec i s) (Keeps s) := by
  cases i with
  | ret _ => exact answers_execRet
  | moveSpan _ => exact answers_execMoveSpan
  | moveGset _ => exact answers_execMoveGset
  | moveTset _ => exact answers_execMoveTset
  | moveT _ => exact answers_execMoveT
  | gather _ => exact answers_execGather
  | scatter _ => exact answers_execScatter
  | fill _ => exact answers_execFill
  | reduce _ => exact answers_execReduce
  | convert _ => exact answers_execConvert
  | reduceCvt _ => exact answers_execReduceCvt
  | atomAdd _ => exact answers_execAtomAdd
  | atomMax _ => exact answers_execAtomMax
  | atomMin _ => exact answers_execAtomMin
  | atomXchg _ => exact answers_execAtomXchg
  | atomCas _ => exact answers_execAtomCas
  | signal _ => exact answers_execSignal
  | wait _ => exact answers_execWait
  | flush _ => exact answers_execFlush
  | cap _ => exact answers_execCap
  | loop _ => exact answers_execLoop
  | br _ => exact answers_execBr
  | setp _ => exact answers_execSetp
  | ldG _ => exact answers_execLdG
  | stG _ => exact answers_execStG
  | call _ => exact answers_execCall
  | launch _ => exact answers_execLaunch
  | launchQuery _ => exact answers_execLaunchQuery
  | launchReservation _ => exact answers_execLaunchReservation
  | hiveCreate _ => exact answers_execHiveCreate
  | hiveResize _ => exact answers_execHiveResize
  | hiveReset _ => exact answers_execHiveReset
  | hiveDestroy _ => exact answers_execHiveDestroy
  | colonyJoin _ => exact answers_execColonyJoin
  | combGrantAttach _ => exact answers_execCombGrantAttach
  | combGrantRights _ => exact answers_execCombGrantRights
  | combGrantDetach _ => exact answers_execCombGrantDetach
  | keyDeriveLink _ => exact answers_execKeyDeriveLink
  | keyDeriveFingerprint _ => exact answers_execKeyDeriveFingerprint
  | ctxCreate _ => exact answers_execCtxCreate
  | ctxKill _ => exact answers_execCtxKill
  | queueBind _ => exact answers_execQueueBind
  | queueReset _ => exact answers_execQueueReset
  | queueUnbind _ => exact answers_execQueueUnbind
  | labelSet _ => exact answers_execLabelSet
  | invalidatePages _ => exact answers_execInvalidatePages
  | invalidateContext _ => exact answers_execInvalidateContext
  | invalidateObject _ => exact answers_execInvalidateObject
  | invalidateFence _ => exact answers_execInvalidateFence
  | resume _ => exact answers_execResume
  | migrate _ => exact answers_execMigrate
  | migrateRoundDone _ => exact answers_execMigrateRoundDone
  | migrateDrainDone _ => exact answers_execMigrateDrainDone
  | migrateFreezeTimeout _ => exact answers_execMigrateFreezeTimeout
  | queryCtx _ => exact answers_execQueryCtx
  | queryHive _ => exact answers_execQueryHive
  | spareSwap _ => exact answers_execSpareSwap
  | spareSwapTimeout _ _ _ => exact answers_execSpareSwapTimeout
  | spareRetryTimer _ => exact answers_execSpareRetryTimer
  | moverQuietPoint _ => exact answers_execMoverQuietPoint
  | homeSideSwitch _ => exact answers_execHomeSideSwitch
  | lcQuery => exact answers_execLcQuery
  | provBegin => exact answers_execProvBegin
  | provInject _ _ _ => exact answers_execProvInject
  | lcAdvance => exact answers_execLcAdvance
  | ownerEnrol _ => exact answers_execOwnerEnrol
  | ownerRevoke _ => exact answers_execOwnerRevoke
  | dbgChallenge => exact answers_execDbgChallenge
  | dbgUnlock _ => exact answers_execDbgUnlock
  | dbgRelock => exact answers_execDbgRelock
  | attest => exact answers_execAttest
  | arbCommit _ => exact answers_execArbCommit
  | scrap _ => exact answers_execScrap
  | warmReset => exact answers_execWarmReset
  | reboot => exact answers_execReboot
  | pwrCap => exact answers_execPwrCap
  | pwrQuery => exact answers_execPwrQuery
  | imgStage => exact answers_execImgStage
  | imgCheck _ => exact answers_execImgCheck
  | setApply _ _ => exact answers_execSetApply
  | logRead => exact answers_execLogRead
  | waggleQuery => exact answers_execWaggleQuery
  | waggleSend => exact answers_execWaggleSend
  | registerWrite _ _ _ => exact answers_execRegisterWrite
  | doorbellWrite _ _ _ _ => exact answers_execDoorbellWrite
  | faultAnswer _ => exact answers_execFaultAnswer
  | eventConsumed _ => exact answers_execEventConsumed
  | faultConsumed _ => exact answers_execFaultConsumed
  | routeReload _ => exact answers_execRouteReload
  | windowEntryWrite _ _ => exact answers_execWindowEntryWrite
  | apertureRead _ _ => exact answers_execApertureRead
  | apertureWrite _ _ => exact answers_execApertureWrite
  | apertureAtomicop _ _ _ _ _ _ => exact answers_execApertureAtomicop
  | fenceWindowRead _ _ => exact answers_execFenceWindowRead
  | inboundUnsupportedRequest _ => exact answers_execInboundUnsupportedRequest
  | msixMessageSend _ => exact answers_execMsixMessageSend
  | atsTranslationCompletion _ _ => exact answers_execAtsTranslationCompletion
  | atsRequestTimeout _ => exact answers_execAtsRequestTimeout
  | atsInvalidationRequest _ _ _ _ => exact answers_execAtsInvalidationRequest
  | prgResponse _ _ _ => exact answers_execPrgResponse
  | hostFlushReadCompletion _ => exact answers_execHostFlushReadCompletion
  | pcieConventionalReset => exact answers_execPcieConventionalReset
  | functionLevelReset => exact answers_execFunctionLevelReset
  | slotFetch _ => exact answers_execSlotFetch
  | slotReadDone _ _ => exact answers_execSlotReadDone
  | preTranslate _ _ => exact answers_execPreTranslate
  | preTranslationTimeout _ _ => exact answers_execPreTranslationTimeout
  | dispatch _ => exact answers_execDispatch
  | commandComplete _ => exact answers_execCommandComplete
  | abortSettleDone _ => exact answers_execAbortSettleDone
  | streamResponse _ _ _ _ _ _ _ => exact answers_execStreamResponse
  | streamRequestTimeout _ => exact answers_execStreamRequestTimeout
  | creditReturn _ _ _ => exact answers_execCreditReturn
  | initialCreditTimeout _ => exact answers_execInitialCreditTimeout
  | tableWalkDone _ => exact answers_execTableWalkDone
  | pageFaultServiceTimeout _ => exact answers_execPageFaultServiceTimeout
  | queueWatchdogExpiry _ => exact answers_execQueueWatchdogExpiry
  | waitTimeout _ => exact answers_execWaitTimeout
  | fenceCacheFillDone _ => exact answers_execFenceCacheFillDone
  | fenceCacheWriteback _ => exact answers_execFenceCacheWriteback
  | fenceTableSweepDone => exact answers_execFenceTableSweepDone
  | resetEscalation _ => exact answers_execResetEscalation
  | clusterFault _ => exact answers_execClusterFault
  | clusterPowerGood _ => exact answers_execClusterPowerGood
  | clusterClearDone _ _ => exact answers_execClusterClearDone
  | clusterClearTimeout _ => exact answers_execClusterClearTimeout
  | kernelEnd _ _ _ => exact answers_execKernelEnd
  | clusterInterrupt _ => exact answers_execClusterInterrupt
  | resizeTimeout _ => exact answers_execResizeTimeout
  | labelWindowBoundary _ => exact answers_execLabelWindowBoundary
  | meterRefresh => exact answers_execMeterRefresh
  | arbiterAgeExpiry _ _ => exact answers_execArbiterAgeExpiry
  | powerCapSample _ => exact answers_execPowerCapSample
  | propolisRead _ => exact answers_execPropolisRead (hr _ rfl)
  | propolisWrite _ _ => exact answers_execPropolisWrite (hw _ _ rfl)
  | sliceOpeningDone _ _ => exact answers_execSliceOpeningDone
  | memoryScrub _ _ _ _ _ => exact answers_execMemoryScrub (hm _ _ _ _ _ rfl)
  | sramScrub _ _ _ _ => exact answers_execSramScrub
  | errorReport _ _ => exact answers_execErrorReport
  | wearBucketRoll => exact answers_execWearBucketRoll
  | wearCountSave => exact answers_execWearCountSave
  | logPersist => exact answers_execLogPersist
  | swarmFrameReceive _ _ _ => exact answers_execSwarmFrameReceive
  | probe _ => exact answers_execProbe
  | ack _ => exact answers_execAck
  | opn _ => exact answers_execOpn
  | close _ => exact answers_execClose
  | hello _ _ => exact answers_execHello
  | keyx _ => exact answers_execKeyx
  | write _ _ => exact answers_execWrite
  | writep _ _ => exact answers_execWritep
  | reduceFrame _ _ => exact answers_execReduceFrame
  | atom _ _ => exact answers_execAtom
  | read _ _ => exact answers_execRead
  | waitFrame _ _ => exact answers_execWaitFrame
  | rdata _ _ => exact answers_execRdata
  | resp _ _ => exact answers_execResp
  | pcsLock _ => exact answers_execPcsLock
  | pcsLockLoss _ => exact answers_execPcsLockLoss
  | linkSilenceTimeout _ => exact answers_execLinkSilenceTimeout
  | holdDownEnd _ => exact answers_execHoldDownEnd
  | helloRepeat _ => exact answers_execHelloRepeat
  | keyxRepeat _ => exact answers_execKeyxRepeat
  | openRepeat _ => exact answers_execOpenRepeat
  | probeInterval _ => exact answers_execProbeInterval
  | ackDelay _ => exact answers_execAckDelay
  | retransmitTimeout _ _ => exact answers_execRetransmitTimeout
  | oldKeyRetire _ => exact answers_execOldKeyRetire
  | sprayEnter _ => exact answers_execSprayEnter
  | orderedReturn _ => exact answers_execOrderedReturn
  | flowIdleClose _ => exact answers_execFlowIdleClose
  | flowUnreachableTimeout _ => exact answers_execFlowUnreachableTimeout
  | forwardQueueTimeout _ => exact answers_execForwardQueueTimeout
  | refclkLoss => exact answers_execRefclkLoss
  | refclkRestore => exact answers_execRefclkRestore
  | clockStartDemand _ => exact answers_execClockStartDemand
  | clockLock _ => exact answers_execClockLock
  | clockStartTimeout _ => exact answers_execClockStartTimeout
  | clockIdleStop _ => exact answers_execClockIdleStop
  | unitGate _ => exact answers_execUnitGate
  | unitWake _ => exact answers_execUnitWake
  | blockWarmReset => exact answers_execBlockWarmReset
  | coldReset => exact answers_execColdReset
  | coldBoot _ _ _ _ => exact answers_execColdBoot
  | brownOut => exact answers_execBrownOut
  | keeperWatchdogExpiry => exact answers_execKeeperWatchdogExpiry
  | drbgReseed => exact answers_execDrbgReseed
  | drbgHealthFail => exact answers_execDrbgHealthFail
  | challengeExpiry => exact answers_execChallengeExpiry
  | fuseVppTimeout => exact answers_execFuseVppTimeout
  | presence => exact answers_execPresence
  | wake => exact answers_execWake
  | capFrame => exact answers_execCapFrame
  | out => exact answers_execOut
  | echo => exact answers_execEcho
  | echoReply => exact answers_execEchoReply
  | waggleFrameReceive _ => exact answers_execWaggleFrameReceive
  | presenceTimer => exact answers_execPresenceTimer
  | censusAgeOut _ => exact answers_execCensusAgeOut
  | waggleCapExpiry => exact answers_execWaggleCapExpiry
  | outWaitTimeout => exact answers_execOutWaitTimeout
  | dbgWinAccess _ _ _ _ _ => exact answers_execDbgWinAccess
  | tapMboxAccess _ _ _ => exact answers_execTapMboxAccess
  | tapTraceRead _ => exact answers_execTapTraceRead
  | hostReadCompletion _ _ _ => exact answers_execHostReadCompletion
  | fusePulseEnd _ => exact answers_execFusePulseEnd
  | fuseVppOk => exact answers_execFuseVppOk
  | priEnableChange _ _ => exact answers_execPriEnableChange
  | pciePowerStateChange _ => exact answers_execPciePowerStateChange

end Sys2Proof.Standing
end

section
/-! What the operations of the model's Idle part keep. -/

namespace Sys2Proof.Standing

open Sys2Proof.Machine Sys2Proof.Safety

variable {s t u : State}

theorem keeps_idle (k : Keeps s t) : Keeps s (idle t) := by
  unfold idle
  exact keeps_onSw (keeps_onClk (keeps_onward (keeps_settleLinks (keeps_ite k (keeps_forwardOne k)))))

end Sys2Proof.Standing
end


section
/-! The step and every command of it keep all of this; what is settled by it (R8, R362, R443). -/

namespace Sys2Proof.Standing

open Sys2Proof.Machine Sys2Proof.Safety

variable {s t u : State}

/-- Whatever state a command answers keeps what the one before had: where a line request does not answer, there is none.
  -/
theorem exec_keeps {i : Instr} (e : exec i s = .next t) : Keeps s t := by
  have inMemory {h : HomeReq} (e : request s h = .next t) : h.req.addr < memBytes s := by
    by_contra n
    rw [request, if_pos (Nat.not_lt.mp n)] at e
    cases e
  obtain ⟨u, f, k⟩ := answers_exec (i := i) (s := s) (fun r j => inMemory (by subst j; exact e))
    (fun r w j => inMemory (by subst j; exact e)) (fun a co er po m j => by
      subst j
      by_contra n
      change execMemoryScrub a co er po m s = _ at e
      rw [execMemoryScrub, if_pos (Nat.not_lt.mp n)] at e
      cases e)
  cases f.symm.trans e
  exact k

theorem Keeps.dropPending (k : Keeps s t) : Keeps { s with pending := t.pending } t :=
  ⟨rfl, k.sent, k.mem, k.spads, k.args, k.flash, k.fuses⟩

theorem step_nil (p : s.pending = []) : step s = .next (idle s) := by
  rw [step, p]

theorem step_cons {c : Instr} {rest : List Instr} (p : s.pending = c :: rest) : step s = exec c { s with pending := rest }
    := by
  rw [step, p]

/-- A step keeps all of it but the command that it takes from the queue. -/
theorem step_keeps (e : step s = .next t) : Keeps { s with pending := t.pending } t := by
  cases p : s.pending with
  | nil =>
    obtain rfl := Host.Outcome.next.inj ((step_nil p).symm.trans e)
    exact (keeps_idle (keeps_refl s)).dropPending
  | cons c rest => exact (exec_keeps ((step_cons p).symm.trans e)).dropPending

end Sys2Proof.Standing

namespace Sys2Proof.Standing
open Sys2Proof.Machine Sys2Proof.Safety

/-- Settles O5: the byte memories are only written and filtered, each of which keeps the canonical form. -/
theorem stepsKeepMemoryCanonical : Obligations.StepsKeepMemoryCanonical :=
  fun _ _ w e => keeps_memoryWf (step_keeps e) w

/-- Settles O6: the rows change by `Fuses.blow` alone, which only adds bits. -/
theorem stepsNeverUnblowAFuse : Obligations.StepsNeverUnblowAFuse :=
  fun _ _ e => (step_keeps e).fuses

/-- Settles O7. -/
theorem commandsLeaveTheQueue : Obligations.CommandsLeaveTheQueue := by
  intro i s t e
  obtain ⟨l, h⟩ := (exec_keeps e).sent
  exact ⟨(exec_keeps e).pending, l, h.symm⟩

/-- Settles O8. -/
theorem everyCommandAnswersANextState : Obligations.EveryCommandAnswersANextState := by
  intro i s hr hw hm
  obtain ⟨t, e, -⟩ := answers_exec hr hw hm
  exact ⟨t, e⟩

/-- Settles O1, by the definition of the step. -/
theorem stepRunsTheFrontCommand : Obligations.StepRunsTheFrontCommand := by
  intro c rest s p
  exact ⟨step_cons p, step_cons rfl⟩

/-- Settles O4: after reset no byte memory holds a cell. -/
theorem resetMemoryIsCanonical : Obligations.ResetMemoryIsCanonical := ⟨rfl, rfl, rfl, rfl⟩

/-- Settles O3: every table of the reset state is empty, so that each entry reads as its default. -/
theorem resetLeavesTheBlockCleared : Obligations.ResetLeavesTheBlockCleared := by
  refine ⟨rfl, rfl, rfl, rfl, rfl, ?_, ?_, ?_, ?_, ?_, ?_, ?_, rfl, rfl, rfl⟩ <;> intro _ <;> rfl

end Sys2Proof.Standing
end

section
/-! The rows of a channel's instructions, as one family: R103 and log 6. -/
namespace Sys2Proof.Rows
open Sys2Proof.Machine Sys2Proof.Safety
variable {s : State} {c : Nat}

/-- The row of an instruction runs it as the current instruction of its channel. -/
theorem exec_rowOf (s : State) (c : Nat) (o : Zop) : ∃ p eff, exec (rowOf c o) s = runInstr s c p eff ∧ p o = true := by
  unfold exec
  cases o with
  | atom op => cases op <;> (refine ⟨_, _, rfl, ?_⟩; rfl)
  | _ => refine ⟨_, _, rfl, ?_⟩; rfl

theorem isAtom_iff {op : AtomOp} {o : Zop} : isAtom op o = true ↔ ∃ w sgn rv gd ga gb gc off,
    o = .atom op w sgn rv gd ga gb gc off := by
  unfold isAtom
  split
  · simp
  · rename_i n
    simp only [Bool.false_eq_true, false_iff]
    rintro ⟨_, _, _, _, _, _, _, _, rfl⟩
    exact n _ _ _ _ _ _ _ _ _ rfl

theorem isBind_iff {o : Zop} : isBind o = true ↔ ∃ q ga gi, o = .queueBind q ga gi := by
  unfold isBind
  split
  · simp
  · rename_i n
    simp only [Bool.false_eq_true, false_iff]
    rintro ⟨_, _, _, rfl⟩
    exact n _ _ _ rfl

/-- A row that a channel runs is the row of each instruction that it runs. -/
theorem exec_channelRow {i : Instr} (s : State) (h : channelOf i = some c) :
    ∃ p eff, exec i s = runInstr s c p eff ∧ ∀ o, p o = true → i = rowOf c o := by
  unfold exec
  cases i <;> cases h <;> refine ⟨_, _, rfl, fun o e => ?_⟩
  case atomAdd | atomMax | atomMin | atomXchg | atomCas =>
    obtain ⟨_, _, _, _, _, _, _, _, rfl⟩ := isAtom_iff.mp e
    rfl
  case queueBind =>
    obtain ⟨_, _, _, rfl⟩ := isBind_iff.mp e
    rfl
  case fill | launch =>
    split at e
    · rfl
    · rfl
    · cases e
  all_goals
    split at e
    · rfl
    · cases e

theorem runInstr_of_not_running {p : Zop → Bool} {eff : Zop → State} (h : p (chanAt s c).op = false) :
    runInstr s c p eff = .next s := by
  simp only [runInstr, taken, running, h, Bool.and_false, Bool.false_eq_true, if_false]

theorem running_of_any {p : Zop → Bool} (r : running s c (fun _ => true) = true) (h : p (chanAt s c).op = true) :
    running s c p = true := by
  simp only [running, Bool.and_true] at r
  simp only [running, r, h, Bool.and_true]

/-- Settles O9: every row of a channel is `runInstr` of its own instructions. -/
theorem falsePredicateSkips : Obligations.FalsePredicateSkips := by
  refine ⟨fun s c r n => ?_, fun i c s h ne => ?_⟩
  · obtain ⟨p, eff, e, hp⟩ := exec_rowOf s c (chanAt s c).op
    rw [e, runInstr, running_of_any r hp, n]
    rfl
  · obtain ⟨p, eff, e, hp⟩ := exec_channelRow s h
    rw [e]
    exact runInstr_of_not_running (Bool.eq_false_iff.mpr fun t => ne (hp _ t))

end Sys2Proof.Rows
end

section
/-! A tick of a block at rest (log 2). -/
namespace Sys2Proof.Rest
open Sys2Proof.Machine Sys2Proof.Safety
variable {s : State}

theorem settleTurns_of_granted_nil {n : Nat} (h : s.pr.granted = []) : settleTurns s n = s := by
  cases n with
  | zero => rfl
  | succ n => simp only [settleTurns, h, List.find?_nil]

theorem onQm_of_fixed {f : QueueMgr → QueueMgr} (h : f s.qm = s.qm) : s.onQm f = s := by
  rw [State.onQm, h]

theorem settleLinks_of_rest (f : s.sw.fwd = []) (j : s.qm.jobs = []) : settleLinks s = s := by
  have d : drainForward s = s := by rw [drainForward, if_pos f]
  rw [settleLinks, d, endLinkJobs]
  rw [j]
  refine onQm_of_fixed ?_
  dsimp only
  rw [j, List.filter_nil]
  exact j.symm ▸ rfl

theorem beginSweep_of_rest (k : s.qm.kills = []) (r : s.he.resets = []) : beginSweep s = s := by
  rw [beginSweep, k, r]
  simp

theorem sweptOn_of_rest (k : s.qm.kills = []) (r : s.he.resets = []) : sweptOn s = s := by
  simp only [sweptOn, k, r, List.filter_nil, List.foldl_nil]

theorem progress_of_rest (h : AtRest s) : progress s = s := by
  obtain ⟨-, f, j, k, q, m, r, c, z, g, -⟩ := h
  simp only [progress, settleTurns_of_granted_nil g, q, m, List.foldl_nil, beginSweep_of_rest k r, sweptOn_of_rest k r, r,
    c, z, j,
    settleLinks_of_rest f j]

theorem onward_of_rest (h : AtRest s) : onward s = s := by
  obtain ⟨-, -, -, -, -, -, -, -, -, -, q⟩ := id h
  simp only [onward, progress_of_rest h, hostGoes, q, List.length_nil, hostDrain]

/-- Settles O2: the tick's own updates are of the clocks and of the flows' ages; each part of what runs of itself is empty
  at rest. -/
theorem stepIdlesOneTick : Obligations.StepIdlesOneTick := by
  intro s p
  refine ⟨idle s, Standing.step_nil p, rfl, rfl, (Standing.keeps_idle (Standing.keeps_refl s)).pending.trans p, fun h =>
    ?_⟩
  obtain ⟨w, f, j, -⟩ := id h
  simp only [idle, w, if_true, settleLinks_of_rest f j, onward_of_rest h]
  rfl

end Sys2Proof.Rest
end

section
/-! Branches, returns and the register instructions (R105, R106, R134, R154, R155). -/
namespace Sys2Proof.TenantRows
open Sys2Proof.Machine Sys2Proof.Safety
variable {s : State} {c : Nat}

/-- An instruction that goes on elsewhere, after an update of its channel that leaves the word alone. -/
theorem retireTo_setChan {f : Channel → Channel} {pc : Nat} (hf : ∀ x : Channel, (f x).word = x.word ∧ (f x).st = x.st) :
    retireTo (setChan s c f) c pc =
      setChan s c (fun x => { (f x).fresh with pc := pc, state := .running, st := tried x .ok }) := by
  rw [retireTo, setChan_setChan]
  refine setChan_congr _ _ _ _ ?_
  obtain ⟨hw, ht⟩ := hf (chanAt s c)
  simp only [Channel.goto, Channel.fresh, tried, hw, ht]

theorem execBr_runs {target : Nat} (h : RunsOp s c (.br target)) : execBr c s = .next (retireTo s c target) :=
  Laws.runInstr_of_runsOp h _ rfl _

theorem execLoop_runs {gc target : Nat} (h : RunsOp s c (.loop gc target)) : execLoop c s = .next
    (if 1 < ((chanAt s c).greg gc).toNat then retireTo (setChan s c (fun x => x.setG gc ((chanAt s c).greg gc - 1))) c
      target
     else retireG s c gc 0) :=
  Laws.runInstr_of_runsOp h _ rfl _

/-- Settles O10. -/
theorem branchesAndReturns : Obligations.BranchesAndReturns := by
  refine ⟨fun s c target h => execBr_runs h, fun s c gc target h => ?_, fun s c f r h e => ?_, fun s c h e => ?_⟩
  · have running := Laws.state_of_runsOp h
    refine (execLoop_runs h).trans (congrArg _ ?_)
    split
    · rename_i g
      refine Eq.trans (retireTo_setChan fun x => ⟨rfl, rfl⟩) (setChan_congr _ _ _ _ ?_)
      rw [if_pos g]
      rfl
    · rename_i g
      refine Eq.trans (Laws.retire_setChan_ok running fun x => ⟨rfl, rfl, rfl, rfl⟩) (setChan_congr _ _ _ _ ?_)
      rw [if_neg g]
      rfl
  · refine (Laws.runInstr_of_runsOp h _ rfl _ : execRet c s = _).trans ?_
    dsimp only
    rw [e]
    rfl
  · refine (Laws.runInstr_of_runsOp h _ rfl _ : execRet c s = _).trans ?_
    dsimp only
    rw [e]

theorem execSetp_runs {pd cmp ga imm : Nat} {b : Int ⊕ Nat} (h : RunsOp s c (.setp pd cmp ga b imm)) :
    execSetp c s = .next (ended s c (fun x => x.setP pd (setpResult x cmp ga b imm))) := by
  refine (Laws.runInstr_of_runsOp h _ rfl _ : execSetp c s = _).trans (congrArg _ ?_)
  refine Laws.retire_setChan_ok (Laws.state_of_runsOp h) fun x => ?_
  unfold Channel.setP
  split <;> exact ⟨rfl, rfl, rfl, rfl⟩

theorem chanAt_ended (f : Channel → Channel) : chanAt (ended s c f) c =
    { (f (chanAt s c)).goto (chanAt s c).nextPc with st := tried (chanAt s c) .ok } := chanAt_setChan _ _ _

theorem tsetResult_keeps (x : Channel) (m td ts gs w : Nat) (w3g : Bool) (e : List Nat) :
    (tsetResult x m td ts gs w w3g e).state = x.state ∧ (tsetResult x m td ts gs w w3g e).word = x.word ∧
      (tsetResult x m td ts gs w w3g e).nextPc = x.nextPc ∧ (tsetResult x m td ts gs w w3g e).st = x.st := by
  unfold tsetResult
  dsimp only
  split <;> exact ⟨rfl, rfl, rfl, rfl⟩

/-- Settles O11. -/
theorem registerInstructions : Obligations.RegisterInstructions := by
  refine ⟨fun s c pd cmp ga b imm h => execSetp_runs h, fun s c pd cmp ga b imm h n => ⟨_, execSetp_runs h, ?_⟩,
    fun s c cmp ga b imm h => execSetp_runs h, fun s c rop gd ga gb imm ext h => ?_, fun s c m td ts gs w w3g e h => ?_,
    fun x ga gb imm i => ?_⟩
  · beta_reduce
    rw [chanAt_ended, Channel.setP, if_neg n]
    exact ⟨rfl, rfl, rfl⟩
  · refine (Laws.runInstr_of_runsOp h _ rfl _ : execMoveGset c s = _).trans (congrArg _ ?_)
    exact Eq.trans (Laws.retire_setChan_ok (Laws.state_of_runsOp h) fun x => ⟨rfl, rfl, rfl, rfl⟩)
      (setChan_congr _ _ _ _ rfl)
  · refine (Laws.runInstr_of_runsOp h _ rfl _ : execMoveTset c s = _).trans (congrArg _ ?_)
    exact Laws.retire_setChan_ok (Laws.state_of_runsOp h) fun x => tsetResult_keeps x _ _ _ _ _ _ _
  · simp [setpResult, word]

end Sys2Proof.TenantRows
end

section
/-! What an operation of the block leaves as it was: a reading of the state that is the same after it as before. -/

namespace Sys2Proof.Frame

open Sys2Proof.Machine Sys2Proof.Safety

/-- A reading of the state is in `t` as in `s`. -/
def Same {α : Type} (P : State → α) (s t : State) : Prop := P t = P s

variable {α : Type} {P : State → α} {s t u : State}

theorem same_refl (s : State) : Same P s s := rfl

theorem Same.trans (a : Same P s t) (b : Same P t u) : Same P s u := Eq.trans b a

theorem same_ite {p : Prop} [Decidable p] (ht : Same P s t) (hu : Same P s u) : Same P s (if p then t else u) := by
  split
  · exact ht
  · exact hu

theorem same_foldl {β : Type} {f : State → β → State} {l : List β} (hf : ∀ x a, Same P x (f x a)) (k : Same P s t) :
    Same P s (l.foldl f t) := by
  induction l generalizing t with
  | nil => exact k
  | cons a l ih => exact ih (k.trans (hf t a))

theorem same_fst {β : Type} {p : State × β} {x : β} (k : Same P s p.1) (e : p = (u, x)) : Same P s u := by
  rw [e] at k
  exact k

theorem same_ite_fst {β : Type} {p : Prop} [Decidable p] {a b : State × β} (ha : Same P s a.1) (hb : Same P s b.1) :
    Same P s (if p then a else b).1 := by
  split
  · exact ha
  · exact hb

theorem same_ite_snd {β : Type} {p : Prop} [Decidable p] {a b : β × State} (ha : Same P s a.2) (hb : Same P s b.2) :
    Same P s (if p then a else b).2 := by
  split
  · exact ha
  · exact hb

end Sys2Proof.Frame
end

section
/-! The registers of channels, which only an instruction's own end writes. -/
namespace Sys2Proof.Frame
open Sys2Proof.Machine Sys2Proof.Safety
variable {s t u : State}

/-- What a channel holds apart from the progress of its instruction. -/
def regs (s : State) (c : Nat) : Channel := { (chanAt s c).fresh with clusterCycles := 0, hostWritten := false }

theorem Same.chan_state (k : Same regs s t) (c : Nat) : (chanAt t c).state = (chanAt s c).state :=
  (congrArg Channel.state (congrFun k c) : (regs t c).state = (regs s c).state)

theorem Same.chan_g (k : Same regs s t) (c : Nat) : (chanAt t c).g = (chanAt s c).g :=
  (congrArg Channel.g (congrFun k c) : (regs t c).g = (regs s c).g)

theorem regs_onClk {f} (k : Same regs s t) : Same regs s (t.onClk f) := k

theorem regs_onVault {f} (k : Same regs s t) : Same regs s (t.onVault f) := k

theorem regs_onHe {f} (k : Same regs s t) : Same regs s (t.onHe f) := k
theorem regs_onQm {f} (k : Same regs s t) : Same regs s (t.onQm f) := k
theorem regs_onXl {f} (k : Same regs s t) : Same regs s (t.onXl f) := k
theorem regs_onPr {f} (k : Same regs s t) : Same regs s (t.onPr f) := k
theorem regs_onSw {f} (k : Same regs s t) : Same regs s (t.onSw f) := k
theorem regs_onRg {f} (k : Same regs s t) : Same regs s (t.onRg f) := k
theorem regs_onSq {f} (k : Same regs s t) : Same regs s (t.onSq f) := k
theorem regs_onBr {f} (k : Same regs s t) : Same regs s (t.onBr f) := k
theorem regs_emit {o} (k : Same regs s t) : Same regs s (emit t o) := k
theorem regs_withPorts {p : Tab Port} (k : Same regs s t) : Same regs s { t with ports := p } := k
theorem regs_withFree {n : Nat} (k : Same regs s t) : Same regs s { t with free := n } := k

theorem regs_setChan {c f} (k : Same regs s t) (hf : ∀ x : Channel,
    { (f x).fresh with clusterCycles := 0, hostWritten := false } =
    { x.fresh with clusterCycles := 0, hostWritten := false }) : Same regs s (setChan t c f) := by
  refine k.trans (funext fun n => ?_)
  unfold regs
  by_cases e : n = c
  · rw [e, chanAt_setChan, hf]
  · rw [chanAt_setChan_ne _ _ _ _ e]

theorem regs_setMover {m f} (k : Same regs s t) : Same regs s (setMover t m f) := k

/-- Each channel of a table is brought forward by a function that leaves the registers. -/
theorem regs_mapChans {g : Nat → Channel → Channel} (k : Same regs s t) (hf : ∀ n x,
    { (g n x).fresh with clusterCycles := 0, hostWritten := false } =
    { x.fresh with clusterCycles := 0, hostWritten := false }) :
    Same regs s (t.onMv (fun m => { m with chans := Tab.mapv m.chans g })) := by
  refine k.trans (funext fun n => ?_)
  simp only [regs, chanAt, State.onMv_mv, Tab.look_mapv]
  cases Tab.look t.mv.chans n with
  | none => rfl
  | some x => exact hf n x

/-- The movers' own tables and the scratchpads may change as they will. -/
theorem regs_withMv {m : Movers} (e : m.chans = t.mv.chans) (k : Same regs s t) : Same regs s { t with mv := m } := by
  refine k.trans (funext fun n => ?_)
  simp only [regs, chanAt, e]

theorem regs_drawNat (k : Same regs s t) : Same regs s (drawNat t).2 :=
  regs_withFree k

theorem regs_drawBytes {n} (k : Same regs s t) : Same regs s (drawBytes t n).2 :=
  regs_withFree k

theorem regs_setClock {d f} (k : Same regs s t) : Same regs s (setClock t d f) := by
  unfold setClock
  split
  · exact regs_onClk k
  · exact regs_onClk k

theorem regs_requestClock {d} (k : Same regs s t) : Same regs s (requestClock t d) :=
  same_ite k (regs_emit (regs_setClock k))

theorem regs_demand {d} (k : Same regs s t) : Same regs s (demand t d) := by
  unfold demand
  refine same_ite k ?_
  split
  · exact regs_requestClock k
  · exact regs_requestClock (regs_requestClock k)

theorem regs_wakeStream (k : Same regs s t) : Same regs s (wakeStream t) :=
  same_ite k (regs_demand k)

theorem regs_setHive {h f} (k : Same regs s t) : Same regs s (setHive t h f) :=
  regs_onHe k

theorem regs_setCluster {n f} (k : Same regs s t) : Same regs s (setCluster t n f) :=
  regs_onHe k

theorem regs_logErr {l} (k : Same regs s t) : Same regs s (logErr t l) :=
  same_ite (regs_onBr k) (regs_onBr k)

theorem regs_setLabel {l f} (k : Same regs s t) : Same regs s (setLabel t l f) :=
  regs_onRg k

theorem regs_setSlice {a f} (k : Same regs s t) : Same regs s (setSlice t a f) :=
  regs_onPr k

theorem regs_useTweak {keySel line} (k : Same regs s t) : Same regs s (useTweak t keySel line) :=
  regs_onPr k

theorem regs_setCond {line c} (k : Same regs s t) : Same regs s (setCond t line c) :=
  regs_onPr k

theorem regs_logDirty {a} (k : Same regs s t) : Same regs s (logDirty t a) :=
  regs_onXl k

theorem regs_storeLine {line bytes} (k : Same regs s t) : Same regs s (storeLine t line bytes) :=
  regs_logDirty (regs_onPr (regs_setSlice k))

theorem regs_setPort {p f} (k : Same regs s t) : Same regs s (setPort t p f) :=
  regs_withPorts k

theorem regs_answerReq {h st data} (k : Same regs s t) : Same regs s (answerReq t h st data) :=
  regs_emit k

theorem regs_wakeLines (k : Same regs s t) : Same regs s (wakeLines t) :=
  regs_mapChans k (fun _ _ => rfl)

theorem regs_trySend {h} (k : Same regs s t) (e : trySend t h = some u) : Same regs s u := by
  unfold trySend at e
  dsimp only at e
  split at e
  · split at e
    · cases e
    · cases e
      exact regs_wakeLines (regs_onPr k)
  · split at e
    · cases e
    · split at e
      · split at e
        · cases e
        · obtain ⟨_, -, rfl⟩ := Option.map_eq_some_iff.1 e
          exact regs_emit (regs_emit (regs_setPort k))
      · obtain ⟨_, -, rfl⟩ := Option.map_eq_some_iff.1 e
        exact regs_emit (regs_setPort k)

theorem regs_passOver {served waiting} (k : Same regs s t) : Same regs s (passOver t served waiting) :=
  same_foldl (fun _ _ => regs_setLabel (regs_drawNat (same_refl _))) k

theorem regs_drainPort {n p} (k : Same regs s t) : Same regs s (drainPort t p n) := by
  induction n generalizing t with
  | zero => exact k
  | succ n ih =>
    rw [drainPort]
    split
    · exact k
    · split
      · rename_i e
        exact ih (regs_passOver (regs_setPort (regs_trySend k e)))
      · exact k

theorem regs_sendOut {h} (k : Same regs s t) : Same regs s (sendOut t h) :=
  regs_drainPort (regs_setPort (regs_useTweak k))

theorem regs_wakeHome {line a3} (k : Same regs s t) : Same regs s (wakeHome t line a3) :=
  same_ite (regs_setMover k) k

theorem regs_addLock {a rmw waiting} (k : Same regs s t) : Same regs s (addLock t a rmw waiting) :=
  regs_onPr k

theorem regs_lineRequest {h} (k : Same regs s t) : Same regs s (lineRequest t h) :=
  same_ite (regs_onPr k) (same_ite (regs_onPr k) (same_ite (regs_addLock k)
    (same_ite (same_ite (regs_onPr k) (regs_sendOut (regs_addLock k))) (regs_sendOut k))))

theorem regs_putSlice {a2 v} (k : Same regs s t) : Same regs s (putSlice t a2 v) :=
  regs_onPr k

theorem regs_beginFill {a2} (k : Same regs s t) : Same regs s (beginFill t a2) :=
  same_ite k (regs_emit (same_foldl (fun _ _ => regs_useTweak (same_refl _)) (regs_onPr (regs_putSlice k))))

theorem regs_openSlice {h} (k : Same regs s t) : Same regs s (openSlice t h) :=
  regs_beginFill (regs_onPr (regs_setSlice k))

theorem regs_awaitSlice {h} (k : Same regs s t) : Same regs s (awaitSlice t h) :=
  regs_onPr k

theorem regs_emptySlot {hive line} (k : Same regs s t) : Same regs s (emptySlot t hive line) :=
  regs_logErr k

theorem regs_wakeUnit {p} (k : Same regs s t) : Same regs s (wakeUnit t p) :=
  same_ite (regs_onPr k) k

theorem regs_arrive {h} (k : Same regs s t) : Same regs s (arrive t h) := by
  unfold arrive
  refine same_ite (regs_answerReq (regs_emptySlot (regs_wakeHome (regs_wakeUnit k)))) ?_
  split
  · exact same_ite (regs_answerReq (regs_wakeHome (regs_wakeUnit k)))
      (same_ite (regs_answerReq (regs_wakeHome (regs_wakeUnit k)))
      (same_ite (regs_answerReq (regs_wakeHome (regs_wakeUnit k)))
      (regs_openSlice (regs_awaitSlice (regs_wakeHome (regs_wakeUnit k))))))
  · exact regs_awaitSlice (regs_wakeHome (regs_wakeUnit k))
  · exact same_ite (regs_answerReq (regs_wakeHome (regs_wakeUnit k))) (regs_lineRequest (regs_wakeHome (regs_wakeUnit k)))

theorem regs_releaseLine {a} (k : Same regs s t) : Same regs s (releaseLine t a) :=
  same_ite k (regs_wakeLines (same_foldl (fun _ _ => regs_arrive (same_refl _))
    (regs_onPr (same_foldl (fun _ _ => regs_arrive (same_refl _)) (regs_onPr k)))))

theorem regs_takePlace {h} (k : Same regs s t) : Same regs s (takePlace t h) :=
  same_ite k (regs_arrive k)

theorem regs_redeem {o a} (k : Same regs s t) : Same regs s (redeem t o a) :=
  same_ite (regs_releaseLine (regs_onPr k)) k

theorem regs_dropWhere {p} (k : Same regs s t) : Same regs s (dropWhere t p) :=
  same_ite k (same_foldl (fun _ _ => regs_releaseLine (same_refl _)) (regs_onPr (regs_withPorts k)))

theorem regs_dropTickets {o} (k : Same regs s t) : Same regs s (dropTickets t o) :=
  regs_dropWhere k

theorem regs_showRead {line level} (k : Same regs s t) : Same regs s (showRead t line level) :=
  regs_emit k

theorem regs_showCipher {keySel line level poison cipher} (k : Same regs s t) :
    Same regs s (showCipher t keySel line level poison cipher) :=
  regs_emit (regs_emit k)

theorem regs_showWrite {keySel line level plain} (k : Same regs s t) :
    Same regs s (showWrite t keySel line level plain) :=
  regs_showCipher k

theorem regs_poisonLine {keySel line level} (k : Same regs s t) : Same regs s (poisonLine t keySel line level) :=
  regs_showCipher (regs_setCond (regs_drawBytes k))

theorem regs_meetLine {hive keySel line level} (k : Same regs s t) : Same regs s (meetLine t hive keySel line level).1 :=
    by
  unfold meetLine
  split
  · dsimp only
    exact k
  · dsimp only
    exact k
  · split
    · dsimp only
      exact regs_logErr (regs_poisonLine k)
    · dsimp only
      exact regs_poisonLine k
  · dsimp only
    exact same_ite (regs_poisonLine (regs_drawNat (regs_logErr k))) (regs_drawNat (regs_logErr k))

theorem regs_coreWrite {hive keySel line a5 level} (k : Same regs s t) :
    Same regs s (coreWrite t hive keySel line a5 level).1 := by
  unfold coreWrite
  dsimp only
  split
  · dsimp only
    exact regs_emptySlot (regs_wakeHome (regs_wakeUnit k))
  · split
    · dsimp only
      exact regs_wakeHome (regs_wakeUnit k)
    · split
      · dsimp only
        exact regs_storeLine (regs_showWrite (regs_useTweak (regs_wakeHome (regs_wakeUnit k))))
      · split
        · dsimp only
          exact regs_storeLine (regs_showWrite (regs_meetLine
            (regs_useTweak (regs_showRead (regs_wakeHome (regs_wakeUnit k))))))
        · dsimp only
          exact regs_meetLine (regs_useTweak (regs_showRead (regs_wakeHome (regs_wakeUnit k))))

theorem regs_charge {lab bytes} (k : Same regs s t) : Same regs s (charge t lab bytes) :=
  same_ite k (regs_setLabel k)

theorem regs_pendMessage {vector hive} (k : Same regs s t) : Same regs s (pendMessage t vector hive) :=
  same_ite k (regs_onSq k)

theorem regs_tablePut {line w go} (hgo : ∀ x, Same regs x (go x).1) (k : Same regs s t) :
    Same regs s (tablePut t line w go).1 := by
  unfold tablePut
  split
  · exact regs_arrive k
  · exact k.trans (hgo t)

theorem regs_eventBy {write code hive a0 a1} (hw : ∀ x a b, Same regs x (write x a b)) (k : Same regs s t) :
    Same regs s (eventBy write t code hive a0 a1) := by
  have kw := fun a b => k.trans (hw t a b)
  unfold eventBy
  dsimp only
  split
  · exact same_ite (regs_pendMessage (regs_onSq (kw _ _))) (regs_onSq (kw _ _))
  · exact regs_onSq k

theorem regs_alarmBy {event hive keySel line ctx off st} (he : ∀ x a b c d, Same regs x (event x a b c d)) (k :
    Same regs s t) :
    Same regs s (alarmBy event t hive keySel line ctx off st) := by
  unfold alarmBy
  exact same_ite (regs_setHive (regs_logErr k)) ((regs_setHive (regs_logErr k)).trans (he _ _ _ _ _))

theorem regs_recordBy {alarm a bytes} (ha : ∀ x b c d, Same regs x (alarm x b c d)) (k : Same regs s t) :
    Same regs s (recordBy alarm t a bytes).1 :=
  regs_tablePut (fun _ => same_ite ((regs_coreWrite (same_refl _)).trans (ha _ _ _ _)) (regs_coreWrite (same_refl _)))
    (regs_wakeStream k)

theorem regs_alarmEvent {code hive a0 a1} (k : Same regs s t) : Same regs s (alarmEvent t code hive a0 a1) :=
  regs_eventBy (fun _ _ _ => regs_recordBy (fun _ _ _ _ => regs_alarmBy (fun _ _ _ _ _ => same_refl _) (same_refl _))
    (same_refl _)) k

theorem regs_writeRecord {a bytes} (k : Same regs s t) : Same regs s (writeRecord t a bytes).1 :=
  regs_recordBy (fun _ _ _ _ => regs_alarmBy (fun _ _ _ _ _ => regs_alarmEvent (same_refl _)) (same_refl _)) k

theorem regs_hiveEvent {code hive a0 a1} (k : Same regs s t) : Same regs s (hiveEvent t code hive a0 a1) :=
  regs_eventBy (fun _ _ _ => regs_writeRecord (same_refl _)) k

theorem regs_securityAlarm {hive keySel line ctx off st} (k : Same regs s t) :
    Same regs s (securityAlarm t hive keySel line ctx off st) :=
  regs_alarmBy (fun _ _ _ _ _ => regs_hiveEvent (same_refl _)) k

theorem regs_homeWrite {hive keySel line a5 level ctx off} (k : Same regs s t) :
    Same regs s (homeWrite t hive keySel line a5 level ctx off).1 :=
  same_ite (regs_securityAlarm (regs_coreWrite k)) (regs_coreWrite k)

theorem regs_tableWrite {a bytes} (k : Same regs s t) : Same regs s (tableWrite t a bytes).1 :=
  regs_tablePut (fun _ => regs_homeWrite (same_refl _)) (regs_charge k)

theorem regs_setLink {l f} (k : Same regs s t) : Same regs s (setLink t l f) :=
  regs_onSw k

theorem regs_setFlow {peer f} (k : Same regs s t) : Same regs s (setFlow t peer f) :=
  regs_onSw k

theorem regs_unwait {p} (k : Same regs s t) : Same regs s (unwait t p) :=
  regs_onSw k

theorem regs_oweCredit {l f} (k : Same regs s t) : Same regs s (oweCredit t l f) :=
  same_ite (regs_setLink k) k

theorem regs_dropForward {link f} (k : Same regs s t) : Same regs s (dropForward t link f) :=
  regs_oweCredit (regs_onSw k)

theorem regs_enqueue {w} (k : Same regs s t) : Same regs s (enqueue t w) :=
  regs_onSw k

theorem regs_routeOwn {peer f} (k : Same regs s t) : Same regs s (routeOwn t peer f).1 := by
  unfold routeOwn
  split
  · dsimp only
    exact k
  · dsimp only
    exact regs_unwait (regs_setFlow k)

theorem regs_requeue {w} (k : Same regs s t) : Same regs s (requeue t w) := by
  unfold requeue
  split
  · exact regs_enqueue k
  · exact regs_dropForward k

theorem regs_dropLink {l} (k : Same regs s t) : Same regs s (dropLink t l) := by
  unfold dropLink
  refine same_foldl (fun x e => same_foldl (fun y w => ?_) (same_refl _))
    (same_foldl (fun x w => regs_requeue (same_refl _))
    (regs_onSw (regs_onVault (regs_setLink k))))
  have r := regs_routeOwn (same_refl y) (peer := e.1) (f := w.frame)
  split
  · rename_i q
    exact regs_enqueue (same_fst r q)
  · rename_i q
    exact same_fst r q

theorem regs_putFrame {l f} (k : Same regs s t) : Same regs s (putFrame t l f) :=
  same_ite (regs_dropLink (regs_emit (regs_setLink k))) (regs_emit (regs_setLink k))

theorem regs_sendFwd {w} (k : Same regs s t) : Same regs s (sendFwd t w) :=
  same_ite (regs_putFrame k) (regs_oweCredit (regs_putFrame k))

theorem regs_sendOrWait {w} (k : Same regs s t) : Same regs s (sendOrWait t w) :=
  same_ite (regs_sendFwd k) (regs_enqueue k)

theorem regs_sendCtl {peer f} (k : Same regs s t) : Same regs s (sendCtl t peer f) := by
  unfold sendCtl
  split
  · exact regs_putFrame k
  · exact k

theorem regs_sendOpen {peer reply} (k : Same regs s t) : Same regs s (sendOpen t peer reply) := by
  unfold sendOpen
  split
  · exact k
  · exact regs_sendCtl k

theorem regs_transmit {peer f} (k : Same regs s t) : Same regs s (transmit t peer f) := by
  unfold transmit
  split
  · rename_i e
    exact regs_sendOrWait (same_fst (regs_routeOwn k) e)
  · rename_i e
    exact same_fst (regs_routeOwn k) e

theorem regs_closeFlow {peer} (k : Same regs s t) : Same regs s (closeFlow t peer) :=
  regs_setFlow (regs_sendCtl k)

theorem regs_freeEntry (k : Same regs s t) : Same regs s (freeEntry t) := by
  unfold freeEntry
  dsimp only
  refine same_ite k ?_
  split
  · exact regs_closeFlow (regs_drawNat k)
  · exact k

theorem regs_enterFlow {peer} (k : Same regs s t) : Same regs s (enterFlow t peer) :=
  same_ite (regs_sendOpen (regs_setFlow (regs_onSw (regs_freeEntry k)))) (regs_freeEntry k)

theorem regs_takeFlow {peer} (k : Same regs s t) : Same regs s (takeFlow t peer) := by
  unfold takeFlow
  split
  · exact same_ite (regs_enterFlow (regs_onSw k)) k
  · exact regs_enterFlow (regs_onSw k)

theorem regs_sendSeq {peer f} (k : Same regs s t) : Same regs s (sendSeq t peer f).1 := by
  unfold sendSeq
  dsimp only
  split
  · dsimp only
    exact regs_takeFlow k
  · split
    · dsimp only
      exact regs_transmit (regs_setFlow (regs_takeFlow k))
    · dsimp only
      exact regs_setFlow (regs_setFlow (regs_takeFlow k))

theorem regs_openTxn {dst f chan kind lines} (k : Same regs s t) : Same regs s (openTxn t dst f chan kind lines) :=
  regs_onSw (regs_sendSeq k)

theorem regs_putFault {bytes} (k : Same regs s t) : Same regs s (putFault t bytes) :=
  same_ite (regs_pendMessage (regs_onXl (regs_tableWrite k))) (regs_onXl (regs_tableWrite k))

theorem regs_disarm {r va} (k : Same regs s t) : Same regs s (disarm t r va) :=
  regs_onXl k

theorem regs_drainFaults {n} (k : Same regs s t) : Same regs s (drainFaults t n) := by
  induction n generalizing t with
  | zero => exact k
  | succ n ih =>
    rw [drainFaults]
    refine same_ite k ?_
    split
    · exact ih (regs_putFault (regs_onXl k))
    · split
      · exact same_ite (ih (regs_onXl (regs_putFault (regs_onXl k)))) k
      · exact k

theorem regs_drainAll (k : Same regs s t) : Same regs s (drainAll t) :=
  regs_drainFaults k

theorem regs_dropForager {c} (k : Same regs s t) : Same regs s (dropForager t c) :=
  regs_onXl k

theorem regs_dropRequester {r} (k : Same regs s t) : Same regs s (dropRequester t r) :=
  regs_drainAll (regs_onXl k)

theorem regs_dropWaits {c} (k : Same regs s t) : Same regs s (dropWaits t c) :=
  regs_onQm k

theorem regs_cancelRemoteWaits {c} (k : Same regs s t) : Same regs s (cancelRemoteWaits t c) :=
  same_foldl (fun _ _ => regs_sendSeq (same_refl _)) (regs_onSw k)

theorem regs_spadLose {n} (k : Same regs s t) : Same regs s (spadLose t n) := regs_withMv rfl k

theorem regs_spadWrite {n bs} (k : Same regs s t) : Same regs s (spadWrite t n bs) := regs_withMv rfl k

theorem regs_clearPins {n} (k : Same regs s t) : Same regs s (clearPins t n) :=
  same_ite (regs_emit (regs_emit k)) k

theorem regs_clearCluster {n dest} (k : Same regs s t) : Same regs s (clearCluster t n dest) :=
  regs_spadLose (regs_clearPins (regs_setCluster k))

theorem regs_freeKernel {n} (k : Same regs s t) : Same regs s (freeKernel t n) :=
  same_ite (regs_clearCluster k) (regs_setCluster k)

theorem regs_releaseClusters {c} (k : Same regs s t) : Same regs s (releaseClusters t c) :=
  regs_setChan (same_foldl (fun _ _ => regs_freeKernel (same_refl _)) k) (fun _ => rfl)

theorem regs_chargeKernel {c} (k : Same regs s t) : Same regs s (chargeKernel t c) :=
  regs_setChan (regs_drawNat k) (fun _ => rfl)

theorem regs_endKernels {c} (k : Same regs s t) : Same regs s (endKernels t c) :=
  regs_releaseClusters (same_ite (same_foldl (fun _ _ => regs_spadLose (regs_emit (same_refl _)))
    (same_foldl (fun _ _ => regs_chargeKernel (same_refl _)) (regs_onHe k))) (regs_onHe k))

theorem regs_letGo {c} (k : Same regs s t) : Same regs s (letGo t c) :=
  regs_endKernels (regs_dropTickets (regs_dropForager (regs_dropRequester (regs_cancelRemoteWaits (regs_dropWaits k)))))

theorem regs_stall {c h} (k : Same regs s t) : Same regs s (stall t c h) :=
  regs_setChan k (fun _ => rfl)

theorem regs_l1Put {m e} (k : Same regs s t) : Same regs s (l1Put t m e) :=
  regs_onXl k

theorem regs_lookup {m ctx va n} (k : Same regs s t) : Same regs s (lookup t m ctx va n).1 := by
  unfold lookup
  split
  · dsimp only
    exact regs_l1Put k
  · split
    · dsimp only
      exact regs_l1Put (regs_onXl k)
    · dsimp only
      exact k

theorem regs_xlate {c va n} (k : Same regs s t) : Same regs s (xlate t c va n).1 := by
  unfold xlate
  split
  · rename_i e
    dsimp only
    exact same_fst (regs_lookup k) e
  · rename_i e
    dsimp only
    exact regs_disarm (same_fst (regs_lookup k) e)

theorem regs_askWalk {ctx va wants forager} (k : Same regs s t) : Same regs s (askWalk t ctx va wants forager) :=
  regs_onXl k

theorem regs_chargeLine {c bytes} (k : Same regs s t) : Same regs s (chargeLine t c bytes) :=
  regs_charge k

theorem regs_refuseLine {c pa} (k : Same regs s t) : Same regs s (refuseLine t c pa) :=
  regs_logErr k

theorem regs_startWalk {c va acc} (k : Same regs s t) : Same regs s (startWalk t c va acc) :=
  regs_setChan (regs_askWalk k) (fun _ => rfl)

theorem regs_showSpadWrite {n off level bytes} (k : Same regs s t) : Same regs s (showSpadWrite t n off level bytes) :=
  regs_emit (regs_emit k)

theorem regs_flushPack {c} (k : Same regs s t) : Same regs s (flushPack t c) := by
  unfold flushPack
  split
  · exact k
  · exact regs_openTxn (regs_setChan k (fun _ => rfl))

theorem regs_flushFor {c pa} (k : Same regs s t) : Same regs s (flushFor t c pa) := by
  unfold flushFor
  split
  · exact same_ite (regs_flushPack k) k
  · exact k

theorem regs_packLine {c q} (k : Same regs s t) : Same regs s (packLine t c q) := by
  unfold packLine
  split
  · exact same_ite (regs_setChan k (fun _ => rfl)) (regs_setChan (regs_flushPack k) (fun _ => rfl))
  · exact regs_setChan k (fun _ => rfl)

theorem regs_spadMend {n off w} (k : Same regs s t) : Same regs s (spadMend t n off w) := by
  unfold spadMend
  split
  · exact regs_withMv rfl k
  · exact k

theorem regs_putRemote {c pa w capping} (k : Same regs s t) : Same regs s (putRemote t c pa w capping).1 := by
  have f := regs_flushPack k (c := c)
  have g : Same regs s (if (chanAt t c).sent = 0 then chargeLine (flushPack t c) c (chargeOf w) else flushPack t c) :=
    same_ite (regs_chargeLine f) f
  unfold putRemote
  exact same_ite_fst (regs_stall f) (same_ite_fst (regs_stall (regs_setChan (regs_openTxn g) fun _ => rfl))
    (same_ite (regs_stall (regs_openTxn g)) (regs_setChan (regs_openTxn g) fun _ => rfl)))

theorem regs_putLine {c ua a4 bulk capping} (k : Same regs s t) : Same regs s (putLine t c ua a4 bulk capping).1 := by
  unfold putLine
  dsimp only
  refine same_ite_fst ?_ ?_
  · split
    · dsimp only
      exact regs_refuseLine k
    · dsimp only
      exact k
    · split
      · dsimp only
        exact regs_stall k
      · split
        · dsimp only
          exact regs_showSpadWrite (regs_chargeLine k)
        · dsimp only
          exact regs_spadWrite (regs_spadMend (regs_showSpadWrite (regs_chargeLine k)))
  · split
    · dsimp only
      exact regs_startWalk (regs_xlate k)
    · dsimp only
      exact regs_xlate k
    · dsimp only
      exact regs_setChan (same_foldl (fun _ _ => regs_emit (same_refl _)) (regs_chargeLine (regs_xlate k))) (fun _ => rfl)
    · refine same_ite_fst ?_ ?_
      · split
        · dsimp only
          exact regs_refuseLine (regs_xlate k)
        · split
          · dsimp only
            exact regs_xlate k
          · split
            · split
              · dsimp only
                exact regs_stall (regs_flushFor (regs_xlate k))
              · dsimp only
                exact regs_packLine (regs_chargeLine (regs_flushFor (regs_xlate k)))
            · exact regs_putRemote (regs_xlate k)
      · split
        · split
          · dsimp only
            exact regs_refuseLine (regs_xlate k)
          · split
            · dsimp only
              exact regs_stall (regs_takePlace (regs_xlate k))
            · dsimp only
              exact regs_redeem (regs_homeWrite (regs_chargeLine (regs_xlate k)))
        · dsimp only
          exact regs_refuseLine (regs_xlate k)

theorem regs_writeLine {c ua a4 bulk capping} (k : Same regs s t) : Same regs s (writeLine t c ua a4 bulk capping).1 :=
  regs_flushPack (regs_putLine k)

end Sys2Proof.Frame
end

section
/-! How an instruction ends (R114, R119). -/
namespace Sys2Proof.TenantRows
open Sys2Proof.Machine Sys2Proof.Safety
variable {s : State} {c : Nat}

/-- A status that `try` keeps: the channel goes on at the next word. -/
theorem retire_tried {st : Status} (r : (chanAt s c).state = .running) (n : st ≠ .ok) (w : zTry (chanAt s c).word = true)
    (f : st.fatal = false) : retire s c st = setChan (letGo s c) c (fun x => { x.goto (chanAt s c).nextPc with st := st })
      := by
  simp [retire, r, n, w, f]

/-- DECODE, ABORTED or HW_ERROR, or a status without `try`: the command is aborted. -/
theorem retire_aborts {st : Status} (r : (chanAt s c).state = .running) (n : st ≠ .ok)
    (w : zTry (chanAt s c).word = false ∨ st.fatal = true) : ∃ x,
      retire s c st = abortChan (setChan s c (fun y => { y with st := x })) c st false := by
  refine ⟨if zTry (chanAt s c).word then st else (chanAt s c).st, ?_⟩
  have k : ¬ (st = .ok ∨ zTry (chanAt s c).word = true ∧ (!st.fatal) = true) := by
    rcases w with w | w <;> simp [n, w]
  simp only [retire, r]
  rw [if_neg (by simp), if_neg k]
  rfl

theorem abortChan_aborts {st : Status} {b : Bool} (r : (chanAt s c).state = .running) (n : (chanAt s c).retired = false) :
    abortChan s c st b = setChan (letGo s c) c (fun x =>
      { x with state := .ending, endStatus := st, endDepth := (chanAt s c).stack.length, endWord := (chanAt s c).pc,
               hold := .none, kernels := [], inKill := b }) := by
  simp [abortChan, r, n]

theorem fatal_iff {st : Status} : st.fatal = true ↔ st = .decode ∨ st = .aborted ∨ st = .hwError := by
  cases st <;> decide

/-- Settles O13. -/
theorem instructionsEnd : Obligations.InstructionsEnd := by
  refine ⟨fun s c r => Laws.retire_ok r, fun s c st r n w d a h => ?_, fun s c st r nr n w => ?_⟩
  · rw [retire_tried r n w (Bool.eq_false_iff.mpr fun f => by rcases fatal_iff.mp f with e | e | e <;> contradiction),
      chanAt_setChan]
    refine ⟨rfl, rfl, rfl, ?_⟩
    dsimp only [Channel.goto, Channel.fresh]
    exact (Frame.regs_letGo (Frame.same_refl s)).chan_g c
  · obtain ⟨x, e⟩ := retire_aborts r n (w.imp_right fatal_iff.mpr)
    rw [e, abortChan_aborts (by rw [chanAt_setChan]; exact r) (by rw [chanAt_setChan]; exact nr), chanAt_setChan,
      chanAt_setChan]
    exact ⟨rfl, rfl, rfl, rfl⟩

end Sys2Proof.TenantRows
end

section
/-! Loads, stores and capabilities (R154), and the calls of objects (R106, R107). -/
namespace Sys2Proof.TenantRows
open Sys2Proof.Machine Sys2Proof.Safety
variable {s t : State} {c : Nat}

theorem sub_lineOf (a : Nat) : a - lineOf a = a % 128 := by
  unfold lineOf
  omega

/-! ## What a channel is after an instruction that ends OK -/

theorem retire_ok_pr (r : (chanAt s c).state = .running) : (retire s c .ok).pr = s.pr := by
  rw [Laws.retire_ok r]
  rfl

theorem chanAt_retire_ok (r : (chanAt s c).state = .running) : chanAt (retire s c .ok) c =
    { (chanAt s c).fresh with pc := (chanAt s c).nextPc, state := .running, st := tried (chanAt s c) .ok } := by
  rw [Laws.retire_ok r, chanAt_setChan]

/-- The channel of the block before which an instruction has left its word and its registers as they were. -/
structure SameWord (x y : Channel) : Prop where
  state : y.state = x.state
  pc : y.pc = x.pc
  word : y.word = x.word
  st : y.st = x.st
  g : y.g = x.g

theorem wentOn_retire (r : (chanAt s c).state = .running) (h : SameWord (chanAt s c) (chanAt t c)) :
    WentOn s (retire t c .ok) c := by
  rw [WentOn, chanAt_retire_ok (h.state.trans r)]
  simp only [Channel.nextPc, tried, h.pc, h.word, h.st, true_and]
  exact h.g

/-! ## Loads and stores -/

theorem execLdG_runs {dt : Bool} {d ga : Nat} {off : Int} {l : List Byte} (h : RunsOp s c (.ldG dt d ga off))
    (a : dataAddr (chanAt s c) ga off % (if dt then 32 else 8) = 0) (n : (chanAt s c).lineStatus = none)
    (e : readLine s c (lineOf (dataAddr (chanAt s c) ga off)) = (t, .data l)) : execLdG c s = .next
      (let b := l.drop (dataAddr (chanAt s c) ga off % 128)
       if dt then retire (setChan t c (fun x => x.setT d (wordsOf 4 b))) c .ok else retireG t c d
         (BitVec.ofNat 64 (leNat (b.take 8)))) := by
  refine (Laws.runInstr_of_runsOp h _ rfl _ : execLdG c s = _).trans (congrArg _ ?_)
  dsimp only
  rw [if_neg (not_not_intro a), n]
  dsimp only
  rw [e]
  dsimp only
  rw [sub_lineOf]

theorem execLdG_misaligned {dt : Bool} {d ga : Nat} {off : Int} (h : RunsOp s c (.ldG dt d ga off))
    (a : dataAddr (chanAt s c) ga off % (if dt then 32 else 8) ≠ 0) : execLdG c s = .next (retire s c .range) := by
  refine (Laws.runInstr_of_runsOp h _ rfl _ : execLdG c s = _).trans (congrArg _ ?_)
  dsimp only
  rw [if_pos a]

theorem oneWrite_data {line : Nat} {k : WriteKind} {cap : Bool} {b : List Byte} (n : (chanAt s c).lineStatus = none)
    (p : (chanAt s c).prog = 0) (e : writeLine s c line k false cap = (t, .data b)) (q : remoteBusy t c = false)
    (m : (chanAt t c).lineStatus = none) :
    oneWrite s c line k cap = retire (dropForager (setChan t c (fun x => { x with prog := 1 })) c) c .ok := by
  simp only [oneWrite, n, p, if_true, e]
  have m' : (chanAt (setChan t c (fun x => { x with prog := 1 })) c).lineStatus = none := by
    rw [chanAt_setChan]
    exact m
  exact Laws.finish_retires (t := setChan t c _) q m' .ok

theorem execStG_runs {gs ga : Nat} {off : Int} (h : RunsOp s c (.stG gs ga off)) : execStG c s = .next
    (let a := dataAddr (chanAt s c) ga off
     if a % 8 ≠ 0 then retire s c .range else oneWrite s c (lineOf a) (word8 a ((chanAt s c).greg gs)) false) :=
  Laws.runInstr_of_runsOp h _ rfl _

theorem execCap_runs {x : Src} {gs : Nat} (h : RunsOp s c (.cap x gs)) : execCap c s = .next
    (let a := (chanAt s c).src x % 2 ^ 57
     if a % 8 ≠ 0 then retire s c .range else oneWrite s c (lineOf a) (word8 a ((chanAt s c).greg gs)) true) :=
  Laws.runInstr_of_runsOp h _ rfl _

/-- A write of one line in reach, by an instruction that begins, ends OK with that line changed. -/
theorem oneWrite_inReach {line la : Nat} {k : WriteKind} {cap : Bool} (r : (chanAt s c).state = .running) (b : Begins s c)
    (h : InReach s c line (needOf k) la) : WentOn s (oneWrite s c line k cap) c ∧ (oneWrite s c line k cap).pr.mem =
      memAfter s la k := by
  obtain ⟨-, pack, status, prog, -⟩ := Laws.begins_clear b
  obtain ⟨t, e, q, m⟩ := Laws.writeLine_inReach (rel := false) (cap := cap) b.2.2 pack h
  have chan := q.chanAt c
  rw [oneWrite_data status prog e ((q.remoteBusy c).trans b.2.1) (by rw [chan]; exact status)]
  have u : chanAt (dropForager (setChan t c (fun x => { x with prog := 1 })) c) c = { chanAt s c with prog := 1 } :=
    (chanAt_setChan t c (fun x => { x with prog := 1 })).trans (by rw [chan])
  refine ⟨wentOn_retire r ?_, ?_⟩
  · rw [u]
    exact ⟨rfl, rfl, rfl, rfl, rfl⟩
  · rw [retire_ok_pr (by rw [u]; exact r)]
    exact m

theorem readLine_inReach {line la : Nat} (b : Begins s c) (h : InReach s c line .rd la) :
    ∃ t, readLine s c line = (t, .data (lineBytes s la)) ∧ chanAt t c = chanAt s c ∧ t.pr.mem = s.pr.mem := by
  obtain ⟨rob, -⟩ := Laws.begins_clear b
  obtain ⟨t, e, q, m, -⟩ := Laws.readLineAs_inReach (acc := .read) (ahead := []) (by rw [rob]; rfl) b.2.2 h
  exact ⟨t, e, q.chanAt c, m⟩

/-- Settles O12. -/
theorem loadsAndStores : Obligations.LoadsAndStores := by
  refine ⟨fun s c d ga off t l h a n e => ?_, fun s c d ga off t l h a n e => ?_, fun s c dt d ga off h a =>
    execLdG_misaligned h a,
    fun s c gs ga off t b h a n p e q m => ?_, fun s c gs ga off h a => ?_, fun s c x gs t b h a n p e q m => ?_,
    fun s c x gs h a => ?_, fun s c d ga off la h b a i => ?_, fun s c d ga off la h b a i => ?_,
    fun s c gs ga off la h b a i => ?_, fun s c x gs la h b a i => ?_⟩
  · exact execLdG_runs (dt := false) h a n e
  · exact execLdG_runs (dt := true) h a n e
  · refine (execStG_runs h).trans (congrArg _ ?_)
    dsimp only
    rw [if_neg (not_not_intro a), oneWrite_data n p e q m]
  · refine (execStG_runs h).trans (congrArg _ ?_)
    exact if_pos a
  · refine (execCap_runs h).trans (congrArg _ ?_)
    dsimp only
    rw [if_neg (not_not_intro a), oneWrite_data n p e q m]
  · refine (execCap_runs h).trans (congrArg _ ?_)
    exact if_pos a
  · obtain ⟨t, e, k, m⟩ := readLine_inReach b i
    have r : (chanAt t c).state = .running := by rw [k]; exact Laws.state_of_runsOp h
    refine ⟨_, execLdG_runs (dt := false) h a (Laws.begins_clear b).2.2.1 e, ?_⟩
    dsimp only
    simp only [Bool.false_eq_true, if_false, retireG]
    rw [chanAt_retire_ok (by rw [chanAt_setChan]; exact r), retire_ok_pr (by rw [chanAt_setChan]; exact r),
      chanAt_setChan, k]
    exact ⟨rfl, rfl, m⟩
  · obtain ⟨t, e, k, m⟩ := readLine_inReach b i
    have r : (chanAt t c).state = .running := by rw [k]; exact Laws.state_of_runsOp h
    refine ⟨_, execLdG_runs (dt := true) h a (Laws.begins_clear b).2.2.1 e, ?_⟩
    dsimp only
    rw [if_pos rfl]
    refine ⟨wentOn_retire (Laws.state_of_runsOp h) ?_, ?_, ?_⟩
    · rw [chanAt_setChan, k]
      exact ⟨rfl, rfl, rfl, rfl, rfl⟩
    · rw [chanAt_retire_ok (by rw [chanAt_setChan]; exact r), chanAt_setChan, k]
      rfl
    · rw [retire_ok_pr (by rw [chanAt_setChan]; exact r)]
      exact m
  · refine ⟨_, execStG_runs h, ?_⟩
    dsimp only
    rw [if_neg (not_not_intro a)]
    exact oneWrite_inReach (Laws.state_of_runsOp h) b i
  · refine ⟨_, execCap_runs h, ?_⟩
    dsimp only
    rw [if_neg (not_not_intro a)]
    exact oneWrite_inReach (Laws.state_of_runsOp h) b i

end Sys2Proof.TenantRows
end

section
/-! The calls of objects (R106, R107). -/
namespace Sys2Proof.TenantRows
open Sys2Proof.Machine Sys2Proof.Safety
variable {s t : State} {c : Nat}

theorem execCall_runs {x : Src} (h : RunsOp s c (.call x)) (a : (chanAt s c).src x % 2 ^ 57 % 256 = 0)
    (d : (chanAt s c).stack.length < 4) : execCall c s = .next
      (match (chanAt s c).objects.find? (fun e => e.1 == (chanAt s c).src x % 2 ^ 57), (chanAt s c).lineStatus with
       | some e, _ => enterObject s c ((chanAt s c).src x % 2 ^ 57) e.2
       | none, some st => finish s c st
       | none, none => fetchObject s c ((chanAt s c).src x % 2 ^ 57)) := by
  refine (Laws.runInstr_of_runsOp h _ rfl _ : execCall c s = _).trans (congrArg _ ?_)
  dsimp only
  rw [if_neg (by omega)] <;> rfl

/-- An object of one line whose words decode is entered. -/
theorem fetchObject_short {va : Nat} {l : List Byte} (e : readLineAs .object s c va = (t, .data l)) (n :
    needsLine2 (wordsOf 16 l) = false)
    (ok : firstBad false ((chanAt t c).q == 0) (wordsOf 16 l) = none) :
      fetchObject s c va = enterObject t c va (wordsOf 16 l) := by
  simp only [fetchObject, e, n, Bool.false_eq_true, if_false, decodeObject, ok]

theorem chanAt_enterObject (va : Nat) (ws : List Word) : chanAt (enterObject t c va ws) c =
    { (chanAt t c).goto 0 with
      stack := { code := (chanAt t c).code, base := (chanAt t c).base, pc := (chanAt t c).nextPc } :: (chanAt t c).stack
      code := ws, base := va
      objects := if (chanAt t c).objects.any (fun o => o.1 == va) then (chanAt t c).objects else (chanAt t c).objects ++ [(va, ws)]
      st := if zTry (chanAt t c).word then .ok else (chanAt t c).st } := chanAt_setChan _ _ _

/-- Settles O14. -/
theorem callEntersObjects : Obligations.CallEntersObjects := by
  refine ⟨fun s c x e h a d f => ?_, fun s c x t l h a d f n r short ok => ?_, fun s c x la h b a d f i short ok => ?_,
    fun s c x h a => ?_⟩
  · refine (execCall_runs h a d).trans ?_
    rw [f]
    rfl
  · refine ⟨enterObject t c ((chanAt s c).src x % 2 ^ 57) (wordsOf 16 l), ?_, ?_⟩
    · refine (execCall_runs h a d).trans (congrArg _ ?_)
      rw [f, n]
      exact fetchObject_short r short ok
    · beta_reduce
      rw [chanAt_enterObject]
      exact ⟨rfl, rfl, rfl, rfl, rfl⟩
  · obtain ⟨rob, -, n, -⟩ := Laws.begins_clear b
    obtain ⟨t, r, q, m, -⟩ := Laws.readLineAs_inReach (acc := .object) (ahead := []) (by rw [rob]; rfl) b.2.2 i
    have k := q.chanAt c
    refine ⟨enterObject t c ((chanAt s c).src x % 2 ^ 57) (wordsOf 16 (lineBytes s la)), ?_, ?_⟩
    · refine (execCall_runs h a d).trans (congrArg _ ?_)
      rw [f, n]
      exact fetchObject_short r short (by rw [k]; exact ok)
    · beta_reduce
      rw [chanAt_enterObject, k]
      exact ⟨rfl, rfl, rfl, rfl, rfl, m⟩
  · refine (Laws.runInstr_of_runsOp h _ rfl _ : execCall c s = _).trans (congrArg _ ?_)
    exact if_pos a

end Sys2Proof.TenantRows
end

section
/-! The pieces of a span copy (R135): which bytes each of them writes, and with what. -/
namespace Sys2Proof.Spans
open Sys2Proof.Machine Sys2Proof.Safety

theorem uaAdd_eq {a k : Nat} (h : a + k < 2 ^ 57) : uaAdd a k = a + k := by
  unfold uaAdd
  omega

/-- The byte that a list of writes leaves in place of `o` at an offset: the last one's. -/
def written (bs : List (Nat × Byte)) (i : Nat) (o : Byte) : Byte :=
  match bs.reverse.find? (fun e => e.1 == i) with
  | some e => e.2
  | none => o

theorem nth_writeApply_partial (bs : List (Nat × Byte)) (old : List Byte) {i : Nat} (h : i < 128) :
    nth (writeApply (.partialWrite bs) old).1 i 0 = written bs i (nth old i 0) := by
  simp [writeApply, nth, written, h] <;> rfl

theorem length_writeApply_partial (bs : List (Nat × Byte)) (old : List Byte) :
    (writeApply (.partialWrite bs) old).1.length = 128 := by
  simp [writeApply]

/-- What is written does not depend on the old byte where a write covers it. -/
theorem written_of_mem {bs : List (Nat × Byte)} {i : Nat} (h : bs.any (fun e => e.1 == i) = true) (o p : Byte) :
    written bs i o = written bs i p := by
  unfold written
  cases e : bs.reverse.find? (fun e => e.1 == i) with
  | some x => rfl
  | none =>
    rw [List.find?_eq_none] at e
    obtain ⟨x, m, k⟩ := List.any_eq_true.mp h
    exact absurd k (e x (List.mem_reverse.mpr m))

/-- R133: a merged write and the whole-line write that stands for it leave the same bytes. -/
theorem nth_writeApply_asWrite (bs : List (Nat × Byte)) (old : List Byte) {i : Nat} (h : i < 128) :
    nth (writeApply (asWrite bs) old).1 i 0 = written bs i (nth old i 0) := by
  unfold asWrite
  split
  · rename_i all
    have l := length_writeApply_partial bs []
    have w : (writeApply (.whole (writeApply (.partialWrite bs) []).1) old).1 = (writeApply (.partialWrite bs) []).1 := by
      simp only [writeApply] at l ⊢
      rw [List.take_append_of_le_length (by rw [l]), List.take_of_length_le (by rw [l])]
    rw [w, nth_writeApply_partial bs [] h]
    exact written_of_mem (List.all_eq_true.mp all i (List.mem_range.mpr h)) _ _
  · exact nth_writeApply_partial bs old h

/-- Rising writes of `n` bytes from offset `a`. -/
theorem written_range {f : Nat → Byte} {a n i : Nat} (o : Byte) :
    written ((List.range n).map (fun j => (a + j, f j))) i o =
    if a ≤ i ∧ i < a + n then f (i - a) else o := by
  unfold written
  induction n with
  | zero => simp
  | succ n ih =>
    rw [List.range_succ, List.map_append, List.reverse_append]
    simp only [List.map_cons, List.map_nil, List.reverse_cons, List.reverse_nil, List.nil_append, List.cons_append,
      List.find?_cons]
    by_cases e : a + n = i
    · subst e
      simp
    · have b : (a + n == i) = false := beq_false_of_ne e
      rw [b]
      refine Eq.trans ih ?_
      have q : (a ≤ i ∧ i < a + n) ↔ (a ≤ i ∧ i < a + (n + 1)) := by omega
      simp only [q]

/-- The piece of a span copy for the line `i` lines after the destination's first. -/
def copyPart (src dst lo n : Nat) : Piece :=
  { srcs := linesOf (uaAdd src lo) n, dst := lineOf (uaAdd dst lo),
    kind := fun y => asWrite ((List.range n).map (fun i => (uaAdd dst lo % 128 + i, y.now (uaAdd (uaAdd src lo) i)))) }

theorem mem_copySpan {src dst len : Nat} {p : Piece} : p ∈ copySpan src dst len ↔ len ≠ 0 ∧
    ∃ i ≤ (dst + len - 1) / 128 - dst / 128, p = copyPart src dst (128 * i - dst % 128)
      (Nat.min len (128 * (i + 1) - dst % 128) - (128 * i - dst % 128)) := by
  unfold copySpan spanParts
  by_cases z : len = 0
  · simp [z]
  · rw [if_neg z]
    simp only [List.map_map, List.mem_map, List.mem_range, ne_eq, z, not_false_eq_true, true_and, Nat.lt_succ_iff]
    constructor
    · rintro ⟨i, h, rfl⟩
      exact ⟨i, h, rfl⟩
    · rintro ⟨i, h, rfl⟩
      exact ⟨i, h, rfl⟩

theorem nth_copyPart {src dst lo n : Nat} (x : Source) (old : List Byte) {i : Nat} (h : i < 128) :
    nth (writeApply ((copyPart src dst lo n).kind x) old).1 i 0 =
      if uaAdd dst lo % 128 ≤ i ∧ i < uaAdd dst lo % 128 + n then x.now (uaAdd (uaAdd src lo) (i - uaAdd dst lo % 128))
      else nth old i 0 :=
  (nth_writeApply_asWrite _ old h).trans (written_range (f := fun i => x.now (uaAdd (uaAdd src lo) i)) _)

/-- R135: every byte of the destination span is written, by the piece of its line,
  with the source byte at the same distance. -/
theorem copySpan_covers {src dst len k : Nat} (x : Source) (hd : dst + len ≤ 2 ^ 57) (hs : src + len ≤ 2 ^ 57) (hk :
    k < len) :
    ∃ p ∈ copySpan src dst len, p.dst = lineOf (dst + k) ∧
      nth (writeApply (p.kind x) (List.replicate 128 0)).1 ((dst + k) % 128) 0 = x.now (src + k) := by
  refine ⟨_, mem_copySpan.mpr ⟨by omega, (dst + k) / 128 - dst / 128, by omega, rfl⟩, ?_⟩
  set lo := 128 * ((dst + k) / 128 - dst / 128) - dst % 128 with hlo
  have le : lo ≤ k := by omega
  have n : k - lo < Nat.min len (128 * ((dst + k) / 128 - dst / 128 + 1) - dst % 128) - lo := by
    have : k < Nat.min len (128 * ((dst + k) / 128 - dst / 128 + 1) - dst % 128) := Nat.lt_min.mpr ⟨hk, by omega⟩
    omega
  have d : uaAdd dst lo = dst + lo := uaAdd_eq (by omega)
  have line : lineOf (dst + lo) = lineOf (dst + k) := by
    unfold lineOf
    omega
  have off : (dst + k) % 128 = (dst + lo) % 128 + (k - lo) := by
    unfold lineOf at line
    omega
  refine ⟨(congrArg lineOf d).trans line, ?_⟩
  rw [nth_copyPart x _ (Nat.mod_lt _ (by decide)), d, if_pos (by omega), uaAdd_eq (a := src) (by omega), off,
    Nat.add_sub_cancel_left, uaAdd_eq (by omega)]
  congr 1
  omega

/-- R135: a piece of a span copy writes no byte outside the span. -/
theorem copySpan_within {src dst len : Nat} (x : Source) (old : List Byte) (hd : dst + len ≤ 2 ^ 57) {p : Piece}
    (m : p ∈ copySpan src dst len) {i : Nat} (hi : i < 128) (out : p.dst + i < dst ∨ dst + len ≤ p.dst + i) :
    nth (writeApply (p.kind x) old).1 i 0 = nth old i 0 := by
  obtain ⟨z, j, hj, rfl⟩ := mem_copySpan.mp m
  set lo := 128 * j - dst % 128 with hlo
  have d : uaAdd dst lo = dst + lo := uaAdd_eq (by omega)
  have out : lineOf (uaAdd dst lo) + i < dst ∨ dst + len ≤ lineOf (uaAdd dst lo) + i := out
  rw [nth_copyPart x old hi, d, if_neg]
  rw [d] at out
  unfold lineOf at out
  have : Nat.min len (128 * (j + 1) - dst % 128) ≤ len := Nat.min_le_left _ _
  omega

end Sys2Proof.Spans
end

section
/-! The movement instructions (R135, R136, R139, R142, R143). -/
namespace Sys2Proof.TenantRows
open Sys2Proof.Machine Sys2Proof.Safety
variable {s t : State} {c : Nat}

/-! ## Rows that run a plan of pieces -/

theorem memInstr_performed {ps : List Piece} {plan : Except Status (List Piece)} (e : plan = .ok ps) (h :
    Performed s c ps t) :
    memInstr s c plan = retire t c .ok := by
  rw [e]
  exact Laws.runPlan_of_performed h

theorem twoTiles_performed {td ts : Nat} {bd bs : Bool} {d x : Tile} {ps : List Piece}
    {plan : Tile → Tile → Except Status (List Piece)}
    (hd : Tile.ofWords ((chanAt s c).treg td) bd = .ok d) (hx : Tile.ofWords ((chanAt s c).treg ts) bs = .ok x)
    (e : plan d x = .ok ps) (h : Performed s c ps t) : twoTiles s c td ts bd bs plan = retire t c .ok := by
  simp only [twoTiles, hd, hx]
  exact memInstr_performed e h

/-- One piece whose lines are in reach: the instruction ends OK with the destination line alone changed. -/
theorem piece_ends {p : Piece} {sa da : Nat} (r : (chanAt s c).state = .running) (b : Begins s c) (h :
    PieceInReach s c p sa da) :
    ∃ t, Performed s c [p] t ∧ WentOn s (retire t c .ok) c ∧
      (retire t c .ok).pr.mem = memAfter s da (p.kind (pieceSource s p sa)) := by
  obtain ⟨t, pt, performed, m, chan⟩ := Laws.performed_inReach b h
  refine ⟨t, performed, wentOn_retire r ?_, ?_⟩
  · rw [chan]
    exact ⟨rfl, rfl, rfl, rfl, rfl⟩
  · rw [retire_ok_pr (by rw [chan]; exact r)]
    exact m

/-- An instruction whose plan, once performed, ends it: where its one piece is in reach, it runs to its end at once. -/
theorem answers_piece {o : Host.Outcome State Fault Refusal} {p : Piece} {sa da : Nat} (r : (chanAt s c).state = .running)
    (b : Begins s c)
    (h : PieceInReach s c p sa da) (e : ∀ t, Performed s c [p] t → o = .next (retire t c .ok)) :
    Answers o (fun t => WentOn s t c ∧ t.pr.mem = memAfter s da (p.kind (pieceSource s p sa))) := by
  obtain ⟨t, performed, w, m⟩ := piece_ends r b h
  exact ⟨_, e t performed, w, m⟩

/-! ## The rows -/

theorem execMoveSpan_runs {d x l : Src} (h : RunsOp s c (.span d x l)) : execMoveSpan c s = .next
    (let len := (chanAt s c).src l
     let dst := (chanAt s c).src d % 2 ^ 57
     let src := (chanAt s c).src x % 2 ^ 57
     if len = 0 then retire s c .ok
     else if 2 ^ 40 < len ∨ (dst + 2 ^ 57 - src) % 2 ^ 57 < len ∨ (src + 2 ^ 57 - dst) % 2 ^ 57 < len then retire s c
       .range
     else runPlan s c (copySpan src dst len)) :=
  Laws.runInstr_of_runsOp h _ rfl _

theorem execMoveSpan_performed {d x l : Src} (h : RunsOp s c (.span d x l)) (z : (chanAt s c).src l ≠ 0) (le :
    (chanAt s c).src l ≤ 2 ^ 40)
    (a : (chanAt s c).src l ≤ ((chanAt s c).src d % 2 ^ 57 + 2 ^ 57 - (chanAt s c).src x % 2 ^ 57) % 2 ^ 57)
    (b : (chanAt s c).src l ≤ ((chanAt s c).src x % 2 ^ 57 + 2 ^ 57 - (chanAt s c).src d % 2 ^ 57) % 2 ^ 57)
    (p : Performed s c (copySpan ((chanAt s c).src x % 2 ^ 57) ((chanAt s c).src d % 2 ^ 57) ((chanAt s c).src l)) t) :
    execMoveSpan c s = .next (retire t c .ok) := by
  refine (execMoveSpan_runs h).trans (congrArg _ ?_)
  dsimp only
  rw [if_neg z, if_neg (by omega)]
  exact Laws.runPlan_of_performed p

theorem execMoveT_performed {td ts : Nat} {tr : Bool} {d x : Tile} {ps : List Piece} (h : RunsOp s c (.moveT td ts tr))
    (hd : Tile.ofWords ((chanAt s c).treg td) true = .ok d) (hx : Tile.ofWords ((chanAt s c).treg ts) true = .ok x)
    (e : moveTPlan d x tr = .ok ps) (p : Performed s c ps t) : execMoveT c s = .next (retire t c .ok) :=
  (Laws.runInstr_of_runsOp h _ rfl _ : execMoveT c s = _).trans (congrArg _ (twoTiles_performed hd hx e p))

theorem execFill_tile_performed {td gs : Nat} {d : Tile} {ps : List Piece} (h : RunsOp s c (.fillTile td gs))
    (hd : Tile.ofWords ((chanAt s c).treg td) true = .ok d) (e : fillTilePlan d ((chanAt s c).greg gs).toNat = .ok ps)
    (p : Performed s c ps t) : execFill c s = .next (retire t c .ok) := by
  refine (Laws.runInstr_of_runsOp h _ rfl _ : execFill c s = _).trans (congrArg _ ?_)
  dsimp only
  rw [hd]
  exact memInstr_performed e p

theorem execFill_span_performed {gs ga gl : Nat} {ps : List Piece} (h : RunsOp s c (.fillSpan gs ga gl))
    (e : fillSpanPlan (((chanAt s c).greg ga).toNat % 2 ^ 57) ((chanAt s c).greg gl).toNat ((chanAt s c).greg gs).toNat =
      .ok ps)
    (p : Performed s c ps t) : execFill c s = .next (retire t c .ok) :=
  (Laws.runInstr_of_runsOp h _ rfl _ : execFill c s = _).trans (congrArg _ (memInstr_performed e p))

theorem execConvert_performed {td ts rnd gseed : Nat} {d x : Tile} {ps : List Piece} (h :
    RunsOp s c (.convert td ts rnd gseed))
    (hd : Tile.ofWords ((chanAt s c).treg td) false = .ok d) (hx : Tile.ofWords ((chanAt s c).treg ts) false = .ok x)
    (e : convertPlan d x rnd ((chanAt s c).greg gseed) = .ok ps) (p : Performed s c ps t) :
    execConvert c s = .next (retire t c .ok) :=
  (Laws.runInstr_of_runsOp h _ rfl _ : execConvert c s = _).trans (congrArg _ (twoTiles_performed hd hx e p))

theorem execReduce_performed {td ts op acc rnd gseed : Nat} {d x : Tile} {ps : List Piece} (h :
    RunsOp s c (.reduce td ts op acc rnd gseed))
    (hd : Tile.ofWords ((chanAt s c).treg td) (acc == 14) = .ok d) (hx :
      Tile.ofWords ((chanAt s c).treg ts) false = .ok x)
    (e : reducePlan false d x op acc rnd ((chanAt s c).greg gseed) = .ok ps) (p : Performed s c ps t) :
    execReduce c s = .next (retire t c .ok) :=
  (Laws.runInstr_of_runsOp h _ rfl _ : execReduce c s = _).trans (congrArg _ (twoTiles_performed hd hx e p))

theorem execReduceCvt_performed {td ts op acc rnd gseed : Nat} {d x : Tile} {ps : List Piece} (h :
    RunsOp s c (.reduceCvt td ts op acc rnd gseed))
    (hd : Tile.ofWords ((chanAt s c).treg td) false = .ok d) (hx : Tile.ofWords ((chanAt s c).treg ts) false = .ok x)
    (e : reducePlan true d x op acc rnd ((chanAt s c).greg gseed) = .ok ps) (p : Performed s c ps t) :
    execReduceCvt c s = .next (retire t c .ok) :=
  (Laws.runInstr_of_runsOp h _ rfl _ : execReduceCvt c s = _).trans (congrArg _ (twoTiles_performed hd hx e p))

/-- Settles O15. -/
theorem movesPerformEveryPiece : Obligations.MovesPerformEveryPiece := by
  refine ⟨fun s c d x l t h z le a b p => execMoveSpan_performed h z le a b p, fun s c d x l h z => ?_,
    fun s c d x l h g => ?_,
    fun s c d x l h z g => ?_, fun s c td ts tr d x ps t h hd hx e p => execMoveT_performed h hd hx e p,
    fun s c td gs d ps t h hd e p => execFill_tile_performed h hd e p, fun s c gs ga gl ps t h e p =>
      execFill_span_performed h e p,
    fun s c td ts rnd gseed d x ps t h hd hx e p => execConvert_performed h hd hx e p,
    fun s c td ts op acc rnd gseed d x ps t h hd hx e p => execReduce_performed h hd hx e p,
    fun s c td ts op acc rnd gseed d x ps t h hd hx e p => execReduceCvt_performed h hd hx e p,
    fun s c d x l p sa da h b z le ha hb e i => ?_, fun s c td ts tr d x p sa da h b hd hx e i => ?_,
    fun s c td gs d p sa da h b hd e i => ?_, fun s c gs ga gl p sa da h b e i => ?_,
    fun s c td ts rnd gseed d x p sa da h b hd hx e i => ?_, fun s c td ts op acc rnd gseed d x p sa da h b hd hx e i =>
      ?_,
    fun s c td ts op acc rnd gseed d x p sa da h b hd hx e i => ?_,
    fun src dst len k x hd hs hk => Spans.copySpan_covers x hd hs hk,
    fun src dst len x old hd _ _ p m i hi out => Spans.copySpan_within x old hd m hi out⟩
  · exact (execMoveSpan_runs h).trans (congrArg _ (if_pos z))
  · refine (execMoveSpan_runs h).trans (congrArg _ ?_)
    dsimp only
    rw [if_neg (by omega), if_pos (.inl g)]
  · refine (execMoveSpan_runs h).trans (congrArg _ ?_)
    dsimp only
    rw [if_neg z, if_pos (.inr g)]
  · exact answers_piece (Laws.state_of_runsOp h) b i fun t q => execMoveSpan_performed h z le ha hb (e ▸ q)
  · exact answers_piece (Laws.state_of_runsOp h) b i fun t q => execMoveT_performed h hd hx e q
  · exact answers_piece (Laws.state_of_runsOp h) b i fun t q => execFill_tile_performed h hd e q
  · exact answers_piece (Laws.state_of_runsOp h) b i fun t q => execFill_span_performed h e q
  · exact answers_piece (Laws.state_of_runsOp h) b i fun t q => execConvert_performed h hd hx e q
  · exact answers_piece (Laws.state_of_runsOp h) b i fun t q => execReduce_performed h hd hx e q
  · exact answers_piece (Laws.state_of_runsOp h) b i fun t q => execReduceCvt_performed h hd hx e q

end Sys2Proof.TenantRows
end

section
/-! Bytes of words and of memory: the slices that reads and writes of a line take. -/
namespace Sys2Proof.Bytes
open Sys2Proof.Machine Sys2Proof.Safety

@[simp] theorem length_leBytes (n v : Nat) : (leBytes n v).length = n := by
  induction n generalizing v with
  | zero => rfl
  | succ n ih => rw [leBytes, List.length_cons, ih]

/-- Bytes spelled from a number spell it again, as far as they go. -/
theorem leNat_leBytes (n v : Nat) : leNat (leBytes n v) = v % 2 ^ (8 * n) := by
  induction n generalizing v with
  | zero => simp [leBytes, leNat, Nat.mod_one]
  | succ n ih =>
    rw [leBytes, leNat, ih, BitVec.toNat_ofNat, Nat.shiftRight_eq_div_pow, show 8 * (n + 1) = 8 + 8 * n by omega,
      Nat.pow_add,
      Nat.mod_mul]

@[simp] theorem length_cellReadN (d : Byte) (m : List Host.Cell) (x n : Nat) : (cellReadN d m x n).length = n := by
  simp [cellReadN]

theorem getElem?_cellReadN (d : Byte) (m : List Host.Cell) (x n i : Nat) :
    (cellReadN d m x n)[i]? = if i < n then some (cellRead d m (x + i)) else none := by
  unfold cellReadN
  by_cases h : i < n
  · simp [h]
  · simp [h]

/-- A slice of the bytes read at an address is what a read at the slice gives. -/
theorem slice_cellReadN (d : Byte) (m : List Host.Cell) {x n k l : Nat} (h : k + l ≤ n) :
    ((cellReadN d m x n).drop k).take l = cellReadN d m (x + k) l := by
  refine List.ext_getElem? fun i => ?_
  rw [List.getElem?_take, List.getElem?_drop, getElem?_cellReadN, getElem?_cellReadN, Nat.add_assoc]
  by_cases g : i < l
  · rw [if_pos g, if_pos (by omega), if_pos g]
  · rw [if_neg g, if_neg g]

/-- What is read inside a write is the slice of what was written. -/
theorem cellReadN_cellWriteN (d : Byte) {m : List Host.Cell} (w : cellsWf d m = true) (x : Nat) (bs : List Byte)
    {k n : Nat}
    (h : k + n ≤ bs.length) : cellReadN d (cellWriteN d m x bs) (x + k) n = (bs.drop k).take n := by
  refine List.ext_getElem? fun i => ?_
  rw [List.getElem?_take, List.getElem?_drop, getElem?_cellReadN]
  by_cases g : i < n
  · rw [if_pos g, if_pos g, cellRead_cellWriteN _ _ _ _ _ w, if_pos (by omega), nth, show x + k + i - x = k + i by omega,
      List.getElem?_eq_getElem (show k + i < bs.length by omega)]
    rfl
  · rw [if_neg g, if_neg g]

theorem cellRead_cellWriteN_outside (d : Byte) {m : List Host.Cell} (w : cellsWf d m = true) {x a : Nat} {bs : List Byte}
    (h : a < x ∨ x + bs.length ≤ a) : cellRead d (cellWriteN d m x bs) a = cellRead d m a := by
  rw [cellRead_cellWriteN _ _ _ _ _ w, if_neg (by omega)]

end Sys2Proof.Bytes
end

section
/-! Atomics (R133, R146). -/
namespace Sys2Proof.TenantRows
open Sys2Proof.Machine Sys2Proof.Safety Sys2Proof.Bytes
variable {s t : State} {c : Nat}

/-- The row of an atomic operation. -/
def atomRow : AtomOp → Nat → Instr
  | .add => .atomAdd
  | .max => .atomMax
  | .min => .atomMin
  | .xchg => .atomXchg
  | .cas => .atomCas

theorem exec_atomRow {op : AtomOp} {w sgn rv : Bool} {gd ga gb gc : Nat} {off : Int} (h :
    RunsOp s c (.atom op w sgn rv gd ga gb gc off)) :
    exec (atomRow op c) s = .next (atomInstr s c (.atom op w sgn rv gd ga gb gc off)) := by
  have e : exec (atomRow op c) s = runInstr s c (isAtom op) (atomInstr s c) := by cases op <;> rfl
  rw [e]
  exact Laws.runInstr_of_runsOp h _ (isAtom_self op) _
where
  isAtom_self (op : AtomOp) : isAtom op (.atom op w sgn rv gd ga gb gc off) = true := beq_self_eq_true op

/-- The line's answer reaches the channel: its register takes the old value, under `rv`. -/
theorem atomEnd_eq {rv : Bool} {gd : Nat} {old : List Byte} (r : (chanAt t c).state = .running) : atomEnd t c rv gd old =
    retire (setChan t c (fun x => if rv then { x with g := x.g.set gd (BitVec.ofNat 64 (leNat (old.take 8))) } else x)) c
      .ok := by
  cases rv with
  | true => rfl
  | false =>
    simp only [atomEnd, Bool.false_eq_true, if_false]
    rw [Laws.retire_ok r, Laws.retire_ok (by rw [chanAt_setChan]; exact r), setChan_setChan]

theorem atomInstr_data {op : AtomOp} {w sgn rv : Bool} {gd ga gb gc : Nat} {off : Int} {old : List Byte} (r :
    (chanAt s c).state = .running)
    (a : dataAddr (chanAt s c) ga off % (if w then 8 else 4) = 0) (rob : Tab.look (chanAt s c).rob 0 = none) (n :
      (chanAt s c).lineStatus = none)
    (e : writeLine s c (lineOf (dataAddr (chanAt s c) ga off)) (.atomic op w sgn (dataAddr (chanAt s c) ga off % 128)
      ((chanAt s c).greg gb).toNat ((chanAt s c).greg gc).toNat) false false = (t, .data old)) (q :
        remoteBusy t c = false) :
    atomInstr s c (.atom op w sgn rv gd ga gb gc off) =
      retire (setChan t c (fun x => if rv then { x with g := x.g.set gd (BitVec.ofNat 64 (leNat (old.take 8))) } else x))
        c .ok := by
  have k : Frame.Same Frame.regs s t := Frame.same_fst (Frame.regs_writeLine (Frame.same_refl s)) e
  simp only [atomInstr]
  rw [if_neg (not_not_intro a), rob, n]
  dsimp only
  rw [sub_lineOf, e]
  dsimp only
  rw [if_neg (by rw [q]; exact Bool.false_ne_true)]
  exact atomEnd_eq ((k.chan_state c).trans r)

theorem atomInstr_inReach {op : AtomOp} {w sgn rv : Bool} {gd ga gb gc la : Nat} {off : Int} (r :
    (chanAt s c).state = .running) (b : Begins s c)
    (a : dataAddr (chanAt s c) ga off % (if w then 8 else 4) = 0) (i :
      InReach s c (lineOf (dataAddr (chanAt s c) ga off)) .atom la) :
    let k := WriteKind.atomic op w sgn (dataAddr (chanAt s c) ga off % 128) ((chanAt s c).greg gb).toNat
      ((chanAt s c).greg gc).toNat
    let t := atomInstr s c (.atom op w sgn rv gd ga gb gc off)
    (chanAt t c).state = .running ∧ (chanAt t c).pc = (chanAt s c).nextPc ∧ t.pr.mem = memAfter s la k ∧
      (chanAt t c).g = if rv then (chanAt s c).g.set gd (BitVec.ofNat 64 (writeApply k (lineBytes s la)).2) else
        (chanAt s c).g := by
  intro k
  obtain ⟨rob, pack, n, -⟩ := Laws.begins_clear b
  obtain ⟨t, e, q, m⟩ := Laws.writeLine_inReach (k := k) (rel := false) (cap := false) b.2.2 pack i
  have chan := q.chanAt c
  have word (v : Nat) : BitVec.ofNat 64 (leNat ((leBytes 8 v).take 8)) = BitVec.ofNat 64 v := by
    rw [List.take_of_length_le (by rw [length_leBytes]), leNat_leBytes]
    exact BitVec.eq_of_toNat_eq (by simp)
  rw [atomInstr_data r a (by rw [rob]; rfl) n e ((q.remoteBusy c).trans b.2.1), word]
  have u {f : Channel → Channel} (hf : (f (chanAt s c)).state = .running) : (chanAt (setChan t c f) c).state = .running :=
    by
    rw [chanAt_setChan, chan]
    exact hf
  cases rv with
  | true =>
    dsimp only
    rw [chanAt_retire_ok (u r), retire_ok_pr (u r), chanAt_setChan, chan]
    exact ⟨rfl, rfl, m, rfl⟩
  | false =>
    dsimp only
    rw [chanAt_retire_ok (u r), retire_ok_pr (u r), chanAt_setChan, chan]
    exact ⟨rfl, rfl, m, rfl⟩

/-! ## At the home of the line -/

/-- R133, R146: the bytes that an aligned atomic leaves in its line, and what it gives back. -/
theorem writeApply_atomic {op : AtomOp} {w sg : Bool} {off v cmp : Nat} {old : List Byte} (h :
    off + (if w then 8 else 4) ≤ old.length) :
    let n := if w then 8 else 4
    let o := leNat ((old.drop off).take n)
    let x := writeApply (.atomic op w sg off v cmp) old
    x.2 = o ∧ x.1.length = old.length ∧
      (x.1.drop off).take n = leBytes n (atomResult op sg (8 * n) o (v % 2 ^ (8 * n)) (cmp % 2 ^ (8 * n))) ∧
      ∀ i, (i < off ∨ off + n ≤ i) → x.1[i]? = old[i]? := by
  intro n o x
  have hx : x.1 = old.take off ++ leBytes n (atomResult op sg (8 * n) o (v % 2 ^ (8 * n)) (cmp % 2 ^ (8 * n))) ++ old.drop
    (off + n) := rfl
  have l : (old.take off).length = off := List.length_take_of_le (by omega)
  refine ⟨rfl, ?_, ?_, fun i hi => ?_⟩
  · rw [hx, List.length_append, List.length_append, l, length_leBytes, List.length_drop]
    omega
  · rw [hx, List.append_assoc, List.drop_append_of_le_length (by rw [l]), List.drop_of_length_le (by rw [l]),
      List.nil_append,
      List.take_append_of_le_length (by rw [length_leBytes]), List.take_of_length_le (by rw [length_leBytes])]
  · rw [hx]
    rcases hi with hi | hi
    · rw [List.append_assoc, List.getElem?_append_left (by omega), List.getElem?_take_of_lt hi]
    · rw [List.getElem?_append_right (by rw [List.length_append, l, length_leBytes]; exact hi), List.length_append, l,
        length_leBytes,
        List.getElem?_drop]
      congr 1
      omega

theorem homeWrite_atomic {hive k line level : Nat} {op : AtomOp} {w sg : Bool} {off v cmp : Nat} (a : Nat) (wf :
    MemoryWf s)
    (ld : (slotAt s k).loaded = true) (op' : (sliceAt s line).state = .opened) (cd : condOf s line = .good)
    (lo : (portAt s (homePort s line)).leftOut = false) (h : off + (if w then 8 else 4) ≤ 128) :
    let n := if w then 8 else 4
    let r := homeWrite s hive k line (.atomic op w sg off v cmp) level
    let old := leNat (cellReadN 0 s.pr.mem (line + off) n)
    r.2.1 = .ok ∧ r.2.2 = old ∧ leNat (cellReadN 0 r.1.pr.mem (line + off) n) =
        atomResult op sg (8 * n) old (v % 2 ^ (8 * n)) (cmp % 2 ^ (8 * n)) % 2 ^ (8 * n) ∧
      ((a < line + off ∨ line + off + n ≤ a) → memByte r.1 a = memByte s a) := by
  intro n r old
  obtain ⟨t, e, -, m⟩ := Laws.homeWrite_good (h := hive) (lv := level) (cx := 0) (off := 0) (w :=
    .atomic op w sg off v cmp) ld op' cd lo
  have hr : r = (t, .ok, (writeApply (.atomic op w sg off v cmp) (lineBytes s line)).2) := e
  have len : (lineBytes s line).length = 128 := length_cellReadN _ _ _ _
  obtain ⟨ho, hl, hn, hs⟩ := writeApply_atomic (op := op) (w := w) (sg := sg) (v := v) (cmp := cmp)
    (show off + n ≤ (lineBytes s line).length by rw [len]; exact h)
  have slice : ((lineBytes s line).drop off).take n = cellReadN 0 s.pr.mem (line + off) n := slice_cellReadN 0 _ h
  rw [slice] at ho hn
  rw [hr]
  refine ⟨rfl, ho, ?_, fun out => ?_⟩
  · dsimp only
    rw [m, memAfter, cellReadN_cellWriteN 0 wf.1 line _ (by rw [hl, len]; exact h), hn, leNat_leBytes]
  · dsimp only
    rw [memByte, memByte, m, memAfter]
    by_cases i : line ≤ a ∧ a < line + 128
    · rw [cellRead_cellWriteN _ _ _ _ _ wf.1, if_pos (by rw [hl, len]; exact i), nth, hs (a - line) (by omega), lineBytes,
        getElem?_cellReadN, if_pos (by omega), show line + (a - line) = a by omega]
      rfl
    · exact cellRead_cellWriteN_outside 0 wf.1 (by rw [hl, len]; omega)

/-- Settles O17. -/
theorem atomicsReturnTheOldValue : Obligations.AtomicsReturnTheOldValue := by
  refine ⟨fun s c op w sgn rv gd ga gb gc off h => ?_, fun s hive k line level op w sg off v cmp a wf ld o cd lo le =>
    homeWrite_atomic a wf ld o cd lo le⟩
  intro run a
  have row : run = exec (atomRow op c) s := by cases op <;> rfl
  have runs : run = .next (atomInstr s c (.atom op w sgn rv gd ga gb gc off)) := row.trans (exec_atomRow h)
  have r := Laws.state_of_runsOp h
  refine ⟨fun t old al rob n e q => ?_, fun mis => ?_, fun la b al i => ⟨_, runs, atomInstr_inReach r b al i⟩⟩
  · rw [runs, atomInstr_data r al rob n e q]
  · rw [runs, atomInstr]
    exact congrArg _ (if_pos mis)

end Sys2Proof.TenantRows
end

section
/-! Gathers and scatters (R138). -/
namespace Sys2Proof.TenantRows
open Sys2Proof.Machine Sys2Proof.Safety
variable {s t : State} {c : Nat}

/-! ## A piece performed by a channel that holds other lines -/

/-- A line in reach that the channel does not hold is read into it. -/
theorem takeLine_inReach {line la : Nat} {ahead : List Nat} (f : FirstLevelOk s (c / 8)) (n :
    Tab.look (chanAt s c).rob line = none)
    (h : InReach s c line .rd la) : ∃ t, takeLine s c line ahead = (t, .data (lineBytes s la)) ∧
      chanAt t c = { chanAt s c with rob := Tab.put (chanAt s c).rob line (lineBytes s la) } ∧ t.sw = s.sw ∧ t.pr.mem =
        s.pr.mem ∧
      FirstLevelOk t (c / 8) ∧ ∀ va need a, InReach s c va need a → InReach t c va need a := by
  obtain ⟨t, rd, q, m, cd, sl, mv, fo, l1⟩ := Laws.readLineAs_inReach (acc := .read) (ahead := ahead) n f h
  have ch : chanAt (setChan t c (fun x => { x with rob := Tab.put x.rob line (lineBytes s la) })) c =
      { chanAt s c with rob := Tab.put (chanAt s c).rob line (lineBytes s la) } := by
    rw [chanAt_setChan, q.chanAt]
  refine ⟨_, ?_, ch, q.sw, m, fo, fun va need a i => ?_⟩
  · simp only [takeLine, rd]
  · exact Laws.inReach_of_eq i l1 (by rw [ch]) (by rw [ch]) q.he q.kp q.slots sl cd q.ports q.locks q.lockWait q.granted
      (congrArg Movers.movers mv : t.mv.movers = s.mv.movers)

theorem readLines_apart {p : Piece} {sa da : Nat} (f : FirstLevelOk s (c / 8)) (h : PieceInReach s c p sa da)
    (n : ∀ l ∈ p.srcs, Tab.look (chanAt s c).rob l = none) : ∃ t r, readLines s c [] p.srcs [] =
      (t, .ok (p.srcs.map (fun l => (l, lineBytes s sa)))) ∧ chanAt t c = { chanAt s c with rob := r } ∧
      (∀ l, l ∉ p.srcs → Tab.look r l = Tab.look (chanAt s c).rob l) ∧ t.sw = s.sw ∧ t.pr.mem = s.pr.mem ∧ FirstLevelOk t
        (c / 8) ∧
      InReach t c p.dst (needOf (p.kind (pieceSource s p sa))) da := by
  obtain ⟨src, -, dst⟩ := h
  rcases src with e | ⟨l, e, ne, i⟩
  · exact ⟨s, _, by rw [e]; rfl, rfl, fun _ _ => rfl, rfl, rfl, f, dst⟩
  · obtain ⟨t, tk, ct, sw, m, fo, keep⟩ := takeLine_inReach (ahead := []) f
      (n l (by rw [e]; exact List.mem_singleton_self l)) i
    refine ⟨t, _, ?_, ct, fun x nx => ?_, sw, m, fo, keep _ _ _ dst⟩
    · rw [e]
      simp only [readLines, List.append_nil, tk]
      rfl
    · rw [e, List.mem_singleton] at nx
      exact Tab.look_put_ne _ _ _ _ nx

/-- One piece in reach is performed at once, where the channel holds none of its lines. -/
theorem runPieces_apart {p : Piece} {sa da : Nat} {keep : List Nat} (f : FirstLevelOk s (c / 8)) (h :
    PieceInReach s c p sa da)
    (bf : (chanAt s c).before = []) (pt : (chanAt s c).parts = []) (n : ∀ l ∈ p.dst :: p.srcs,
      Tab.look (chanAt s c).rob l = none) :
    ∃ t r x, runPieces s c keep [p] = (t, some .ok) ∧
      chanAt t c = { chanAt s c with prog := (chanAt s c).prog + 1, rob := r, parts := x } ∧ t.sw = s.sw ∧
      t.pr.mem = memAfter s da (p.kind (pieceSource s p sa)) := by
  obtain ⟨t, r, rl, ct, rob, sw, mm, fo, ir⟩ := readLines_apart f h fun l m => n l (List.mem_cons_of_mem _ m)
  have apart : p.dst ∉ p.srcs := by
    rcases h.1 with e | ⟨l, e, ne, -⟩
    · simp [e]
    · simpa [e] using Ne.symm ne
  have nov : overlaps t c p = false := by
    rw [overlaps, ct, List.any_eq_false]
    intro l m
    have : l ≠ p.dst := fun e => apart (e ▸ m)
    simp [this, bf]
  have dp : drawPick t c p = t := by simp [drawPick, nov]
  have so : sourceOf t c p (p.srcs.map (fun l => (l, lineBytes s sa))) = pieceSource s p sa := by
    simp only [sourceOf, pieceSource, nov, ct, bf, pt, Tab.look_nil, Option.getD_none, List.map_map]
    congr 1
  obtain ⟨u, pl, q, um⟩ := Laws.putLine_inReach (rel := true) (cap := false) fo ir
  have cu : chanAt u c = { chanAt s c with rob := r } := by rw [q.chanAt, ct]
  have nw : noteWrite u c p.dst (p.kind (pieceSource s p sa)) = u := by
    have : Tab.look (chanAt u c).rob p.dst = none := by
      rw [cu]
      exact (rob _ apart).trans (n _ List.mem_cons_self)
    simp only [noteWrite, this]
  have rp : runPiece s c p [] = (setChan u c (fun y => { y with parts := p.parts (pieceSource s p sa) ++ y.parts }),
      .data (leBytes 8 (writeApply (p.kind (pieceSource s p sa)) (lineBytes t da)).2)) := by
    simp only [runPiece, rl, dp, so, pl, nw]
  set v := pieceDone (setChan u c (fun y => { y with parts := p.parts (pieceSource s p sa) ++ y.parts })) c keep [] with
    hv
  have cv : chanAt v c = { chanAt s c with
      prog := (chanAt s c).prog + 1
      rob := r.filter (fun e => keep.contains e.1 || ([] : List Piece).any (fun p => p.srcs.contains e.1))
      parts := p.parts (pieceSource s p sa) ++ (chanAt s c).parts } := by
    rw [hv, pieceDone, chanAt_setChan, chanAt_setChan, cu]
  refine ⟨v, _, _, ?_, cv, q.sw.trans sw, ?_⟩
  · have kb : keepBefore s c p.dst [] = s := by simp [keepBefore]
    simp only [runPieces, kb, List.flatMap_nil, rp]
    rfl
  · refine (show _ = u.pr.mem from rfl).trans ?_
    rw [um]
    simp only [memAfter, lineBytes, mm]

/-! ## Instructions of one row -/

/-- A row instruction of one row, whose index line and whose one piece are in reach,
  ends OK with the destination line alone changed. -/
theorem rowInstr_one {o : RowOp} {p : Piece} {la sa da : Nat} (r : (chanAt s c).state = .running) (b : Begins s c)
    (one : o.count = 1) (small : o.list < 2 ^ 57) (al : o.list % o.width = 0) (i : InReach s c (lineOf o.list) .rd la)
    (some' : leNat (((lineBytes s la).drop (o.list - lineOf o.list)).take o.width) ≠ 2 ^ (8 * o.width) - 1)
    (lim : leNat (((lineBytes s la).drop (o.list - lineOf o.list)).take o.width) < o.limit)
    (plan : o.plan 0 (leNat (((lineBytes s la).drop (o.list - lineOf o.list)).take o.width)) = .ok [p])
    (src : p.srcs ≠ [lineOf o.list]) (dst : p.dst ≠ lineOf o.list) (h : PieceInReach s c p sa da) :
    WentOn s (rowInstr s c o) c ∧ (rowInstr s c o).pr.mem = memAfter s da (p.kind (pieceSource s p sa)) := by
  obtain ⟨rob, pack, status, prog, before, -, parts⟩ := Laws.begins_clear b
  obtain ⟨t, tk, ct, sw, m, fo, keep⟩ := takeLine_inReach (ahead := o.indexLines 0) b.2.2 (by rw [rob]; rfl) i
  have bytes (a : Nat) : lineBytes t a = lineBytes s a := by simp only [lineBytes, m]
  have source : pieceSource t p sa = pieceSource s p sa := by simp only [pieceSource, bytes]
  have h' : PieceInReach t c p sa da := by
    obtain ⟨x, y, z⟩ := h
    rw [PieceInReach, source]
    exact ⟨x.imp_right fun ⟨l, e, ne, i⟩ => ⟨l, e, ne, keep _ _ _ i⟩, y, keep _ _ _ z⟩
  have free : ∀ l ∈ p.dst :: p.srcs, Tab.look (chanAt t c).rob l = none := by
    intro l hl
    have ne : l ≠ lineOf o.list := by
      rcases List.mem_cons.mp hl with e | e
      · exact e ▸ dst
      · rintro rfl
        rcases h.1 with z | ⟨x, z, -⟩
        · rw [z] at e
          exact absurd e (List.not_mem_nil)
        · rw [z, List.mem_singleton] at e
          exact src (e ▸ z)
    rw [ct]
    exact (Tab.look_put_ne _ _ _ _ ne).trans (by rw [rob]; rfl)
  obtain ⟨u, x, y, rp, cu, sw', m'⟩ := runPieces_apart (keep := o.indexLines 0) fo h' (by rw [ct]; exact before)
    (by rw [ct]; exact parts) free
  set v := setChan u c (fun x => { x with prog := (0 + 1) * 2 ^ 17, rob := x.rob.filter (fun e => (o.indexLines (0 + 1)).contains e.1) }) with hv
  have rows : runRows s c o (o.count + 1) = (v, some .ok) := by
    rw [one, runRows]
    simp only [prog, Nat.zero_div, Nat.zero_mod, one, Nat.zero_mul, Nat.add_zero, Nat.mod_eq_of_lt small, tk,
      if_neg some', if_neg (Nat.not_le.mpr lim), plan, List.drop_zero, rp]
    rw [runRows]
    have done : o.count ≤ (chanAt v c).prog / 2 ^ 17 := by
      rw [hv, chanAt_setChan, one]
      exact (by decide : 1 ≤ (0 + 1) * 2 ^ 17 / 2 ^ 17)
    simp only [← hv, done, if_true]
    exact if_neg (by decide)
  have cv : chanAt v c = { chanAt u c with
      prog := (0 + 1) * 2 ^ 17, rob := (chanAt u c).rob.filter (fun e => (o.indexLines (0 + 1)).contains e.1) } :=
        chanAt_setChan _ _ _
  have fl : flushPack v c = v := Laws.flushPack_none (by rw [cv, cu, ct]; exact pack)
  have settled : Settled v c (dropForager v c) := by
    refine ⟨by rw [fl], ?_, ?_⟩
    · rw [fl]
      have : v.sw = s.sw := (show v.sw = u.sw from rfl).trans (sw'.trans sw)
      simpa only [remoteBusy, this] using b.2.1
    · rw [fl, cv, cu, ct]
      exact status
  have cd : chanAt (dropForager v c) c = chanAt v c := rfl
  rw [Laws.rowInstr_of_runRows (by omega) al status rows settled]
  refine ⟨wentOn_retire r ?_, ?_⟩
  · rw [cd, cv, cu, ct]
    exact ⟨rfl, rfl, rfl, rfl, rfl⟩
  · rw [retire_ok_pr (by rw [cd, cv, cu, ct]; exact r)]
    refine (show _ = u.pr.mem from rfl).trans ?_
    rw [m', source]
    simp only [memAfter, bytes, m]

theorem rowInstr_refused {o : RowOp} (h : 2 ^ 24 < o.count ∨ o.list % o.width ≠ 0) : rowInstr s c o = retire s c .range :=
    if_pos h

/-- The operands of a `GATHER`. -/
def gatherOp (ch : Channel) (gi gb gn gl go : Nat) (iw8 : Bool) (pitch row : Nat) : RowOp :=
  { list := (ch.greg gi).toNat % 2 ^ 57, width := if iw8 then 8 else 4, count := (ch.greg gn).toNat, limit := (ch.greg gl).toNat,
    plan := fun k idx => .ok (copySpan (((ch.greg gb).toNat + idx * pitch) % 2 ^ 57) (((ch.greg go).toNat + k * row) % 2 ^ 57) row) }

/-- The operands of a `SCATTER`. -/
def scatterOp (ch : Channel) (gi gb gn gl go : Nat) (iw8 : Bool) (op pitch row : Nat) : RowOp :=
  { list := (ch.greg gi).toNat % 2 ^ 57, width := if iw8 then 8 else 4, count := (ch.greg gn).toNat, limit := (ch.greg gl).toNat,
    plan := fun k idx =>
      let table := ((ch.greg gb).toNat + idx * pitch) % 2 ^ 57
      let dense := ((ch.greg go).toNat + k * row) % 2 ^ 57
      let w := if op = 1 then 4 else 2
      if op = 0 then .ok (copySpan dense table row)
      else if row % w ≠ 0 ∨ table % w ≠ 0 then .error .range
      else .ok (scatterSum (op == 2) dense table row) }

theorem execGather_runs {gi gb gn gl go pitch row : Nat} {iw8 : Bool} (h :
    RunsOp s c (.gather gi gb gn gl go iw8 pitch row)) :
    execGather c s = .next (rowInstr s c (gatherOp (chanAt s c) gi gb gn gl go iw8 pitch row)) :=
      Laws.runInstr_of_runsOp h _ rfl _

theorem execScatter_runs {gi gb gn gl go op pitch row : Nat} {iw8 : Bool} (h :
    RunsOp s c (.scatter gi gb gn gl go iw8 op pitch row)) :
    execScatter c s = .next (rowInstr s c (scatterOp (chanAt s c) gi gb gn gl go iw8 op pitch row)) :=
      Laws.runInstr_of_runsOp h _ rfl _

/-- R138: under `op` 1 and 2, with whole aligned elements, a row is summed into the table. -/
theorem scatterOp_sum {ch : Channel} {gi gb gn gl go op pitch row : Nat} {iw8 : Bool} (ops : op = 1 ∨ op = 2)
    (hr : row % (if op = 1 then 4 else 2) = 0) (ht : ∀ idx, ((ch.greg gb).toNat + idx * pitch) % 2 ^ 57 %
      (if op = 1 then 4 else 2) = 0) :
    scatterOp ch gi gb gn gl go iw8 op pitch row =
      { list := (ch.greg gi).toNat % 2 ^ 57, width := if iw8 then 8 else 4, count := (ch.greg gn).toNat, limit := (ch.greg gl).toNat,
        plan := fun k idx => .ok (scatterSum (op == 2) (((ch.greg go).toNat + k * row) % 2 ^ 57)
          (((ch.greg gb).toNat + idx * pitch) % 2 ^ 57) row) } := by
  refine congrArg _ (funext fun k => funext fun idx => ?_)
  dsimp only
  rw [if_neg (by omega), if_neg]
  rintro (a | a)
  · exact a hr
  · exact a (ht idx)

/-- Settles O16. -/
theorem gatherAndScatterRunTheirRows : Obligations.GatherAndScatterRunTheirRows := by
  refine ⟨fun s c gi gb gn gl go iw8 pitch row u t o h e n a l r d => ?_,
    fun s c gi gb gn gl go iw8 pitch row u t o h e n a l r d => ?_,
    fun s c gi gb gn gl go iw8 op pitch row u t o h ops hr ht e n a l r d => ?_,
      fun s c gi gb gn gl go iw8 pitch row h bad => ?_,
    fun s c gi gb gn gl go iw8 op pitch row h bad => ?_, fun s c gi gb gn gl go iw8 pitch row p la sa da h b => ?_,
    fun s c gi gb gn gl go iw8 pitch row p la sa da h b => ?_⟩
  · subst e
    exact (execGather_runs h).trans (congrArg _ (Laws.rowInstr_of_runRows n a l r d))
  · subst e
    exact (execScatter_runs h).trans (congrArg _ (Laws.rowInstr_of_runRows n a l r d))
  · rw [← scatterOp_sum ops hr ht] at e
    subst e
    exact (execScatter_runs h).trans (congrArg _ (Laws.rowInstr_of_runRows n a l r d))
  · exact (execGather_runs h).trans (congrArg _ (rowInstr_refused bad))
  · exact (execScatter_runs h).trans (congrArg _ (rowInstr_refused bad))
  · intro list w idx one al i ne lim plan src dst pr
    refine ⟨_, execGather_runs h, rowInstr_one (Laws.state_of_runsOp h) b one (Nat.mod_lt _ (by decide)) al i ne lim ?_
      src dst pr⟩
    rw [← plan]
    simp only [gatherOp, Nat.zero_mul, Nat.add_zero]
    rfl
  · intro list w idx one al i ne lim plan src dst pr
    refine ⟨_, execScatter_runs h, rowInstr_one (Laws.state_of_runsOp h) b one (Nat.mod_lt _ (by decide)) al i ne lim ?_
      src dst pr⟩
    rw [← plan]
    simp only [scatterOp, Nat.zero_mul, Nat.add_zero, if_true]
    rfl

end Sys2Proof.TenantRows
end

section
/-! Lines of local memory (R306, R309, R312, R315, R354, R448). -/
namespace Sys2Proof.HomeLines
open Sys2Proof.Machine Sys2Proof.Safety Sys2Proof.Bytes
variable {s : State} {hive k line lv : Nat}

theorem sliceAt_wakeUnit (p a : Nat) : sliceAt (wakeUnit s p) a = sliceAt s a :=
  (Laws.wakeUnit_quiet s p).1.sliceAt (Laws.wakeUnit_quiet s p).2.2.2.1 a

theorem slotAt_wakeUnit (p n : Nat) : slotAt (wakeUnit s p) n = slotAt s n := (Laws.wakeUnit_quiet s p).1.slotAt n

theorem portAt_wakeUnit (p n : Nat) : portAt (wakeUnit s p) n = portAt s n := (Laws.wakeUnit_quiet s p).1.portAt n

theorem homePort_wakeUnit (p a : Nat) : homePort (wakeUnit s p) a = homePort s a := (Laws.wakeUnit_quiet s p).1.homePort a

theorem condOf_wakeUnit (p a : Nat) : condOf (wakeUnit s p) a = condOf s a := by
  simp only [condOf, sliceAt_wakeUnit, (Laws.wakeUnit_quiet s p).2.2.1]

theorem mem_wakeUnit (p : Nat) : (wakeUnit s p).pr.mem = s.pr.mem := (Laws.wakeUnit_quiet s p).2.1

/-- A read of a line of an OPEN slice, under a loaded key at a port in use, meets the line as it is. -/
theorem homeRead_opened (ld : (slotAt s k).loaded = true) (o : (sliceAt s line).state = .opened)
    (p : (portAt s (homePort s line)).leftOut = false) (c : condOf s line = .good ∨ condOf s line = .poisoned) :
    homeRead s hive k line lv = (useTweak (showRead (wakeUnit s (homePort s line)) line lv) k line,
      if condOf s line = .good then (.ok, cellReadN 0 s.pr.mem line 128) else (.poison, [])) := by
  have c' : condOf (useTweak (showRead (wakeUnit s (homePort s line)) line lv) k line) line = condOf s line :=
    (condOf_wakeUnit _ _ : condOf (wakeUnit s (homePort s line)) line = _)
  rcases c with c | c
  all_goals
    rw [c] at c'
    simp [homeRead, coreRead, slotAt_wakeUnit, ld, sliceAt_wakeUnit, o, homePort_wakeUnit, portAt_wakeUnit, p, meetLine,
      c', c, memBytesAt,
      mem_wakeUnit]

theorem homeRead_fresh (ld : (slotAt s k).loaded = true) (f : (sliceAt s line).state = .fresh) :
    homeRead s hive k line lv = (wakeUnit s (homePort s line), .ok, List.replicate 128 0) := by
  simp [homeRead, coreRead, slotAt_wakeUnit, ld, sliceAt_wakeUnit, f]

theorem homeRead_empty (e : (slotAt s k).loaded = false) :
    homeRead s hive k line lv = (emptySlot (wakeUnit s (homePort s line)) hive line, .hwError, []) := by
  simp [homeRead, coreRead, slotAt_wakeUnit, e]

theorem homeRead_leftOut (ld : (slotAt s k).loaded = true) (o : (sliceAt s line).state = .opened)
    (p : (portAt s (homePort s line)).leftOut = true) : homeRead s hive k line lv = (wakeUnit s (homePort s line),
      .timeout, []) := by
  simp [homeRead, coreRead, slotAt_wakeUnit, ld, sliceAt_wakeUnit, o, homePort_wakeUnit, portAt_wakeUnit, p]

/-- A whole-line write combines nothing with the line, so that its mover does not wake for it. -/
theorem wakeHome_whole (d : List Byte) : wakeHome s line (some (.whole d)) = s := by
  simp [wakeHome, WriteKind.combines]

theorem homeWrite_leftOut (d : List Byte) (ld : (slotAt s k).loaded = true) (p :
    (portAt s (homePort s line)).leftOut = true) :
    homeWrite s hive k line (.whole d) lv = (wakeUnit s (homePort s line), .timeout, 0) := by
  simp [homeWrite, coreWrite, wakeHome_whole, slotAt_wakeUnit, ld, homePort_wakeUnit, portAt_wakeUnit, p]

/-- What a whole-line write under a loaded key leaves: the line good and OPEN, with the new bytes. -/
theorem homeWrite_whole {d : List Byte} (ld : (slotAt s k).loaded = true) (p :
    (portAt s (homePort s line)).leftOut = false)
    (len : d.length = 128) : ∃ t, homeWrite s hive k line (.whole d) lv = (t, .ok, 0) ∧ Laws.Quiet s t ∧
      t.pr.mem = cellWriteN 0 s.pr.mem line d ∧ (sliceAt t line).state = .opened ∧ condOf t line = .good := by
  have w : ∀ z, writeApply (.whole d) z = (d, 0) := fun z => by
    rw [writeApply, List.take_append_of_le_length (by rw [len]), List.take_of_length_le (by rw [len])]
  obtain ⟨q, m, -⟩ := Laws.wakeUnit_quiet s (homePort s line)
  have z : Laws.Quiet (wakeUnit s (homePort s line)) (showWrite (useTweak (wakeUnit s (homePort s line)) k line) k line lv
    d) := by
    constructor <;> rfl
  obtain ⟨q', m'⟩ := Laws.storeLine_quiet (showWrite (useTweak (wakeUnit s (homePort s line)) k line) k line lv d) line d
  refine ⟨_, ?_, (q.trans z).trans q', m'.trans ?_, ?_, ?_⟩
  · simp [homeWrite, coreWrite, wakeHome_whole, slotAt_wakeUnit, ld, homePort_wakeUnit, portAt_wakeUnit, p, writeReads, w]
  · exact congrArg (fun x => cellWriteN 0 x line d) m
  · exact sliceAt_storeLine _ _ _
  · exact condOf_storeLine _ _ _
where
  sliceAt_storeLine (u : State) (a : Nat) (bs : List Byte) : (sliceAt (storeLine u a bs) a).state = .opened := by
    have h : sliceAt (storeLine u a bs) a = { sliceAt u a with state := .opened, filling := false } := by
      simp only [sliceAt, storeLine, logDirty, State.onXl_pr, State.onPr_pr, setSlice]
      exact congrArg (Option.getD · Slice.fresh) (Tab.look_put _ _ _)
    rw [h]
  condOf_storeLine (u : State) (a : Nat) (bs : List Byte) : condOf (storeLine u a bs) a = .good := by
    simp only [condOf, storeLine, logDirty, State.onXl_pr, State.onPr_pr, Tab.look_put]

/-- Settles O18. -/
theorem linesReadWhatWasWritten : Obligations.LinesReadWhatWasWritten := by
  refine ⟨fun s hive k line lv d a wf ld _ len _ p => ?_, fun s hive k line lv ld f => homeRead_fresh ld f,
    fun s hive k line lv ld o p c => ?_, fun s hive k line lv ld o p c => ?_, fun s hive k line lv e => ?_,
      fun s k line lv => ?_,
    fun s hive k line lv d ld o p => ⟨homeRead_leftOut ld o p, homeWrite_leftOut d ld p⟩⟩
  · obtain ⟨t, e, q, m, o, c⟩ := homeWrite_whole (hive := hive) (lv := lv) ld p len
    intro t'
    have ht : t' = t := congrArg Prod.fst e
    rw [ht, e, homeRead_opened (by rw [q.slotAt]; exact ld) o (by rw [q.portAt, q.homePort]; exact p) (.inl c), if_pos c,
      m]
    refine ⟨rfl, ?_, fun out => ?_⟩
    · have r := cellReadN_cellWriteN 0 wf.1 line d (k := 0) (n := 128) (by rw [len])
      rw [List.drop_zero, List.take_of_length_le (by rw [len])] at r
      exact congrArg _ r
    · rw [memByte, memByte, m]
      exact cellRead_cellWriteN_outside 0 wf.1 (by rw [len]; exact out)
  · rw [homeRead_opened ld o p (.inl c), if_pos c]
  · rw [homeRead_opened ld o p (.inr c), if_neg (by rw [c]; decide)]
  · rw [homeRead_empty e]
    exact ⟨rfl, (Laws.Aside.emptySlot _ _ _).mem.trans (mem_wakeUnit _)⟩
  · exact ⟨rfl, _, rfl⟩

end Sys2Proof.HomeLines
end

section
/-! The mailbox in RECOVERY, and the end of its commands (R389, R395, R404, R420). -/
namespace Sys2Proof.Mailbox
open Sys2Proof.Machine Sys2Proof.Safety
variable {s : State}

theorem mbRefuse_counted {st : Status} (h : st ∈ [Status.decode, .range, .state]) :
    mbRefuse s st = mbEnd (refuseInput s false 9 0) st [] := by
  have c : st = .decode ∨ st = .range ∨ st = .state := by simpa using h
  rw [mbRefuse, if_pos c]

/-- In RECOVERY a command that the ROM does not serve is refused, whatever it would do (R389). -/
theorem mailbox_of_recovery {op : Nat} (eff : State) (b : s.kp.mbox.busy = true) (bl : s.vault.blow = none)
    (co : s.clk.cold = false) (st : s.kp.mbox.bootStage = stageRecovery) (o : s.kp.mbox.op = op) :
    mailbox s op false eff = .next (mbEnd (refuseInput s false 9 0) .state []) := by
  simp only [mailbox, taken, b, bl, co, st, o, ← mbRefuse_counted (s := s) (st := .state) (by decide)]
  simp

/-- A command that presents a token in PRODUCTION alone is refused with the others. -/
theorem recovery_token {op : Nat} {said : Bool} {x y : State} {P : Prop} [Decidable P] (f : P → said = true)
    (r : ∀ e, mailbox s op false e = .next (mbEnd (refuseInput s false 9 0) .state [])) :
    (if P then if (!said) = true then .next s else mailbox s op false x else mailbox s op false y) =
      Host.Outcome.next (mbEnd (refuseInput s false 9 0) .state []) := by
  split
  next h => rw [f h]; exact r x
  next => exact r y

theorem said_runs {said : Bool} {x y : Host.Outcome State Fault Refusal} (h : said = true) :
    (if (!said) = true then x else y) = y := by
  rw [h]; rfl

theorem mbEnd_without_reboot {st : Status} {reply : List Byte} (h : s.kp.mbox.rebootTag = none) :
    mbEnd s st reply = { s with kp := { s.kp with mbox := { s.kp.mbox with
      busy := false, replyStatus := st.code, replyLen := reply.length, replyTag := s.kp.mbox.tag, reply := reply
      resetAsked := false } } } := by
  simp only [mbEnd, setMbox, State.onKp, h]

theorem mbEnd_starts_reboot {st : Status} {reply : List Byte} {g : Nat} (h : s.kp.mbox.rebootTag = some g) :
    let m := (mbEnd s st reply).kp.mbox
    m.busy = true ∧ m.op = 0x11 ∧ m.tag = g ∧ m.rebootTag = none ∧ m.replyStatus = st.code ∧
      m.replyTag = s.kp.mbox.tag := by
  simp only [mbEnd, setMbox, State.onKp, h, and_self]

/-- Settles O31. -/
theorem mailboxRunsOneCommand : Obligations.MailboxRunsOneCommand := by
  refine ⟨fun s b bl co st w => ?_, fun s st reply h => mbEnd_without_reboot h, fun s st reply g h =>
    mbEnd_starts_reboot h,
    fun s st h => mbRefuse_counted h⟩
  have r {op : Nat} (o : s.kp.mbox.op = op) (e : State) := mailbox_of_recovery e b bl co st o
  have warm {x y : Bool} (f : x = true) (g : y = true) : ¬ (s.kp.warm.isSome || !(x && y)) = true := by
    rw [w, f, g]; decide
  exact ⟨fun o => r o _, fun o => r o _, fun _ _ _ o f => (said_runs f).trans (r o _), fun _ o f =>
    recovery_token f (r o),
    fun _ o f => (said_runs f).trans (r o _), fun o => r o _, fun _ o f => (said_runs f).trans (r o _), fun o => r o _,
    fun o => r o _, fun _ o f => (said_runs f).trans (r o _), fun _ o f => recovery_token f (r o), fun o => r o _,
    fun o => r o _, fun o => r o _, fun _ _ o f g => (if_neg (warm f g)).trans (r o _), fun o => r o _, fun o => r o _⟩

end Sys2Proof.Mailbox
end

section
/-! The lifecycle commands of the mailbox (R18, R360, R369, R380, R381, R396). -/
namespace Sys2Proof.Mailbox
open Sys2Proof.Machine Sys2Proof.Safety
variable {s t : State}

@[simp] theorem mbEnd_vault (st : Status) (r : List Byte) : (mbEnd s st r).vault = s.vault := rfl

@[simp] theorem mbEnd_reply (st : Status) (r : List Byte) : (mbEnd s st r).kp.mbox.reply = r := by
  simp only [mbEnd, setMbox, State.onKp]
  cases s.kp.mbox.rebootTag <;> rfl

@[simp] theorem mbEnd_replyStatus (st : Status) (r : List Byte) : (mbEnd s st r).kp.mbox.replyStatus = st.code := by
  simp only [mbEnd, setMbox, State.onKp]
  cases s.kp.mbox.rebootTag <;> rfl

@[simp] theorem mbRefuse_vault (st : Status) : (mbRefuse s st).vault = s.vault := by
  rw [mbRefuse, mbEnd_vault]
  split <;> rfl

@[simp] theorem mbRefuse_replyStatus (st : Status) : (mbRefuse s st).kp.mbox.replyStatus = st.code :=
  mbEnd_replyStatus _ _

/-- R18: while the control clock runs the engine answers. -/
theorem onEngine_runs (h : EngineRuns s) (t e : State) : onEngine s t e = e := by
  obtain ⟨f, r⟩ := h
  simp [onEngine, f, inControl, r]

theorem onEngine_waits (f : s.kp.mbox.clkFail = false) (r : s.clk.control.ready = false) (t e : State) :
    onEngine s t e = demand s .control := by
  simp [onEngine, f, inControl, r]

theorem mbChecked_passes {l : List (Bool × Status)} (h : ∀ c ∈ l, c.1 = false) (e : State) : mbChecked s l e = e := by
  rw [mbChecked, List.find?_eq_none.2 fun c m => by rw [h c m]; decide]

theorem mbChecked_skip {l : List (Bool × Status)} {b : Bool} {st : Status} (h : b = false) (e : State) :
    mbChecked s ((b, st) :: l) e = mbChecked s l e := by
  rw [mbChecked, List.find?_cons_of_neg (by rw [h]; exact Bool.false_ne_true)]; rfl

theorem mbChecked_first {l : List (Bool × Status)} {b : Bool} {st : Status} (h : b = true) (e : State) :
    mbChecked s ((b, st) :: l) e = mbRefuse s st := by
  rw [mbChecked, List.find?_cons_of_pos h]

/-- R381: the state asked for follows the present one, which is ready for it. -/
theorem lcAdvance_next {g : Nat} (m : MailboxRuns s 0x4) (z : argNat s 1 7 = 0) (a : argNat s 0 1 = g) (r : g = 1 ∨ g = 2)
    (n : g = nextLc s.vault.lc) (ok : (if s.vault.lc = .blank then drkOk s else (List.range 4).any (rootLive s)) = true) :
    exec .lcAdvance s =
      .next (startBlow s .lifecycle (lcBits (addedBits s (if g = 1 then Config.lcTest else Config.lcProduction)))) := by
  refine (Laws.mailbox_of_mailboxRuns _ _ m).trans (congrArg _ ?_)
  rw [mbChecked_passes, a]
  rw [a, ok, z, ← n]
  rcases r with rfl | rfl <;> simp

/-- R381: a state that does not follow the present one. -/
theorem lcAdvance_elsewhere (m : MailboxRuns s 0x4) (z : argNat s 1 7 = 0) (r : argNat s 0 1 = 1 ∨ argNat s 0 1 = 2)
    (n : argNat s 0 1 ≠ nextLc s.vault.lc) : exec .lcAdvance s = .next (mbRefuse s .state) := by
  refine (Laws.mailbox_of_mailboxRuns _ _ m).trans (congrArg _ ?_)
  rw [mbChecked_skip (by simp [z]), mbChecked_skip (by rcases r with r | r <;> simp [r]), mbChecked_first (by simp [n])]

theorem nextLc_eq_one (l : LcState) : nextLc l = 1 ↔ l = .blank := by cases l <;> simp [nextLc]

theorem nextLc_eq_two (l : LcState) : nextLc l = 2 ↔ l = .test := by cases l <;> simp [nextLc]

/-- Settles O32. -/
theorem lifecycleCommands : Obligations.LifecycleCommands := by
  refine ⟨fun s m => Laws.mailbox_of_mailboxRuns _ _ m, fun s m e bl d f => ?_, fun s m bl d f r => ?_,
    fun s k m e p bl d k' => ?_, fun s k a b e m r p k' bad => ?_, fun s a b e m r k' => ?_,
    fun s m z a bl ok => lcAdvance_next m z a (.inl rfl) ((nextLc_eq_one _).2 bl).symm (by rw [if_pos bl]; exact ok),
    fun s m z a te ⟨r, lt, ok⟩ => lcAdvance_next m z a (.inr rfl) ((nextLc_eq_two _).2 te).symm ?_, fun s m z a1 a2 => ?_,
    fun s m z h => ?_⟩
  · refine ⟨provBegin s, (Laws.mailbox_of_mailboxRuns _ _ m).trans (congrArg _ ?_), ⟨_, rfl, ?_, ?_⟩, ?_, rfl⟩
    · rw [mbChecked_passes, onEngine_runs e, mbChecked_passes] <;> simp [bl, d, f]
    · simp [drawDrbg, drawBytes]
    · exact mbEnd_reply _ _
    · exact mbEnd_replyStatus _ _
  · refine (Laws.mailbox_of_mailboxRuns _ _ m).trans (congrArg _ ?_)
    rw [mbChecked_passes, onEngine_waits f r]
    simp [bl, d]
  · refine ⟨_, (said_runs p).trans (Laws.mailbox_of_mailboxRuns _ _ m), ?_⟩
    rw [onEngine_runs e, mbChecked_passes]
    · exact ⟨rfl, rfl, rfl⟩
    · simp [bl, d, k']
  · refine ⟨_, (said_runs p).trans (Laws.mailbox_of_mailboxRuns _ _ m), ?_⟩
    rw [onEngine_runs r, mbChecked_first]
    · exact ⟨mbRefuse_replyStatus _, by rw [mbRefuse_vault]; rfl, by rw [mbRefuse_vault]; rfl,
        by rw [mbRefuse_vault]; exact m.2.2.1⟩
    · rcases bad with h | h | h <;> simp [k', h]
  · have p : provSays s a b e = true := by simp [provSays, k']
    refine ⟨_, (said_runs p).trans (Laws.mailbox_of_mailboxRuns _ _ m), ?_⟩
    rw [onEngine_runs r, mbChecked_skip (by simp [k']), mbChecked_first (by simp [k'])]
    exact ⟨mbRefuse_replyStatus _, by rw [mbRefuse_vault]; rfl, by rw [mbRefuse_vault]; exact m.2.2.1⟩
  · simp [te]
    exact ⟨r, lt, ok⟩
  · refine (Laws.mailbox_of_mailboxRuns _ _ m).trans (congrArg _ ?_)
    rw [mbChecked_skip (by simp [z]), mbChecked_first (by simp [a1, a2])]
  · rcases h with ⟨a, n⟩ | ⟨a, n⟩
    · exact lcAdvance_elsewhere m z (.inl a) (by rw [a]; exact fun h => n ((nextLc_eq_one _).1 h.symm))
    · exact lcAdvance_elsewhere m z (.inr a) (by rw [a]; exact fun h => n ((nextLc_eq_two _).1 h.symm))

end Sys2Proof.Mailbox
end

section
/-! Owner roots, tokens and debug commands (R370 to R375, R380). -/
namespace Sys2Proof.Mailbox
open Sys2Proof.Machine Sys2Proof.Safety
variable {s t : State}

/-- R374: with every check of the token passed, only the command's own stay. -/
theorem mbChecked_token {tk : List Byte} {perm form range sig : Bool} {own : List (Bool × Status)} (fo : form = true)
    (tf : tokenForm tk = true) (ri : tokenRights s tk sig = true) (ra : range = true) (sc : tokenScope tk = true)
    (pe : perm = true) (ch : s.vault.challenge.isSome = true) (e : State) :
    mbChecked t (tokenChecks s tk sig perm form range own) e = mbChecked t own e := by
  have none : s.vault.challenge.isNone = false := by rw [Option.isNone_eq_false_iff]; exact ch
  rw [tokenChecks, List.cons_append, mbChecked_skip (by simp [fo, tf]), List.cons_append, mbChecked_skip (by simp [ri]),
    List.cons_append, mbChecked_skip (by simp [ra, sc, pe]), List.cons_append, mbChecked_skip none, List.nil_append]

/-- R371: a check that stands between the token's rights and its scope. -/
theorem tokenChecks_with {tk : List Byte} {perm form range sig : Bool} {c d : Bool × Status} :
    (tokenChecks s tk sig perm form range [d]).take 2 ++ [c] ++ (tokenChecks s tk sig perm form range [d]).drop 2 =
      [(!form || !tokenForm tk, .decode), (!tokenRights s tk sig, .rights), c,
        (!range || !tokenScope tk || !perm, .range),
        (s.vault.challenge.isNone, .state), d] := rfl

/-- R374: outside PRODUCTION no token has rights. -/
theorem tokenRights_elsewhere {tk : List Byte} {sig : Bool} (h : s.vault.lc ≠ .production) :
    tokenRights s tk sig = false := by
  simp [tokenRights, h]

theorem startBlow_blow {k : BlowKind} {todo : List FuseBit} (h : todo ≠ []) :
    (startBlow s k todo).vault.blow = some { kind := k, todo := todo, pulses := 0, vpp := false } := by
  rw [startBlow, if_neg h]; rfl

theorem startBlow_challenge {k : BlowKind} {todo : List FuseBit} (h : todo ≠ []) :
    (startBlow s k todo).vault.challenge = s.vault.challenge := by
  rw [startBlow, if_neg h]; rfl

/-- Settles O33. -/
theorem ownerAndDebugCommands : Obligations.OwnerAndDebugCommands := by
  refine ⟨fun s sig m lc z i en ow => ?_, fun s m e lc z i sa tf ri sc pe ch en ow => ?_,
    fun s m e lc z i sa tf ri ne sc pe ch la => ?_, fun s sig m e lc sa z tf => ?_, fun s m lc => ?_, fun s m lc => ?_,
    fun s k m e lc sa tf ri sc pe ch fr => ?_, fun s sig m e sa tf => ?_, fun s sig m e lc sa tf => ?_,
    fun s m z i ex => ?_, fun s m z i => ?_⟩
  · refine (if_neg (by rw [lc]; decide)).trans ((Laws.mailbox_of_mailboxRuns _ _ m).trans (congrArg _ ?_))
    rw [mbChecked_passes]
    simp [z, i, lc, en, ow]
  · refine ⟨_, (if_pos lc).trans ((said_runs sa).trans (Laws.mailbox_of_mailboxRuns _ _ m)), ?_⟩
    rw [onEngine_runs e, mbChecked_token (by simp [z]) tf ri (by simp [i]) sc pe ch, mbChecked_passes (by simp [en, ow])]
    exact ⟨startBlow_challenge (by simp), startBlow_blow (by simp)⟩
  · have none : s.vault.challenge.isNone = false := by rw [Option.isNone_eq_false_iff]; exact ch
    refine ⟨_, (said_runs sa).trans (Laws.mailbox_of_mailboxRuns _ _ m), ?_⟩
    rw [onEngine_runs e, tokenChecks_with, mbChecked_skip (by simp [z, tf]), mbChecked_skip (by simp [ri]),
      mbChecked_skip (by simp [ne]),
      mbChecked_skip (by simp [i, sc, pe]), mbChecked_skip none, mbChecked_skip la]
    exact ⟨startBlow_challenge (by simp), startBlow_blow (by simp)⟩
  · refine ⟨_, (said_runs sa).trans (Laws.mailbox_of_mailboxRuns _ _ m), ?_⟩
    rw [onEngine_runs e, tokenChecks_with, mbChecked_skip (by simp [z, tf]),
      mbChecked_first (by simp [tokenRights_elsewhere lc])]
    exact ⟨mbRefuse_replyStatus _, by rw [mbRefuse_vault]; rfl, by rw [mbRefuse_vault]; rfl⟩
  · refine ⟨dbgChallenge s, (Laws.mailbox_of_mailboxRuns _ _ m).trans (congrArg _ ?_), _, rfl, ?_, ?_, ?_, rfl⟩
    · rw [mbChecked_passes]
      simp [lc]
    · simp [drawBytes]
    · exact mbEnd_reply _ _
    · exact mbEnd_replyStatus _ _
  · refine (Laws.mailbox_of_mailboxRuns _ _ m).trans (congrArg _ ?_)
    rw [mbChecked_first (by simp [lc])]
  · refine ⟨_, (said_runs sa).trans (Laws.mailbox_of_mailboxRuns _ _ m), ?_⟩
    rw [onEngine_runs e, mbChecked_token rfl tf ri rfl sc (by simp [pe]) ch, mbChecked_passes (by simp [fr]), fr]
    exact ⟨rfl, mbEnd_replyStatus _ _, rfl⟩
  · refine ⟨_, (said_runs sa).trans (Laws.mailbox_of_mailboxRuns _ _ m), ?_⟩
    rw [onEngine_runs e, tokenChecks, List.cons_append, mbChecked_first (by simp [tf])]
    exact ⟨by rw [mbRefuse_vault]; rfl, mbRefuse_replyStatus _, by rw [mbRefuse_vault]; rfl⟩
  · refine ⟨_, (said_runs sa).trans (Laws.mailbox_of_mailboxRuns _ _ m), ?_⟩
    rw [onEngine_runs e, tokenChecks, List.cons_append, mbChecked_skip (by simp [tf]), List.cons_append,
      mbChecked_first (by simp [tokenRights_elsewhere lc])]
    exact ⟨mbRefuse_replyStatus _, by rw [mbRefuse_vault]; rfl, by rw [mbRefuse_vault]; rfl⟩
  · obtain ⟨k, mem, eq⟩ := ex
    refine ⟨_, (Laws.mailbox_of_mailboxRuns _ _ m), ?_⟩
    have ne : (argNat s 0 1 != 0xFF) = true := bne_iff_ne.2 (by omega)
    have le : ¬ 7 < argNat s 0 1 := by omega
    rw [mbChecked_passes]
    · refine ⟨mbEnd_replyStatus _ _, ?_⟩
      simp [ne, State.onVault]
    · simp only [List.mem_cons, List.not_mem_nil, or_false, forall_eq_or_imp, forall_eq]
      simp [z, le]
      exact fun _ => ⟨k, mem, eq⟩
  · refine ⟨_, (Laws.mailbox_of_mailboxRuns _ _ m), ?_⟩
    rw [mbChecked_passes (by simp [z, i])]
    refine ⟨mbEnd_replyStatus _ _, ?_⟩
    simp [i, State.onVault]

end Sys2Proof.Mailbox
end

section
/-! Attestation, anti-rollback and scrapping (R376, R378, R379). -/
namespace Sys2Proof.Mailbox
open Sys2Proof.Machine Sys2Proof.Safety
variable {s t : State}

theorem length_leBytes (n v : Nat) : (leBytes n v).length = n := Bytes.length_leBytes n v

theorem length_imageHash (kind copy : Nat) : (imageHash s kind copy).length = 48 := by simp [imageHash, digest]

theorem length_spareHash : (spareHash s).length = 48 := by simp [spareHash, digest]

/-- R376: a report begins with its version, the lifecycle state and the count of hives. -/
theorem attestHeader_take (nonce spares : List Byte) (n : Nat) :
    (attestHeader s nonce spares n).take 4 = leBytes 2 1 ++ leBytes 1 s.vault.lc.report ++ leBytes 1 n := by
  obtain ⟨rest, e⟩ : ∃ rest, attestHeader s nonce spares n =
      leBytes 2 1 ++ (leBytes 1 s.vault.lc.report ++ (leBytes 1 n ++ rest)) := by
    unfold attestHeader
    generalize leBytes 2 1 = a, leBytes 1 n = b, leBytes 1 s.vault.lc.report = c
    simp only [List.append_assoc]
    exact ⟨_, rfl⟩
  rw [e, ← List.append_assoc, ← List.append_assoc, List.take_left']
  simp only [List.length_append, length_leBytes]

/-- R376: the hash of the spare map stands at 0xC0. -/
theorem attestHeader_parts {nonce : List Byte} (hn : nonce.length = 48) (spares : List Byte) (n : Nat) :
    ∃ front : List Byte, front.length = 0xC0 ∧ attestHeader s nonce spares n = front ++ spares ++ leBytes 16 0 := by
  refine ⟨_, ?_, rfl⟩
  simp only [List.length_append, length_leBytes, length_imageHash, hn]

theorem attestHeader_spares {nonce spares : List Byte} (hn : nonce.length = 48) (hs : spares.length = 48) (n : Nat) :
    ((attestHeader s nonce spares n).drop 0xC0).take 48 = spares := by
  obtain ⟨front, len, e⟩ := attestHeader_parts (s := s) hn spares n
  rw [e, List.append_assoc, List.drop_left' len, List.take_left' hs]

theorem length_attestHeader {nonce spares : List Byte} (hn : nonce.length = 48) (hs : spares.length = 48) (n : Nat) :
    (attestHeader s nonce spares n).length = 256 := by
  obtain ⟨front, len, e⟩ := attestHeader_parts (s := s) hn spares n
  rw [e, List.length_append, List.length_append, len, hs, length_leBytes]

/-! ## Scrapping -/

theorem slotAt_zeroSlot (k n : Nat) : (slotAt (zeroSlot s k) n).loaded = if n = k then false else (slotAt s n).loaded :=
    by
  have e : slotAt (zeroSlot s k) n = slotAt (setSlot s k fun o =>
    { o with loaded := false, gen := 0, material := [], hashKey := [], wrapped := [] }) n := rfl
  rw [e]
  simp only [slotAt, setSlot, State.onPr_pr]
  split
  next h => rw [h, Tab.look_put]; rfl
  next h => rw [Tab.look_put_ne _ _ _ _ h]

/-- A slot that is zeroised, or was not loaded, is not loaded after. -/
theorem foldl_zeroSlot_loaded (l : List Nat) (s : State) (n : Nat) :
    (slotAt (l.foldl zeroSlot s) n).loaded = ((slotAt s n).loaded && !l.contains n) := by
  induction l generalizing s with
  | nil => simp
  | cons k l ih =>
    rw [List.foldl_cons, ih, slotAt_zeroSlot]
    by_cases h : n = k <;> simp [h]

theorem loaded_only_in_table (n : Nat) (h : (slotAt s n).loaded = true) : (s.pr.slots.map (·.1)).contains n = true := by
  by_contra no
  have none : Tab.look s.pr.slots n = none := look_none _ (by simpa using no)
  rw [slotAt, none] at h
  exact Bool.false_ne_true h
where
  look_none : ∀ l : Tab KeySlot, (∀ x, (n, x) ∉ l) → Tab.look l n = none
    | [], _ => rfl
    | (k, v) :: l, no => by
      rw [Tab.look, if_neg fun e => no v (by rw [e]; exact List.mem_cons_self)]
      exact look_none l fun x m => no x (List.mem_cons_of_mem _ m)

theorem foldl_zeroSlot_vault (l : List Nat) (s : State) : (l.foldl zeroSlot s).vault = s.vault := by
  induction l generalizing s with
  | nil => rfl
  | cons k l ih => rw [List.foldl_cons, ih]; rfl

/-- What zeroising the part's keys leaves of the vault: its fuses and its challenge. -/
theorem zeroiseAll_spec (s : State) : (∀ k, (slotAt (zeroiseAll s) k).loaded = false) ∧ (zeroiseAll s).vault.tokens = [] ∧
    (zeroiseAll s).vault.wrapKey = [] ∧ (zeroiseAll s).vault.drbgOn = false ∧ (zeroiseAll s).vault.fuses = s.vault.fuses ∧
    (zeroiseAll s).vault.challenge = s.vault.challenge := by
  have keys : Laws.KeepsKeys ((s.pr.slots.map (·.1)).foldl zeroSlot s)
    ((((s.pr.slots.map (·.1)).foldl zeroSlot s).sw.links.map
    (·.1)).foldl linkDown ((s.pr.slots.map (·.1)).foldl zeroSlot s)) := Laws.KeepsKeys.fold Laws.KeepsKeys.linkDown _ _
  refine ⟨fun k => ?_, rfl, rfl, rfl, ?_, ?_⟩
  · refine (congrArg (fun x => ((Tab.look x k).getD KeySlot.empty).loaded) keys.slots).trans
      ((foldl_zeroSlot_loaded _ s k).trans ?_)
    rw [Bool.and_eq_false_iff, Bool.not_eq_false']
    by_cases h : (slotAt s k).loaded = true
    · exact .inr (loaded_only_in_table k h)
    · exact .inl (Bool.not_eq_true _ ▸ h)
  · exact keys.fuses.trans (congrArg Vault.fuses (foldl_zeroSlot_vault _ _))
  · exact (congrArg Vault.challenge keys.vault).trans (congrArg Vault.challenge (foldl_zeroSlot_vault _ s) :)

theorem startScrap_spec {b : Nat} {r : List Nat} (h : addedBits s Config.lcEndOfLife = b :: r) :
    Scrapping s (startScrap s) b ∧
    (startScrap s).vault.challenge = s.vault.challenge := by
  obtain ⟨keys, tok, wrap, drbg, fus, ch⟩ := zeroiseAll_spec s
  have e : addedBits (zeroiseAll s) Config.lcEndOfLife = b :: r := by rw [← h, addedBits, addedBits, fus]
  have t : startScrap s = setBlow (zeroiseAll s) (some { kind := .scrapLock, todo := [.lc 0 b, .lc 1 b], pulses := 0, vpp := false }) := by
    simp [startScrap, e, startBlow]
  rw [t]
  exact ⟨⟨keys, tok, wrap, drbg, fus, rfl⟩, ch⟩

theorem addedBits_sorted {code b : Nat} {r : List Nat} (h : addedBits s code = b :: r) : ∀ c ∈ r, b < c := by
  have p : (addedBits s code).Pairwise (· < ·) := (List.pairwise_lt_range.filter _).filter _
  rw [h] at p
  exact (List.pairwise_cons.1 p).1

theorem scrapping_congr {t u : State} {b : Nat} (e : s.vault.fuses = t.vault.fuses) (h : Scrapping s u b) :
    Scrapping t u b := by
  obtain ⟨keys, tok, wrap, drbg, fus, blow⟩ := h
  exact ⟨keys, tok, wrap, drbg, fus.trans e, blow⟩

/-- Settles O34. -/
theorem attestArbCommitAndScrap : Obligations.AttestArbCommitAndScrap := by
  refine ⟨fun s m e lc b => ?_, fun s m te pr => ?_, fun s m e sa z i lo el => ?_, fun s sig b r m pr el ad => ?_,
    fun s b r m e lc sa tf ri sc pe ch ad => ?_, fun s sig m el => ?_, fun s => ⟨rfl, rfl⟩⟩
  · refine ⟨_, Laws.mailbox_of_mailboxRuns _ _ m, ?_⟩
    have n : (arg s 0 48).length = 48 := by simp [arg, Bytes.length_cellReadN]
    rw [mbChecked_passes, onEngine_runs e]
    · refine ⟨mbEnd_replyStatus _ _, rfl, ?_, ?_⟩
      · rw [attest, mbEnd_reply, List.append_assoc, List.take_append_of_le_length, attestHeader_take]
        rw [length_attestHeader n length_spareHash]; omega
      · rw [attest, mbEnd_reply, List.append_assoc, List.drop_append_of_le_length, List.take_append_of_le_length,
          attestHeader_spares n length_spareHash]
        · rw [List.length_drop, length_attestHeader n length_spareHash]; decide
        · rw [length_attestHeader n length_spareHash]; omega
    · rcases lc with h | h <;> simp [h, b]
  · refine (Laws.mailbox_of_mailboxRuns _ _ m).trans (congrArg _ ?_)
    rw [mbChecked_first (by simp [te, pr])]
    rfl
  · have sa' : engineSays s (if argNat s 0 1 = 0 then 1 else 2)
        (1 - b2n (if argNat s 0 1 = 0 then s.kp.mbox.fwCopy else s.kp.mbox.setCopy)) false = true := by
      rw [if_pos i, if_pos i]; exact sa
    refine (said_runs sa').trans ((Laws.mailbox_of_mailboxRuns _ _ m).trans (congrArg _ ?_))
    rw [onEngine_runs e, mbChecked_passes]
    · simp only [i, if_true]
    · simp [z, i, lo, el, copyValid]
  · have c : exec (.scrap sig) s = .next (startScrap s) := by
      refine (if_neg pr).trans ((Laws.mailbox_of_mailboxRuns _ _ m).trans (congrArg _ ?_))
      rw [mbChecked_skip (by simp [el])]; rfl
    exact ⟨c, _, c, (startScrap_spec ad).1, addedBits_sorted ad⟩
  · refine ⟨_, (if_pos lc).trans ((said_runs sa).trans (Laws.mailbox_of_mailboxRuns _ _ m)), ?_⟩
    rw [onEngine_runs e, mbChecked_token rfl tf ri rfl sc pe ch]
    obtain ⟨a, b⟩ := startScrap_spec (s := consume (verifyToken s (arg s 0 224))) ad
    exact ⟨scrapping_congr rfl a, b⟩
  · refine (if_neg (by rw [el]; decide)).trans ((Laws.mailbox_of_mailboxRuns _ _ m).trans (congrArg _ ?_))
    rw [mbChecked_first (by simp [el])]

end Sys2Proof.Mailbox
end

section
/-! The keeper's own mailbox commands (R348, R385, R387, R392, R396, R403, R415). -/
namespace Sys2Proof.Mailbox
open Sys2Proof.Machine Sys2Proof.Safety
variable {s t : State}

@[simp] theorem mbEnd_waggle (st : Status) (r : List Byte) : (mbEnd s st r).kp.waggle = s.kp.waggle := rfl

@[simp] theorem mbEnd_flash (st : Status) (r : List Byte) : (mbEnd s st r).kp.flash = s.kp.flash := rfl

@[simp] theorem mbEnd_power (st : Status) (r : List Byte) : (mbEnd s st r).kp.power = s.kp.power := rfl

/-- R387: a copy that is not valid is counted, and nothing else of the keeper changes. -/
theorem countInvalid_kp (kind : Nat) (a b : Bool) : (countInvalid s kind a b).kp = s.kp := by
  rw [countInvalid]
  generalize (List.range 2).filter _ = l
  induction l generalizing s with
  | nil => rfl
  | cons x l ih => exact ih.trans rfl

theorem setApply_some {a b : Bool} {c : Nat} (p : preferred s 2 (copyValid s 2 0 a) (copyValid s 2 1 b) = some c) :
    setApply s a b = applyAndReset (countInvalid s 2 (copyValid s 2 0 a) (copyValid s 2 1 b)) c := by
  unfold setApply
  dsimp only
  split
  next h => cases p.symm.trans h
  next h => cases p.symm.trans h; rfl

theorem setApply_none {a b : Bool} (p : preferred s 2 (copyValid s 2 0 a) (copyValid s 2 1 b) = none) :
    setApply s a b = mbRefuse (countInvalid s 2 (copyValid s 2 0 a) (copyValid s 2 1 b)) .state := by
  unfold setApply
  dsimp only
  split
  next => rfl
  next h => cases p.symm.trans h

/-- R392: the copy is put in force, and the reset that it asks for begins. -/
theorem applyAndReset_spec (c : Nat) (d : drbgHeld s = false) :
    (applyAndReset s c).kp.warm = some { keepPcie := true, clearing := false, stepsDone := false } ∧
      (applyAndReset s c).kp.settings = settingsOf (bodyOf s 2 c (header s 2 c)) ∧
      (applyAndReset s c).kp.haveSettings = true ∧ (applyAndReset s c).kp.mbox.resetAsked = true := by
  have e : applyAndReset s c = askReset (beginWarm (applySettings s c)) := if_neg (by rw [d]; decide)
  rw [e]
  exact ⟨rfl, rfl, rfl, rfl⟩

theorem bodyOf_congr (e : t.kp = s.kp) (kind copy : Nat) (h : List Byte) : bodyOf t kind copy h = bodyOf s kind copy h :=
    by
  simp only [bodyOf, flashRead, e]

theorem header_congr (e : t.kp = s.kp) (kind copy : Nat) : header t kind copy = header s kind copy := by
  simp only [header, flashRead, e]

theorem setApply_runs {a b : Bool} (m : MailboxRuns s 0x16) (e : EngineRuns s) (w : s.kp.warm = none)
    (sa : engineSays s 2 0 a = true) (sb : engineSays s 2 1 b = true) : exec (.setApply a b) s = .next (setApply s a b) :=
      by
  have said : ¬ (s.kp.warm.isSome || !(engineSays s 2 0 a && engineSays s 2 1 b)) = true := by rw [w, sa, sb]; decide
  exact (if_neg said).trans ((Laws.mailbox_of_mailboxRuns _ _ m).trans (congrArg _ (onEngine_runs e _ _)))

/-- Settles O35. -/
theorem keeperCommands : Obligations.KeeperCommands := by
  refine ⟨fun s m h => ?_, fun s m h => ?_, fun s m => Laws.mailbox_of_mailboxRuns _ _ m, fun s m z h => ?_,
    fun s m z n h => ?_, fun s m => ?_, fun s m z k a r u => ?_, fun s sig m e sa z k => ?_,
    fun s a b c m e w sa sb p d => ?_, fun s a b m e w sa sb p => ?_, fun s a b w => ?_, fun s m z => ?_, fun s m => ?_,
    fun s m z l ty bc ci wg out => ?_⟩
  · refine (Laws.mailbox_of_mailboxRuns _ _ m).trans (congrArg _ ?_)
    rw [if_neg h]
  · refine (Laws.mailbox_of_mailboxRuns _ _ m).trans (congrArg _ ?_)
    rw [if_pos h]
  · refine ⟨_, Laws.mailbox_of_mailboxRuns _ _ m, ?_⟩
    rw [mbChecked_passes]
    · exact ⟨rfl, mbEnd_replyStatus _ _, rfl⟩
    · simp [z]
      exact fun n => h.resolve_left n
  · refine (Laws.mailbox_of_mailboxRuns _ _ m).trans (congrArg _ ?_)
    rw [mbChecked_skip (by simp [z]), mbChecked_first (by simp [n, h])]
  · refine ⟨_, Laws.mailbox_of_mailboxRuns _ _ m, mbEnd_replyStatus _ _, ?_, ?_⟩
    · rw [pwrQuery, mbEnd_reply]
      simp [sized, List.length_flatMap]
    · rw [pwrQuery, mbEnd_reply]
      exact List.take_left' (by simp only [List.length_append, length_leBytes])
  · refine (Laws.mailbox_of_mailboxRuns _ _ m).trans (congrArg _ ?_)
    rw [mbChecked_passes]
    simp [z, k, a, r, u]
  · refine ⟨_, (said_runs sa).trans (Laws.mailbox_of_mailboxRuns _ _ m), ?_⟩
    rw [mbChecked_passes (by simp [z, k]), onEngine_runs e]
    refine ⟨mbEnd_replyStatus _ _, ?_, ?_⟩
    · rw [mbEnd_flash]
      split <;> rfl
    · rw [mbEnd_reply]
      simp only [List.append_assoc]
      exact List.take_left' (length_leBytes _ _)
  · have k := countInvalid_kp (s := s) 2 (copyValid s 2 0 a) (copyValid s 2 1 b)
    refine ⟨_, (setApply_runs m e w sa sb).trans (congrArg _ (setApply_some p)), ?_⟩
    rw [← header_congr k, ← bodyOf_congr k]
    exact applyAndReset_spec c ((congrArg (fun x : Keeper => x.mbox.bootStage == stageHeld && x.mbox.drbgFail) k).trans d)
  · exact (setApply_runs m e w sa sb).trans (congrArg _ (setApply_none p))
  · exact if_pos (by rw [w]; rfl)
  · refine (Laws.mailbox_of_mailboxRuns _ _ m).trans (congrArg _ ?_)
    rw [mbChecked_passes (by simp [z])]
  · refine ⟨_, Laws.mailbox_of_mailboxRuns _ _ m, mbEnd_replyStatus _ _, rfl, ?_⟩
    rw [waggleQuery, mbEnd_reply]
    exact List.length_take_le _ _
  · refine (Laws.mailbox_of_mailboxRuns _ _ m).trans (congrArg _ ?_)
    rw [mbChecked_passes]
    have ty' : (argNat s 2 1 == 1 || argNat s 2 1 == 2 || argNat s 2 1 == 4) = true := by
      rcases ty with h | h | h <;> simp [h]
    simp [z, l, ty', bc, ci, wg, out]

end Sys2Proof.Mailbox
end

section
/-! Launches: what they reserve, write and start (R157 to R159, R451). -/
namespace Sys2Proof.Launches
open Sys2Proof.Machine Sys2Proof.Safety Sys2Proof.TenantRows
variable {s t : State} {c : Nat} {cl : List Nat}

theorem launchReq_op {ch : Channel} {r : LaunchReq} (h : launchReq ch c = some r) :
    (match ch.op with | .launchAny _ _ _ _ _ => true | .launchList _ _ _ _ _ => true | _ => false) = true := by
  revert h
  unfold launchReq
  split <;> rename_i e
  all_goals simp [e]

/-- R157, R158: a new launch is checked, and asked for at its hive. -/
theorem execLaunch_requests {o : Zop} {r : LaunchReq} (h : RunsOp s c o) (q : launchReq (chanAt s c) c = some r)
    (k : (chanAt s c).kernels = []) (a : (launchArgs (chanAt s c)).2.2.1 % 64 = 0) :
    execLaunch c s = .next (launchRequest s c r) := by
  have op := launchReq_op q
  rw [h.2.2] at op
  refine (Laws.runInstr_of_runsOp h _ op _ : execLaunch c s = _).trans (congrArg _ ?_)
  dsimp only
  rw [q]
  dsimp only
  rw [if_neg (not_not_intro k), if_neg (not_not_intro a)]

theorem launchRequest_reserves {r : LaunchReq} (f : r.failure s (chanAt s c).hive = none)
    (e : (hiveAt s (chanAt s c).hive).launchQ = []) (p : r.pick s (chanAt s c).hive = some cl) :
    launchRequest s c r = launchGo (reserve s c cl) c := by
  simp only [launchRequest, f, e, p]

theorem launchRequest_queues {r : LaunchReq} (f : r.failure s (chanAt s c).hive = none)
    (e : r.pick s (chanAt s c).hive = none ∨ (hiveAt s (chanAt s c).hive).launchQ ≠ []) : launchRequest s c r =
      holdChan (setHive s (chanAt s c).hive (fun h => { h with launchQ := h.launchQ ++ [r] })) c .launchQueued := by
  unfold launchRequest
  simp only [f]
  split
  next a b => rcases e with e | e <;> [cases e.symm.trans b; exact absurd a e]
  next => rfl

/-! ## What a reservation changes -/

theorem foldl_setCluster_eq (f : Cluster → Cluster) (s : State) :
    ∃ k, cl.foldl (fun t n => setCluster t n f) s = s.onHe (fun e => { e with clusters := k }) := by
  induction cl generalizing s with
  | nil => exact ⟨s.he.clusters, rfl⟩
  | cons n cl ih =>
    obtain ⟨k, e⟩ := ih (setCluster s n f)
    exact ⟨k, e⟩

/-- A reservation marks clusters and brings its channel back. -/
theorem reserve_eq (s : State) (c : Nat) (cl : List Nat) : ∃ k, reserve s c cl =
    setChan (s.onHe (fun e => { e with clusters := k })) c (fun x =>
      { x with kernels := cl, state := .running, hold := .none }) := by
  obtain ⟨k, e⟩ := foldl_setCluster_eq (cl := cl) (fun x => { x with kernel := some c }) s
  exact ⟨k, by rw [reserve, e]⟩

theorem chanAt_reserve : chanAt (reserve s c cl) c = { chanAt s c with kernels := cl, state := .running, hold := .none }
    := by
  obtain ⟨k, e⟩ := reserve_eq s c cl
  rw [e, chanAt_setChan]
  rfl

theorem inReach_of_hives {va a : Nat} {n : Need} (h : InReach { t with he := s.he } c va n a)
    (e : ∀ x, hiveAt t x = hiveAt s x) : InReach t c va n a := by
  obtain ⟨lt, tlb, ⟨k, comb, per, loaded, wait⟩, rest⟩ := h
  refine ⟨lt, tlb, ⟨k, ?_, per, loaded, wait⟩, rest⟩
  rw [combFor, e]
  exact comb

theorem inReach_reserve {va a : Nat} {n : Need} (h : InReach s c va n a) : InReach (reserve s c cl) c va n a := by
  obtain ⟨k, e⟩ := reserve_eq s c cl
  have i : InReach { reserve s c cl with he := s.he } c va n a := by
    refine Laws.inReach_of_eq h ?_ ?_ ?_ rfl ?_ ?_ ?_ ?_ ?_ ?_ ?_ ?_ ?_
    · rw [e]; exact fun _ => Iff.rfl
    · exact (congrArg Channel.ctx chanAt_reserve : (chanAt (reserve s c cl) c).ctx = _)
    · exact (congrArg Channel.hive chanAt_reserve : (chanAt (reserve s c cl) c).hive = _)
    all_goals rw [e]; rfl
  exact inReach_of_hives i fun x => by rw [e]; rfl

theorem chanAt_holdChan (k : Hold) : chanAt (holdChan s c k) c = { chanAt s c with state := .waiting, hold := k } :=
  chanAt_setChan _ _ _

theorem hiveAt_holdChan (k : Hold) (h : Nat) : hiveAt (holdChan s c k) h = hiveAt s h := rfl

/-! ## Kernels that start -/

theorem foldl_emit {α : Type} (f : α → Output) (l : List α) (s : State) :
    l.foldl (fun t n => emit t (f n)) s = { s with sent := s.sent ++ l.map f } := by
  induction l generalizing s with
  | nil => simp
  | cons a l ih => rw [List.foldl_cons, ih]; simp [emit]

/-- The outputs of the kernels that a channel starts, with ranks rising and the count less one (R451). -/
theorem startKernels_sent : (startKernels s c).sent = s.sent ++ (chanAt s c).kernels.zipIdx.map (fun n =>
    .kernelStart n.1 (launchArgs (chanAt s c)).1.toNat (launchArgs (chanAt s c)).2.1.toNat n.2
      ((chanAt s c).kernels.length - 1)
      (chanAt s c).launchSeq) := by
  simp only [startKernels, foldl_emit, holdChan]
  rfl

theorem chanAt_startKernels : chanAt (startKernels s c) c = { chanAt s c with state := .waiting, hold := .kernel } := by
  simp only [startKernels, foldl_emit, holdChan]
  exact chanAt_setChan _ _ _

theorem hiveAt_startKernels (h : Nat) : hiveAt (startKernels s c) h = hiveAt s h := by
  simp only [startKernels, foldl_emit, holdChan]
  rfl

theorem startKernels_pr : (startKernels s c).pr = s.pr := by
  simp only [startKernels, foldl_emit, holdChan]
  rfl

theorem chanAt_takeSeq : chanAt (takeSeq s c) c = { chanAt s c with launchSeq := (hiveAt s (chanAt s c).hive).launchSeq }
    := by
  simp only [takeSeq, chanAt_setHive, chanAt_setChan]

theorem hiveAt_takeSeq : hiveAt (takeSeq s c) (chanAt s c).hive = { hiveAt s (chanAt s c).hive with
    launchSeq := ((hiveAt s (chanAt s c).hive).launchSeq + 1) % 2 ^ 32 } := by
  simp only [takeSeq, hiveAt_setHive]
  rfl

theorem startKernels_takeSeq (s : State) (c : Nat) : let t := startKernels (takeSeq s c) c
    (chanAt t c).state = .waiting ∧ (chanAt t c).hold = .kernel ∧
      (hiveAt t (chanAt s c).hive).launchSeq = ((hiveAt s (chanAt s c).hive).launchSeq + 1) % 2 ^ 32 ∧
      t.sent = s.sent ++ (chanAt s c).kernels.zipIdx.map (fun n =>
        .kernelStart n.1 (launchArgs (chanAt s c)).1.toNat (launchArgs (chanAt s c)).2.1.toNat n.2
          ((chanAt s c).kernels.length - 1) (hiveAt s (chanAt s c).hive).launchSeq) := by
  dsimp only
  rw [chanAt_startKernels, hiveAt_startKernels, hiveAt_takeSeq, startKernels_sent, chanAt_takeSeq]
  exact ⟨rfl, rfl, rfl, rfl⟩

/-! ## Launches that run at once -/

/-- The record of a launch whose line is in reach is written, and nothing else changes. -/
theorem writeLaunchRecord_inReach {seq a : Nat} (f : FirstLevelOk s (c / 8)) (p : (chanAt s c).pack = none)
    (i : InReach s c (lineOf (launchArgs (chanAt s c)).2.2.1) .wr a) :
    ∃ t b, writeLaunchRecord s c cl seq = (setChan t c (fun x => { x with prog := 1 }), .data b) ∧ Laws.Quiet s t ∧
      s.sent <+: t.sent ∧ t.pr.mem = memAfter s a (.partialWrite ((launchRecord cl seq).zipIdx.map (fun e =>
        ((launchArgs (chanAt s c)).2.2.1 - lineOf (launchArgs (chanAt s c)).2.2.1 + e.2, e.1)))) := by
  obtain ⟨t, e, q, m⟩ := Laws.writeLine_inReach (rel := false) (cap := false)
    (k := .partialWrite ((launchRecord cl seq).zipIdx.map (fun e =>
      ((launchArgs (chanAt s c)).2.2.1 - lineOf (launchArgs (chanAt s c)).2.2.1 + e.2, e.1)))) f p i
  have k := (Standing.keeps_writeLine (Standing.keeps_refl s) (c := c) (ua := lineOf (launchArgs (chanAt s c)).2.2.1)
    (a4 := .partialWrite ((launchRecord cl seq).zipIdx.map (fun e =>
      ((launchArgs (chanAt s c)).2.2.1 - lineOf (launchArgs (chanAt s c)).2.2.1 + e.2, e.1)))) (bulk := false) (capping :=
        false)).sent
  rw [e] at k
  exact ⟨t, _, by rw [writeLaunchRecord, e], q, k, m⟩

theorem launchGo_record {u : State} {b : List Byte} (st : (chanAt s c).lineStatus = none) (p : (chanAt s c).prog = 0)
    (e : writeLaunchRecord s c (chanAt s c).kernels (hiveAt s (chanAt s c).hive).launchSeq = (u, .data b))
    (q : remoteBusy u c = false) : launchGo s c = startKernels (takeSeq u c) c := by
  have q' : remoteBusy (takeSeq u c) c = false := q
  simp only [launchGo, st, p, if_true, e, q', Bool.false_eq_true, if_false]

/-- A launch that has its clusters and whose record's line is in reach: the record is written and its kernels start. -/
theorem launchGo_inReach {a : Nat} (f : FirstLevelOk s (c / 8)) (pack : (chanAt s c).pack = none)
    (st : (chanAt s c).lineStatus = none) (p : (chanAt s c).prog = 0) (free : remoteBusy s c = false)
    (i : InReach s c (lineOf (launchArgs (chanAt s c)).2.2.1) .wr a) : let t := launchGo s c
    let gr := (launchArgs (chanAt s c)).2.2.1
    (chanAt t c).state = .waiting ∧ (chanAt t c).hold = .kernel ∧ (chanAt t c).kernels = (chanAt s c).kernels ∧
      (hiveAt t (chanAt s c).hive).launchSeq = ((hiveAt s (chanAt s c).hive).launchSeq + 1) % 2 ^ 32 ∧
      (∃ l, t.sent = s.sent ++ l ++ (chanAt s c).kernels.zipIdx.map (fun n =>
        .kernelStart n.1 (launchArgs (chanAt s c)).1.toNat
        (launchArgs (chanAt s c)).2.1.toNat n.2 ((chanAt s c).kernels.length - 1) (hiveAt s (chanAt s c).hive).launchSeq))
          ∧
      t.pr.mem = memAfter s a (.partialWrite ((launchRecord (chanAt s c).kernels
        (hiveAt s (chanAt s c).hive).launchSeq).zipIdx.map
        (fun e => (gr - lineOf gr + e.2, e.1)))) := by
  obtain ⟨u, b, wr, qu, ⟨l, sl⟩, m⟩ := writeLaunchRecord_inReach (cl := (chanAt s c).kernels)
    (seq := (hiveAt s (chanAt s c).hive).launchSeq) f pack i
  have cu : chanAt (setChan u c (fun x => { x with prog := 1 })) c = { chanAt s c with prog := 1 } := by
    rw [chanAt_setChan, qu.chanAt]
  have hu : hiveAt (setChan u c (fun x => { x with prog := 1 })) (chanAt s c).hive = hiveAt s (chanAt s c).hive :=
    congrArg (fun e : HiveEngine => (Tab.look e.hives (chanAt s c).hive).getD (Hive.empty 0)) qu.he
  have hc : (chanAt (setChan u c (fun x => { x with prog := 1 })) c).hive = (chanAt s c).hive := by rw [cu]
  have args : launchArgs (chanAt (setChan u c (fun x => { x with prog := 1 })) c) = launchArgs (chanAt s c) :=
    by rw [cu]; rfl
  have kc : (chanAt (setChan u c (fun x => { x with prog := 1 })) c).kernels = (chanAt s c).kernels := by rw [cu]
  have busy : remoteBusy (setChan u c (fun x => { x with prog := 1 })) c = false :=
    (qu.remoteBusy c : remoteBusy u c = _).trans free
  obtain ⟨a1, a2, a3, a4⟩ := startKernels_takeSeq (setChan u c (fun x => { x with prog := 1 })) c
  rw [hc, hu] at a3
  rw [args, hc, kc, hu, show (setChan u c (fun x => { x with prog := 1 })).sent = s.sent ++ l from sl.symm] at a4
  intro t gr
  rw [show t = _ from launchGo_record st p wr busy]
  refine ⟨a1, a2, ?_, a3, ⟨l, a4⟩, ?_⟩
  · rw [chanAt_startKernels, chanAt_takeSeq]
    exact kc
  · rw [startKernels_pr]
    exact m

theorem execLaunchQuery_writes {gr : Nat} {b : List Byte} (h : RunsOp s c (.launchQuery gr))
    (a : (launchArgs (chanAt s c)).2.2.1 % 64 = 0) (l : (chanAt s c).lineStatus = none) (p : (chanAt s c).prog = 0)
    (e : writeLaunchRecord s c (clustersOf s (chanAt s c).hive (fun st => st == .assigned))
      (hiveAt s (chanAt s c).hive).launchSeq = (t, .data b)) : execLaunchQuery c s = .next (finish t c .ok) := by
  refine (Laws.runInstr_of_runsOp h _ rfl _ : execLaunchQuery c s = _).trans (congrArg _ ?_)
  dsimp only
  rw [if_neg (not_not_intro a), l]
  dsimp only
  rw [if_pos p, e]

/-- Settles O20. -/
theorem launchesReserveAndStart : Obligations.LaunchesReserveAndStart := by
  refine ⟨fun s c o r cl h q k a f e p => ?_, fun s c o r h q k a f e => ?_, fun s c n ge ga gr gx h k a lt => ?_,
    startKernels_takeSeq, fun s c gr t b h a l p e q m => ?_, fun s c o r cl a h q b => ?_, fun s c gr a h b => ?_,
    fun s h r rest cl e p => ?_⟩
  · exact (execLaunch_requests h q k a).trans (congrArg _ (launchRequest_reserves f e p))
  · refine Laws.answers_of_eq _ ((execLaunch_requests h q k a).trans (congrArg _ (launchRequest_queues f e))) ?_
    rw [chanAt_holdChan, hiveAt_holdChan, hiveAt_setHive]
    exact ⟨rfl, rfl, rfl⟩
  · have q : launchReq (chanAt s c) c = some { chan := c, any := some n, list := [] } := by rw [launchReq, h.2.2]
    refine (execLaunch_requests h q k a).trans (congrArg _ ?_)
    simp only [launchRequest, LaunchReq.failure, if_pos lt]
  · exact (execLaunchQuery_writes h a l p e).trans (congrArg _ (Laws.finish_retires q m .ok))
  · intro hv gr al f e p i
    obtain ⟨-, pack, status, prog, -⟩ := Laws.begins_clear b
    have k : (chanAt s c).kernels = [] := by rw [b.1]; rfl
    refine ⟨_, (execLaunch_requests h q k al).trans (congrArg _ (launchRequest_reserves f e p)), ?_⟩
    obtain ⟨kc, re⟩ := reserve_eq s c cl
    have ch := chanAt_reserve (s := s) (c := c) (cl := cl)
    have hi (n) : hiveAt (reserve s c cl) n = hiveAt s n := by rw [re]; rfl
    have args : launchArgs (chanAt (reserve s c cl) c) = launchArgs (chanAt s c) := by rw [ch]; rfl
    have hc : (chanAt (reserve s c cl) c).hive = (chanAt s c).hive := by rw [ch]
    have kc' : (chanAt (reserve s c cl) c).kernels = cl := by rw [ch]
    have spec := launchGo_inReach (s := reserve s c cl) (c := c) (a := a) (by rw [re]; exact b.2.2)
      (by rw [ch]; exact pack)
      (by rw [ch]; exact status) (by rw [ch]; exact prog) (by rw [re]; exact b.2.1)
        (by rw [args]; exact inReach_reserve i)
    have se : (reserve s c cl).sent = s.sent := by rw [re]; rfl
    have me (w) : memAfter (reserve s c cl) a w = memAfter s a w := by rw [re]; rfl
    dsimp only at spec
    rw [args, hc, kc', hi, se, me] at spec
    exact spec
  · intro hv ga al i
    obtain ⟨-, pack, status, prog, -⟩ := Laws.begins_clear b
    obtain ⟨u, d, wr, qu, -, m⟩ := writeLaunchRecord_inReach (cl :=
      clustersOf s (chanAt s c).hive (fun st => st == .assigned))
      (seq := (hiveAt s (chanAt s c).hive).launchSeq) b.2.2 pack i
    have cu : chanAt (setChan u c (fun x => { x with prog := 1 })) c = { chanAt s c with prog := 1 } := by
      rw [chanAt_setChan, qu.chanAt]
    have busy : remoteBusy (setChan u c (fun x => { x with prog := 1 })) c = false :=
      (qu.remoteBusy c : remoteBusy u c = _).trans b.2.1
    refine ⟨_, (execLaunchQuery_writes h al status prog wr).trans
      (congrArg _ (Laws.finish_retires busy (by rw [cu]; exact status) .ok)),
      wentOn_retire (Laws.state_of_runsOp h) ?_, ?_⟩
    · exact (congrArg (SameWord (chanAt s c)) cu).mpr ⟨rfl, rfl, rfl, rfl, rfl⟩
    · exact (congrArg Propolis.mem (retire_ok_pr (s := dropForager (setChan u c (fun x => { x with prog := 1 })) c)
        ((congrArg Channel.state cu).trans (Laws.state_of_runsOp h)))).trans m
  · show execLaunchReservation h s = _
    simp only [execLaunchReservation, serveLaunch, e, p]

end Sys2Proof.Launches
end

section
/-! Hives created and resized (R35, R56 to R58, R60, R187, R193). -/
namespace Sys2Proof.HiveRows
open Sys2Proof.Machine Sys2Proof.Safety
variable {s t : State} {c h : Nat} {cl : List Nat}

theorem checked_passes {l : List (Bool × Status)} (p : ∀ x ∈ l, x.1 = false) (e : State) : checked s c l e = e := by
  rw [checked, List.find?_eq_none.2 fun x m => by rw [p x m]; exact Bool.false_ne_true]

/-! ## What the creation of a hive changes -/

/-- A comb made ready leaves the hives, and a wrap key that is good stays so. -/
theorem prepareComb_keeps (k : Comb) (w : s.vault.wrapBad = false) :
    (prepareComb s k).he = s.he ∧ (prepareComb s k).vault.wrapBad = false := by
  unfold prepareComb
  split
  · split
    · exact ⟨rfl, w⟩
    · simp [markFresh, deriveCommonsKey, loadSlot, lineKey, drawDrbg, w]
  · exact ⟨rfl, w⟩

theorem prepareCombs_keep (l : List (Nat × Comb)) (s : State) (w : s.vault.wrapBad = false) :
    (l.foldl (fun t k => prepareComb t k.2) s).he = s.he ∧
      (l.foldl (fun t k => prepareComb t k.2) s).vault.wrapBad = false := by
  induction l generalizing s with
  | nil => exact ⟨rfl, w⟩
  | cons k l ih =>
    obtain ⟨he, w'⟩ := prepareComb_keeps k.2 w
    obtain ⟨he', w''⟩ := ih _ w'
    exact ⟨he'.trans he, w''⟩

/-- A hive's next key stands in its slot, with the next generation. -/
theorem deriveHiveKey_spec (w : s.vault.wrapBad = false) :
    hiveAt (deriveHiveKey s h) h = { hiveAt s h with keyGen := Nat.min (2 ^ 32 - 1) ((hiveAt s h).keyGen + 1) } ∧
      (slotAt (deriveHiveKey s h) h).gen = Nat.min (2 ^ 32 - 1) ((hiveAt s h).keyGen + 1) ∧
      (slotAt (deriveHiveKey s h) h).loaded = true ∧ (deriveHiveKey s h).he.creates = s.he.creates := by
  have e : deriveHiveKey s h = setSlot (setHive (drawDrbg s 48).2 h (fun x =>
      { x with keyGen := Nat.min (2 ^ 32 - 1) ((hiveAt s h).keyGen + 1) })) h (fun o =>
        { o with loaded := true, gen := Nat.min (2 ^ 32 - 1) ((hiveAt s h).keyGen + 1)
                 material := (lineKey s "HX1 hive" (leBytes 1 h ++ leBytes 4 (Nat.min (2 ^ 32 - 1) ((hiveAt s h).keyGen + 1)))).1
                 hashKey := hashKeyOf (lineKey s "HX1 hive" (leBytes 1 h ++ leBytes 4 (Nat.min (2 ^ 32 - 1) ((hiveAt s h).keyGen + 1)))).1
                 wrapped := Config.keyWrap s.vault.wrapKey (lineKey s "HX1 hive" (leBytes 1 h ++ leBytes 4 (Nat.min (2 ^ 32 - 1) ((hiveAt s h).keyGen + 1)))).1 }) :=
    if_neg (by rw [Bool.not_eq_true]; exact w)
  rw [e, slotAt_setSlot, hiveAt_setSlot, hiveAt_setHive]
  exact ⟨rfl, rfl, rfl, rfl⟩

/-- The clusters that join are under power, of the hive, and JOINING. -/
theorem joinClusters_spec (cl : List Nat) (s : State) (n : Nat) (m : n ∈ cl ∨ ((clusterAt s n).state = .joining ∧
      (clusterAt s n).hive = h ∧ (clusterAt s n).pwrEn = true)) :
    (clusterAt (joinClusters s h cl) n).state = .joining ∧ (clusterAt (joinClusters s h cl) n).hive = h ∧
      (clusterAt (joinClusters s h cl) n).pwrEn = true := by
  induction cl generalizing s with
  | nil => exact m.resolve_left List.not_mem_nil
  | cons k cl ih =>
    refine ih _ ?_
    by_cases e : n = k
    · rw [e, clusterAt_setCluster]
      exact .inr ⟨rfl, rfl, rfl⟩
    · rw [clusterAt_setCluster_ne _ _ _ _ e]
      exact m.imp_left fun i => (List.mem_cons.1 i).resolve_left e

theorem joinClusters_eq (cl : List Nat) (s : State) : ∃ k, joinClusters s h cl = s.onHe (fun e =>
    { e with clusters := k }) :=
  Launches.foldl_setCluster_eq _ s

theorem foldl_setLabel_eq (f : Label → Label) (l : List Nat) (s : State) :
    ∃ k, l.foldl (fun t n => setLabel t n f) s = s.onRg (fun r => { r with labels := k }) := by
  induction l generalizing s with
  | nil => exact ⟨s.rg.labels, rfl⟩
  | cons n l ih =>
    obtain ⟨k, e⟩ := ih (setLabel s n f)
    exact ⟨k, e⟩

/-- R35, R56, R57: the hive that a creation leaves. -/
theorem createHive_spec (x : Hive) (cl : List Nat) (g : (hiveAt s h).keyGen < 2 ^ 32 - 1) (w : s.vault.wrapBad = false) :
    let u := createHive s c h x cl
    (hiveAt u h).state = .creating ∧ (hiveAt u h).masked = true ∧ (hiveAt u h).combs = x.combs ∧
      (hiveAt u h).colony = x.colony ∧ (hiveAt u h).keyGen = (hiveAt s h).keyGen + 1 ∧
      (hiveAt u h).labelFirst = x.labelFirst ∧ (hiveAt u h).vecFirst = x.vecFirst ∧
      (slotAt u h).gen = (hiveAt s h).keyGen + 1 ∧ (slotAt u h).loaded = true ∧
      u.he.creates = s.he.creates ++ [{ hive := h, chan := c }] ∧
      (∀ n ∈ cl, (clusterAt u n).state = .joining ∧ (clusterAt u n).hive = h ∧ (clusterAt u n).pwrEn = true) := by
  obtain ⟨he, w'⟩ := prepareCombs_keep x.combs s w
  have old : hiveAt (x.combs.foldl (fun t k => prepareComb t k.2) s) h = hiveAt s h := by rw [hiveAt, he]; rfl
  have cr : (x.combs.foldl (fun t k => prepareComb t k.2) s).he.creates = s.he.creates := by rw [he]
  intro u
  have e : u = _ := if_neg (by rw [Bool.not_eq_true]; exact w)
  clear_value u
  subst e
  revert old cr w'
  generalize x.combs.foldl (fun t k => prepareComb t k.2) s = v
  intro w' old cr
  have hv : hiveAt (setHive v h (fun o => { x with keyGen := o.keyGen, state := .creating, masked := true })) h =
      { x with keyGen := (hiveAt s h).keyGen, state := .creating, masked := true } := by rw [hiveAt_setHive, old]
  obtain ⟨h1, s1, l1, c1⟩ := deriveHiveKey_spec (s := setHive v h (fun o =>
    { x with keyGen := o.keyGen, state := .creating, masked := true })) (h := h) w'
  rw [hv, show Nat.min (2 ^ 32 - 1) ((hiveAt s h).keyGen + 1) = (hiveAt s h).keyGen + 1 from Nat.min_eq_right (by omega)]
    at h1
  rw [hv, show Nat.min (2 ^ 32 - 1) ((hiveAt s h).keyGen + 1) = (hiveAt s h).keyGen + 1 from Nat.min_eq_right (by omega)]
    at s1
  replace c1 := c1.trans cr
  generalize deriveHiveKey (setHive v h (fun o => { x with keyGen := o.keyGen, state := .creating, masked := true })) h =
    y at *
  have join := joinClusters_spec (h := h) cl y
  obtain ⟨k, jc⟩ := joinClusters_eq (h := h) cl y
  have j1 : hiveAt (joinClusters y h cl) h = hiveAt y h := by rw [jc]; rfl
  have j2 : slotAt (joinClusters y h cl) h = slotAt y h := by rw [jc]; rfl
  have j3 : (joinClusters y h cl).he.creates = y.he.creates := by rw [jc]; rfl
  generalize joinClusters y h cl = z at *
  obtain ⟨lb, se⟩ := foldl_setLabel_eq (fun _ => { Label.empty with hive := h }) (labelsOf z h) z
  rw [se]
  have k1 : hiveAt ((z.onRg (fun r => { r with labels := lb })).onHe (fun e =>
    { e with creates := e.creates ++ [{ hive := h, chan := c }] })) h = hiveAt z h := rfl
  have k2 : slotAt ((z.onRg (fun r => { r with labels := lb })).onHe (fun e =>
    { e with creates := e.creates ++ [{ hive := h, chan := c }] })) h = slotAt z h := rfl
  rw [k1, k2, j1, j2, h1, s1, l1]
  exact ⟨rfl, rfl, rfl, rfl, rfl, rfl, rfl, rfl, rfl, congrArg (· ++ [_]) (j3.trans c1), fun n m => join n (.inl m)⟩

/-- Settles O21. -/
theorem hiveCreateAndResize : Obligations.HiveCreateAndResize := by
  refine ⟨fun s c h ga t bs r n a i z g f k d => ?_, fun s c h x cl g w => createHive_spec x cl g w, fun s c h ga r n =>
    ?_,
    fun s c h ga t bs u cs r a i z le ga' i' z' g ac el f k => ?_⟩
  · refine (Laws.runInstr_of_runsOp r _ rfl _ : execHiveCreate c s = _).trans (congrArg _ ?_)
    dsimp only
    rw [if_neg (by rw [n]; exact Bool.false_ne_true), Laws.withImage_of_imageOf _ i a]
    exact checked_passes (by simp [z, g, f, k, d]) _
  · refine (Laws.runInstr_of_runsOp r _ rfl _ : execHiveCreate c s = _).trans (congrArg _ ?_)
    exact if_pos n
  · refine (Laws.runInstr_of_runsOp r _ rfl _ : execHiveResize c s = _).trans (congrArg _ ?_)
    dsimp only
    rw [Laws.withImage_of_imageOf _ i a, if_neg (by rw [z]; decide), if_neg (by omega), Laws.withImage_of_imageOf _ i' a]
    have fr : (resizeAdds u h (bitmapAt (imgWord cs) 0)).any (fun i => (clusterAt u i).state != .free) = false := by
      simp only [List.any_eq_false, bne_iff_ne, ne_eq, not_not]
      exact fun i m => (f i m).1
    have gu : (decide ((hiveAt u h).chGuarantee < fld (imgWord cs 4) 0 10) &&
        decide (channelsInService u < guaranteed u h + fld (imgWord cs 4) 0 10)) = false := by
      rcases k with k | k <;> simp [k]
    exact checked_passes (by simp only [List.forall_mem_cons, z', g, ac, el, fr, gu]; simp) _

end Sys2Proof.HiveRows
end

section
/-! The hives, apart from what their tenants' own instructions and counts change. -/
namespace Sys2Proof.Frame
open Sys2Proof.Machine Sys2Proof.Safety
variable {s t u : State}

/-- A hive without its launches and its counts. -/
def bareHive (x : Hive) : Hive :=
  { x with launchSeq := 0, launchQ := [], alarms := 0, alarmRaised := false, refusals := 0, refusalsWin := 0, firstRefusal := 0
           refusedRaised := false, irqSent := 0, missRaised := false }

/-- The hive engine's jobs, and its hives bare. -/
def hives (s : State) : HiveEngine × (Nat → Hive) := ({ s.he with hives := [], clusters := [] }, fun h =>
  bareHive (hiveAt s h))

theorem Same.hive_state (k : Same hives s t) (h : Nat) : (hiveAt t h).state = (hiveAt s h).state :=
  (congrArg (fun x => (x.2 h).state) k : ((hives t).2 h).state = ((hives s).2 h).state)

theorem Same.hive_masked (k : Same hives s t) (h : Nat) : (hiveAt t h).masked = (hiveAt s h).masked :=
  (congrArg (fun x => (x.2 h).masked) k : ((hives t).2 h).masked = ((hives s).2 h).masked)

theorem Same.migrations (k : Same hives s t) : t.he.migrations = s.he.migrations :=
  (congrArg (fun x => x.1.migrations) k : (hives t).1.migrations = (hives s).1.migrations)

theorem hives_setHive {h f} (k : Same hives s t) (hf : ∀ x, bareHive (f x) = bareHive x) : Same hives s (setHive t h f) :=
    by
  refine k.trans (Prod.ext rfl (funext fun n => ?_))
  show bareHive (hiveAt (setHive t h f) n) = bareHive (hiveAt t n)
  by_cases e : n = h
  · rw [e, hiveAt_setHive, hf]
  · rw [hiveAt_setHive_ne _ _ _ _ e]

/-- Each hive of the table is brought forward by a function that leaves it bare. -/
theorem hives_mapHives {g : Nat → Hive → Hive} (k : Same hives s t) (hf : ∀ n x, bareHive (g n x) = bareHive x) :
    Same hives s (t.onHe (fun e => { e with hives := Tab.mapv e.hives g })) := by
  refine k.trans (Prod.ext rfl (funext fun n => ?_))
  show bareHive (hiveAt (t.onHe _) n) = bareHive (hiveAt t n)
  simp only [hiveAt, State.onHe_he, Tab.look_mapv]
  cases Tab.look t.he.hives n with
  | none => rfl
  | some x => exact hf n x

theorem hives_setCluster {n f} (k : Same hives s t) : Same hives s (setCluster t n f) := k
theorem hives_onClk {f} (k : Same hives s t) : Same hives s (t.onClk f) := k

theorem hives_onVault {f} (k : Same hives s t) : Same hives s (t.onVault f) := k

theorem hives_onQm {f} (k : Same hives s t) : Same hives s (t.onQm f) := k
theorem hives_onMv {f} (k : Same hives s t) : Same hives s (t.onMv f) := k
theorem hives_onXl {f} (k : Same hives s t) : Same hives s (t.onXl f) := k
theorem hives_onPr {f} (k : Same hives s t) : Same hives s (t.onPr f) := k
theorem hives_onSw {f} (k : Same hives s t) : Same hives s (t.onSw f) := k
theorem hives_onRg {f} (k : Same hives s t) : Same hives s (t.onRg f) := k
theorem hives_onSq {f} (k : Same hives s t) : Same hives s (t.onSq f) := k
theorem hives_onBr {f} (k : Same hives s t) : Same hives s (t.onBr f) := k
theorem hives_emit {o} (k : Same hives s t) : Same hives s (emit t o) := k
theorem hives_withPorts {p : Tab Port} (k : Same hives s t) : Same hives s { t with ports := p } := k
theorem hives_withFree {n : Nat} (k : Same hives s t) : Same hives s { t with free := n } := k
theorem hives_setChan {c f} (k : Same hives s t) : Same hives s (setChan t c f) := k

theorem hives_drawNat (k : Same hives s t) : Same hives s (drawNat t).2 :=
  hives_withFree k

theorem hives_drawBytes {n} (k : Same hives s t) : Same hives s (drawBytes t n).2 :=
  hives_withFree k

theorem hives_setClock {d f} (k : Same hives s t) : Same hives s (setClock t d f) := by
  unfold setClock
  split
  · exact hives_onClk k
  · exact hives_onClk k

theorem hives_requestClock {d} (k : Same hives s t) : Same hives s (requestClock t d) :=
  same_ite k (hives_emit (hives_setClock k))

theorem hives_demand {d} (k : Same hives s t) : Same hives s (demand t d) := by
  unfold demand
  refine same_ite k ?_
  split
  · exact hives_requestClock k
  · exact hives_requestClock (hives_requestClock k)

theorem hives_wakeStream (k : Same hives s t) : Same hives s (wakeStream t) :=
  same_ite k (hives_demand k)

theorem hives_logErr {l} (k : Same hives s t) : Same hives s (logErr t l) :=
  same_ite (hives_onBr k) (hives_onBr k)

theorem hives_setCtx {c f} (k : Same hives s t) : Same hives s (setCtx t c f) :=
  hives_onQm k

theorem hives_setQueue {q f} (k : Same hives s t) : Same hives s (setQueue t q f) :=
  hives_onQm k

theorem hives_setLabel {l f} (k : Same hives s t) : Same hives s (setLabel t l f) :=
  hives_onRg k

theorem hives_setMover {m f} (k : Same hives s t) : Same hives s (setMover t m f) :=
  hives_onMv k

theorem hives_setSlice {a f} (k : Same hives s t) : Same hives s (setSlice t a f) :=
  hives_onPr k

theorem hives_useTweak {keySel line} (k : Same hives s t) : Same hives s (useTweak t keySel line) :=
  hives_onPr k

theorem hives_setCond {line c} (k : Same hives s t) : Same hives s (setCond t line c) :=
  hives_onPr k

theorem hives_logDirty {a} (k : Same hives s t) : Same hives s (logDirty t a) :=
  hives_onXl k

theorem hives_storeLine {line bytes} (k : Same hives s t) : Same hives s (storeLine t line bytes) :=
  hives_logDirty (hives_onPr (hives_setSlice k))

theorem hives_setPort {p f} (k : Same hives s t) : Same hives s (setPort t p f) :=
  hives_withPorts k

theorem hives_answerReq {h st data} (k : Same hives s t) : Same hives s (answerReq t h st data) :=
  hives_emit k

theorem hives_wakeLines (k : Same hives s t) : Same hives s (wakeLines t) :=
  hives_onMv k

theorem hives_trySend {h} (k : Same hives s t) (e : trySend t h = some u) : Same hives s u := by
  unfold trySend at e
  dsimp only at e
  split at e
  · split at e
    · cases e
    · cases e
      exact hives_wakeLines (hives_onPr k)
  · split at e
    · cases e
    · split at e
      · split at e
        · cases e
        · obtain ⟨_, -, rfl⟩ := Option.map_eq_some_iff.1 e
          exact hives_emit (hives_emit (hives_setPort k))
      · obtain ⟨_, -, rfl⟩ := Option.map_eq_some_iff.1 e
        exact hives_emit (hives_setPort k)

theorem hives_passOver {served waiting} (k : Same hives s t) : Same hives s (passOver t served waiting) :=
  same_foldl (fun _ _ => hives_setLabel (hives_drawNat (same_refl _))) k

theorem hives_drainPort {n p} (k : Same hives s t) : Same hives s (drainPort t p n) := by
  induction n generalizing t with
  | zero => exact k
  | succ n ih =>
    rw [drainPort]
    split
    · exact k
    · split
      · rename_i e
        exact ih (hives_passOver (hives_setPort (hives_trySend k e)))
      · exact k

theorem hives_sendOut {h} (k : Same hives s t) : Same hives s (sendOut t h) :=
  hives_drainPort (hives_setPort (hives_useTweak k))

theorem hives_wakeHome {line a3} (k : Same hives s t) : Same hives s (wakeHome t line a3) :=
  same_ite (hives_setMover k) k

theorem hives_addLock {a rmw waiting} (k : Same hives s t) : Same hives s (addLock t a rmw waiting) :=
  hives_onPr k

theorem hives_lineRequest {h} (k : Same hives s t) : Same hives s (lineRequest t h) :=
  same_ite (hives_onPr k) (same_ite (hives_onPr k) (same_ite (hives_addLock k)
    (same_ite (same_ite (hives_onPr k) (hives_sendOut (hives_addLock k))) (hives_sendOut k))))

theorem hives_putSlice {a2 v} (k : Same hives s t) : Same hives s (putSlice t a2 v) :=
  hives_onPr k

theorem hives_beginFill {a2} (k : Same hives s t) : Same hives s (beginFill t a2) :=
  same_ite k (hives_emit (same_foldl (fun _ _ => hives_useTweak (same_refl _)) (hives_onPr (hives_putSlice k))))

theorem hives_openSlice {h} (k : Same hives s t) : Same hives s (openSlice t h) :=
  hives_beginFill (hives_onPr (hives_setSlice k))

theorem hives_awaitSlice {h} (k : Same hives s t) : Same hives s (awaitSlice t h) :=
  hives_onPr k

theorem hives_emptySlot {hive line} (k : Same hives s t) : Same hives s (emptySlot t hive line) :=
  hives_logErr k

theorem hives_wakeUnit {p} (k : Same hives s t) : Same hives s (wakeUnit t p) :=
  same_ite (hives_onPr k) k

theorem hives_arrive {h} (k : Same hives s t) : Same hives s (arrive t h) := by
  unfold arrive
  refine same_ite (hives_answerReq (hives_emptySlot (hives_wakeHome (hives_wakeUnit k)))) ?_
  split
  · exact same_ite (hives_answerReq (hives_wakeHome (hives_wakeUnit k)))
      (same_ite (hives_answerReq (hives_wakeHome (hives_wakeUnit k)))
      (same_ite (hives_answerReq (hives_wakeHome (hives_wakeUnit k)))
      (hives_openSlice (hives_awaitSlice (hives_wakeHome (hives_wakeUnit k))))))
  · exact hives_awaitSlice (hives_wakeHome (hives_wakeUnit k))
  · exact same_ite (hives_answerReq (hives_wakeHome (hives_wakeUnit k)))
      (hives_lineRequest (hives_wakeHome (hives_wakeUnit k)))

theorem hives_releaseLine {a} (k : Same hives s t) : Same hives s (releaseLine t a) :=
  same_ite k (hives_wakeLines (same_foldl (fun _ _ => hives_arrive (same_refl _))
    (hives_onPr (same_foldl (fun _ _ => hives_arrive (same_refl _)) (hives_onPr k)))))

theorem hives_dropWhere {p} (k : Same hives s t) : Same hives s (dropWhere t p) :=
  same_ite k (same_foldl (fun _ _ => hives_releaseLine (same_refl _)) (hives_onPr (hives_withPorts k)))

theorem hives_dropTickets {o} (k : Same hives s t) : Same hives s (dropTickets t o) :=
  hives_dropWhere k

theorem hives_showRead {line level} (k : Same hives s t) : Same hives s (showRead t line level) :=
  hives_emit k

theorem hives_showCipher {keySel line level poison cipher} (k : Same hives s t) :
    Same hives s (showCipher t keySel line level poison cipher) :=
  hives_emit (hives_emit k)

theorem hives_showWrite {keySel line level plain} (k : Same hives s t) :
    Same hives s (showWrite t keySel line level plain) :=
  hives_showCipher k

theorem hives_poisonLine {keySel line level} (k : Same hives s t) : Same hives s (poisonLine t keySel line level) :=
  hives_showCipher (hives_setCond (hives_drawBytes k))

theorem hives_meetLine {hive keySel line level} (k : Same hives s t) :
    Same hives s (meetLine t hive keySel line level).1 := by
  unfold meetLine
  split
  · dsimp only
    exact k
  · dsimp only
    exact k
  · split
    · dsimp only
      exact hives_logErr (hives_poisonLine k)
    · dsimp only
      exact hives_poisonLine k
  · dsimp only
    exact same_ite (hives_poisonLine (hives_drawNat (hives_logErr k))) (hives_drawNat (hives_logErr k))

theorem hives_coreWrite {hive keySel line a5 level} (k : Same hives s t) :
    Same hives s (coreWrite t hive keySel line a5 level).1 := by
  unfold coreWrite
  dsimp only
  split
  · dsimp only
    exact hives_emptySlot (hives_wakeHome (hives_wakeUnit k))
  · split
    · dsimp only
      exact hives_wakeHome (hives_wakeUnit k)
    · split
      · dsimp only
        exact hives_storeLine (hives_showWrite (hives_useTweak (hives_wakeHome (hives_wakeUnit k))))
      · split
        · dsimp only
          exact hives_storeLine (hives_showWrite (hives_meetLine
            (hives_useTweak (hives_showRead (hives_wakeHome (hives_wakeUnit k))))))
        · dsimp only
          exact hives_meetLine (hives_useTweak (hives_showRead (hives_wakeHome (hives_wakeUnit k))))

theorem hives_charge {lab bytes} (k : Same hives s t) : Same hives s (charge t lab bytes) :=
  same_ite k (hives_setLabel k)

theorem hives_pendMessage {vector hive} (k : Same hives s t) : Same hives s (pendMessage t vector hive) :=
  same_ite k (hives_onSq k)

theorem hives_tablePut {line w go} (hgo : ∀ x, Same hives x (go x).1) (k : Same hives s t) :
    Same hives s (tablePut t line w go).1 := by
  unfold tablePut
  split
  · exact hives_arrive k
  · exact k.trans (hgo t)

theorem hives_eventBy {write code hive a0 a1} (hw : ∀ x a b, Same hives x (write x a b)) (k : Same hives s t) :
    Same hives s (eventBy write t code hive a0 a1) := by
  have kw := fun a b => k.trans (hw t a b)
  unfold eventBy
  dsimp only
  split
  · exact same_ite (hives_pendMessage (hives_onSq (kw _ _))) (hives_onSq (kw _ _))
  · exact hives_onSq k

theorem hives_alarmBy {event hive keySel line ctx off st} (he : ∀ x a b c d, Same hives x (event x a b c d)) (k :
    Same hives s t) :
    Same hives s (alarmBy event t hive keySel line ctx off st) := by
  have m {t n} (k : Same hives s t) : Same hives s (setHive t n (fun h =>
    { h with alarms := h.alarms + 1, alarmRaised := true })) :=
    hives_setHive k fun _ => rfl
  unfold alarmBy
  dsimp only
  exact same_ite (m (hives_logErr k)) ((m (hives_logErr k)).trans (he _ _ _ _ _))

theorem hives_recordBy {alarm a bytes} (ha : ∀ x b c d, Same hives x (alarm x b c d)) (k : Same hives s t) :
    Same hives s (recordBy alarm t a bytes).1 :=
  hives_tablePut (fun _ => same_ite ((hives_coreWrite (same_refl _)).trans (ha _ _ _ _)) (hives_coreWrite (same_refl _)))
    (hives_wakeStream k)

theorem hives_alarmEvent {code hive a0 a1} (k : Same hives s t) : Same hives s (alarmEvent t code hive a0 a1) :=
  hives_eventBy (fun _ _ _ => hives_recordBy (fun _ _ _ _ => hives_alarmBy (fun _ _ _ _ _ => same_refl _) (same_refl _))
    (same_refl _)) k

theorem hives_writeRecord {a bytes} (k : Same hives s t) : Same hives s (writeRecord t a bytes).1 :=
  hives_recordBy (fun _ _ _ _ => hives_alarmBy (fun _ _ _ _ _ => hives_alarmEvent (same_refl _)) (same_refl _)) k

theorem hives_hiveEvent {code hive a0 a1} (k : Same hives s t) : Same hives s (hiveEvent t code hive a0 a1) :=
  hives_eventBy (fun _ _ _ => hives_writeRecord (same_refl _)) k

theorem hives_securityAlarm {hive keySel line ctx off st} (k : Same hives s t) :
    Same hives s (securityAlarm t hive keySel line ctx off st) :=
  hives_alarmBy (fun _ _ _ _ _ => hives_hiveEvent (same_refl _)) k

theorem hives_homeWrite {hive keySel line a5 level ctx off} (k : Same hives s t) :
    Same hives s (homeWrite t hive keySel line a5 level ctx off).1 :=
  same_ite (hives_securityAlarm (hives_coreWrite k)) (hives_coreWrite k)

theorem hives_tableWrite {a bytes} (k : Same hives s t) : Same hives s (tableWrite t a bytes).1 :=
  hives_tablePut (fun _ => hives_homeWrite (same_refl _)) (hives_charge k)

theorem hives_setLink {l f} (k : Same hives s t) : Same hives s (setLink t l f) :=
  hives_onSw k

theorem hives_setFlow {peer f} (k : Same hives s t) : Same hives s (setFlow t peer f) :=
  hives_onSw k

theorem hives_unwait {p} (k : Same hives s t) : Same hives s (unwait t p) :=
  hives_onSw k

theorem hives_oweCredit {l f} (k : Same hives s t) : Same hives s (oweCredit t l f) :=
  same_ite (hives_setLink k) k

theorem hives_dropForward {link f} (k : Same hives s t) : Same hives s (dropForward t link f) :=
  hives_oweCredit (hives_onSw k)

theorem hives_enqueue {w} (k : Same hives s t) : Same hives s (enqueue t w) :=
  hives_onSw k

theorem hives_routeOwn {peer f} (k : Same hives s t) : Same hives s (routeOwn t peer f).1 := by
  unfold routeOwn
  split
  · dsimp only
    exact k
  · dsimp only
    exact hives_unwait (hives_setFlow k)

theorem hives_requeue {w} (k : Same hives s t) : Same hives s (requeue t w) := by
  unfold requeue
  split
  · exact hives_enqueue k
  · exact hives_dropForward k

theorem hives_dropLink {l} (k : Same hives s t) : Same hives s (dropLink t l) := by
  unfold dropLink
  refine same_foldl (fun x e => same_foldl (fun y w => ?_) (same_refl _))
    (same_foldl (fun x w => hives_requeue (same_refl _))
    (hives_onSw (hives_onVault (hives_setLink k))))
  have r := hives_routeOwn (same_refl y) (peer := e.1) (f := w.frame)
  split
  · rename_i q
    exact hives_enqueue (same_fst r q)
  · rename_i q
    exact same_fst r q

theorem hives_putFrame {l f} (k : Same hives s t) : Same hives s (putFrame t l f) :=
  same_ite (hives_dropLink (hives_emit (hives_setLink k))) (hives_emit (hives_setLink k))

theorem hives_sendFwd {w} (k : Same hives s t) : Same hives s (sendFwd t w) :=
  same_ite (hives_putFrame k) (hives_oweCredit (hives_putFrame k))

theorem hives_sendOrWait {w} (k : Same hives s t) : Same hives s (sendOrWait t w) :=
  same_ite (hives_sendFwd k) (hives_enqueue k)

theorem hives_sendCtl {peer f} (k : Same hives s t) : Same hives s (sendCtl t peer f) := by
  unfold sendCtl
  split
  · exact hives_putFrame k
  · exact k

theorem hives_sendOpen {peer reply} (k : Same hives s t) : Same hives s (sendOpen t peer reply) := by
  unfold sendOpen
  split
  · exact k
  · exact hives_sendCtl k

theorem hives_transmit {peer f} (k : Same hives s t) : Same hives s (transmit t peer f) := by
  unfold transmit
  split
  · rename_i e
    exact hives_sendOrWait (same_fst (hives_routeOwn k) e)
  · rename_i e
    exact same_fst (hives_routeOwn k) e

theorem hives_closeFlow {peer} (k : Same hives s t) : Same hives s (closeFlow t peer) :=
  hives_setFlow (hives_sendCtl k)

theorem hives_freeEntry (k : Same hives s t) : Same hives s (freeEntry t) := by
  unfold freeEntry
  dsimp only
  refine same_ite k ?_
  split
  · exact hives_closeFlow (hives_drawNat k)
  · exact k

theorem hives_enterFlow {peer} (k : Same hives s t) : Same hives s (enterFlow t peer) :=
  same_ite (hives_sendOpen (hives_setFlow (hives_onSw (hives_freeEntry k)))) (hives_freeEntry k)

theorem hives_takeFlow {peer} (k : Same hives s t) : Same hives s (takeFlow t peer) := by
  unfold takeFlow
  split
  · exact same_ite (hives_enterFlow (hives_onSw k)) k
  · exact hives_enterFlow (hives_onSw k)

theorem hives_sendSeq {peer f} (k : Same hives s t) : Same hives s (sendSeq t peer f).1 := by
  unfold sendSeq
  dsimp only
  split
  · dsimp only
    exact hives_takeFlow k
  · split
    · dsimp only
      exact hives_transmit (hives_setFlow (hives_takeFlow k))
    · dsimp only
      exact hives_setFlow (hives_setFlow (hives_takeFlow k))

theorem hives_putFault {bytes} (k : Same hives s t) : Same hives s (putFault t bytes) :=
  same_ite (hives_pendMessage (hives_onXl (hives_tableWrite k))) (hives_onXl (hives_tableWrite k))

theorem hives_drainFaults {n} (k : Same hives s t) : Same hives s (drainFaults t n) := by
  induction n generalizing t with
  | zero => exact k
  | succ n ih =>
    rw [drainFaults]
    refine same_ite k ?_
    split
    · exact ih (hives_putFault (hives_onXl k))
    · split
      · exact same_ite (ih (hives_onXl (hives_putFault (hives_onXl k)))) k
      · exact k

theorem hives_drainAll (k : Same hives s t) : Same hives s (drainAll t) :=
  hives_drainFaults k

theorem hives_dropForager {c} (k : Same hives s t) : Same hives s (dropForager t c) :=
  hives_onXl k

theorem hives_dropRequester {r} (k : Same hives s t) : Same hives s (dropRequester t r) :=
  hives_drainAll (hives_onXl k)

theorem hives_dropWaits {c} (k : Same hives s t) : Same hives s (dropWaits t c) :=
  hives_onQm k

theorem hives_cancelRemoteWaits {c} (k : Same hives s t) : Same hives s (cancelRemoteWaits t c) :=
  same_foldl (fun _ _ => hives_sendSeq (same_refl _)) (hives_onSw k)

theorem hives_spadLose {n} (k : Same hives s t) : Same hives s (spadLose t n) := k

theorem hives_clearPins {n} (k : Same hives s t) : Same hives s (clearPins t n) :=
  same_ite (hives_emit (hives_emit k)) k

theorem hives_clearCluster {n dest} (k : Same hives s t) : Same hives s (clearCluster t n dest) :=
  hives_spadLose (hives_clearPins (hives_setCluster k))

theorem hives_freeKernel {n} (k : Same hives s t) : Same hives s (freeKernel t n) :=
  same_ite (hives_clearCluster k) (hives_setCluster k)

theorem hives_releaseClusters {c} (k : Same hives s t) : Same hives s (releaseClusters t c) :=
  hives_setChan (same_foldl (fun _ _ => hives_freeKernel (same_refl _)) k)

theorem hives_chargeKernel {c} (k : Same hives s t) : Same hives s (chargeKernel t c) :=
  hives_setChan (hives_drawNat k)

theorem hives_endKernels {c} (k : Same hives s t) : Same hives s (endKernels t c) := by
  have m := hives_mapHives (g := fun _ h => { h with launchQ := h.launchQ.filter (fun l => l.chan != c) }) k fun _ _ =>
    rfl
  exact hives_releaseClusters (same_ite (same_foldl (fun _ _ => hives_spadLose (hives_emit (same_refl _)))
    (same_foldl (fun _ _ => hives_chargeKernel (same_refl _)) m)) m)

theorem hives_letGo {c} (k : Same hives s t) : Same hives s (letGo t c) :=
  hives_endKernels (hives_dropTickets (hives_dropForager (hives_dropRequester
    (hives_cancelRemoteWaits (hives_dropWaits k)))))

theorem hives_abortChan {c st inKill} (k : Same hives s t) : Same hives s (abortChan t c st inKill) :=
  same_ite k (hives_setChan (hives_letGo k))

theorem hives_retire {c st} (k : Same hives s t) : Same hives s (retire t c st) :=
  same_ite k (same_ite (hives_setChan (same_ite k (hives_letGo k))) (hives_abortChan (hives_setChan k)))

theorem hives_releasePins {q idx} (k : Same hives s t) : Same hives s (releasePins t q idx) :=
  hives_onQm k

theorem hives_dropCmd {q idx} (k : Same hives s t) : Same hives s (dropCmd t q idx) :=
  hives_onQm (hives_dropRequester (hives_releasePins k))

theorem hives_startKill {ctx chan noRecords} (k : Same hives s t) : Same hives s (startKill t ctx chan noRecords) :=
  same_foldl (fun _ _ => hives_abortChan (same_refl _)) (hives_onQm
    (same_foldl (fun _ _ => hives_dropCmd (same_refl _)) (same_foldl (fun _ _ => hives_setQueue (same_refl _))
    (hives_setCtx k))))

theorem hives_clearClusters {h teardown} (k : Same hives s t) : Same hives s (clearClusters t h teardown) := by
  unfold clearClusters
  refine same_foldl ?_ k
  intro _ _
  split
  · exact same_ite (hives_clearCluster (same_refl _)) (same_refl _)
  · exact hives_clearCluster (same_refl _)
  · exact hives_clearCluster (same_refl _)
  · exact same_ite (hives_setCluster (same_refl _)) (same_refl _)
  · exact same_refl _

end Sys2Proof.Frame
end

section
/-! Hives: their sequences, colonies, resumption and combs (R48, R50, R55, R62, R68, R75, R76, R95, R194, R204). -/
namespace Sys2Proof.HiveRows
open Sys2Proof.Machine Sys2Proof.Safety Sys2Proof.Frame
variable {s t : State} {c h : Nat}

theorem checked_skip {l : List (Bool × Status)} {b : Bool} {st : Status} (p : b = false) (e : State) :
    checked s c ((b, st) :: l) e = checked s c l e := by
  rw [checked, List.find?_cons_of_neg (by rw [p]; exact Bool.false_ne_true)]; rfl

theorem checked_first {l : List (Bool × Status)} {b : Bool} {st : Status} (p : b = true) (e : State) :
    checked s c ((b, st) :: l) e = retire s c st := by
  rw [checked, List.find?_cons_of_pos p]

/-- The two checks of a sequence: its object is not number 0, and is in a state that admits it. -/
theorem checked_sequence {n : Nat} {ok : Bool} (z : n ≠ 0) (p : ok = true) (e : State) :
    checked s c [(n == 0, .range), (!ok, .state)] e = e := by
  rw [checked_skip (by simp [z]), checked_skip (by rw [p]; rfl)]; rfl

theorem checked_sequence_refused {n : Nat} {ok : Bool} (z : n ≠ 0) (p : ok = false) (e : State) :
    checked s c [(n == 0, .range), (!ok, .state)] e = retire s c .state := by
  rw [checked_skip (by simp [z]), checked_first (by rw [p]; rfl)]

theorem checked_zero {l : List (Bool × Status)} (e : State) : checked s c ((0 == 0, .range) :: l) e = retire s c .range :=
  checked_first rfl e

theorem resetQueue_zero (unbind : Bool) : resetQueue s c 0 unbind = retire s c .range := by
  rw [resetQueue, checked_zero]

theorem resetQueue_starts {n : Nat} {unbind : Bool} (z : n ≠ 0) (p : (queueAt s n).state ∈ [QueueState.running, .stopped])
    :
    resetQueue s c n unbind = progress (startQueueReset (stall s c .job) n (some c) unbind) := by
  refine checked_sequence z ?_ _
  revert p; cases (queueAt s n).state <;> decide

theorem resetQueue_refused {n : Nat} {unbind : Bool} (z : n ≠ 0) (p :
    (queueAt s n).state ∉ [QueueState.running, .stopped]) :
    resetQueue s c n unbind = retire s c .state := by
  refine checked_sequence_refused z ?_ _
  revert p; cases (queueAt s n).state <;> decide

/-- The end of a hive's resizes and migrations leaves the hives as they were, but for their tenants' own counts. -/
theorem endHiveWork_hive (keep : Bool) (n : Nat) : (hiveAt (endHiveWork s h keep) n).state = (hiveAt s n).state ∧
    (hiveAt (endHiveWork s h keep) n).masked = (hiveAt s n).masked := by
  have k : Same hives (s.onHe (fun e => { e with
      resizes := e.resizes.filter (fun r => r.hive != h)
      migrations := if keep then e.migrations else e.migrations.filter (fun m => m.hive != h) })) (endHiveWork s h keep)
        :=
    same_foldl (fun _ _ => hives_retire (same_refl _)) (same_ite (same_refl _) (hives_onXl (same_refl _)))
  exact ⟨k.hive_state n, k.hive_masked n⟩

/-- R62: the reset that starts stands among the resets, its hive masked and in RESETTING or DESTROYING. -/
theorem startHiveReset_spec (chan : Option Nat) (cause detail : Nat) (noRec down : Bool) :
    let t := startHiveReset s h down chan cause detail noRec
    (hiveAt t h).state = (if down then .destroying else .resetting) ∧ (hiveAt t h).masked = true ∧
      ∃ r ∈ t.he.resets, r.hive = h ∧ r.teardown = down ∧ r.chan = chan ∧ r.step = 1 := by
  have k {u : State} {l : List Nat} : Same hives u (clearClusters (l.foldl (fun t c => startKill t c none noRec) u) h
    down) :=
    hives_clearClusters (same_foldl (fun _ _ => hives_startKill (same_refl _)) (same_refl _))
  refine ⟨(k.hive_state h).trans ((endHiveWork_hive _ h).1.trans ?_),
    (k.hive_masked h).trans ((endHiveWork_hive _ h).2.trans ?_), _,
    List.mem_append_right _ (List.mem_singleton_self _), rfl, rfl, rfl, rfl⟩
  · rw [hiveAt_setHive]
  · rw [hiveAt_setHive]

/-- Settles O22. -/
theorem hiveSequencesStartAndMask : Obligations.HiveSequencesStartAndMask := by
  refine ⟨fun s c h r z p => ?_, fun s c h r z p => ?_, fun s c n r z p => ?_, fun s c q r z p => ?_, fun s c q r z p =>
    ?_,
    fun s c r => ?_, fun s c r => ?_, fun s c r => ?_, fun s c r => ?_, fun s c r => ?_, fun s c h r z p => ?_,
    fun s c h r z p => ?_, fun s c n r z p => ?_, fun s c q r z p => ?_, fun s c q r z p => ?_,
    fun s h chan cause detail noRec down => startHiveReset_spec chan cause detail noRec down⟩
  · refine (Laws.runInstr_of_runsOp r _ rfl _ : execHiveReset c s = _).trans (congrArg _ (checked_sequence z ?_ _))
    revert p; cases (hiveAt s h).state <;> decide
  · refine (Laws.runInstr_of_runsOp r _ rfl _ : execHiveDestroy c s = _).trans (congrArg _ (checked_sequence z ?_ _))
    revert p; cases (hiveAt s h).state <;> decide
  · refine (Laws.runInstr_of_runsOp r _ rfl _ : execCtxKill c s = _).trans (congrArg _ (checked_passes ?_ _))
    simp [z, p]
  · exact (Laws.runInstr_of_runsOp r _ rfl _ : execQueueReset c s = _).trans (congrArg _ (resetQueue_starts z p))
  · exact (Laws.runInstr_of_runsOp r _ rfl _ : execQueueUnbind c s = _).trans (congrArg _ (resetQueue_starts z p))
  · exact (Laws.runInstr_of_runsOp r _ rfl _ : execHiveReset c s = _).trans (congrArg _ (checked_zero _))
  · exact (Laws.runInstr_of_runsOp r _ rfl _ : execHiveDestroy c s = _).trans (congrArg _ (checked_zero _))
  · exact (Laws.runInstr_of_runsOp r _ rfl _ : execCtxKill c s = _).trans (congrArg _ (checked_zero _))
  · exact (Laws.runInstr_of_runsOp r _ rfl _ : execQueueReset c s = _).trans (congrArg _ (resetQueue_zero _))
  · exact (Laws.runInstr_of_runsOp r _ rfl _ : execQueueUnbind c s = _).trans (congrArg _ (resetQueue_zero _))
  · refine (Laws.runInstr_of_runsOp r _ rfl _ : execHiveReset c s = _).trans
      (congrArg _ (checked_sequence_refused z ?_ _))
    revert p; cases (hiveAt s h).state <;> decide
  · refine (Laws.runInstr_of_runsOp r _ rfl _ : execHiveDestroy c s = _).trans
      (congrArg _ (checked_sequence_refused z ?_ _))
    revert p; cases (hiveAt s h).state <;> decide
  · refine (Laws.runInstr_of_runsOp r _ rfl _ : execCtxKill c s = _).trans (congrArg _ ?_)
    dsimp only
    rw [checked_skip (by simp [z]), checked_first (by simp [p])]
  · exact (Laws.runInstr_of_runsOp r _ rfl _ : execQueueReset c s = _).trans (congrArg _ (resetQueue_refused z p))
  · exact (Laws.runInstr_of_runsOp r _ rfl _ : execQueueUnbind c s = _).trans (congrArg _ (resetQueue_refused z p))

/-- Settles O23. -/
theorem colonyJoinAndResume : Obligations.ColonyJoinAndResume := by
  refine ⟨fun s c h col lo hi r z p => ?_, fun s c h r f n => ?_, fun s c h j r f e => ?_, fun s c h r f => ?_⟩
  · refine (Laws.runInstr_of_runsOp r _ rfl _ : execColonyJoin c s = _).trans (congrArg _ ?_)
    refine (checked_sequence z ?_ _).trans (Laws.retire_ok_ended (Laws.state_of_runsOp r))
    rcases p with p | p <;> rw [p] <;> decide
  · refine (Laws.runInstr_of_runsOp r _ rfl _ : execResume c s = _).trans (congrArg _ ?_)
    dsimp only
    rw [if_neg (not_not_intro f), List.filter_eq_nil_iff.2 fun m i => by simpa using n m i]
    exact Laws.retire_ok_ended (Laws.state_of_runsOp r)
  · refine (Laws.runInstr_of_runsOp r _ rfl _ : execResume c s = _).trans (congrArg _ ?_)
    dsimp only
    rw [if_neg (not_not_intro f), e]
    rfl
  · refine (Laws.runInstr_of_runsOp r _ rfl _ : execResume c s = _).trans (congrArg _ ?_)
    exact if_pos f

theorem grantable_iff : grantable s h = true ↔ (hiveAt s h).state = .active ∨ (hiveAt s h).state = .resizing := by
  simp [grantable]

theorem execCombGrantDetach_awaits {e : Nat} {ev : Bool} {k : Comb} (r : RunsOp s c (.combDetach h e ev))
    (l : Tab.look (hiveAt s h).combs e = some k) (co : k.commons = true) (g : grantable s h = true) :
    execCombGrantDetach c s = .next (let t := setHive s h (fun x => { x with combs := Tab.del x.combs e })
      await t c (fun u => (if ev then evictPins u (pinsIn s h k) else u).onQm (fun m =>
        { m with jobs := m.jobs ++ [{ chan := c, kind := .comb h e (some k) (pinsIn s h k) }] }))) := by
  refine (Laws.runInstr_of_runsOp r _ rfl _ : execCombGrantDetach c s = _).trans (congrArg _ ?_)
  dsimp only
  rw [l]
  exact checked_passes (by simp [co, g]) _

theorem execCombGrantRights_awaits {e r : Nat} {ev : Bool} {k : Comb} (o : RunsOp s c (.combRights h e ev r))
    (l : Tab.look (hiveAt s h).combs e = some k) (g : grantable s h = true) : execCombGrantRights c s = .next (
      let pins := if ev then (pinsIn s h k).filter (fun p => p.idx.isSome && p.q != 0) else []
      let t := setHive s h (fun x => { x with combs := Tab.put x.combs e (withRights k r) })
      await t c (fun u => (evictPins u pins).onQm (fun m => { m with jobs := m.jobs ++ [{ chan := c, kind := .comb h e none pins }] }))) := by
  refine (Laws.runInstr_of_runsOp o _ rfl _ : execCombGrantRights c s = _).trans (congrArg _ ?_)
  dsimp only
  rw [l]
  exact if_neg (by rw [g]; decide)

/-- Settles O24. -/
theorem combGrants : Obligations.CombGrants := by
  refine ⟨?_, fun s c h e r k o l g => execCombGrantRights_awaits (ev := false) o l g,
    fun s c h e r k o l g => execCombGrantRights_awaits (ev := true) o l g,
    fun s c h e k o l co g => execCombGrantDetach_awaits (ev := false) o l co g,
    fun s c h e k o l co g => execCombGrantDetach_awaits (ev := true) o l co g, fun s c h e r ev o l => ?_,
      fun s c h e ev o l => ?_⟩
  · intro s c h e ga t bs o i z k v ra co me no g ta he
    refine (Laws.runInstr_of_runsOp o _ rfl _ : execCombGrantAttach c s = _).trans (congrArg _ ?_)
    dsimp only
    rw [Laws.withImage_of_imageOf _ i (Nat.mod_one _)]
    have rights : (noHives t && !commonsHeld t k.keySel) = false := by rcases he with he | ⟨he, -⟩ <;> simp [he]
    have drbg : (!commonsHeld t k.keySel && !t.vault.drbgOn) = false := by rcases he with he | ⟨-, he, -⟩ <;> simp [he]
    have wrap : ¬ (t.vault.wrapBad && !commonsHeld t k.keySel) = true := by rcases he with he | ⟨-, -, he⟩ <;> simp [he]
    refine (checked_passes ?_ _).trans (if_neg wrap)
    simp only [k] at v ra co me ta rights drbg
    simp only [List.forall_mem_cons, z, v, ra, co, no, me, g, ta, rights, drbg]
    simp
  · refine (Laws.runInstr_of_runsOp o _ rfl _ : execCombGrantRights c s = _).trans (congrArg _ ?_)
    dsimp only
    rw [l]
  · refine (Laws.runInstr_of_runsOp o _ rfl _ : execCombGrantDetach c s = _).trans (congrArg _ ?_)
    dsimp only
    rw [l]

end Sys2Proof.HiveRows
end

section
/-! Contexts created, queues bound and records of queries (R36, R66, R67, R70, R75, R78, R81, R83, R85, R187, R192, R195,
  R196,
R368). -/
namespace Sys2Proof.ManagerRows
open Sys2Proof.Machine Sys2Proof.Safety Sys2Proof.HiveRows
variable {s t u : State} {c h : Nat}

/-- An instruction that ends OK changes nothing but its channel. -/
theorem retire_ok_qm (s : State) (c : Nat) : (retire s c .ok).qm = s.qm := by
  unfold retire
  dsimp only
  split
  · rfl
  · rfl

/-- Settles O25. -/
theorem ctxCreateLoadsTheContext : Obligations.CtxCreateLoadsTheContext := by
  intro s c n ga t bs u gs v r a i w h k z h255 le gl rd fr te pa qu ra
  refine (Laws.runInstr_of_runsOp r _ rfl _ : execCtxCreate c s = _).trans (congrArg _ ?_)
  dsimp only
  rw [Laws.withImage_of_imageOf _ i a]
  refine (checked_passes ?_ _).trans ?_
  · simp only [List.forall_mem_cons]
    have le' : ¬ 4096 < fld (imgWord bs 3) 48 16 := Nat.not_lt.2 le
    simp [w, k] at z gl
    simp [w, h] at h255
    simp [z, h255, le', gl]
  · rw [show readGrantList t (fld (imgWord bs 0) 40 8) (fld (imgWord bs 2) 0 57) (fld (imgWord bs 3) 48 16) = _ from rd]
    dsimp only
    refine (checked_passes ?_ _).trans ?_
    · have qu' : ¬ (hiveAt u (fld (imgWord bs 0) 40 8)).ctxQuota ≤ ctxsOfHive u (fld (imgWord bs 0) 40 8) :=
        Nat.not_le.2 qu
      have pa' : Tab.look u.hp.pasids (fld (imgWord bs 0) 20 20) = none := pa
      have te' : tenantsRun u (fld (imgWord bs 0) 40 8) = true := te
      simp [fr, te', pa', qu']
    · rw [createCtx]
      dsimp only
      rw [show raiseHolders u (fld (imgWord bs 0) 40 8) gs [] = _ from ra]
      rfl

/-- R70, R78: a bind whose areas are all translated pins them and runs its queue. -/
theorem bindQueue_good {n tail done : Nat} {x : Queue}
    (e : bindPages (setChan s c (fun y => { y with prog := Nat.max 1 y.prog })) c x.ctx false
      ((bindSpans x).flatMap (fun p => (pagesOf p).map (fun a => (p, a)))) (Nat.max 1 (chanAt s c).prog - 1) = (u, .good))
        :
    let v := bindQueue s c n false x tail done
    (queueAt v n).state = .running ∧ (queueAt v n).tail = tail ∧ (queueAt v n).done = done ∧ (queueAt v n).fetch = done ∧
      (queueAt v n).ctx = x.ctx ∧ (queueAt v n).label = x.label ∧ v.qm.pins = u.qm.pins ++ queuePins x n := by
  have e' : bindQueue s c n false x tail done = retire (setQueue
    (u.onQm (fun m => { m with pins := m.pins ++ queuePins x n })) n
      (fun _ => { x with state := .running, tail := tail, done := done, fetch := done, vt := vtRef (u.onQm (fun m =>
        { m with pins := m.pins ++ queuePins x n })) (ctxAt (u.onQm (fun m => { m with pins := m.pins ++ queuePins x n })) x.ctx).hive n }))
      c .ok := by
    unfold bindQueue
    dsimp only
    rw [chanAt_setChan, e]
    rfl
  intro v
  have q (w : State) : queueAt (retire w c .ok) n = queueAt w n := by rw [queueAt, retire_ok_qm]; rfl
  rw [show v = _ from e', q, queueAt_setQueue, retire_ok_qm]
  exact ⟨rfl, rfl, rfl, rfl, rfl, rfl, rfl⟩

/-- Settles O26. -/
theorem queueBindRunsTheQueue : Obligations.QueueBindRunsTheQueue := by
  intro s c n ga gi t bs u r a i w x k h ix z n0 ra le l1 l2 v1 v2 ub ac te qu bp
  refine Laws.answers_of_eq _ ((Laws.runInstr_of_runsOp r _ rfl _ : execQueueBind c s = _).trans (congrArg _ ?_))
    (bindQueue_good bp)
  rw [bindInstr, Laws.withImage_of_imageOf _ i a]
  refine checked_passes ?_ _
  have le' : ¬ 2 ^ x.ringLog2 < Machine.dist (fld ix 32 32) (fld ix 0 32) := Nat.not_lt.2 le
  have label : decide (x.label < h.labelFirst) = false ∧ decide (h.labelFirst + h.labelCount ≤ x.label) = false := by
    simp only [decide_eq_false_iff_not]; omega
  have vector : decide (x.vector < h.vecFirst) = false ∧ decide (h.vecFirst + h.vecCount ≤ x.vector) = false := by
    simp only [decide_eq_false_iff_not]; omega
  have quota : ¬ h.queueQuota ≤ (queuesOfHive t k.hive).length := Nat.not_le.2 qu
  simp only [List.forall_mem_cons]
  refine ⟨?_, ?_, ?_, ?_, nofun⟩
  · exact congrArg (!·) z
  · show (n == 0 || queueRange x || decide (2 ^ x.ringLog2 < Machine.dist (fld ix 32 32) (fld ix 0 32)) ||
      (k.state == .active && (decide (x.label < h.labelFirst) || decide (h.labelFirst + h.labelCount ≤ x.label) ||
        decide (x.vector < h.vecFirst) || decide (h.vecFirst + h.vecCount ≤ x.vector)))) = false
    simp only [label, vector, ra, decide_eq_false le', beq_eq_false_iff_ne.2 n0, Bool.or_false, Bool.and_false]
  · show ((queueAt t n).state != .unbound || !(k.state == .active) || !tenantsRun t k.hive) = false
    rw [ub, ac, te]; decide
  · exact decide_eq_false quota

/-! ## Records -/

/-- A record whose lines are writable, and whose checks pass, is written, and the instruction ends OK. -/
theorem withRecord_writes {a al : Nat} {check : Option Status} {bs : List Byte} (e : a % al = 0) (p :
    (chanAt s c).prog = 0)
    (l : (chanAt s c).lineStatus = none) (n : check = none) (i : imageLines s c .wr (linesOf a bs.length) = (t, .ok ()))
    (w : recordWrite t c a bs (linesOf a bs.length) = (u, .ok ())) : withRecord s c a al check bs = retire u c .ok := by
  unfold withRecord
  dsimp only
  rw [if_neg (not_not_intro e), l, p, List.drop_zero]
  dsimp only
  rw [i]
  dsimp only
  rw [if_pos rfl, n]
  dsimp only
  rw [w]

theorem withRecord_refused {a al : Nat} {st : Status} {bs : List Byte} (e : a % al = 0) (p : (chanAt s c).prog = 0)
    (l : (chanAt s c).lineStatus = none) (i : imageLines s c .wr (linesOf a bs.length) = (t, .ok ())) :
    withRecord s c a al (some st) bs = retire t c st := by
  unfold withRecord
  dsimp only
  rw [if_neg (not_not_intro e), l, p, List.drop_zero]
  dsimp only
  rw [i]
  dsimp only
  rw [if_pos rfl]

theorem withRecord_misaligned {a al : Nat} {check : Option Status} {bs : List Byte} (e : a % al ≠ 0) :
    withRecord s c a al check bs = retire s c .range := if_pos e

/-- Settles O27. -/
theorem queriesWriteTheirRecords : Obligations.QueriesWriteTheirRecords := by
  refine ⟨fun s c n ga qmax t u r a p l i w => ?_, fun s c h ga t u r a p l i w => ?_, fun s c h ga t u r a p l st i w =>
    ?_,
    fun s c n ga qmax r a => ?_, fun s c h ga r a => ?_, fun s c h ga r a => ?_, fun s c h ga t r a p l st i => ?_⟩
  · exact (Laws.runInstr_of_runsOp r _ rfl _ : execQueryCtx c s = _).trans (congrArg _ (withRecord_writes a p l rfl i w))
  · exact (Laws.runInstr_of_runsOp r _ rfl _ : execQueryHive c s = _).trans (congrArg _ (withRecord_writes a p l rfl i w))
  · refine (Laws.runInstr_of_runsOp r _ rfl _ : execKeyDeriveFingerprint c s = _).trans
      (congrArg _ (withRecord_writes a p l ?_ i w))
    revert st; cases (hiveAt s h).state <;> decide
  · exact (Laws.runInstr_of_runsOp r _ rfl _ : execQueryCtx c s = _).trans (congrArg _ (withRecord_misaligned a))
  · exact (Laws.runInstr_of_runsOp r _ rfl _ : execQueryHive c s = _).trans (congrArg _ (withRecord_misaligned a))
  · exact (Laws.runInstr_of_runsOp r _ rfl _ : execKeyDeriveFingerprint c s = _).trans
      (congrArg _ (withRecord_misaligned a))
  · refine (Laws.runInstr_of_runsOp r _ rfl _ : execKeyDeriveFingerprint c s = _).trans (congrArg _ ?_)
    refine (congrArg (fun x => withRecord s c (gAddr s c ga) 64 x (fingerprintRecord s h)) (?_ :
      _ = some Status.state)).trans
      (withRecord_refused a p l i)
    revert st; cases (hiveAt s h).state <;> decide

end Sys2Proof.ManagerRows
end

section
/-! Labels, invalidations and migrations (R86, R88, R197, R198, R200 to R204, R219, R248, R468). -/
namespace Sys2Proof.ManagerRows
open Sys2Proof.Machine Sys2Proof.Safety Sys2Proof.HiveRows Sys2Proof.Frame
variable {s t u : State} {c h : Nat}

theorem del_of_look_none {α : Type} {l : Tab α} {k : Nat} (h : Tab.look l k = none) : Tab.del l k = l := by
  induction l with
  | nil => rfl
  | cons e l ih =>
    obtain ⟨j, v⟩ := e
    have ne : k ≠ j := fun e => by simp [Tab.look, e] at h
    rw [Tab.look, if_neg ne] at h
    rw [Tab.del, List.filter_cons_of_pos (by simpa using ne.symm)]
    exact congrArg _ (ih h)

theorem fill_cached {f : Nat} {fe : Fence} (e : fenceAt s f = some fe) : fill s f = (s, none) := if_pos (by rw [e]; rfl)

/-- A fence of the cache that nothing fills is there at once. -/
theorem settleFill_cached {f : Nat} {fe : Fence} (n : Tab.look s.qm.fills f = none) (e : fenceAt s f = some fe) :
    settleFill s f = (s, none) := by
  have d : s.onQm (fun m => { m with fills := Tab.del m.fills f }) = s := by
    rw [State.onQm, del_of_look_none n]
  unfold settleFill
  simp only [fill_cached e, n, e, d]
  rfl

/-- Settles O28. -/
theorem labelsAndInvalidations : Obligations.LabelsAndInvalidations := by
  refine ⟨fun s c h ga n t bs r a i z g st => ?_, fun s c n ga gl r => ?_, fun s c n ga gl t gs r => ?_,
    fun s c n ga gl r m => ?_, fun s c o t w0 u r e z st fl w => ?_, fun s c f fe t r n e st w => ?_,
      fun s c f fe r n e st => ?_⟩
  · refine (Laws.runInstr_of_runsOp r _ rfl _ : execLabelSet c s = _).trans (congrArg _ ?_)
    dsimp only
    rw [Laws.withImage_of_imageOf _ i a]
    refine checked_passes ?_ _
    simp only [List.forall_mem_cons, z, g]
    revert st; cases (hiveAt t h).state <;> simp
  · intro a l a0 l0 l1 al ac
    refine (Laws.runInstr_of_runsOp r _ rfl _ : execInvalidatePages c s = _).trans (congrArg _ (checked_passes ?_ _))
    have l0' : (l == 0) = false := beq_eq_false_iff_ne.2 (by omega)
    have al' : decide (2 ^ 57 < a + l) = false := decide_eq_false (by omega)
    simp only [List.forall_mem_cons]
    refine ⟨?_, by rw [ac]; rfl, nofun⟩
    show (a % 2 ^ 25 != 0 || l == 0 || l % 2 ^ 25 != 0 || decide (2 ^ 57 < a + l)) = false
    rw [a0, l1, l0', al']; rfl
  · intro a k le gl ac rd
    refine (Laws.runInstr_of_runsOp r _ rfl _ : execInvalidateContext c s = _).trans
      (congrArg _ ((checked_passes ?_ _).trans ?_))
    · have le' : decide (4096 < k) = false := decide_eq_false (by omega)
      simp only [List.forall_mem_cons]
      refine ⟨?_, by rw [ac]; rfl, nofun⟩
      show (decide (4096 < k) || !grantListOk s a k) = false
      rw [le', gl]; rfl
    · rw [show readGrantList s (ctxAt s n).hive ((chanAt s c).greg _).toNat ((chanAt s c).greg _).toNat = _ from rd]
  · refine (Laws.runInstr_of_runsOp r _ rfl _ : execInvalidatePages c s = _).trans (congrArg _ (checked_first ?_ _))
    rw [bne_iff_ne.2 m]; rfl
  · refine (Laws.runInstr_of_runsOp r _ rfl _ : execInvalidateObject c s = _).trans (congrArg _ ?_)
    dsimp only
    rw [e]
    dsimp only
    rw [if_neg (not_not_intro rfl), checked_passes (by simp [z, st, fl]), w]
  · refine (Laws.runInstr_of_runsOp r _ rfl _ : execInvalidateFence c s = _).trans (congrArg _ ?_)
    dsimp only
    rw [settleFill_cached n e]
    dsimp only
    rw [e]
    dsimp only
    rw [if_neg st, w]
    rfl
  · refine (Laws.runInstr_of_runsOp r _ rfl _ : execInvalidateFence c s = _).trans (congrArg _ ?_)
    dsimp only
    rw [settleFill_cached n e]
    dsimp only
    rw [e]
    exact if_pos st

theorem execMigrateDrainDone_copies {j k : MigJob} (m : migAt s h = some j) (ph : j.phase = .freezing)
    (ch : chansWhere s (fun ch => ch.hive == h) = []) (q : ∀ q ∈ queuesOfHive s h, recordOut s q = false) (w :
      writesQuiet s h = true)
    (at_ : migAt (setMig (clearLog s h) h (fun m => { m with
      phase := .final, cells := logCells s h, cellsFinal := (logCells s h).length
      cellsTotal := m.cellsTotal + (logCells s h).length })) h = some k) : execMigrateDrainDone h s = .next (
        match copyCells (setMig (clearLog s h) h (fun m => { m with
          phase := .final, cells := logCells s h, cellsFinal := (logCells s h).length
          cellsTotal := m.cellsTotal + (logCells s h).length })) k (logCells s h) with
        | (u, some st) => copyFailed u h st
        | (u, none) =>
          match writePackage (package u k).1 k (package u k).2 with
          | (v, some st) => copyFailed v h st
          | (v, none) => progress v) := by
  have q' : (queuesOfHive s h).all (fun q => !recordOut s q) = true := by
    rw [List.all_eq_true]
    exact fun x i => by rw [q x i]; rfl
  unfold execMigrateDrainDone
  rw [m]
  simp only [ph, ch, q', w, taken, beq_self_eq_true, Bool.and_self, if_true, at_] <;> rfl

/-- Settles O29. -/
theorem migrationsRunTheirPhases : Obligations.MigrationsRunTheirPhases := by
  refine ⟨fun s c h ga t bs u fs r a i => ?_, fun s h j m p b e => ?_, fun s h j m p b lt ne le => ?_,
    fun s h j k u v p m ph ch q w => ?_, fun s h j k u st m ph ch q w => ?_, fun s h j m p => ?_, fun s j st to_ => ?_⟩
  · intro w n fences z i' g f ac le
    refine (Laws.runInstr_of_runsOp r _ rfl _ : execMigrate c s = _).trans (congrArg _ ?_)
    dsimp only
    rw [Laws.withImage_of_imageOf _ i a, if_neg (by rw [show planRz (imgWord bs) = true from z]; decide),
      Laws.withImage_of_imageOf _ i' (Nat.mod_one _)]
    refine checked_passes ?_ _
    have lt : decide (Config.migrations ≤ u.he.migrations.length) = false := decide_eq_false (by omega)
    have fe : fences.any (fun f => decide (Config.fences ≤ f)) = false := by
      rw [List.any_eq_false]
      exact fun x m => by simpa using f x m
    simp only [List.forall_mem_cons]
    refine ⟨?_, by rw [ac]; rfl, lt, nofun⟩
    show (planRange u h w || fences.any (fun f => decide (Config.fences ≤ f))) = false
    rw [g, fe]; rfl
  · show execMigrateRoundDone h s = _
    simp only [execMigrateRoundDone, m, taken, p, b]
    simp only [beq_self_eq_true, Bool.not_false, Bool.and_self, if_true]
    rw [if_pos e]
  · show execMigrateRoundDone h s = _
    simp only [execMigrateRoundDone, m, taken, p, b]
    simp only [beq_self_eq_true, Bool.not_false, Bool.and_self, if_true]
    rw [if_neg (by omega)]
  · intro set t at_ co pk wr
    refine (execMigrateDrainDone_copies m ph ch q w at_).trans (congrArg _ ?_)
    rw [show copyCells _ k (logCells s h) = _ from co]
    dsimp only
    rw [pk, wr]
  · intro set t at_ co
    refine (execMigrateDrainDone_copies m ph ch q w at_).trans (congrArg _ ?_)
    rw [show copyCells _ k (logCells s h) = _ from co]
  · show execMigrateFreezeTimeout h s = _
    simp only [execMigrateFreezeTimeout, m, taken, p]
    rfl
  · have k : Same hives _ (endMigration s j st to_) := hives_retire (same_refl _)
    refine ⟨(k.hive_state _).trans ?_, ?_⟩
    · exact congrArg Hive.state (hiveAt_setHive s j.hive (fun h => { h with state := to_ }))
    · rw [k.migrations]
      intro x m
      simpa using (List.mem_filter.1 m).2

end Sys2Proof.ManagerRows
end

section
/-! The host's writes (R18, R71, R239, R257, R281, R339, R342, R426 to R429, R435). -/
namespace Sys2Proof.HostPort
open Sys2Proof.Machine Sys2Proof.Safety
variable {s t : State} {op : HostOp}

/-! ## Order of arrival -/

/-- A host access with none before it, and whose lines' turns have come, is performed at once (R257). -/
theorem hostTake_now (q : s.hp.queue = []) (c : hostCan s op = true) : hostTake s op = hostPerform s op := by
  have c' : hostCan (s.onHp (fun h => { h with queue := h.queue ++ [op] })) op = true := c
  have e : (s.onHp (fun h => { h with queue := h.queue ++ [op] })).onHp (fun h => { h with queue := [] }) = s := by
    simp only [State.onHp]
    rw [← q]
  rw [hostTake, hostGoes]
  simp only [State.onHp_hp, q, List.nil_append, List.length_singleton, hostDrain]
  rw [if_pos c', e]

/-- One whose line is held stays in front of the queue, and takes its places (R316). -/
theorem hostTake_claims (q : s.hp.queue = []) (c : hostCan s op = false) :
    hostTake s op = hostClaim (s.onHp (fun h => { h with queue := h.queue ++ [op] })) op := by
  have c' : hostCan (s.onHp (fun h => { h with queue := h.queue ++ [op] })) op = false := c
  rw [hostTake, hostGoes]
  simp only [State.onHp_hp, q, List.nil_append, List.length_singleton, hostDrain]
  rw [if_neg (by rw [c']; exact Bool.false_ne_true)]

/-- Behind one that waits, an access waits in turn (R257). -/
theorem hostTake_behind {x : HostOp} {r : List HostOp} (q : s.hp.queue = x :: r) (c : hostCan s x = false) :
    hostTake s op = hostClaim (s.onHp (fun h => { h with queue := h.queue ++ [op] })) x := by
  have c' : hostCan (s.onHp (fun h => { h with queue := h.queue ++ [op] })) x = false := c
  rw [hostTake, hostGoes]
  simp only [State.onHp_hp, q, List.cons_append, List.length_cons, hostDrain]
  rw [if_neg (by rw [c']; exact Bool.false_ne_true)]

theorem hostAccess_open (h : hostOpen s = true) (t : State) : hostAccess s t = .next t := by
  rw [hostAccess, if_pos h]

theorem hostAccess_shut (h : hostOpen s = false) (t : State) : hostAccess s t = .next (hostWaits s) := by
  rw [hostAccess, h]; rfl

theorem hostCan_doorbell (page off be : Nat) (data : List Byte) : hostCan s (.doorbell page off be data) = true := rfl

theorem execDoorbellWrite_now {page off be : Nat} {data : List Byte} (h : hostOpen s = true) (q : s.hp.queue = []) :
    execDoorbellWrite page off be data s = .next (doorbellGo s page off be data) :=
  (hostAccess_open h _).trans (congrArg _ (hostTake_now q (hostCan_doorbell _ _ _ _)))

/-! ## Doorbells -/

theorem doorbell_live {page q d : Nat} (b : blockReady s = true) (p : pageLive s page = true) (lt : q < Config.queues)
    (st : (queueAt s q).state = .running ∨ (queueAt s q).state = .stopped) (cx : (queueAt s q).ctx = page) :
    doorbell s page q d =
      if 2 ^ 31 ≤ Machine.dist d (queueAt s q).tail then setQueue s q (fun y => { y with staleDb := satInc 32 y.staleDb })
      else if 2 ^ (queueAt s q).ringLog2 < Machine.dist d (queueAt s q).done then
        hiveEvent (setQueue s q (fun y => { y with overrunDb := satInc 32 y.overrunDb })) 0x01 (ctxAt s page).hive q d
      else setQueue s q (fun y => { y with tail := d }) := by
  refine if_neg ?_
  rcases st with st | st <;> simp [b, p, lt, st, cx]

theorem mod16_of_mod_pow {be n : Nat} (n4 : 4 ≤ n) (h : be % 2 ^ n = 2 ^ n - 1) : be % 16 = 15 := by
  obtain ⟨k, rfl⟩ := Nat.exists_eq_add_of_le n4
  have d : (16 : Nat) ∣ 2 ^ (4 + k) := by rw [Nat.pow_add]; exact Nat.dvd_mul_right _ _
  rw [← Nat.mod_mod_of_dvd be d, h, Nat.pow_add]
  have := Nat.two_pow_pos k
  omega

theorem doorbellForm_good {off be n : Nat} (f : doorbellForm off be n = true) :
    ¬ (off % 8 ≠ 0 ∨ be % 16 ≠ 15 ∨ (n ≠ 4 ∧ n % 8 ≠ 0) ∨ n = 0) := by
  simp only [doorbellForm, Bool.and_eq_true, Bool.or_eq_true, beq_iff_eq, bne_iff_ne] at f
  obtain ⟨o, ⟨n48, b⟩ | ⟨⟨n0, n8⟩, b⟩⟩ := f
  · omega
  · have := mod16_of_mod_pow (by omega) b
    omega

/-! ## Words of page 0 -/

theorem sinkWrite_windows (l : Bool) (j : Nat) : windowAt (sinkWrite s l) j = windowAt s j := by
  cases l
  · rfl
  · have e : (sinkWrite s true).hp = (count s (fun c => { c with sunkWr := satInc 32 c.sunkWr })).hp :=
      (Laws.Aside.logErr _ _).hp
    rw [windowAt, e]
    rfl

theorem routes_within {first n : Nat} (lt : first + n < 2 ^ 16) :
    (List.range (n + 1)).filterMap (fun i => if first + i < 2 ^ 16 then some (first + i) else none) =
      (List.range (n + 1)).map (fun i => first + i) := by
  rw [← List.filterMap_eq_map]
  refine List.filterMap_congr fun i m => ?_
  have := List.mem_range.1 m
  rw [if_pos (by omega)]; rfl

/-- Settles O37. -/
theorem doorbellPageWrites : Obligations.DoorbellPageWrites := by
  refine ⟨fun s page q d b p lt st cx t dn => ?_, fun s page q d b p lt st cx t => ?_, fun s page q d b p lt st cx t dn =>
    ?_,
    fun s page q d h => ?_, fun s page off be data h q n b o lt => ?_, fun s page off data n h q l z o lt => ?_,
    fun s page off be data h q bad => ?_, fun s page off be data op r h q c => ?_, fun s w h b e le => ?_,
    fun s w h b lt => ?_, fun s i w h b lt g => ?_, fun s i w h b lt g => ?_, fun s w h st b lt => ?_,
    fun s off data h d3 lo hi w => ?_, fun s off data h d3 lt => ?_, fun s w i off data h => ?_, fun s h => ?_,
    fun s hx f r => ?_⟩
  · rw [doorbell_live b p lt st cx, if_neg (by omega), if_neg (by omega)]
  · rw [doorbell_live b p lt st cx, if_pos t]
  · rw [doorbell_live b p lt st cx, if_neg (by omega), if_pos dn]
  · refine if_pos ?_
    rcases h with h | h <;> simp [h]
  · refine (execDoorbellWrite_now h q).trans (congrArg _ ?_)
    have f : doorbellForm off be data.length = true := by
      rcases n with n | n <;> simp [doorbellForm, n, b, o]
    have one : (data.length + 7) / 8 = 1 := by omega
    rw [doorbellGo, f]
    simp [one]
  · refine (execDoorbellWrite_now h q).trans (congrArg _ ?_)
    have f : doorbellForm off (2 ^ (8 * n) - 1) data.length = true := by
      have lt' : 2 ^ (8 * n) - 1 < 2 ^ (8 * n) := Nat.sub_lt (Nat.two_pow_pos _) Nat.one_pos
      simp [doorbellForm, l, o, Nat.mod_eq_of_lt lt']
      omega
    have k : (data.length + 7) / 8 = n := by omega
    rw [doorbellGo, f]
    simp [k]
  · refine (execDoorbellWrite_now h q).trans (congrArg _ (if_pos ?_))
    rw [Bool.not_eq_true', ← Bool.not_eq_true]
    exact fun f => absurd bad (doorbellForm_good f)
  · have e := Laws.Aside.hostClaim (s.onHp (fun h => { h with queue := h.queue ++ [.doorbell page off be data] })) op
    refine ⟨_, (hostAccess_open h _).trans (congrArg _ (hostTake_behind q c)), ?_, ?_⟩
    · rw [e.hp]; rfl
    · rw [e.qm]; rfl
  · refine (hostAccess_open h _).trans (congrArg _ ?_)
    dsimp only
    rw [b, if_neg (by decide), if_pos le, if_neg (by simp [e])]
  · refine (hostAccess_open h _).trans (congrArg _ ?_)
    dsimp only
    rw [b, if_neg (by decide), if_neg (by omega)]
  · refine Laws.answers_of_eq _ ((hostAccess_open h _).trans (congrArg _
      ((if_neg (by rw [b]; decide)).trans (if_neg (by omega))))) ?_
    exact ⟨congrArg (Option.getD · _) (Tab.look_put _ _ _), fun j ne =>
      congrArg (Option.getD · _) (Tab.look_put_ne _ _ _ _ ne), rfl⟩
  · refine ⟨(hostAccess_open h _).trans (congrArg _ ?_), ?_⟩
    · rw [b, if_neg (by decide), if_pos (.inr g)]
    · exact sinkWrite_windows _
  · refine (hostAccess_open h _).trans (congrArg _ ?_)
    rw [b, if_neg (by decide), inStream, if_pos st, routes_within lt]
  · have k : keeperServes s = true := by simp [keeperServes, d3]
    have r : writeRefused s 0 off data.length = none := by
      rw [writeRefused, if_pos rfl, if_pos (by omega), k, if_neg (by decide), if_pos (by omega), if_pos w]
    refine (if_neg (by rw [h]; decide)).trans ?_
    rw [r]
    refine (if_pos rfl).trans ((if_pos (by omega)).trans (congrArg _ ?_))
    rw [mailboxWrite, if_neg (by omega), if_pos ⟨lo, hi⟩]
    rfl
  · have k : keeperServes s = false := by simp [keeperServes, d3]
    have r : writeRefused s 0 off data.length = some false := by
      rw [writeRefused, if_pos rfl, if_pos (by omega), k, if_pos (by decide)]
    refine (if_neg (by rw [h]; decide)).trans ?_
    rw [r]
    exact congrArg Host.Outcome.next (if_neg (by omega))
  · exact ⟨hostAccess_shut h _, hostAccess_shut h _, hostAccess_shut h _, hostAccess_shut h _, hostAccess_shut h _,
      if_pos (by rw [h]; rfl)⟩
  · exact if_pos h
  · have e : hostWaits s = requestClock s .control := by simp [hostWaits, hx, demand, f]
    rw [e, requestClock, if_neg (by simpa [clockOf] using r)]
    exact ⟨rfl, rfl⟩

end Sys2Proof.HostPort
end

section
/-! The host's accesses to memory (R18, R257, R274, R430, R432, R434, R435). -/
namespace Sys2Proof.HostPort
open Sys2Proof.Machine Sys2Proof.Safety
variable {s t : State} {op : HostOp}

/-! ## Refusals -/

/-- A log entry changes the log alone. -/
theorem logErr_eq (s : State) (l : LogIn) : ∃ f : Brood → Brood, logErr s l = s.onBr f ∧ ∀ b, (f b).refused = b.refused :=
    by
  unfold logErr
  dsimp only
  split
  · exact ⟨_, rfl, fun _ => rfl⟩
  · exact ⟨_, rfl, fun _ => rfl⟩

/-- A refusal is counted, logged and reported. -/
theorem refuseHost_spec (s : State) : (refuseHost s).sent = s.sent ++ [.aerReport] ∧ (refuseHost s).br.refused =
    s.br.refused + 1 ∧
    (refuseHost s).hp = s.hp ∧ (refuseHost s).pr = s.pr := by
  obtain ⟨f, e, r⟩ := logErr_eq (s.onBr (fun b => { b with refused := b.refused + 1 }))
    { cls := 4, ugroup := 11, unit := 0, cause := 6 }
  have e' : refuseHost s = emit ((s.onBr (fun b => { b with refused := b.refused + 1 })).onBr f) .aerReport :=
    congrArg (emit · _) e
  rw [e']
  exact ⟨rfl, r _, rfl, rfl⟩

theorem urRead_spec (s : State) (logged : Bool) :
    (urRead s logged).sent = s.sent ++ .unsupported :: (if logged then [.aerReport] else []) ∧
      (urRead s logged).hp.counters.urReads = satInc 32 s.hp.counters.urReads ∧ (urRead s logged).pr = s.pr := by
  cases logged
  · exact ⟨rfl, rfl, rfl⟩
  · obtain ⟨a, -, b, d⟩ := refuseHost_spec (emit (count s (fun c => { c with urReads := satInc 32 c.urReads }))
      .unsupported)
    have e : urRead s true = refuseHost (emit (count s (fun c => { c with urReads := satInc 32 c.urReads })) .unsupported)
      := rfl
    rw [e, a, b, d]
    exact ⟨List.append_assoc _ _ _, rfl, rfl⟩

/-! ## Accesses -/

theorem hostLines_refused {off len : Nat} {n : Need} {b : Bool} (sp : apertureSpan op = some (off, len, n))
    (e : apertureTarget s off len n = .error b) : hostLines s op = [] := by
  unfold hostLines
  rw [sp]
  dsimp only
  split
  · rfl
  next h =>
    split at h
    · rw [e] at h; cases h
    · cases h

theorem hostLines_ne_nil {off len : Nat} {n : Need} {x : Nat × Comb × Nat} (sp : apertureSpan op = some (off, len, n))
    (b : blockReady s = true) (pos : 0 < len) (e : apertureTarget s off len n = .ok x) : hostLines s op ≠ [] := by
  obtain ⟨h, k, a⟩ := x
  unfold hostLines
  rw [sp, b]
  dsimp only
  rw [if_pos rfl, e]
  dsimp only
  rw [linesOf, if_neg (by omega)]
  simp

theorem hostCan_of_no_lines (h : hostLines s op = []) : hostCan s op = true := by
  simp [hostCan, h]

/-- A fence of the cache is read there. -/
theorem fenceWords_cached {f : Nat} {fe : Fence} (e : fenceAt s f = some fe) : fenceWords s f = (s, fe.words.take 2) := by
  have t : (if cacheRoom s f then (fill s f).1 else s) = s := by
    rw [ManagerRows.fill_cached e, ite_self]
  unfold fenceWords
  simp only [t, e]

/-- Settles O38. -/
theorem apertureAccesses : Obligations.ApertureAccesses := by
  refine ⟨fun s off len h k a o q c b e => ?_, fun s off len l o q b e => ?_, fun s off data h k a o q c b e => ?_,
    fun s off op size v w h k a r old o q c b sz al e l => ?_, fun s off size fe o b sz al lt e => ?_, fun s read o =>
      ⟨?_, ?_⟩,
    fun s off len data o => ⟨hostAccess_shut o _, hostAccess_shut o _, hostAccess_shut o _⟩, fun s off len o q c => ?_,
    fun s off data o q c => ?_, fun s off len h k a o q st b pos e => ?_⟩
  · refine (hostAccess_open o _).trans (congrArg _ ((hostTake_now q c).trans ?_))
    rw [hostPerform, apertureReadGo, b, if_neg (by decide), e]
  · refine Laws.answers_of_eq _ ((hostAccess_open o _).trans (congrArg _ ((hostTake_now q
      (hostCan_of_no_lines (hostLines_refused rfl e))).trans (?_ : _ = urRead s l)))) (urRead_spec s l)
    rw [hostPerform, apertureReadGo, b, if_neg (by decide), e]
  · refine (hostAccess_open o _).trans (congrArg _ ((hostTake_now q c).trans ?_))
    rw [hostPerform, apertureWriteGo, b, if_neg (by decide), e]
  · refine (hostAccess_open o _).trans (congrArg _ ?_)
    have sz' : (size == 4 || size == 8) = true := by rcases sz with rfl | rfl <;> rfl
    rw [b, if_neg (by decide), if_neg (by rw [sz']; simp [al]), hostTake_now q c, hostPerform, apertureAtomicGo, b,
      if_neg (by decide), e]
    dsimp only
    rw [show apertureLine s h k (lineOf a) (hostAtomic a op size v w) = _ from l]
    exact if_pos rfl
  · refine (hostAccess_open o _).trans (congrArg _ ?_)
    have sz' : (size == 8 || size == 16) = true := by rcases sz with rfl | rfl <;> rfl
    have lt' : decide (16 * Config.fences ≤ off) = false := decide_eq_false (by omega)
    rw [if_neg (by rw [sz', al, lt']; decide), b, if_neg (by decide), fenceWords_cached e]
    exact if_pos (by rw [e]; rfl)
  · refine ⟨_, if_neg (by rw [o]; decide), ?_⟩
    cases read
    · obtain ⟨a, r, hp, -⟩ := refuseHost_spec (emit s .unsupported)
      exact ⟨a.trans (List.append_assoc _ _ _), r, congrArg (fun h : HostPort => h.counters.urReads) hp⟩
    · obtain ⟨a, c, -⟩ := urRead_spec s true
      refine ⟨a, ?_, c⟩
      exact (refuseHost_spec (emit (count s (fun c => { c with urReads := satInc 32 c.urReads })) .unsupported)).2.1
  · obtain ⟨a, r, -⟩ := refuseHost_spec (emit s .unsupported)
    exact ⟨_, if_neg (by rw [o]; decide), a.trans (List.append_assoc _ _ _), r⟩
  · have k := Laws.Aside.hostClaim (s.onHp (fun h => { h with queue := h.queue ++ [.read off len] })) (.read off len)
    refine ⟨_, (hostAccess_open o _).trans (congrArg _ (hostTake_claims q c)), ?_, k.mem⟩
    rw [k.hp, State.onHp_hp, q, List.nil_append]
  · have k := Laws.Aside.hostClaim (s.onHp (fun h => { h with queue := h.queue ++ [.write off data] })) (.write off data)
    refine ⟨_, (hostAccess_open o _).trans (congrArg _ (hostTake_claims q c)), ?_, k.mem⟩
    rw [k.hp, State.onHp_hp, q, List.nil_append]
  · have c : hostCan s (.read off len) = false := by
      simp [hostCan, st, hostLines_ne_nil (op := .read off len) rfl b pos e]
    refine (hostAccess_open o _).trans (congrArg _ ((hostTake_claims q c).trans ?_))
    rw [hostClaim, if_neg (by rw [State.onHp_clk, st]; decide)]
    simp only [State.onHp, q, List.nil_append]

end Sys2Proof.HostPort
end

section
/-! Messages to the host, and the resets that the host asks for (R329, R335, R337, R346, R348, R433). -/
namespace Sys2Proof.HostPort
open Sys2Proof.Machine Sys2Proof.Safety
variable {s t : State} {v : Nat}

theorem execMsixMessageSend_charged {m : PendMsg} (f : s.sq.msgs.find? (fun x => x.vector == v) = some m) (c :
    m.charged = true) :
    execMsixMessageSend v s = .next (sendMessage s v) := by
  simp only [execMsixMessageSend, f, chargeMessage, c, if_true]

theorem setPending_spec (s : State) (v : Nat) : v ∈ (setPending s v).hp.pba ∧ (setPending s v).sent = s.sent ∧
    (setPending s v).sq = s.sq := by
  refine ⟨?_, rfl, rfl⟩
  show v ∈ if s.hp.pba.contains v then s.hp.pba else s.hp.pba ++ [v]
  split
  next h => exact List.contains_iff_mem.1 h
  next => exact List.mem_append_right _ (List.mem_singleton_self v)

theorem warmJob_of_hostReset (k : Bool) (c : s.clk.cold = false) (h : s.kp.mbox.bootStage ≠ stageHeld)
    (r : s.kp.mbox.bootStage ≠ stageRecovery) : ∃ j : WarmJob, startWarm s k = s.onKp (fun x =>
      { x with warm := some j, mbox := { x.mbox with bootStage := 3 } }) ∧ (k = false → j.keepPcie = false) := by
  unfold startWarm
  rw [if_neg (by simp [c, h, r])]
  cases e : s.kp.warm with
  | none => exact ⟨{ keepPcie := k, clearing := false, stepsDone := false }, by simp only [State.onKp, e], fun k => k⟩
  | some j =>
    exact ⟨{ j with keepPcie := j.keepPcie && k }, by simp only [State.onKp, e], fun h =>
      by simp only [h, Bool.and_false]⟩

theorem heldBlock_of_startWarm (c : s.clk.cold = false) (h : s.kp.mbox.bootStage = stageHeld ∨ s.kp.mbox.bootStage =
    stageRecovery) :
    startWarm s false = dropPcie s := by
  unfold startWarm
  rw [if_pos (by rcases h with h | h <;> simp [h]), if_neg (by rw [c]; decide)]

/-- Settles O39. -/
theorem hostMessagesAndResets : Obligations.HostMessagesAndResets := by
  refine ⟨fun s v m f c mk fm al => ?_, fun s v m f c mk => ?_, fun s v m h f c o mk => ?_, fun s vector hive mk p => ?_,
    fun s i e c h r => ?_, fun s i e c h => ?_, fun s b => rfl⟩
  · refine Laws.answers_of_eq _ ((execMsixMessageSend_charged f c).trans
      (congrArg _ ((if_neg (by rw [mk, fm]; decide)).trans
      (if_neg (not_not_intro al))))) ⟨rfl, fun x m => ?_, fun m => ?_, rfl⟩
    · simpa using (List.mem_filter.1 m).2
    · simpa using (List.mem_filter.1 m).2
  · obtain ⟨p, se, sq⟩ := setPending_spec s v
    exact ⟨_, (execMsixMessageSend_charged f c).trans (congrArg _ (if_pos (by rw [mk]; rfl))), se, p, congrArg _ sq⟩
  · show execMsixMessageSend v s = _
    have e : m.vector = v := by simpa using List.find?_some f
    simp [execMsixMessageSend, f, chargeMessage, c, e, o, mk]
  · rw [raiseIrq, mk, if_neg (by decide), pendMessage, if_pos p]
  · have run : exec i s = .next (startWarm (s.onHp (fun h => { h with d3hot := false })) false) := by
      rcases e with rfl | rfl <;> rfl
    obtain ⟨j, w, k⟩ := warmJob_of_hostReset (s := s.onHp (fun h => { h with d3hot := false })) false c h r
    exact ⟨_, run.trans (congrArg _ w), ⟨j, rfl, k rfl⟩, rfl, rfl⟩
  · have run : exec i s = .next (startWarm (s.onHp (fun h => { h with d3hot := false })) false) := by
      rcases e with rfl | rfl <;> rfl
    exact ⟨_, run.trans (congrArg _ (heldBlock_of_startWarm c h)), rfl, rfl, rfl, rfl, rfl⟩

end Sys2Proof.HostPort
end

section
/-! What lookups, records and events leave: the queues, and the channels but for one that they wake from a line. -/
namespace Sys2Proof.Frame
open Sys2Proof.Machine Sys2Proof.Safety
variable {s t u : State}

/-- A channel that no longer waits for a line. -/
def unheld (x : Channel) : Channel := { x with hold := match x.hold with | .line _ => .none | h => h }

theorem unheld_unheld (x : Channel) : unheld (unheld x) = unheld x := by
  cases h : x.hold <;> simp [unheld, h]

/-- The queue manager is as it was, and each channel too, or it no longer waits for a line. -/
structure Woken (s t : State) : Prop where
  qm : t.qm = s.qm
  chans : ∀ c, chanAt t c = chanAt s c ∨ chanAt t c = unheld (chanAt s c)

theorem woken_refl (s : State) : Woken s s := ⟨rfl, fun _ => .inl rfl⟩

theorem Woken.trans (a : Woken s t) (b : Woken t u) : Woken s u := by
  refine ⟨b.qm.trans a.qm, fun c => ?_⟩
  rcases a.chans c with e | e <;> rcases b.chans c with d | d <;> rw [d, e]
  · exact .inl rfl
  · exact .inr rfl
  · exact .inr rfl
  · exact .inr (unheld_unheld _)

/-- A state with the same queues and channels may stand for another. -/
theorem Woken.congr (k : Woken s t) (q : u.qm = t.qm) (m : u.mv.chans = t.mv.chans) : Woken s u :=
  ⟨q.trans k.qm, fun c => by simpa only [chanAt, m] using k.chans c⟩

theorem woken_ite {p : Prop} [Decidable p] (ht : Woken s t) (hu : Woken s u) : Woken s (if p then t else u) := by
  split
  · exact ht
  · exact hu

theorem woken_foldl {β : Type} {f : State → β → State} {l : List β} (hf : ∀ x a, Woken x (f x a)) (k : Woken s t) :
    Woken s (l.foldl f t) := by
  induction l generalizing t with
  | nil => exact k
  | cons a l ih => exact ih (k.trans (hf t a))

theorem woken_foldl_fst {β γ : Type} {f : State × γ → β → State × γ} {l : List β} {p : State × γ}
    (hf : ∀ x a, Woken x.1 (f x a).1) (k : Woken s p.1) : Woken s (l.foldl f p).1 := by
  induction l generalizing p with
  | nil => exact k
  | cons a l ih => exact ih (k.trans (hf p a))

theorem woken_fst {β : Type} {p : State × β} {x : β} (k : Woken s p.1) (e : p = (u, x)) : Woken s u := by
  rw [e] at k
  exact k

theorem woken_ite_fst {β : Type} {p : Prop} [Decidable p] {a b : State × β} (ha : Woken s a.1) (hb : Woken s b.1) :
    Woken s (if p then a else b).1 := by
  split
  · exact ha
  · exact hb

theorem woken_wakeLines (k : Woken s t) : Woken s (wakeLines t) := by
  refine k.trans ⟨rfl, fun c => ?_⟩
  simp only [chanAt, wakeLines, State.onMv_mv, Tab.look_mapv]
  cases Tab.look t.mv.chans c with
  | none => exact .inl rfl
  | some x => exact .inr rfl

theorem woken_setMover {m f} (k : Woken s t) : Woken s (setMover t m f) := k.congr rfl rfl
theorem woken_onClk {f} (k : Woken s t) : Woken s (t.onClk f) := k.congr rfl rfl

theorem woken_onHp {f} (k : Woken s t) : Woken s (t.onHp f) := k.congr rfl rfl
theorem woken_onHe {f} (k : Woken s t) : Woken s (t.onHe f) := k.congr rfl rfl
theorem woken_onXl {f} (k : Woken s t) : Woken s (t.onXl f) := k.congr rfl rfl
theorem woken_onPr {f} (k : Woken s t) : Woken s (t.onPr f) := k.congr rfl rfl

theorem woken_onRg {f} (k : Woken s t) : Woken s (t.onRg f) := k.congr rfl rfl
theorem woken_onSq {f} (k : Woken s t) : Woken s (t.onSq f) := k.congr rfl rfl
theorem woken_onBr {f} (k : Woken s t) : Woken s (t.onBr f) := k.congr rfl rfl
theorem woken_emit {o} (k : Woken s t) : Woken s (emit t o) := k.congr rfl rfl
theorem woken_withPorts {p : Tab Port} (k : Woken s t) : Woken s { t with ports := p } := k.congr rfl rfl
theorem woken_withFree {n : Nat} (k : Woken s t) : Woken s { t with free := n } := k.congr rfl rfl

theorem woken_drawNat (k : Woken s t) : Woken s (drawNat t).2 :=
  woken_withFree k

theorem woken_drawBytes {n} (k : Woken s t) : Woken s (drawBytes t n).2 :=
  woken_withFree k

theorem woken_setClock {d f} (k : Woken s t) : Woken s (setClock t d f) := by
  unfold setClock
  split
  · exact woken_onClk k
  · exact woken_onClk k

theorem woken_requestClock {d} (k : Woken s t) : Woken s (requestClock t d) :=
  woken_ite k (woken_emit (woken_setClock k))

theorem woken_demand {d} (k : Woken s t) : Woken s (demand t d) := by
  unfold demand
  refine woken_ite k ?_
  split
  · exact woken_requestClock k
  · exact woken_requestClock (woken_requestClock k)

theorem woken_wakeStream (k : Woken s t) : Woken s (wakeStream t) :=
  woken_ite k (woken_demand k)

theorem woken_setHive {h f} (k : Woken s t) : Woken s (setHive t h f) :=
  woken_onHe k

theorem woken_logErr {l} (k : Woken s t) : Woken s (logErr t l) :=
  woken_ite (woken_onBr k) (woken_onBr k)

theorem woken_setLabel {l f} (k : Woken s t) : Woken s (setLabel t l f) :=
  woken_onRg k

theorem woken_setSlice {a f} (k : Woken s t) : Woken s (setSlice t a f) :=
  woken_onPr k

theorem woken_useTweak {keySel line} (k : Woken s t) : Woken s (useTweak t keySel line) := k.congr rfl rfl

theorem woken_setCond {line c} (k : Woken s t) : Woken s (setCond t line c) :=
  woken_onPr k

theorem woken_logDirty {a} (k : Woken s t) : Woken s (logDirty t a) :=
  woken_onXl k

theorem woken_storeLine {line bytes} (k : Woken s t) : Woken s (storeLine t line bytes) :=
  woken_logDirty (woken_onPr (woken_setSlice k))

theorem woken_setPort {p f} (k : Woken s t) : Woken s (setPort t p f) :=
  woken_withPorts k

theorem woken_answerReq {h st data} (k : Woken s t) : Woken s (answerReq t h st data) :=
  woken_emit k

theorem woken_trySend {h} (k : Woken s t) (e : trySend t h = some u) : Woken s u := by
  unfold trySend at e
  dsimp only at e
  split at e
  · split at e
    · cases e
    · cases e
      exact woken_wakeLines (woken_onPr k)
  · split at e
    · cases e
    · split at e
      · split at e
        · cases e
        · obtain ⟨_, -, rfl⟩ := Option.map_eq_some_iff.1 e
          exact woken_emit (woken_emit (woken_setPort k))
      · obtain ⟨_, -, rfl⟩ := Option.map_eq_some_iff.1 e
        exact woken_emit (woken_setPort k)

theorem woken_passOver {served waiting} (k : Woken s t) : Woken s (passOver t served waiting) :=
  woken_foldl (fun _ _ => woken_setLabel (woken_drawNat (woken_refl _))) k

theorem woken_drainPort {n p} (k : Woken s t) : Woken s (drainPort t p n) := by
  induction n generalizing t with
  | zero => exact k
  | succ n ih =>
    rw [drainPort]
    split
    · exact k
    · split
      · rename_i e
        exact ih (woken_passOver (woken_setPort (woken_trySend k e)))
      · exact k

theorem woken_sendOut {h} (k : Woken s t) : Woken s (sendOut t h) :=
  woken_drainPort (woken_setPort (woken_useTweak k))

theorem woken_wakeHome {line a3} (k : Woken s t) : Woken s (wakeHome t line a3) :=
  woken_ite (woken_setMover k) k

theorem woken_addLock {a rmw waiting} (k : Woken s t) : Woken s (addLock t a rmw waiting) :=
  woken_onPr k

theorem woken_lineRequest {h} (k : Woken s t) : Woken s (lineRequest t h) :=
  woken_ite (woken_onPr k) (woken_ite (woken_onPr k) (woken_ite (woken_addLock k)
    (woken_ite (woken_ite (woken_onPr k) (woken_sendOut (woken_addLock k))) (woken_sendOut k))))

theorem woken_putSlice {a2 v} (k : Woken s t) : Woken s (putSlice t a2 v) :=
  woken_onPr k

theorem woken_beginFill {a2} (k : Woken s t) : Woken s (beginFill t a2) :=
  woken_ite k (woken_emit (woken_foldl (fun _ _ => woken_useTweak (woken_refl _)) (woken_onPr (woken_putSlice k))))

theorem woken_openSlice {h} (k : Woken s t) : Woken s (openSlice t h) :=
  woken_beginFill (woken_onPr (woken_setSlice k))

theorem woken_awaitSlice {h} (k : Woken s t) : Woken s (awaitSlice t h) :=
  woken_onPr k

theorem woken_emptySlot {hive line} (k : Woken s t) : Woken s (emptySlot t hive line) :=
  woken_logErr k

theorem woken_wakeUnit {p} (k : Woken s t) : Woken s (wakeUnit t p) :=
  woken_ite (woken_onPr k) k

theorem woken_arrive {h} (k : Woken s t) : Woken s (arrive t h) := by
  unfold arrive
  refine woken_ite (woken_answerReq (woken_emptySlot (woken_wakeHome (woken_wakeUnit k)))) ?_
  split
  · exact woken_ite (woken_answerReq (woken_wakeHome (woken_wakeUnit k)))
      (woken_ite (woken_answerReq (woken_wakeHome (woken_wakeUnit k)))
      (woken_ite (woken_answerReq (woken_wakeHome (woken_wakeUnit k)))
      (woken_openSlice (woken_awaitSlice (woken_wakeHome (woken_wakeUnit k))))))
  · exact woken_awaitSlice (woken_wakeHome (woken_wakeUnit k))
  · exact woken_ite (woken_answerReq (woken_wakeHome (woken_wakeUnit k)))
      (woken_lineRequest (woken_wakeHome (woken_wakeUnit k)))

theorem woken_showRead {line level} (k : Woken s t) : Woken s (showRead t line level) :=
  woken_emit k

theorem woken_showCipher {keySel line level poison cipher} (k : Woken s t) :
    Woken s (showCipher t keySel line level poison cipher) :=
  woken_emit (woken_emit k)

theorem woken_showWrite {keySel line level plain} (k : Woken s t) : Woken s (showWrite t keySel line level plain) :=
  woken_showCipher k

theorem woken_poisonLine {keySel line level} (k : Woken s t) : Woken s (poisonLine t keySel line level) :=
  woken_showCipher (woken_setCond (woken_drawBytes k))

theorem woken_meetLine {hive keySel line level} (k : Woken s t) : Woken s (meetLine t hive keySel line level).1 := by
  unfold meetLine
  split
  · dsimp only
    exact k
  · dsimp only
    exact k
  · split
    · dsimp only
      exact woken_logErr (woken_poisonLine k)
    · dsimp only
      exact woken_poisonLine k
  · dsimp only
    exact woken_ite (woken_poisonLine (woken_drawNat (woken_logErr k))) (woken_drawNat (woken_logErr k))

theorem woken_coreRead {hive keySel line level} (k : Woken s t) : Woken s (coreRead t hive keySel line level).1 := by
  unfold coreRead
  dsimp only
  split
  · dsimp only
    exact woken_emptySlot (woken_wakeUnit k)
  · split
    · dsimp only
      exact woken_wakeUnit k
    · split
      · dsimp only
        exact woken_wakeUnit k
      · dsimp only
        exact woken_meetLine (woken_useTweak (woken_showRead (woken_wakeUnit k)))

theorem woken_coreWrite {hive keySel line a5 level} (k : Woken s t) : Woken s (coreWrite t hive keySel line a5 level).1 :=
    by
  unfold coreWrite
  dsimp only
  split
  · dsimp only
    exact woken_emptySlot (woken_wakeHome (woken_wakeUnit k))
  · split
    · dsimp only
      exact woken_wakeHome (woken_wakeUnit k)
    · split
      · dsimp only
        exact woken_storeLine (woken_showWrite (woken_useTweak (woken_wakeHome (woken_wakeUnit k))))
      · split
        · dsimp only
          exact woken_storeLine (woken_showWrite (woken_meetLine
            (woken_useTweak (woken_showRead (woken_wakeHome (woken_wakeUnit k))))))
        · dsimp only
          exact woken_meetLine (woken_useTweak (woken_showRead (woken_wakeHome (woken_wakeUnit k))))

theorem woken_charge {lab bytes} (k : Woken s t) : Woken s (charge t lab bytes) :=
  woken_ite k (woken_setLabel k)

theorem woken_pendMessage {vector hive} (k : Woken s t) : Woken s (pendMessage t vector hive) :=
  woken_ite k (woken_onSq k)

theorem woken_tablePut {line w go} (hgo : ∀ x, Woken x (go x).1) (k : Woken s t) : Woken s (tablePut t line w go).1 := by
  unfold tablePut
  split
  · exact woken_arrive k
  · exact k.trans (hgo t)

theorem woken_eventBy {write code hive a0 a1} (hw : ∀ x a b, Woken x (write x a b)) (k : Woken s t) :
    Woken s (eventBy write t code hive a0 a1) := by
  have kw := fun a b => k.trans (hw t a b)
  unfold eventBy
  dsimp only
  split
  · exact woken_ite (woken_pendMessage (woken_onSq (kw _ _))) (woken_onSq (kw _ _))
  · exact woken_onSq k

theorem woken_alarmBy {event hive keySel line ctx off st} (he : ∀ x a b c d, Woken x (event x a b c d)) (k : Woken s t) :
    Woken s (alarmBy event t hive keySel line ctx off st) := by
  unfold alarmBy
  exact woken_ite (woken_setHive (woken_logErr k)) ((woken_setHive (woken_logErr k)).trans (he _ _ _ _ _))

theorem woken_recordBy {alarm a bytes} (ha : ∀ x b c d, Woken x (alarm x b c d)) (k : Woken s t) :
    Woken s (recordBy alarm t a bytes).1 :=
  woken_tablePut (fun _ => woken_ite ((woken_coreWrite (woken_refl _)).trans (ha _ _ _ _))
    (woken_coreWrite (woken_refl _)))
    (woken_wakeStream k)

theorem woken_alarmEvent {code hive a0 a1} (k : Woken s t) : Woken s (alarmEvent t code hive a0 a1) :=
  woken_eventBy (fun _ _ _ => woken_recordBy (fun _ _ _ _ => woken_alarmBy (fun _ _ _ _ _ => woken_refl _) (woken_refl _))
    (woken_refl _)) k

theorem woken_writeRecord {a bytes} (k : Woken s t) : Woken s (writeRecord t a bytes).1 :=
  woken_recordBy (fun _ _ _ _ => woken_alarmBy (fun _ _ _ _ _ => woken_alarmEvent (woken_refl _)) (woken_refl _)) k

theorem woken_hiveEvent {code hive a0 a1} (k : Woken s t) : Woken s (hiveEvent t code hive a0 a1) :=
  woken_eventBy (fun _ _ _ => woken_writeRecord (woken_refl _)) k

theorem woken_retarget {hive vector} (k : Woken s t) : Woken s (retarget t hive vector) := by
  unfold retarget
  dsimp only
  split
  · exact woken_onSq (woken_writeRecord k)
  · exact woken_ite (woken_onSq (woken_hiveEvent k)) (woken_hiveEvent k)

theorem woken_raiseIrq {hive vector} (k : Woken s t) : Woken s (raiseIrq t hive vector) :=
  woken_ite (woken_retarget k) (woken_pendMessage k)

theorem woken_securityAlarm {hive keySel line ctx off st} (k : Woken s t) :
    Woken s (securityAlarm t hive keySel line ctx off st) :=
  woken_alarmBy (fun _ _ _ _ _ => woken_hiveEvent (woken_refl _)) k

theorem woken_homeRead {hive keySel line level} (k : Woken s t) : Woken s (homeRead t hive keySel line level).1 :=
  woken_ite (woken_securityAlarm (woken_coreRead k)) (woken_coreRead k)

theorem woken_homeWrite {hive keySel line a5 level ctx off} (k : Woken s t) :
    Woken s (homeWrite t hive keySel line a5 level ctx off).1 :=
  woken_ite (woken_securityAlarm (woken_coreWrite k)) (woken_coreWrite k)

theorem woken_tableLine {line} (k : Woken s t) : Woken s (tableLine t line).1 :=
  woken_homeRead (woken_charge k)

theorem woken_tableWord {a} (k : Woken s t) : Woken s (tableWord t a).1 :=
  woken_tableLine k

theorem woken_tableWrite {a bytes} (k : Woken s t) : Woken s (tableWrite t a bytes).1 :=
  woken_tablePut (fun _ => woken_homeWrite (woken_refl _)) (woken_charge k)

theorem woken_putFault {bytes} (k : Woken s t) : Woken s (putFault t bytes) :=
  woken_ite (woken_pendMessage (woken_onXl (woken_tableWrite k))) (woken_onXl (woken_tableWrite k))

theorem woken_l2Put {e} (k : Woken s t) : Woken s (l2Put t e) :=
  woken_onXl k

theorem woken_grantRights {gs page len} (k : Woken s t) : Woken s (grantRights t gs page len).1 :=
  woken_foldl_fst (fun _ _ => woken_ite_fst (woken_tableWord (woken_refl _)) (woken_tableWord (woken_refl _))) k

theorem woken_finishLeaf {ctx va e level} (k : Woken s t) : Woken s (finishLeaf t ctx va e level).1 := by
  unfold finishLeaf
  refine woken_ite_fst k (woken_ite_fst k (woken_ite_fst k ?_))
  have g : Woken s (if ctx = 0 then (t, some (true, true, true)) else
      grantRights t (ctxAt t ctx).grants (paLocal (fld e 25 32 * 2 ^ 25)) (2 ^ (if level = 2 then 30 else 25))).1 :=
    woken_ite_fst k (woken_grantRights k)
  dsimp only
  split
  · exact g
  · exact g

theorem woken_dirPut {d} (k : Woken s t) : Woken s (dirPut t d) :=
  woken_onXl k

theorem woken_walkFrom {ctx va a level n} (k : Woken s t) : Woken s (walkFrom t ctx va a level n).1 := by
  induction n generalizing t a level with
  | zero => exact k
  | succ n ih =>
    have r := woken_tableWord k (a := paLocal a + vaIndex va level * 8)
    rw [walkFrom]
    exact woken_ite_fst k (woken_ite_fst r (woken_ite_fst r (woken_ite_fst r
      (woken_ite_fst (ih (woken_ite (woken_dirPut r) r)) (woken_finishLeaf r)))))

theorem woken_walk {ctx va} (k : Woken s t) : Woken s (walk t ctx va).1 := by
  unfold walk
  dsimp only
  split
  · exact woken_walkFrom (woken_dirPut k)
  · split
    · exact woken_walkFrom (woken_dirPut k)
    · exact woken_walkFrom k

theorem woken_atsRequest {leaf va wants forager} (k : Woken s t) (e : atsRequest t leaf va wants forager = some u) :
    Woken s u := by
  unfold atsRequest at e
  dsimp only at e
  split at e
  · cases e
    exact woken_onXl k
  · split at e
    · cases e
    · cases e
      exact woken_onXl (woken_emit k)

theorem woken_permFault {a2 st level acc ctx va r} (k : Woken s t) : Woken s (permFault t a2 st level acc ctx va r) :=
  woken_ite (woken_putFault k) (woken_ite (woken_onXl k) (woken_onHp k))

theorem woken_pinnedEntry {ctx va n r} (k : Woken s t) : Woken s (pinnedEntry t ctx va n r).1 := by
  unfold pinnedEntry
  dsimp only
  split
  · split
    · dsimp only
      exact k
    · split
      · split
        · dsimp only
          exact woken_permFault (woken_walk k)
        · dsimp only
          exact woken_walk k
      · split
        · dsimp only
          exact woken_ite (woken_walk k) (woken_l2Put (woken_walk k))
        · dsimp only
          exact woken_walk k
  · split
    · split
      · dsimp only
        exact woken_permFault (woken_walk k)
      · dsimp only
        exact woken_walk k
    · split
      · dsimp only
        exact woken_ite (woken_walk k) (woken_l2Put (woken_walk k))
      · dsimp only
        exact woken_walk k

theorem woken_hostSend {leaf va n r} (k : Woken s t) : Woken s (hostSend t leaf va n r).1 := by
  unfold hostSend
  split
  · exact k
  · dsimp only
    cases e : atsRequest t leaf va [{ r := r, access := accessOf n, va := va }] [] with
    | none => exact k
    | some u => exact woken_atsRequest k e

theorem woken_issueSlotRead {q idx} (k : Woken s t) : Woken s (issueSlotRead t q idx) := by
  unfold issueSlotRead
  dsimp only
  split
  · rename_i e
    refine woken_ite ?_ (woken_fst (woken_pinnedEntry k) e)
    split
    · rename_i e'
      exact woken_onHp (woken_emit (woken_fst (woken_hostSend (woken_fst (woken_pinnedEntry k) e)) e'))
    · rename_i e'
      exact woken_fst (woken_hostSend (woken_fst (woken_pinnedEntry k) e)) e'
  · exact k

end Sys2Proof.Frame
end

section
/-! The path of a command: its slot, its spans, its channel and its record (R20 to R23, R69, R73, R77, R99 to R121). -/
namespace Sys2Proof.Commands
open Sys2Proof.Machine Sys2Proof.Safety Sys2Proof.Frame
variable {s t : State} {q idx c : Nat}

theorem answers_imp {o : Host.Outcome State Fault Refusal} {P Q : State → Prop} (h : Answers o P) (i : ∀ t, P t → Q t) :
    Answers o Q := by
  obtain ⟨t, e, p⟩ := h
  exact ⟨t, e, i t p⟩

theorem queueAt_of_qm (e : t.qm = s.qm) (j : Nat) : queueAt t j = queueAt s j := by
  unfold queueAt
  rw [e]

theorem slotFetched (s : State) (q : Nat) (r : (queueAt s q).state = .running) (d :
    (queueAt s q).fetch ≠ (queueAt s q).tail)
    (m : fetchRoom s q = true) (a : hiveRuns s (ctxAt s (queueAt s q).ctx).hive = true) (g : s.clk.stream.ready = true) :
    Answers (exec (.slotFetch q) s) (fun t =>
      (queueAt t q).fetch = ((queueAt s q).fetch + 1) % 2 ^ 32 ∧ (queueAt t q).tail = (queueAt s q).tail ∧
        ∃ k ∈ t.qm.cmds, k.q = q ∧ k.idx = (queueAt s q).fetch ∧ k.stage = .reading) := by
  refine Laws.answers_of_eq (o := execSlotFetch q s) ?_ ?_ ?_
  · exact issueSlotRead (((setQueue (charge s (queueAt s q).label 128) q (fun y =>
      { y with fetch := idxAdd y.fetch 1 })).onQm
      (fun m => { m with cmds := m.cmds ++ [{ q := q, idx := (queueAt s q).fetch, ctx := (queueAt s q).ctx, stage := .reading,
                                              words := [], owed := [], hostDone := 0 }] }))) q (queueAt s q).fetch
  · unfold execSlotFetch
    dsimp only
    rw [r, m, a, bne_iff_ne.2 d]
    simp only [taken, inStream, g, beq_self_eq_true, Bool.and_self, if_true]
  · have w := (woken_charge (lab := (queueAt s q).label) (bytes := 128) (woken_refl s)).qm
    refine (?_ : _ ∧ _ ∧ _)
    generalize charge s (queueAt s q).label 128 = v at w ⊢
    have k := (woken_issueSlotRead (q := q) (idx := (queueAt s q).fetch) (woken_refl
      ((setQueue v q (fun y => { y with fetch := idxAdd y.fetch 1 })).onQm (fun m => { m with cmds := m.cmds ++
        [{ q := q, idx := (queueAt s q).fetch, ctx := (queueAt s q).ctx, stage := .reading, words := [], owed := [],
           hostDone := 0 }] })))).qm
    have e : queueAt v q = queueAt s q := queueAt_of_qm w q
    rw [queueAt_of_qm k q, k, queueAt_onQm _ _ _ rfl, queueAt_setQueue, e]
    refine ⟨rfl, rfl, _, List.mem_append_right _ (List.mem_singleton_self _), rfl, rfl, rfl⟩

theorem slotReadDone_run {k : Cmd} (f : cmdAt s q idx = some k) (g : k.stage = .reading) (w : k.words = [])
    (a : s.hp.reads.any (fun r => r.who == .pre q idx) = false)
    (b : s.xl.atsReqs.any (fun a => a.wants.any (fun w => w.r == .pre q idx)) = false) :
    execSlotReadDone q idx s = .next (match readSlot s q idx with
      | (t, .ok (some ws)) => fetched t q idx ws
      | (t, .ok none) => issueSlotRead t q idx
      | (t, .error st) => progress (discard t q idx st 0)) := by
  unfold execSlotReadDone
  dsimp only
  simp only [f, g, w, a, b, taken, ne_eq, not_true_eq_false, if_false, beq_self_eq_true, Bool.or_self, Bool.not_false,
    Bool.and_self,
    if_true] <;> rfl

theorem fetched_good {ws : List Word} (g : firstBad true (q == 0) ws = none) :
    fetched s q idx ws = setCmd s q idx (fun x => { x with words := ws, owed := owedOf ws, stage := .fetched }) := by
  simp only [fetched, g]

theorem fetched_bad {ws : List Word} {w : Nat} {st : Status} (g : firstBad true (q == 0) ws = some (w, st)) :
    fetched s q idx ws =
      discard (setCmd s q idx (fun x => { x with words := ws, owed := owedOf ws, stage := .fetched })) q idx st w := by
  simp only [fetched, g]

/-- A queue that is entered again gets a virtual time; nothing else changes. -/
theorem reenter_spec (s : State) (q h : Nat) : ∃ m, reenter s q h = s.onQm (fun _ => m) ∧ m.cmds = s.qm.cmds ∧ m.pins =
    s.qm.pins := by
  unfold reenter
  split
  · exact ⟨s.qm, rfl, rfl, rfl⟩
  · exact ⟨_, rfl, rfl, rfl⟩

theorem preTranslated {k : Cmd} (f : cmdAt s q idx = some k) (g : k.stage = .fetched) (p : preTurn s k = true)
    (r : (s.qm.pins.filter (fun p => p.idx.isSome)).length + (cmdSpans k).length ≤ Config.commandPins)
    (e : prePages s q idx k.ctx false (cmdPages k) k.hostDone = (t, .good)) :
    Answers (exec (.preTranslate q idx) s) (fun u => u.qm.pins = t.qm.pins ++ (cmdSpans k).map (fun p =>
        { ctx := k.ctx, pages := (pagesOf p).map (fun a => a / 2 ^ 25), need := p.need, parts := p.parts, q := q
          idx := some idx }) ∧ u.pr = t.pr ∧ u.xl = t.xl ∧
      u.qm.cmds = t.qm.cmds.map (fun j => if j.q == q && j.idx == idx then { j with stage := .preTranslated } else j)) :=
        by
  obtain ⟨m, a, mc, mp⟩ := reenter_spec t q (ctxAt t k.ctx).hive
  refine Laws.answers_of_eq (o := execPreTranslate q idx s) ?_ ?_ ?_
  · exact setCmd ((t.onQm (fun _ => m)).onQm (fun m => { m with pins := m.pins ++ (cmdSpans k).map (fun p =>
        { ctx := k.ctx, pages := (pagesOf p).map (fun a => a / 2 ^ 25), need := p.need, parts := p.parts, q := q
          idx := some idx }) })) q idx (fun x => { x with stage := .preTranslated })
  · unfold execPreTranslate
    simp only [f, g, p, e, a, beq_self_eq_true, Bool.and_self, taken, if_true, if_neg (Nat.not_lt.2 r)]
  · refine ⟨?_, rfl, rfl, ?_⟩
    · show m.pins ++ _ = _
      rw [mp]
    · show m.cmds.map _ = _
      rw [mc]

theorem dispatches {k : Cmd} (f : (pickHive s).bind (pickQueue s) = some q) (h : headCmd s q = some k) (n :
    c < Config.channels)
    (a : (chanAt s c).state = .free) (i : (moverAt s (c / 8)).inService = true) (d : (moverAt s (c / 8)).draining = false)
    (g : (moverAt s (c / 8)).gated = false ∨ ∀ d < Config.channels,
      mayGrant s d = true → (moverAt s (d / 8)).gated = true) :
    exec (.dispatch c) s = .next ((setMover (setChan s c (fun _ => dispatched s k)) (c / 8) (fun x =>
      { x with gated := false })).onQm
      (fun x => { x with cmds := x.cmds.filter (fun j => !(j.q == q && j.idx == k.idx)), lastHive := (ctxAt s k.ctx).hive })) := by
  have m : mayGrant s c = true := by
    simp only [mayGrant, n, a, i, d, decide_true, beq_self_eq_true, Bool.not_false, Bool.and_self]
  have w : (!(moverAt s (c / 8)).gated || !(List.range Config.channels).any (fun d =>
    mayGrant s d && !(moverAt s (d / 8)).gated)) =
      true := by
    rcases g with g | g
    · rw [g]
      rfl
    · have y : (List.range Config.channels).any (fun d => mayGrant s d && !(moverAt s (d / 8)).gated) = false := by
        refine List.any_eq_false.2 fun d hd => ?_
        have z := g d (List.mem_range.1 hd)
        cases e : mayGrant s d
        · simp
        · simp [z e]
      rw [y, Bool.not_false, Bool.or_true]
  show execDispatch c s = _
  unfold execDispatch
  dsimp only
  simp only [f, h, m, w, Bool.and_self, taken, if_true]

theorem commandCompletes (a : (chanAt s c).state = .ending) (r : (chanAt s c).retired = true) (h :
    (chanAt s c).hold = .none)
    (b : remoteBusy s c = false) (w : (chanAt s c).host = false ∨ (chanAt s c).hostWritten = false) :
    execCommandComplete c s = .next (progress (endCommand s c ((chanAt s c).lineStatus.getD (chanAt s c).endStatus)
      (chanAt s c).endDepth (chanAt s c).endWord)) := by
  have n : needsFlush (chanAt s c) (chanAt s c).host = false := by
    rcases w with w | w <;> simp [needsFlush, w]
  unfold execCommandComplete
  dsimp only
  rw [a, r, h, b, n]
  rfl

theorem abortSettles (a : (chanAt s c).state = .ending) (r : (chanAt s c).retired = false) (h : (chanAt s c).hold = .none)
    (b : remoteBusy s c = false) (d : s.hp.reads.any (fun r => r.who == .chan c) = false)
    (e : s.hp.flushes.any (fun f => f.2 == c) = false) :
    execAbortSettleDone c s =
      .next (progress (endCommand s c (chanAt s c).endStatus (chanAt s c).endDepth (chanAt s c).endWord)) := by
  unfold execAbortSettleDone
  dsimp only
  rw [a, r, h, b, d, e]
  rfl

theorem startRecord_found {r : PendRec} {i j : Nat} {e : Tlb} (f :
    l2Find s (queueAt s r.q).ctx (recordVa s r) = some (i, j, e))
    (p : e.permits .wr = true) : startRecord s r = recordGo s r e := by
  unfold startRecord
  dsimp only
  rw [f, Option.filter_some, if_pos p]

theorem startRecord_missing {r : PendRec} (f : l2Find s (queueAt s r.q).ctx (recordVa s r) = none) :
    startRecord s r = askWalk s (queueAt s r.q).ctx (recordVa s r)
      [{ r := .record r.q r.idx, access := .write, va := recordVa s r }] [] := by
  unfold startRecord
  dsimp only
  rw [f]
  rfl

theorem freeChan_woken (s : State) (c : Nat) :
    Woken (setChan (releasePins s (chanAt s c).q (chanAt s c).idx) c (fun _ => Channel.empty)) (freeChan s c) := by
  unfold freeChan
  dsimp only
  exact woken_ite (woken_raiseIrq (woken_refl _)) (woken_refl _)

/-- A channel whose command has ended is FREE, and the command's pins are released. -/
theorem freeChan_spec (s : State) (c : Nat) : chanAt (freeChan s c) c = Channel.empty ∧
    (freeChan s c).qm.pins = s.qm.pins.filter (fun p => !(p.q == (chanAt s c).q && p.idx == some (chanAt s c).idx)) := by
  have k := freeChan_woken s c
  constructor
  · rcases k.chans c with e | e
    · rw [e, chanAt_setChan]
    · rw [e, chanAt_setChan]
      rfl
  · rw [k.qm]
    rfl

theorem recordDone_frees {r : PendRec} (h : r.chan = some c) : chanAt (recordDone s r) c = Channel.empty ∧
    ∀ p ∈ (recordDone s r).qm.pins, ¬ (p.q = (chanAt s c).q ∧ p.idx = some (chanAt s c).idx) := by
  obtain ⟨m, e, mp⟩ : ∃ m : QueueMgr, setEnded (s.onQm (fun m => { m with records := m.records.filter (· != r) })) r.q
    r.idx =
      s.onQm (fun _ => m) ∧ m.pins = s.qm.pins := ⟨_, rfl, rfl⟩
  have d : recordDone s r = freeChan (s.onQm (fun _ => m)) c := by
    unfold recordDone
    dsimp only
    rw [h, e]
  obtain ⟨k, kp⟩ := freeChan_spec (s.onQm (fun _ => m)) c
  rw [d, kp]
  refine ⟨k, fun p hp ⟨a, b⟩ => ?_⟩
  obtain ⟨-, n⟩ := List.mem_filter.1 hp
  rw [a, b] at n
  simp only [chanAt_onQm, beq_self_eq_true, Bool.and_self, Bool.not_true, Bool.false_eq_true] at n

theorem recordBytes_spec (idx : Nat) (st : Status) (depth word m n : Nat) :
    (recordBytes idx st depth word m n).length = 16 ∧
    leNat ((recordBytes idx st depth word m n).take 8) =
      (idx * 2 ^ 32 + st.code * 2 ^ 24 + depth % 8 * 2 ^ 21 + word % 32 * 2 ^ 16) % 2 ^ 64 := by
  unfold recordBytes
  simp only [bytesOf, List.flatMap_cons, List.flatMap_nil, List.append_nil, Nat.shiftLeft_eq]
  constructor
  · rw [List.length_append, Bytes.length_leBytes, Bytes.length_leBytes]
  · rw [List.take_left' (Bytes.length_leBytes _ _), Bytes.leNat_leBytes]

/-- Settles O40. -/
theorem commandsGoTheirPath : Obligations.CommandsGoTheirPath := by
  unfold Obligations.CommandsGoTheirPath
  refine ⟨slotFetched, ?_, ?_, ?_, ?_, ?_, ?_, ?_, ?_, ?_, ?_, fun s r f => startRecord_missing f,
    fun s r c h => recordDone_frees h, recordBytes_spec⟩
  · intro s q idx k t ws f g w a b e n
    refine (slotReadDone_run f g w a b : exec (.slotReadDone q idx) s = _).trans (congrArg _ ?_)
    rw [e]
    exact fetched_good n
  · intro s q idx k t ws w st f g w a b e n
    refine (slotReadDone_run f g w a b : exec (.slotReadDone q idx) s = _).trans (congrArg _ ?_)
    rw [e]
    exact fetched_bad n
  · intro s q idx k t st f g w a b e
    refine (slotReadDone_run f g w a b : exec (.slotReadDone q idx) s = _).trans (congrArg _ ?_)
    rw [e]
  · intro s q idx k f g p r t e
    exact answers_imp (preTranslated f g p r e) fun u ⟨a, _, _, d⟩ => ⟨a, d⟩
  · intro s q idx k f g p n r
    have z : cmdPages k = [] := by rw [cmdPages, n, List.flatMap_nil]
    have l : (s.qm.pins.filter (fun p => p.idx.isSome)).length + (cmdSpans k).length ≤ Config.commandPins := by
      rw [n]
      exact (List.length_filter_le _ _).trans r
    refine answers_imp (preTranslated f g p l (t := s) (by rw [z, prePages])) fun u ⟨a, b, d, e⟩ => ⟨?_, b, d, e⟩
    rw [a, n, List.map_nil, List.append_nil]
  · intro s q idx k f g
    show execPreTranslationTimeout q idx s = _
    simp only [execPreTranslationTimeout, f, g, beq_self_eq_true, taken, if_true]
  · intro s c q k f h n a i d g
    refine Laws.answers_of_eq _ (dispatches f h n a i d g) ?_
    have e : chanAt ((setMover (setChan s c (fun _ => dispatched s k)) (c / 8) (fun x => { x with gated := false })).onQm
        (fun x => { x with cmds := x.cmds.filter (fun j => !(j.q == q && j.idx == k.idx)), lastHive := (ctxAt s k.ctx).hive })) c =
        dispatched s k := by
      rw [chanAt_onQm, chanAt_setMover, chanAt_setChan]
    rw [e]
    refine ⟨rfl, rfl, rfl, rfl, rfl, rfl, rfl, ?_, rfl, rfl⟩
    rw [moverAt_onQm, moverAt_setMover]
  · intro s c a r h b w
    exact commandCompletes a r h b w
  · intro s c a r h b d e
    exact abortSettles a r h b d e
  · intro s r i j e
    dsimp only
    intro f p n
    rw [startRecord_found f p]
    refine ⟨fun x y => ?_, fun x y => ?_, fun x y => ?_⟩
    · unfold recordGo
      dsimp only
      rw [if_neg (by rw [n]; decide), if_neg (not_not_intro x), if_neg (by rw [y]; decide)]
    · unfold recordGo
      dsimp only
      rw [if_neg (by rw [n]; decide), if_neg (not_not_intro x), if_pos (by rw [y]; decide)]
    · unfold recordGo
      dsimp only
      rw [if_neg (by rw [n]; decide), if_pos x, if_pos (by rw [y]; decide)]
      rfl

end Sys2Proof.Commands
end

section
/-! Line requests at their unit and on the port (R306, R312, R313, R315, R326, R445, R448). -/
namespace Sys2Proof.Units
open Sys2Proof.Machine Sys2Proof.Safety
variable {s : State} {h : HomeReq} {tag : Nat}

/-! ## What a request wakes -/

/-- A state whose units and movers are gated as given. -/
def gatedAs (s : State) (g : List Nat) (m : Tab Mover) : State :=
  (s.onPr (fun x => { x with gated := g })).onMv (fun x => { x with movers := m })

theorem wakes (s : State) (p a : Nat) (k : Option WriteKind) : ∃ g m, wakeHome (wakeUnit s p) a k = gatedAs s g m := by
  have u : ∃ g, wakeUnit s p = s.onPr (fun x => { x with gated := g }) := by
    unfold wakeUnit
    split
    · exact ⟨_, rfl⟩
    · exact ⟨s.pr.gated, rfl⟩
  obtain ⟨g, e⟩ := u
  rw [e]
  unfold wakeHome
  dsimp only
  split
  · exact ⟨g, _, rfl⟩
  · exact ⟨g, s.mv.movers, rfl⟩

theorem arrive_loaded (e : (slotAt s h.req.keySel).loaded = true) : ∃ g m, arrive s h =
    match (sliceAt s h.req.addr).state with
    | .fresh =>
      if h.second.isSome then answerReq (gatedAs s g m) h (h.second.getD .ok) []
      else if h.kind.isNone then answerReq (gatedAs s g m) h .ok (List.replicate 128 0)
      else if (portAt s (homePort s h.req.addr)).leftOut then answerReq (gatedAs s g m) h .timeout []
      else openSlice (awaitSlice (gatedAs s g m) h) h
    | .opening => awaitSlice (gatedAs s g m) h
    | .opened => if (portAt s (homePort s h.req.addr)).leftOut then answerReq (gatedAs s g m) h .timeout []
      else lineRequest (gatedAs s g m) h := by
  obtain ⟨g, m, w⟩ := wakes s (homePort s h.req.addr) h.req.addr h.kind
  refine ⟨g, m, ?_⟩
  unfold arrive
  dsimp only
  rw [w]
  exact if_neg (by rw [show (slotAt (gatedAs s g m) h.req.keySel).loaded = true from e]; decide)

theorem arrive_opened (e : (slotAt s h.req.keySel).loaded = true) (f : (sliceAt s h.req.addr).state = .opened)
    (l : (portAt s (homePort s h.req.addr)).leftOut = false) : ∃ g m, arrive s h = lineRequest (gatedAs s g m) h := by
  obtain ⟨g, m, w⟩ := arrive_loaded e
  refine ⟨g, m, w.trans ?_⟩
  rw [f, l]
  rfl

/-! ## What leaves on a port -/

theorem nextTurn_single {o : Nat} (l : o < 101) (last : Nat) : nextTurn 101 last [o] = some o := by
  have f : ∃ x ∈ (List.range 101).map (fun i => (last + 1 + i) % 101), [o].contains x = true := by
    refine ⟨o, List.mem_map.2 ⟨(o + 101 - (last + 1) % 101) % 101, List.mem_range.2 (Nat.mod_lt _ (by decide)), by omega⟩,
      ?_⟩
    exact List.contains_iff_mem.2 (List.mem_singleton_self o)
  unfold nextTurn
  cases e : ((List.range 101).map (fun i => (last + 1 + i) % 101)).find? (fun x => [o].contains x) with
  | none =>
    obtain ⟨x, m, c⟩ := f
    exact absurd c (List.find?_eq_none.1 e x m)
  | some x =>
    have c := List.find?_some e
    exact congrArg some (List.mem_singleton.1 (List.contains_iff_mem.1 c))

theorem requesterOf_lt (o : Origin) : requesterOf o < 101 := by
  cases o <;> simp only [requesterOf] <;> omega

/-- A request that waits alone at a port is the next one served. -/
theorem nextReq_single {x : Port} (a : x.arb = [h]) (g : x.aged = []) (l : h.req.level < 4) : nextReq x = some h := by
  have one (lv : Nat) : (let l := x.arb.filter (fun h => h.req.level == lv)
      (nextTurn 101 ((Tab.look x.turns lv).getD 100) (l.map (fun h => requesterOf h.req.origin))).bind (fun o =>
        l.find? (fun h => requesterOf h.req.origin == o))) = if h.req.level = lv then some h else none := by
    dsimp only
    rw [a]
    split
    next e =>
      rw [List.filter_cons_of_pos (by simp [e]), List.filter_nil, List.map_cons, List.map_nil,
        nextTurn_single (requesterOf_lt _), Option.bind_some, List.find?_cons_of_pos (by simp)]
    next e =>
      rw [List.filter_cons_of_neg (by simpa using e), List.filter_nil, List.map_nil]
      cases nextTurn 101 ((Tab.look x.turns lv).getD 100) [] <;> rfl
  have r : nextReq x = (List.range 4).findSome? (fun lv => if h.req.level = lv then some h else none) := by
    unfold nextReq
    rw [g]
    dsimp only
    exact congrArg (fun f => List.findSome? f (List.range 4)) (funext one)
  rw [r]
  have c : h.req.level = 0 ∨ h.req.level = 1 ∨ h.req.level = 2 ∨ h.req.level = 3 := by omega
  rcases c with c | c | c | c <;> rw [c] <;> rfl

theorem setPort_setPort (s : State) (p : Nat) (f g : Port → Port) :
    setPort (setPort s p f) p g = setPort s p (fun x => g (f x)) := by
  unfold setPort
  have e : portAt ({ s with ports := Tab.put s.ports p (f (portAt s p)) } : State) p = f (portAt s p) :=
    portAt_setPort s p f
  rw [e, Tab.put_put]

theorem setPort_emit (s : State) (p : Nat) (f : Port → Port) (o : Output) :
    setPort (emit s o) p f = emit (setPort s p f) o := rfl

theorem setPort_congr {s : State} {p : Nat} {f g : Port → Port} (e : f (portAt s p) = g (portAt s p)) :
    setPort s p f = setPort s p g := by
  unfold setPort
  rw [e]

theorem passOver_nil (s : State) (o : Option Nat) : passOver s o [] = s := rfl

/-- A port as a read leaves it that goes out on it at once. -/
def Sent (x : Port) (h : HomeReq) (tag : Nat) : Port :=
  { x with creditReq := x.creditReq - 1, reads := x.reads ++ [{ tag := tag, home := h, line := [], old := 0 }],
           arb := [], turns := Tab.put x.turns h.req.level (requesterOf h.req.origin) }

/-- R445: a read at an idle port with a credit and a tag leaves at once. -/
theorem sendOut_read (t : h.ticket = false) (w : h.writes = false) (a : (portAt s (homePort s h.req.addr)).arb = [])
    (g : (portAt s (homePort s h.req.addr)).aged = []) (l : h.req.level < 4)
    (c : (portAt s (homePort s h.req.addr)).creditReq ≠ 0)
    (f : freeTag (portAt s (homePort s h.req.addr)).reads (portAt s (homePort s h.req.addr)).quarReads = some tag) :
    sendOut s h = setPort (emit (useTweak s h.req.keySel h.req.addr)
      (.portRequest (homePort s h.req.addr) false tag (portOffset s h.req.addr) h.req.level)) (homePort s h.req.addr)
      (fun x => Sent x h tag) := by
  generalize ep : homePort s h.req.addr = p at *
  have q : portAt (setPort (useTweak s h.req.keySel h.req.addr) p (fun y => { y with arb := y.arb ++ [h] })) p =
      { portAt s p with arb := [h] } := by
    rw [portAt_setPort]
    show ({ portAt s p with arb := (portAt s p).arb ++ [h] } : Port) = _
    rw [a]
    rfl
  have o : portOf (setPort (useTweak s h.req.keySel h.req.addr) p (fun y => { y with arb := y.arb ++ [h] })) h = p := ep
  have o' : portOf s h = p := ep
  have n : nextReq { portAt s p with arb := [h] } = some h := nextReq_single rfl g l
  unfold sendOut
  dsimp only
  rw [o', a]
  show drainPort _ p 1 = _
  generalize hu : setPort (useTweak s h.req.keySel h.req.addr) p (fun y => { y with arb := y.arb ++ [h] }) = u at q o
  have y : trySend u h = some (emit (setPort u p (fun y =>
      { y with creditReq := y.creditReq - 1, reads := y.reads ++ [{ tag := tag, home := h, line := [], old := 0 }] }))
      (.portRequest p false tag (portOffset u h.req.addr) h.req.level)) := by
    unfold trySend
    dsimp only
    rw [o, q, if_neg (by rw [t]; decide), if_neg c, if_neg (by rw [w]; decide)]
    show (freeTag (portAt s p).reads (portAt s p).quarReads).map _ = _
    rw [f]
    rfl
  unfold drainPort
  rw [q, n]
  dsimp only
  rw [y]
  dsimp only
  have z : (portAt (setPort (emit (setPort u p (fun y =>
      { y with creditReq := y.creditReq - 1, reads := y.reads ++ [{ tag := tag, home := h, line := [], old := 0 }] }))
      (.portRequest p false tag (portOffset u h.req.addr) h.req.level)) p (fun y => y.served h)) p).arb = [] := by
    rw [portAt_setPort, portAt_emit, portAt_setPort, q]
    show [h].erase h = []
    simp
  rw [z, List.map_nil, passOver_nil]
  unfold drainPort
  rw [setPort_emit, setPort_emit, setPort_setPort, ← hu, setPort_setPort]
  refine congrArg (emit · _) (setPort_congr ?_)
  show Port.served { portAt s p with creditReq := (portAt s p).creditReq - 1, reads := _, arb := (portAt s p).arb ++ [h] }
    h = Sent _ _ _
  unfold Port.served Sent
  rw [a, show (portAt (useTweak s h.req.keySel h.req.addr) p) = portAt s p from rfl]
  simp [g]

/-! ## The read of a line -/

/-- A line that nothing holds: the request leaves on the port. -/
theorem lineRequest_read (n : h.kind = none) (i : h.second = none) (a : s.pr.locks = []) (b : s.pr.lockWait = [])
    (o : onLine s h.req.addr = []) : lineRequest s h = sendOut (if h.locks then addLock s h.req.addr true [] else s) h :=
      by
  have w : homeWaits s h.req.addr none = false := rfl
  have z : locksOf s (homePort s h.req.addr) = 0 := by rw [locksOf, a]; rfl
  unfold lineRequest
  dsimp only
  rw [a, b, n, w, o, z]
  cases h.locks <;> simp [HomeReq.stores, n, i, Config.lineLocks]

theorem homePort_of_kp {s t : State} (e : t.kp = s.kp) (a : Nat) : homePort t a = homePort s a := by
  cases s
  cases t
  simp only at e
  subst e
  rfl

theorem portOffset_of_kp {s t : State} (e : t.kp = s.kp) (a : Nat) : portOffset t a = portOffset s a := by
  cases s
  cases t
  simp only at e
  subst e
  rfl

theorem onLine_of {s t : State} (k : t.kp = s.kp) (p : t.ports = s.ports) (g : t.pr.granted = s.pr.granted) (a : Nat) :
    onLine t a = onLine s a := by
  unfold onLine portAt
  rw [homePort_of_kp k, p, g]

/-- A request that leaves on a port touches the tweak cache, and is among what the block has sent. -/
theorem emit_useTweak_keeps (v : State) (k a : Nat) (o : Output) :
    (emit (useTweak v k a) o).sent = v.sent ++ [o] ∧ (emit (useTweak v k a) o).pr.mem = v.pr.mem ∧
      (emit (useTweak v k a) o).ports = v.ports ∧ (emit (useTweak v k a) o).kp = v.kp ∧
      (emit (useTweak v k a) o).rg = v.rg ∧ (emit (useTweak v k a) o).pr.slots = v.pr.slots ∧
      (emit (useTweak v k a) o).he = v.he ∧ (emit (useTweak v k a) o).clk = v.clk := by
  cases v
  exact ⟨rfl, rfl, rfl, rfl, rfl, rfl, rfl, rfl⟩

/-- R445: what a read leaves that goes out at once. -/
theorem readLeaves (e : (slotAt s h.req.keySel).loaded = true) (f : (sliceAt s h.req.addr).state = .opened)
    (lo : (portAt s (homePort s h.req.addr)).leftOut = false) (n : h.kind = none) (i : h.second = none) (tk :
      h.ticket = false)
    (a : s.pr.locks = []) (b : s.pr.lockWait = []) (o : onLine s h.req.addr = [])
    (ar : (portAt s (homePort s h.req.addr)).arb = []) (g : (portAt s (homePort s h.req.addr)).aged = []) (l :
      h.req.level < 4)
    (c : (portAt s (homePort s h.req.addr)).creditReq ≠ 0)
    (t : freeTag (portAt s (homePort s h.req.addr)).reads (portAt s (homePort s h.req.addr)).quarReads = some tag) :
    ∃ u, arrive s h = setPort u (homePort s h.req.addr) (fun x => Sent x h tag) ∧
      u.sent = s.sent ++ [.portRequest (homePort s h.req.addr) false tag (portOffset s h.req.addr) h.req.level] ∧
      u.pr.mem = s.pr.mem ∧ u.ports = s.ports ∧ u.kp = s.kp ∧ u.rg = s.rg ∧ u.pr.slots = s.pr.slots ∧ u.he = s.he ∧ u.clk
        = s.clk := by
  obtain ⟨gt, m, w⟩ := arrive_opened e f lo
  have wr : h.writes = false := by rw [HomeReq.writes, i, n]; rfl
  have og : onLine (gatedAs s gt m) h.req.addr = [] := (onLine_of (s := s) rfl rfl rfl _).trans o
  rw [w, lineRequest_read (s := gatedAs s gt m) n i a b og]
  have out (v : State) (k : v.kp = s.kp) (p : v.ports = s.ports) : sendOut v h =
      setPort (emit (useTweak v h.req.keySel h.req.addr) (.portRequest (homePort s h.req.addr) false tag
        (portOffset s h.req.addr) h.req.level)) (homePort s h.req.addr) (fun x => Sent x h tag) := by
    have pv (j : Nat) : portAt v j = portAt s j := by unfold portAt; rw [p]
    have x := sendOut_read (s := v) (tag := tag) tk wr
    rw [homePort_of_kp k, portOffset_of_kp k, pv] at x
    exact x ar g l c t
  cases h.locks
  · exact ⟨_, out (gatedAs s gt m) rfl rfl, emit_useTweak_keeps _ _ _ _⟩
  · exact ⟨_, out (addLock (gatedAs s gt m) h.req.addr true []) rfl rfl, emit_useTweak_keeps _ _ _ _⟩

/-- Sixteen stacks make 128 ports (R41, R42). The line at 2^18 is at port 64 of cell 0,
  and eight other slices of port 0 are being
filled: the key of its slice counts it at port 0, too. -/
def crowded : State :=
  ((State.reset.onClk (fun c => { c with stream := { c.stream with ready := true } })).onKp (fun k =>
    { k with settings := { k.settings with integ := 0x10_00_21_00 } })).onPr (fun p =>
    { p with
      slots := [(1, { KeySlot.empty with loaded := true })]
      slices := (List.range 8).map (fun i => (128 + 64 * i, { Slice.fresh with state := .opening, filling := true })) })

/-- A line request of the host port under key 1. -/
def farLine : LineReq := { origin := .hostPort 0, hive := 0, keySel := 1, label := 0, level := 0, addr := 2 ^ 18 }

/-- How many outputs have left by an outcome. -/
def sentBy : Host.Outcome State Fault Refusal → Option Nat
  | .next t => some t.sent.length
  | _ => none

/-- Refutes O41: the fill of a slice counts the fills at the port that its key names, port 64 as port 0. With 128 ports,
  a write
to a FRESH line at port 64, where nothing is being filled, does not begin its fill while port 0 fills eight slices. -/
theorem not_lineRequestsAtTheirUnit : ¬ Obligations.LineRequestsAtTheirUnit := by
  rintro ⟨-, -, write, -⟩
  obtain ⟨t, e, -, sent, -⟩ := write crowded farLine (.whole []) (by decide +kernel) (by decide +kernel)
    (by decide +kernel)
    (by decide +kernel) (by decide +kernel) (by decide +kernel)
  have fills : fillsOf crowded (homePort crowded (lineOf farLine.addr)) < Config.openings := by decide +kernel
  have none : sentBy (exec (.propolisWrite farLine (.whole [])) crowded) = some 0 := by decide +kernel
  rw [if_pos fills] at sent
  rw [e, sentBy, sent, List.length_append] at none
  exact absurd (Option.some.inj none) (by simp)

end Sys2Proof.Units
end

section
/-! Responses, credits and timeouts of the stream ports, and scrubs (R132, R310, R311, R315, R326, R419, R447 to R449). -/
namespace Sys2Proof.Units
open Sys2Proof.Machine Sys2Proof.Safety
variable {s : State} {h : HomeReq} {p tag : Nat}

/-- Nothing is out on a port or behind a lock, and no turn has been granted. -/
structure Idle (s : State) (p : Nat) : Prop where
  reads : (portAt s p).reads = []
  writes : (portAt s p).writes = []
  arb : (portAt s p).arb = []
  aged : (portAt s p).aged = []
  locks : s.pr.locks = []
  lockWait : s.pr.lockWait = []
  granted : s.pr.granted = []

theorem settle_idle (i : Idle s (homePort s h.req.addr)) (st : Status) (d : List Byte) :
    settle s h st d = wakeLines (answerReq s h st d) :=
  Laws.settle_alone i.reads i.writes i.arb i.aged i.locks i.lockWait i.granted

theorem Idle.setCond (i : Idle s p) (a : Nat) (c : LineCond) : Idle (setCond s a c) p :=
  ⟨i.reads, i.writes, i.arb, i.aged, i.locks, i.lockWait, i.granted⟩

/-- The last read of a port is answered. -/
theorem Idle.of_read {h : HomeReq} {l : List Byte} {o : Nat} (r :
    (portAt s p).reads = [{ tag := tag, home := h, line := l, old := o }])
    (w : (portAt s p).writes = []) (a : (portAt s p).arb = []) (g : (portAt s p).aged = []) (k : s.pr.locks = [])
    (lw : s.pr.lockWait = []) (gr : s.pr.granted = []) :
    Idle (setPort s p (fun y => { y with reads := y.reads.filter (fun q => q.tag != tag) })) p := by
  refine ⟨?_, ?_, ?_, ?_, k, lw, gr⟩ <;> rw [portAt_setPort]
  · rw [r]
    simp
  · exact w
  · exact a
  · exact g

theorem streamRead {l data : List Byte} {o w : Nat} (r : (portAt s p).reads =
    [{ tag := tag, home := h, line := l, old := o }])
    (d : data.length = 128) : exec (.streamResponse p false tag false false false ⟨w, data⟩) s = .next (onward (readBack
      (setPort s p (fun y => { y with reads := y.reads.filter (fun q => q.tag != tag) })) p h false false false w data))
        := by
  show execStreamResponse p false tag false false false _ s = _
  have f : ((portAt s p).reads.find? (fun r => r.tag == tag)) = some { tag := tag, home := h, line := l, old := o } := by
    rw [r]
    exact List.find?_cons_of_pos (by simp)
  unfold execStreamResponse
  dsimp only
  rw [if_neg (by decide : ¬ (false = true)), f]
  dsimp only
  rw [d]
  rfl

theorem sized_of_length {n : Nat} {d : List Byte} (l : d.length = n) : sized n d = d := by
  rw [sized, List.take_append_of_le_length (by rw [l]), List.take_of_length_le (by rw [l])]

/-- R310: data under its DATA tag is the line. -/
theorem readBack_good {data : List Byte} (i : Idle s (homePort s h.req.addr)) (k : h.kind = none)
    (o : (sliceAt s h.req.addr).state = .opened) (d : data.length = 128) :
    ∃ u, readBack s p h false false false (lineTag (slotAt s h.req.keySel).material (slotAt s h.req.keySel).hashKey
      h.req.addr false data)
        data = u ∧ u.sent = s.sent ++ [.lineAnswer h.req.origin .ok
          (sized 128 (decryptLine (slotAt s h.req.keySel).material h.req.addr data))] ∧ u.ports = s.ports ∧
      condOf u h.req.addr = .good ∧ u.pr.mem = cellWriteN 0 s.pr.mem h.req.addr
        (sized 128 (decryptLine (slotAt s h.req.keySel).material h.req.addr data)) := by
  have c : classify s h.req.keySel h.req.addr (lineTag (slotAt s h.req.keySel).material (slotAt s h.req.keySel).hashKey
    h.req.addr
      false data) data = (.good, decryptLine (slotAt s h.req.keySel).material h.req.addr data) := by
    unfold classify
    rw [sized_of_length d, if_pos rfl]
  have b (z : List Byte) : observe s h.req.addr .good z =
      (setCond s h.req.addr .good).onPr (fun p => { p with mem := cellWriteN 0 p.mem h.req.addr (sized 128 z) }) := by
    rw [observe, if_neg (not_not_intro o), if_pos rfl]
  refine ⟨_, rfl, ?_⟩
  unfold readBack
  dsimp only
  rw [if_neg (by simp), c]
  dsimp only
  rw [if_neg (by rw [k]; simp), if_neg (by simp), b]
  generalize decryptLine (slotAt s h.req.keySel).material h.req.addr data = z
  have j : Idle ((setCond s h.req.addr .good).onPr (fun p => { p with mem := cellWriteN 0 p.mem h.req.addr (sized 128 z) }))
      (homePort s h.req.addr) := ⟨i.reads, i.writes, i.arb, i.aged, i.locks, i.lockWait, i.granted⟩
  rw [settle_idle j]
  refine ⟨rfl, rfl, ?_, rfl⟩
  show (match Tab.look (Tab.put s.pr.conds h.req.addr .good) h.req.addr with | some c => c | none => _) = _
  rw [Tab.look_put]

/-- R311: data under its POISON tag makes the line poisoned. -/
theorem readBack_poisoned {data : List Byte} (i : Idle s (homePort s h.req.addr))
    (o : (sliceAt s h.req.addr).state = .opened) (d : data.length = 128)
    (n : lineTag (slotAt s h.req.keySel).material (slotAt s h.req.keySel).hashKey h.req.addr true data ≠
      lineTag (slotAt s h.req.keySel).material (slotAt s h.req.keySel).hashKey h.req.addr false data) :
    ∃ u, readBack s p h false false false (lineTag (slotAt s h.req.keySel).material (slotAt s h.req.keySel).hashKey
      h.req.addr true data)
        data = u ∧ u.sent = s.sent ++ [.lineAnswer h.req.origin .poison []] ∧ u.ports = s.ports ∧
      condOf u h.req.addr = .poisoned ∧ u.pr.mem = s.pr.mem := by
  have c : classify s h.req.keySel h.req.addr (lineTag (slotAt s h.req.keySel).material (slotAt s h.req.keySel).hashKey
    h.req.addr
      true data) data = (.poisoned, []) := by
    unfold classify
    rw [sized_of_length d, if_neg n, if_pos rfl]
  have b (z : List Byte) : observe s h.req.addr .poisoned z = setCond s h.req.addr .poisoned := by
    rw [observe, if_neg (not_not_intro o), if_neg (by decide)]
  refine ⟨_, rfl, ?_⟩
  unfold readBack
  dsimp only
  rw [if_neg (by simp), c]
  dsimp only
  rw [b, settle_idle (i.setCond h.req.addr .poisoned)]
  refine ⟨rfl, rfl, ?_, rfl⟩
  show (match Tab.look (Tab.put s.pr.conds h.req.addr .poisoned) h.req.addr with | some c => c | none => _) = _
  rw [Tab.look_put]

section
variable {l data : List Byte} {o : Nat} (r : (portAt s p).reads = [{ tag := tag, home := h, line := l, old := o }])
  (w : (portAt s p).writes = []) (a : (portAt s p).arb = []) (g : (portAt s p).aged = []) (k : s.pr.locks = [])
  (lw : s.pr.lockWait = []) (gr : s.pr.granted = []) (hp : homePort s h.req.addr = p)
  (op : (sliceAt s h.req.addr).state = .opened) (d : data.length = 128)
include r w a g k lw gr hp op

/-- What the block is once the tag of a port's last read is free. -/
theorem freed : ∃ t, setPort s p (fun y => { y with reads := y.reads.filter (fun q => q.tag != tag) }) = t ∧
    Idle t (homePort t h.req.addr) ∧ homePort t h.req.addr = p ∧ slotAt t = slotAt s ∧ (sliceAt t h.req.addr).state =
      .opened ∧
    t.sent = s.sent ∧ t.pr = s.pr := by
  have i := Idle.of_read r w a g k lw gr
  refine ⟨_, rfl, ?_, hp, rfl, op, rfl, rfl⟩
  have e : homePort (setPort s p (fun y => { y with reads := y.reads.filter (fun q => q.tag != tag) })) h.req.addr = p :=
    hp
  rw [e]
  exact i

include d in
theorem dataComes (hk : h.kind = none) : Answers (exec (.streamResponse p false tag false false false
      ⟨lineTag (slotAt s h.req.keySel).material (slotAt s h.req.keySel).hashKey h.req.addr false data, data⟩) s)
    (fun t => ∃ u, t = onward u ∧
      u.sent = s.sent ++ [.lineAnswer h.req.origin .ok (sized 128
        (decryptLine (slotAt s h.req.keySel).material h.req.addr data))] ∧
      (portAt u p).reads = [] ∧ condOf u h.req.addr = .good ∧ u.pr.mem =
        cellWriteN 0 s.pr.mem h.req.addr (sized 128 (decryptLine (slotAt s h.req.keySel).material h.req.addr data))) := by
  obtain ⟨t, et, i, tp, ts, to', tn, tr⟩ := freed r w a g k lw gr hp op
  obtain ⟨u, e, us, up, uc, um⟩ := readBack_good (p := p) (h := h) (data := data) i hk to' d
  have x := streamRead (w := lineTag (slotAt s h.req.keySel).material (slotAt s h.req.keySel).hashKey h.req.addr false
    data) r d
  rw [et] at x
  rw [ts, tn] at us
  rw [ts, tr] at um
  rw [ts] at e
  refine ⟨_, x, u, congrArg onward e, us, ?_, uc, um⟩
  unfold portAt
  rw [up, ← tp]
  exact i.reads

include d in
theorem poisonComes (n : lineTag (slotAt s h.req.keySel).material (slotAt s h.req.keySel).hashKey h.req.addr true data ≠
      lineTag (slotAt s h.req.keySel).material (slotAt s h.req.keySel).hashKey h.req.addr false data) :
    Answers (exec (.streamResponse p false tag false false false
      ⟨lineTag (slotAt s h.req.keySel).material (slotAt s h.req.keySel).hashKey h.req.addr true data, data⟩) s)
    (fun t => ∃ u, t = onward u ∧ u.sent = s.sent ++ [.lineAnswer h.req.origin .poison []] ∧
      (portAt u p).reads = [] ∧ condOf u h.req.addr = .poisoned ∧ u.pr.mem = s.pr.mem) := by
  obtain ⟨t, et, i, tp, ts, to', tn, tr⟩ := freed r w a g k lw gr hp op
  rw [← ts] at n
  obtain ⟨u, e, us, up, uc, um⟩ := readBack_poisoned (p := p) (h := h) (data := data) i to' d n
  have x := streamRead (w := lineTag (slotAt s h.req.keySel).material (slotAt s h.req.keySel).hashKey h.req.addr true
    data) r d
  rw [et] at x
  rw [tn] at us
  rw [tr] at um
  rw [ts] at e
  refine ⟨_, x, u, congrArg onward e, us, ?_, uc, um⟩
  unfold portAt
  rw [up, ← tp]
  exact i.reads

end

/-- A read that waits for credits stays where it is. -/
theorem trySend_spent (c : (portAt s (homePort s h.req.addr)).creditReq = 0) : trySend s h = none := by
  have l : lineLacks s h.req.addr h.kind = true := by
    unfold lineLacks Port.lacks
    rw [c]
    rfl
  unfold trySend
  dsimp only
  rw [l, show (portAt s (portOf s h)).creditReq = 0 from c]
  simp

theorem drainPort_idle (n : Nat) (a : (portAt s p).arb = []) (g : (portAt s p).aged = []) : drainPort s p n = s := by
  have z : nextReq (portAt s p) = none := by
    simp [nextReq, a, g, nextTurn, List.findSome?_eq_none_iff]
  cases n with
  | zero => rfl
  | succ n => rw [drainPort, z]

theorem portsUp_stays (d : s.clk.portsDue = false) : portsUp s = s := by
  rw [portsUp, d]
  rfl

theorem Idle.drawNat (i : Idle s p) : Idle (drawNat s).2 p :=
    ⟨i.reads, i.writes, i.arb, i.aged, i.locks, i.lockWait, i.granted⟩

/-- An acknowledged whole-line write leaves its bytes in the line. -/
theorem writeLands {d l : List Byte} {o : Nat} (wf : MemoryWf s) (w :
    (portAt s p).writes = [{ tag := tag, home := h, line := l, old := o }])
    (r : (portAt s p).reads = []) (a : (portAt s p).arb = []) (g : (portAt s p).aged = []) (k : s.pr.locks = []) (lw :
      s.pr.lockWait = [])
    (gr : s.pr.granted = []) (hk : h.kind = some (.whole d)) (sn : h.second = none) (or : h.req.origin ≠ .scrubber)
    (len : l.length = 128) (op : (sliceAt s h.req.addr).state = .opened) (hp : homePort s h.req.addr = p) (x : Nat) (m :
      RsData) :
    Answers (exec (.streamResponse p true tag false false false m) s) (fun t => ∃ u, t = onward u ∧
      (portAt u p).writes = [] ∧ u.sent = s.sent ++ [.lineAnswer h.req.origin .ok []] ∧
        memByte u x = if h.req.addr ≤ x ∧ x < h.req.addr + 128 then nth l (x - h.req.addr) 0 else memByte s x) := by
  have f : ((portAt s p).writes.find? (fun r => r.tag == tag)) = some { tag := tag, home := h, line := l, old := o } := by
    rw [w]
    exact List.find?_cons_of_pos (by simp)
  have e : execStreamResponse p true tag false false false m s = .next (onward (writeBackDone
      (setPort s p (fun y => { y with writes := y.writes.filter (fun q => q.tag != tag) }))
        { tag := tag, home := h, line := l, old := o }
      false)) := by
    unfold execStreamResponse
    dsimp only
    rw [if_pos rfl, f]
    rfl
  have i : Idle (setPort s p (fun y => { y with writes := y.writes.filter (fun q => q.tag != tag) })) p := by
    refine ⟨?_, ?_, ?_, ?_, k, lw, gr⟩ <;> rw [portAt_setPort]
    · exact r
    · rw [w]
      simp
    · exact a
    · exact g
  refine ⟨_, e, _, rfl, ?_⟩
  generalize ht : setPort s p (fun y => { y with writes := y.writes.filter (fun q => q.tag != tag) }) = t at i
  have tm : t.pr = s.pr := by rw [← ht]; rfl
  have tp : homePort t h.req.addr = p := by rw [← ht]; exact hp
  have ts : t.sent = s.sent := by rw [← ht]; rfl
  have so : (sliceAt t h.req.addr).state = .opened := by rw [← ht]; exact op
  have la : landed t { tag := tag, home := h, line := l, old := o } = storeLine t h.req.addr l := by
    unfold landed
    dsimp only
    rw [if_neg (not_not_intro so), sn]
    exact if_neg or
  obtain ⟨q, qm⟩ := Laws.storeLine_quiet t h.req.addr l
  have j : Idle (storeLine t h.req.addr l) (homePort (storeLine t h.req.addr l) h.req.addr) := by
    rw [q.homePort, tp]
    exact ⟨by rw [q.portAt, i.reads], by rw [q.portAt, i.writes], by rw [q.portAt, i.arb], by rw [q.portAt, i.aged],
      by rw [q.locks, i.locks], by rw [q.lockWait, i.lockWait], by rw [q.granted, i.granted]⟩
  have wb : writeBackDone t { tag := tag, home := h, line := l, old := o } false =
      wakeLines (answerReq (storeLine t h.req.addr l) h .ok []) := by
    unfold writeBackDone
    dsimp only
    rw [sn, hk, la]
    exact settle_idle j .ok []
  rw [wb]
  have mb : memByte (wakeLines (answerReq (storeLine t h.req.addr l) h .ok [])) x =
      cellRead 0 (cellWriteN 0 s.pr.mem h.req.addr l) x := by
    rw [← tm, ← qm]
    rfl
  refine ⟨?_, ?_, ?_⟩
  · show (portAt (storeLine t h.req.addr l) p).writes = []
    rw [q.portAt, i.writes]
  · rw [← ts]
    rfl
  · rw [mb, cellRead_cellWriteN (h := wf.1), len]
    rfl

theorem refusePort_spec (s : State) (p : Nat) : (refusePort s p).br.refused = s.br.refused + 1 ∧ (refusePort s p).ports =
    s.ports ∧
    (refusePort s p).pr = s.pr ∧ (refusePort s p).sent = s.sent := by
  obtain ⟨f, e, r⟩ := HostPort.logErr_eq (s.onBr (fun b => { b with refused := b.refused + 1 }))
    { cls := 4, ugroup := if p < 64 then 10 else 6, unit := if p < 64 then p else p - 64, cause := 6 }
  have e' : refusePort s p = (s.onBr (fun b => { b with refused := b.refused + 1 })).onBr f := e
  rw [e']
  exact ⟨r _, rfl, rfl, rfl⟩

theorem creditsAdd {req wd : Nat} (n : p < 96) (a : req ≤ 15) (b : wd ≤ 15) (ar : (portAt s p).arb = []) (ag :
    (portAt s p).aged = [])
    (c : (portAt s p).creditReq + req ≤ 255) (d : (portAt s p).creditWd + wd ≤ 255) (pd : s.clk.portsDue = false) :
    Answers (exec (.creditReturn p req wd) s) (fun t => ∃ u, t = onward u ∧
      (portAt u p).creditReq = (portAt s p).creditReq + req ∧ (portAt u p).creditWd = (portAt s p).creditWd + wd ∧
        u.br = s.br ∧ ∀ j, j ≠ p → portAt u j = portAt s j) := by
  generalize ht : setPort s p (fun y => { y with
    creditReq := Nat.min 255 (y.creditReq + req), creditWd := Nat.min 255 (y.creditWd + wd),
    initial := y.initial || (decide (8 ≤ y.creditReq + req) && decide (8 ≤ y.creditWd + wd)) }) = t
  have q : portAt t p = { portAt s p with
      creditReq := Nat.min 255 ((portAt s p).creditReq + req), creditWd := Nat.min 255 ((portAt s p).creditWd + wd)
      initial := (portAt s p).initial || (decide (8 ≤ (portAt s p).creditReq + req) && decide (8 ≤ (portAt s p).creditWd + wd)) } := by
    rw [← ht, portAt_setPort]
  have tc : t.clk.portsDue = false := by rw [← ht]; exact pd
  have e : execCreditReturn p req wd s = .next (onward (wakeLines t)) := by
    unfold execCreditReturn
    dsimp only
    rw [if_neg (by omega), decide_eq_true n, decide_eq_true a, decide_eq_true b, ht, portsUp_stays tc,
      drainPort_idle _ (by rw [q]; exact ar) (by rw [q]; exact ag), Bool.and_self, Bool.and_self]
    exact Laws.taken_true _ _
  refine ⟨_, e, _, rfl, ?_, ?_, ?_, fun j n => ?_⟩
  · show (portAt t p).creditReq = _
    rw [q]
    exact Nat.min_eq_right c
  · show (portAt t p).creditWd = _
    rw [q]
    exact Nat.min_eq_right d
  · rw [← ht]
    rfl
  · show portAt t j = _
    rw [← ht]
    exact portAt_setPort_ne s p j _ n

theorem leavesOut (n : p < fld s.kp.settings.integ 16 8) (i : (portAt s p).initial = false) (l :
    (portAt s p).leftOut = false)
    (c : (portAt s p).creditReq = 0) (d : (portAt s p).creditWd = 0) (a : (portAt s p).arb = []) (pd :
      s.clk.portsDue = false) :
    Answers (exec (.initialCreditTimeout p) s) (fun t => ∃ u, t = onward u ∧ (portAt u p).leftOut = true ∧ u.pr = s.pr) :=
      by
  obtain ⟨f, e, -⟩ := HostPort.logErr_eq (setPort s p (fun y => { y with leftOut := true, arb := [], aged := [] }))
    { cls := 4, ugroup := 10, unit := p, cause := 6 }
  have x : execInitialCreditTimeout p s = .next (onward (wakeLines
      ((setPort s p (fun y => { y with leftOut := true, arb := [], aged := [] })).onBr f))) := by
    unfold execInitialCreditTimeout
    dsimp only
    have u : portsUp ((setPort s p (fun y => { y with leftOut := true, arb := [], aged := [] })).onBr f) = _ :=
      portsUp_stays pd
    rw [a, List.foldl_nil, e, u, decide_eq_true n, i, l, c, d]
    exact Laws.taken_true _ _
  refine ⟨_, x, _, rfl, ?_, rfl⟩
  show (portAt (setPort s p (fun y => { y with leftOut := true, arb := [], aged := [] })) p).leftOut = true
  rw [portAt_setPort]

theorem tagTimesOut {l : List Byte} {o : Nat} (r : (portAt s p).reads = [{ tag := tag, home := h, line := l, old := o }])
    (w : (portAt s p).writes = []) (a : (portAt s p).arb = []) (g : (portAt s p).aged = []) (k : s.pr.locks = [])
    (lw : s.pr.lockWait = []) (gr : s.pr.granted = []) (hp : homePort s h.req.addr = p) :
    Answers (exec (.streamRequestTimeout (.portTag p false tag)) s) (fun t => ∃ u, t = onward u ∧
      (portAt u p).reads = [] ∧ (portAt u p).quarReads = (portAt s p).quarReads ++ [tag] ∧ u.pr.mem = s.pr.mem ∧
        u.sent = s.sent ++ [.lineAnswer h.req.origin .timeout []]) := by
  have f : ((portAt s p).reads.find? (fun r => r.tag == tag)) = some { tag := tag, home := h, line := l, old := o } := by
    rw [r]
    exact List.find?_cons_of_pos (by simp)
  have q : portAt (setPort s p (fun y => { y with reads := y.reads.filter (fun q => q.tag != tag), quarReads := y.quarReads ++ [tag] })) p =
      { portAt s p with reads := [], quarReads := (portAt s p).quarReads ++ [tag] } := by
    rw [portAt_setPort, r]
    simp
  have i : Idle (drawNat (setPort s p (fun y => { y with
      reads := y.reads.filter (fun q => q.tag != tag), quarReads := y.quarReads ++ [tag] }))).2
      (homePort (drawNat (setPort s p (fun y => { y with
        reads := y.reads.filter (fun q => q.tag != tag), quarReads := y.quarReads ++ [tag] }))).2 h.req.addr) := by
    rw [show homePort (drawNat (setPort s p (fun y => { y with
      reads := y.reads.filter (fun q => q.tag != tag), quarReads := y.quarReads ++ [tag] }))).2 h.req.addr = p from hp]
    refine Idle.drawNat ⟨?_, ?_, ?_, ?_, k, lw, gr⟩ <;> rw [q]
    · exact w
    · exact a
    · exact g
  have e : execStreamRequestTimeout (.portTag p false tag) s = .next
    (onward (wakeLines (answerReq (drawNat (setPort s p (fun y =>
      { y with reads := y.reads.filter (fun q => q.tag != tag), quarReads := y.quarReads ++ [tag] }))).2 h .timeout [])))
        := by
    unfold execStreamRequestTimeout
    dsimp only
    rw [if_neg (by decide : ¬ (false = true)), f]
    dsimp only
    unfold portTimeout
    dsimp only
    rw [if_neg (by simp)]
    exact congrArg (fun x => Host.Outcome.next (onward x)) (settle_idle i .timeout [])
  refine ⟨_, e, _, rfl, ?_, ?_, rfl, rfl⟩
  · exact congrArg Port.reads q
  · exact congrArg Port.quarReads q

theorem ageExpires {k : Nat} (a : (portAt s p).arb = [h]) (hp : homePort s h.req.addr = p) (k0 : k = 0)
    (c : (portAt s p).creditReq = 0) (g : (portAt s p).aged = []) :
    Answers (exec (.arbiterAgeExpiry (.port p) k) s) (fun t =>
      (portAt t p).arb = [h] ∧ (portAt t p).aged = [h] ∧ t.sent = s.sent) := by
  subst k0
  have q : portAt (setPort s p (fun y => { y with aged := y.aged ++ [h] })) p = { portAt s p with aged := [h] } := by
    rw [portAt_setPort, g]
    rfl
  have x : trySend (setPort s p (fun y => { y with aged := y.aged ++ [h] })) h = none := by
    refine trySend_spent ?_
    rw [show homePort (setPort s p (fun y => { y with aged := y.aged ++ [h] })) h.req.addr = p from hp, q]
    exact c
  have d : drainPort (setPort s p (fun y => { y with aged := y.aged ++ [h] })) p ([h].length + 1) =
      setPort s p (fun y => { y with aged := y.aged ++ [h] }) := by
    rw [drainPort, q, show nextReq { portAt s p with aged := [h] } = some h from rfl]
    dsimp only
    rw [x]
  have e : execArbiterAgeExpiry (.port p) 0 s = .next (setPort s p (fun y => { y with aged := y.aged ++ [h] })) := by
    unfold execArbiterAgeExpiry
    dsimp only
    rw [a, g]
    show taken (!([] : List HomeReq).contains h) s (drainPort _ p ([h].length + 1)) = _
    rw [d]
    rfl
  refine ⟨_, e, ?_, ?_, rfl⟩ <;> rw [q]
  exact a

/-- R419: the request of a scrub. -/
def scrubReq (k a : Nat) : HomeReq :=
  { req := { origin := .scrubber, hive := alarmHive Config.noHive k, keySel := k, label := Config.noLabel, level := 3, addr := a }
    kind := none, second := none, raw := [], ticket := false }

theorem execMemoryScrub_ready {addr : Nat} {co er po : Bool} {m : Option RsData} (b : lineOf addr < memBytes s)
    (c : s.clk.stream.ready = true) : execMemoryScrub addr co er po m s =
      match (s.he.hives.findSome? (fun h => (combFor s h.1 (lineOf addr)).map (·.keySel))) with
      | none => .next s
      | some k =>
        if (sliceAt s (lineOf addr)).state == .opened && (slotAt s k).loaded then
          match m, scrubRead (arrive s (scrubReq k (lineOf addr))) (lineOf addr) with
          | some d, some r => execStreamResponse (homePort s (lineOf addr)) false r.tag co er po d
            (arrive s (scrubReq k (lineOf addr)))
          | _, _ => .next (arrive s (scrubReq k (lineOf addr)))
        else .next s := by
  unfold execMemoryScrub
  dsimp only
  rw [if_neg (Nat.not_le.2 b), if_neg (by rw [c]; decide)]
  rfl

/-- The scrub of a line of an OPEN slice is a read that goes out at once where nothing holds it. -/
theorem scrubReads {addr k : Nat} {co er po : Bool} (c : s.clk.stream.ready = true) (b : lineOf addr < memBytes s)
    (o : (sliceAt s (lineOf addr)).state = .opened)
    (fk : s.he.hives.findSome? (fun h => (combFor s h.1 (lineOf addr)).map (·.keySel)) = some k) (ld :
      (slotAt s k).loaded = true)
    (ol : onLine s (lineOf addr) = []) (lk : s.pr.locks = []) (lw : s.pr.lockWait = [])
    (lo : (portAt s (homePort s (lineOf addr))).leftOut = false) (ar : (portAt s (homePort s (lineOf addr))).arb = [])
    (ag : (portAt s (homePort s (lineOf addr))).aged = []) (cr : (portAt s (homePort s (lineOf addr))).creditReq ≠ 0)
    (ft : freeTag (portAt s (homePort s (lineOf addr))).reads (portAt s (homePort s (lineOf addr))).quarReads = some tag)
      :
    Answers (exec (.memoryScrub addr co er po none) s) (fun t =>
      t.sent = s.sent ++ [.portRequest (homePort s (lineOf addr)) false tag (portOffset s (lineOf addr)) 3] ∧
        t.pr.mem = s.pr.mem ∧ t.rg = s.rg ∧ (scrubRead t (lineOf addr)).map (·.tag) = some tag ∧
        ∀ d, exec (.memoryScrub addr co er po (some d)) s =
          exec (.streamResponse (homePort s (lineOf addr)) false tag co er po d) t) := by
  obtain ⟨u, w, us, um, up, uk, ur, -⟩ := readLeaves (s := s) (h := scrubReq k (lineOf addr)) ld o lo rfl rfl rfl lk lw ol
    ar ag
    (by decide : (3 : Nat) < 4) cr ft
  have hp : homePort (arrive s (scrubReq k (lineOf addr))) (lineOf addr) = homePort s (lineOf addr) := by
    rw [w]
    exact homePort_of_kp uk _
  have pu : portAt u (homePort s (lineOf addr)) = portAt s (homePort s (lineOf addr)) := by unfold portAt; rw [up]
  have rd : (portAt (arrive s (scrubReq k (lineOf addr))) (homePort s (lineOf addr))).reads =
      (portAt s (homePort s (lineOf addr))).reads ++ [{ tag := tag, home := scrubReq k (lineOf addr), line := [], old := 0 }] := by
    rw [w]
    refine (congrArg Port.reads (portAt_setPort u (homePort s (lineOf addr)) (fun x => Sent x _ tag))).trans ?_
    rw [pu]
    rfl
  have sr : scrubRead (arrive s (scrubReq k (lineOf addr))) (lineOf addr) =
      some { tag := tag, home := scrubReq k (lineOf addr), line := [], old := 0 } := by
    unfold scrubRead
    rw [hp, rd, List.find?_append]
    have none : (portAt s (homePort s (lineOf addr))).reads.find? (fun r => r.home.req.origin == .scrubber &&
        r.home.req.addr == lineOf addr) = none := by
      refine List.find?_eq_none.2 fun r hr n => ?_
      have i : r.home ∈ onLine s (lineOf addr) := by
        refine List.mem_filter.2 ⟨?_, (Bool.and_eq_true_iff.1 n).2⟩
        exact List.mem_append_left _ (List.mem_append_left _ (List.mem_append_left _ (List.mem_map_of_mem hr)))
      rw [ol] at i
      exact absurd i List.not_mem_nil
    rw [none, Option.none_or]
    exact List.find?_cons_of_pos (by simp [scrubReq])
  have e (m : Option RsData) := execMemoryScrub_ready (s := s) (addr := addr) (co := co) (er := er) (po := po) (m := m) b
    c
  simp only [fk, o, ld, beq_self_eq_true, Bool.and_self, if_true, sr] at e
  refine Laws.answers_of_eq _ (e none) ⟨?_, ?_, ?_, by rw [sr]; rfl, fun d => e (some d)⟩ <;> rw [w]
  · exact us
  · exact um
  · exact ur

/-- Settles O42. -/
theorem portsCarryLines : Obligations.PortsCarryLines := by
  refine ⟨fun s p tag h l o data r w a g k lw gr hk hp op d => ?_, fun s p tag h l o data r w a g k lw gr hp op d n => ?_,
    fun s p tag h d l o a m wf w r ar g k lw gr hk sn or len op hp =>
      writeLands wf w r ar g k lw gr hk sn or len op hp a m,
    fun s p write tag co er po m n f => ?_, fun s p req wd n a b ar ag c d pd => creditsAdd n a b ar ag c d pd,
    fun s p n i l c d a pd => leavesOut n i l c d a pd, fun s p tag h l o r w a g k lw gr hp =>
      tagTimesOut r w a g k lw gr hp,
    fun s id x f => ?_, fun s p k h a hp k0 c g => ageExpires a hp k0 c g, fun s addr co er po m b c n => ?_,
    fun s addr co er po m b c => ?_, fun s addr co er po m b c n => ?_,
    fun s addr k tag co er po c b o fk ld ol lk lw _ lo ar ag cr ft => scrubReads c b o fk ld ol lk lw lo ar ag cr ft,
    fun s p tag h l o data good r w a g k lw gr hk _ hp op d n => ?_⟩
  · exact dataComes r w a g k lw gr hp op d hk
  · exact poisonComes r w a g k lw gr hp op d n
  · obtain ⟨a, b, c, d⟩ := refusePort_spec s p
    have e : execStreamResponse p write tag co er po m s = .next (refusePort s p) := by
      unfold execStreamResponse
      dsimp only
      rw [f, decide_eq_true n]
      rfl
    exact ⟨_, e, a, b, c, d⟩
  · show execStreamRequestTimeout (.remote id) s = _
    simp only [execStreamRequestTimeout, f]
  · show execMemoryScrub addr co er po m s = _
    rw [execMemoryScrub_ready b c]
    split
    · rfl
    · rw [if_neg (by simp [n])]
  · show execMemoryScrub addr co er po m s = _
    unfold execMemoryScrub
    dsimp only
    rw [if_neg (Nat.not_le.2 b), c]
    rfl
  · show execMemoryScrub addr co er po m s = _
    rw [execMemoryScrub_ready b c, n]
  · cases good
    · obtain ⟨t, e, u, eu, -, ur, uc, -⟩ := poisonComes r w a g k lw gr hp op d n
      exact ⟨t, e, u, eu, uc, ur⟩
    · obtain ⟨t, e, u, eu, -, ur, uc, -⟩ := dataComes r w a g k lw gr hp op d hk
      exact ⟨t, e, u, eu, uc, ur⟩

end Sys2Proof.Units
end

section
/-! Answers to fault records (R242 to R245). -/
namespace Sys2Proof.Faults
open Sys2Proof.Machine Sys2Proof.Safety
variable {s : State} {w : Word}

theorem execFaultAnswer_found {f : FaultRec} (o : hostOpen s = true) (b : blockReady s = true)
    (e : s.xl.faults.find? (fun f => f.index == fld w.toNat 32 32) = some f) : exec (.faultAnswer w) s = .next
      (if fld w.toNat 0 8 = 0 then progress (drainAll (retryRec (endPri s f) f))
      else if fld w.toNat 0 8 = 1 then progress (drainAll (f.reqs.foldl (fun t r => endReq t .fault r)
        (dropRec (endPri s f) f)))
      else if fld w.toNat 0 8 = 2 then progress (drainAll (f.reqs.foldl (fun t r => endReq t .rights r)
        (dropRec (endPri s f) f)))
      else dupResponse s) := by
  refine (HostPort.hostAccess_open o _).trans (congrArg _ ?_)
  rw [if_neg (by rw [b]; decide), e]

theorem execFaultConsumed_within (o : hostOpen s = true) (b : blockReady s = true)
    (d : Machine.dist (fld w.toNat 0 32) s.xl.faultConsumed ≤ Machine.dist s.xl.faultNext s.xl.faultConsumed) :
    exec (.faultConsumed w) s = .next (drainAll (s.onXl (fun x => { x with faultConsumed := fld w.toNat 0 32 }))) := by
  refine (HostPort.hostAccess_open o _).trans (congrArg _ ?_)
  rw [if_neg (by rw [b]; decide), if_pos d]

theorem drainAll_none (p : s.xl.permWait = []) (r : s.xl.resWait = []) : drainAll s = s := by
  rw [drainAll, p, r]
  rfl

/-- Settles O43. -/
theorem faultRecordsAreAnswered : Obligations.FaultRecordsAreAnswered := by
  refine ⟨fun s w o b => ?_, fun s w f o b e => ⟨fun a => ?_, fun a => ?_, fun a => ?_, fun a => ?_⟩, fun s w o b e => ?_,
    fun s w o b d p r => ?_, fun s w o b d => ?_, fun s w o b d => execFaultConsumed_within o b d, fun s r va m => ?_,
      fun s r n => ?_⟩
  · refine (HostPort.hostAccess_open o _).trans (congrArg _ ?_)
    rw [if_pos (by rw [b]; rfl)]
  · rw [execFaultAnswer_found o b e, if_pos a]
  · rw [execFaultAnswer_found o b e, if_neg (by omega), if_pos a]
  · rw [execFaultAnswer_found o b e, if_neg (by omega), if_neg (by omega), if_pos a]
  · rw [execFaultAnswer_found o b e, if_neg (by omega), if_neg (by omega), if_neg (by omega)]
  · refine Laws.answers_of_eq (dupResponse s) ((HostPort.hostAccess_open o _).trans (congrArg _ ?_)) ⟨rfl, rfl, rfl, rfl,
      rfl⟩
    rw [if_neg (by rw [b]; decide), e]
  · rw [execFaultConsumed_within o b d]
    exact congrArg Host.Outcome.next (drainAll_none (s := s.onXl (fun x => { x with faultConsumed := fld w.toNat 0 32 }))
      p r)
  · refine Laws.answers_of_eq (count s (fun c => { c with badConsumed := satInc 32 c.badConsumed }))
      ((HostPort.hostAccess_open o _).trans (congrArg _ ?_)) ⟨rfl, rfl⟩
    rw [if_neg (by rw [b]; decide), if_neg (Nat.not_le.2 d)]
  · show taken _ s _ = _
    rw [List.any_eq_true.2 ⟨_, m, beq_self_eq_true r⟩]
    rfl
  · show taken _ s _ = _
    rw [List.any_eq_false.2 (fun x m => by simpa using n x m)]
    rfl

end Sys2Proof.Faults
end

section
/-! The host's answers: translations, page requests, invalidations and reads (R219, R232 to R236, R253, R437). -/
namespace Sys2Proof.HostAnswers
open Sys2Proof.Machine Sys2Proof.Safety
variable {s : State}

/-! ## Translation requests -/

section
variable {id : Nat} {q : AtsReq} (f : s.xl.atsReqs.find? (fun r => r.id == id) = some q)
include f

theorem completion_stale (n : q.seq ≠ (ctxAt s q.ctx).invSeq) (a : AtsAnswer) :
    exec (.atsTranslationCompletion id a) s = .next (progress (sendWaiting (q.wants.foldl (fun t w => retryReq t w.r)
      (s.onXl (fun x => { x with atsReqs := x.atsReqs.filter (fun r => r.id != id) }))))) := by
  show execAtsTranslationCompletion id a s = _
  unfold execAtsTranslationCompletion
  rw [f]
  dsimp only
  rw [if_pos n]

theorem completion_error (n : q.seq = (ctxAt s q.ctx).invSeq) :
    exec (.atsTranslationCompletion id .error) s = .next (progress (sendWaiting (faultAll
      (s.onXl (fun x => { x with atsReqs := x.atsReqs.filter (fun r => r.id != id) })) .hostDenied .fault 0 q.ctx
        q.wants))) := by
  show execAtsTranslationCompletion id .error s = _
  unfold execAtsTranslationCompletion
  rw [f]
  dsimp only
  rw [if_neg (not_not_intro n)]

theorem completion_translation (n : q.seq = (ctxAt s q.ctx).invSeq) {sz frame : Nat} {r w : Bool} (z : 12 ≤ sz)
    {t : State} {e : Tlb}
    (ht : s.onXl (fun x => { x with atsReqs := x.atsReqs.filter (fun r => r.id != id) }) = t)
    (he : { ctx := q.ctx, va := q.va / 2 ^ sz * 2 ^ sz, sizeLog2 := sz, frame := frame / 2 ^ sz * 2 ^ sz, host := true,
            translated := true, rd := r, wr := w, atom := false, nopf := false, hive := (ctxAt t q.ctx).hive } = e) :
    exec (.atsTranslationCompletion id (.translation sz frame r w)) s = .next (progress (sendWaiting
      ((byAccess (q.wants.filter (fun x => !e.permits (needOfAccess x.access)))).foldl
        (fun t g => pageRequest t q.ctx g.2.1 g.1 g.2.2) ((q.wants.filter (fun x =>
          e.permits (needOfAccess x.access))).foldl
          (fun t x => (hostWant t q.leaf x).getD t) (if (r || w) && (q.wants != [] || q.forager != []) then atsPut t e
            else t))))) := by
  show execAtsTranslationCompletion id (.translation sz frame r w) s = _
  unfold execAtsTranslationCompletion
  rw [f]
  dsimp only
  rw [if_neg (not_not_intro n), show Nat.max 12 sz = sz from Nat.max_eq_right z, ht, he]

end

theorem not_permits_of_none {e : Tlb} (r : e.rd = false) (w : e.wr = false) (a : e.atom = false) (n : Need) :
    e.permits n = false := by
  cases n <;> simp [Tlb.permits, r, w, a]

/-! ## Page requests -/

theorem execPrgResponse_found {pasid group x : Nat} {p : PriReq} (o : hostOpen s = true)
    (f : s.xl.pri.find? (fun p => p.group == some group && p.pasid == pasid) = some p)
    (l : Tab.look s.hp.pasids pasid = some x) (code : PrgCode) : exec (.prgResponse pasid group code) s =
      let t := s.onXl (fun x => { x with pri := x.pri.filter (fun y => y != p) })
      .next (match code with
        | .success => if p.answered then sendPri (dupResponse t)
          else progress (sendPri (drainAll ((recsOf t p.ctx p.page).foldl retryRec t)))
        | .invalidRequest => if p.answered then sendPri (dupResponse t)
          else progress (sendPri (drainAll ((recsOf t p.ctx p.page).foldl denyRec t)))
        | .responseFailure =>
          progress (drainAll ((((t.onXl (fun x => { x with pri := [] })).onHp (fun h =>
            { h with priFailed := true })).xl.faults ++
            ((t.onXl (fun x => { x with pri := [] })).onHp (fun h => { h with priFailed := true })).xl.resWait).filter
              (fun f => f.kind == .hostPage) |>.foldl denyRec
                ((t.onXl (fun x => { x with pri := [] })).onHp (fun h => { h with priFailed := true }))))) := by
  refine (HostPort.hostAccess_open o _).trans (congrArg _ ?_)
  rw [f, l] <;> rfl

theorem execPrgResponse_none {pasid group : Nat} (o : hostOpen s = true)
    (f : s.xl.pri.find? (fun p => p.group == some group && p.pasid == pasid) = none) (code : PrgCode) :
    exec (.prgResponse pasid group code) s = .next (dupResponse s) := by
  refine (HostPort.hostAccess_open o _).trans (congrArg _ ?_)
  rw [f]

theorem sendOnePri_spec (s : State) : (sendOnePri s).hp = s.hp ∧ (sendOnePri s).qm = s.qm ∧ (sendOnePri s).xl.ats =
    s.xl.ats ∧
    (sendOnePri s).xl.dir = s.xl.dir := by
  unfold sendOnePri
  dsimp only
  split <;> exact ⟨rfl, rfl, rfl, rfl⟩

theorem sendPri_spec (s : State) : (sendPri s).hp = s.hp ∧ (sendPri s).qm = s.qm ∧ (sendPri s).xl.ats = s.xl.ats ∧
    (sendPri s).xl.dir = s.xl.dir := by
  have all (l : List PriReq) (t : State) : (l.foldl (fun t _ => sendOnePri t) t).hp = t.hp ∧
      (l.foldl (fun t _ => sendOnePri t) t).qm = t.qm ∧ (l.foldl (fun t _ => sendOnePri t) t).xl.ats = t.xl.ats ∧
      (l.foldl (fun t _ => sendOnePri t) t).xl.dir = t.xl.dir := by
    induction l generalizing t with
    | nil => exact ⟨rfl, rfl, rfl, rfl⟩
    | cons p l ih =>
      obtain ⟨a, b, c, d⟩ := sendOnePri_spec t
      obtain ⟨a', b', c', d'⟩ := ih (sendOnePri t)
      exact ⟨a'.trans a, b'.trans b, c'.trans c, d'.trans d⟩
  unfold sendPri
  split
  · exact all _ s
  · exact ⟨rfl, rfl, rfl, rfl⟩

/-! ## Invalidations -/

theorem settleInvs_none (a : s.xl.atsInvs = []) : settleInvs s = s := by
  have e : (s.onXl (fun x => { x with atsInvs := [] })) = s := by
    cases s
    rename_i xl _ _ _ _ _ _ _
    cases xl
    simp only at a
    subst a
    rfl
  unfold settleInvs
  rw [a]
  exact e

/-- An invalidation of a PASID in use, with no host read out, drops the host translations of its range. -/
theorem invalidates {itag pasid va n ctx : Nat} (o : hostOpen s = true) (l : Tab.look s.hp.pasids pasid = some ctx) (r :
    s.hp.reads = [])
    (a : s.xl.atsInvs = []) : Answers (exec (.atsInvalidationRequest itag (some pasid) va n) s) (fun t =>
      t.sent = s.sent ++ [.atsInvalidationDone itag] ∧ t.xl.atsInvs = [] ∧
        (∀ e, e ∈ t.xl.ats ↔ e ∈ s.xl.ats ∧ (e.host = false ∨ e.overlaps ctx (va / 2 ^ n * 2 ^ n) (2 ^ n) = false)) ∧
        t.pr = s.pr ∧ t.qm = s.qm ∧ t.hp = s.hp) := by
  have one (u : State) (i : u.xl.atsInvs = [(itag, [])]) :
      settleInvs u = emit (u.onXl (fun x => { x with atsInvs := [] })) (.atsInvalidationDone itag) := by
    unfold settleInvs
    rw [i]
    rfl
  refine ⟨_, HostPort.hostAccess_open o _, ?_⟩
  rw [Option.bind_some, l]
  dsimp only
  rw [r, List.filter_nil, List.map_nil, one _ (congrArg (· ++ [(itag, [])]) a)]
  refine ⟨rfl, rfl, fun e => ?_, rfl, rfl, rfl⟩
  refine List.mem_filter.trans (and_congr_right fun _ => ?_)
  cases e.host <;> simp

/-! ## Host reads -/

/-- A channel that waits for nothing. -/
def waitless (x : Channel) : Channel := { x with hold := .none }

/-- The channels that waited for host reads that have all come back go on; they change in their hold alone. -/
theorem hostOn_spec (s : State) : ∃ m : Movers, hostOn s = s.onMv (fun _ => m) ∧
    ∀ c, waitless (chanAt (s.onMv (fun _ => m)) c) = waitless (chanAt s c) := by
  have all (l : List Nat) (t : State) : ∃ m : Movers, l.foldl (fun t c =>
      if t.hp.reads.any (fun r => r.who == .chan c) then t else setChan t c (fun x => { x with hold := .none })) t =
        t.onMv (fun _ => m) ∧ ∀ c, waitless (chanAt (t.onMv (fun _ => m)) c) = waitless (chanAt t c) := by
    induction l generalizing t with
    | nil => exact ⟨t.mv, rfl, fun _ => rfl⟩
    | cons k l ih =>
      rw [List.foldl_cons]
      split
      · exact ih t
      · obtain ⟨m, e, h⟩ := ih (setChan t k (fun x => { x with hold := .none }))
        refine ⟨m, e, fun c => (h c).trans ?_⟩
        by_cases n : c = k
        · rw [n, chanAt_setChan]
          rfl
        · rw [chanAt_setChan_ne _ _ _ _ n]
  exact all _ s

theorem chanAt_wake (s : State) (c : Nat) (r : (chanAt s c).state = .running) :
    chanAt (wake s c) c = waitless (chanAt s c) := by
  unfold wake
  rw [chanAt_setChan, r]
  simp [waitless, ← r]

theorem hostReadDone {id c : Nat} {r : HostRead} {data : List Byte} (rs : s.hp.reads = [r]) (i : r.id = id) (w :
    r.who = .chan c)
    (st : (chanAt s c).state = .running) (a : s.xl.atsInvs = []) (l : data.length = r.len) :
    Answers (exec (.hostReadCompletion id true data) s) (fun t =>
      t.hp.reads = [] ∧ (chanAt t c).rob = Tab.put (chanAt s c).rob r.va data ∧ (chanAt t c).hold = .none ∧ t.pr = s.pr)
        := by
  obtain ⟨m, e, h⟩ := hostOn_spec (s.onHp (fun h => { h with reads := h.reads.filter (fun x => x.id != id) }))
  have d : (data ++ List.replicate r.len 0).take r.len = data := by
    rw [List.take_append_of_le_length (by rw [l]), List.take_of_length_le (by rw [l])]
  have x : execHostReadCompletion id true data s = .next (setChan (wake ((s.onHp (fun h =>
      { h with reads := h.reads.filter (fun x => x.id != id) })).onMv (fun _ => m)) c) c (fun x =>
        { x with rob := Tab.put x.rob r.va data })) := by
    unfold execHostReadCompletion
    rw [rs, List.find?_cons_of_pos (by simp [i])]
    dsimp only
    rw [e, settleInvs_none (s := (s.onHp _).onMv _) a, d, w]
    dsimp only
    rw [if_neg (by simp [st]), if_pos rfl]
  refine ⟨_, x, ?_, ?_, ?_, rfl⟩
  · show s.hp.reads.filter (fun x => x.id != id) = []
    rw [rs]
    simp [i]
  · have k : (chanAt ((s.onHp (fun h => { h with reads := h.reads.filter (fun x => x.id != id) })).onMv (fun _ => m))
      c).rob =
        (chanAt s c).rob :=
      (congrArg Channel.rob (h c) : (waitless _).rob = (waitless (chanAt s c)).rob)
    rw [chanAt_setChan, ← k]
    unfold wake
    rw [chanAt_setChan]
  · rw [chanAt_setChan]
    unfold wake
    rw [chanAt_setChan]

theorem flushReadDone {id c : Nat} (fl : s.hp.flushes = [(id, c)]) (st : (chanAt s c).state = .running) :
    Answers (exec (.hostFlushReadCompletion id) s) (fun t => t.hp.flushes = [] ∧
      chanAt t c = { chanAt s c with hold := .none, hostWritten := false } ∧ t.pr = s.pr ∧ t.qm = s.qm ∧ t.xl = s.xl) :=
        by
  obtain ⟨m, e, h⟩ := hostOn_spec (s.onHp (fun h => { h with flushes := h.flushes.filter (fun x => x.1 != id) }))
  have x : execHostFlushReadCompletion id s = .next (setChan (wake ((s.onHp (fun h =>
      { h with flushes := h.flushes.filter (fun x => x.1 != id) })).onMv (fun _ => m)) c) c (fun x =>
        { x with hostWritten := false })) := by
    unfold execHostFlushReadCompletion
    rw [fl, List.find?_cons_of_pos (by simp)]
    dsimp only
    rw [e]
  have run : (chanAt ((s.onHp (fun h => { h with flushes := h.flushes.filter (fun x => x.1 != id) })).onMv (fun _ => m))
    c).state =
      .running := (congrArg Channel.state (h c) : (waitless _).state = (waitless (chanAt s c)).state).trans st
  refine ⟨_, x, ?_, ?_, rfl, rfl, rfl⟩
  · show s.hp.flushes.filter (fun x => x.1 != id) = []
    rw [fl]
    simp
  · rw [chanAt_setChan, chanAt_wake _ _ run, h c]
    rfl

/-! ## PRI -/

theorem priEnable_some (ats : Bool) (n : Nat) : exec (.priEnableChange ats (some n)) s = .next (sendPri
    (let t := s.onHp (fun h => { h with atsOn := ats, priOn := true, priAlloc := n, priFailed := h.priFailed && !(true && !h.priOn) })
     if ats = s.hp.atsOn then t
     else t.onXl (fun x => { x with ats := [], l1 := Tab.mapv x.l1 (fun _ l => l.filter (fun e => !e.host)) }))) := rfl

theorem priEnable_none (ats : Bool) {u : State}
    (hu : (if ats = s.hp.atsOn then s.onHp (fun h => { h with atsOn := ats, priOn := false, priFailed := h.priFailed && !(false && !h.priOn) })
      else (s.onHp (fun h => { h with atsOn := ats, priOn := false, priFailed := h.priFailed && !(false && !h.priOn) })).onXl (fun x =>
        { x with ats := [], l1 := Tab.mapv x.l1 (fun _ l => l.filter (fun e => !e.host)) })) = u) :
    exec (.priEnableChange ats none) s = .next (progress (drainAll (((u.xl.pri.filter (fun p => p.group.isNone)).flatMap
      (fun p => recsOf u p.ctx p.page)).foldl denyRec (u.onXl (fun x =>
        { x with pri := x.pri.filter (fun p => p.group.isSome) }))))) := by
  show execPriEnableChange ats none s = _
  unfold execPriEnableChange
  simp only [Option.isSome_none, Option.getD_none, Bool.false_eq_true, if_false, hu]

/-- Settles O44. -/
theorem hostAnswersTranslationsAndReads : Obligations.HostAnswersTranslationsAndReads := by
  refine ⟨fun s id a f => ?_, fun s id q f n a => completion_stale f n a, fun s id q f n => ?_, fun s p g c o f =>
    execPrgResponse_none o f c, fun s pasid group p x o f l => ?_, fun s pasid group p x o f l a b c => ?_,
    fun s itag pasid va n ctx o l r a => ?_, fun s itag va n o => HostPort.hostAccess_open o _, fun s n o => ?_,
      fun s o => ?_,
    fun s ats n d => ?_, fun s ats d p => ?_, fun s id r c data rs i w st a l => hostReadDone rs i w st a l,
      fun s id data ok f => ?_,
    fun s id c fl st => flushReadDone fl st⟩
  · show execAtsTranslationCompletion id a s = _
    unfold execAtsTranslationCompletion
    rw [f]
  · intro t
    refine ⟨completion_error f n, ?_, fun sz frame r w z => ?_⟩
    · show execAtsRequestTimeout id s = _
      unfold execAtsRequestTimeout
      rw [f]
    · intro e
      have x := completion_translation f n (frame := frame) (r := r) (w := w) z (rfl : _ = t) (rfl : _ = e)
      refine ⟨fun ok rw' ne => ?_, fun r0 w0 => ?_, fun w0 f0 => ?_⟩
      · have a : q.wants.filter (fun x => e.permits (needOfAccess x.access)) = q.wants := List.filter_eq_self.2 ok
        have b : q.wants.filter (fun x => !e.permits (needOfAccess x.access)) = [] :=
          List.filter_eq_nil_iff.2 fun y hy => by simp [ok y hy]
        rw [x, a, b, if_pos]
        · rfl
        · rcases rw' with h | h <;> simp [h, ne]
      · have no (y : Want) : e.permits (needOfAccess y.access) = false := not_permits_of_none r0 w0 rfl _
        have a : q.wants.filter (fun x => e.permits (needOfAccess x.access)) = [] :=
          List.filter_eq_nil_iff.2 fun y _ => by simp [no y]
        have b : q.wants.filter (fun x => !e.permits (needOfAccess x.access)) = q.wants :=
          List.filter_eq_self.2 fun y _ => by simp [no y]
        rw [x, a, b, if_neg (by rw [r0, w0]; simp)]
        rfl
      · rw [x, w0, f0, if_neg (by simp)]
        rfl
  · intro t
    have e (code : PrgCode) := execPrgResponse_found o f l code
    refine ⟨fun a => ?_, fun a => ?_, fun a => ⟨?_, ?_⟩⟩ <;> rw [e] <;> simp only [a, if_true, Bool.false_eq_true,
      if_false, t]
  · rw [execPrgResponse_found o f l]
    have d := Faults.drainAll_none (s := (s.onXl (fun x => { x with pri := [] })).onHp (fun h =>
      { h with priFailed := true })) c b
    refine congrArg (fun x => Host.Outcome.next (progress x)) (Eq.trans ?_ d)
    show drainAll (((s.xl.faults ++ s.xl.resWait).filter (fun f => f.kind == .hostPage)).foldl denyRec _) = _
    rw [a, b]
    rfl
  · exact invalidates o l r a
  · rw [priEnable_some]
    dsimp only
    rw [if_pos o.symm]
    refine congrArg (fun x => Host.Outcome.next (sendPri x)) ?_
    simp [State.onHp]
  · intro t unsent
    refine (priEnable_none true (u := t) ?_).trans rfl
    rw [if_pos o.symm]
    simp [State.onHp, t]
  · rw [priEnable_some]
    dsimp only
    rw [if_neg d]
    generalize hu : (s.onHp _).onXl _ = u
    obtain ⟨a, b, c, e⟩ := sendPri_spec u
    refine Laws.answers_of_eq (sendPri u) rfl ?_
    rw [a, b, c, e, ← hu]
    exact ⟨rfl, rfl, rfl, rfl, rfl, rfl⟩
  · obtain ⟨u, hu, up, uo, ue, ua, ux, ud, uq⟩ : ∃ u, (s.onHp (fun h => { h with
        atsOn := ats, priOn := false, priFailed := h.priFailed && !(false && !h.priOn) })).onXl (fun x =>
          { x with ats := [], l1 := Tab.mapv x.l1 (fun _ l => l.filter (fun e => !e.host)) }) = u ∧ u.xl.pri = [] ∧
            u.hp.atsOn = ats ∧
        u.hp.priOn = false ∧ u.hp.priAlloc = s.hp.priAlloc ∧ u.xl.ats = [] ∧ u.xl.dir = s.xl.dir ∧ u.qm = s.qm :=
      ⟨_, rfl, p, rfl, rfl, rfl, rfl, rfl, rfl⟩
    have e := priEnable_none ats ((if_neg d).trans hu)
    rw [up, List.filter_nil, List.flatMap_nil, List.foldl_nil] at e
    exact ⟨_, e, _, rfl, uo, ue, ua, ux, ud, uq⟩
  · show execHostReadCompletion id ok data s = _
    unfold execHostReadCompletion
    rw [f]

end Sys2Proof.HostAnswers
end

section
/-! Walks, watchdogs, the fence cache, sweeps and escalations (R80, R90, R93, R150, R214, R225, R345, R469). -/
namespace Sys2Proof.Watch
open Sys2Proof.Machine Sys2Proof.Safety
variable {s : State}

/-! ## Fills -/

theorem makeRoom_roomy (l : s.qm.fences.length < Config.fenceCacheSize) : makeRoom s = s := by
  unfold makeRoom
  cases s.qm.fences with
  | nil => rfl
  | cons e r => rw [evictFence, if_pos l]

/-- What a fill reads where the cache has room: the words of the table's entry. -/
theorem fill_missing {f : Nat} (n : fenceAt s f = none) (l : s.qm.fences.length < Config.fenceCacheSize)
    {r : State × Status × List Byte} {w : Nat → Nat} {fe : Fence} (hr : tableLine s (lineOf (fenceAddr s f)) = r)
    (hw : (fun i => leNat ((r.2.2.drop (fenceAddr s f - lineOf (fenceAddr s f) + 8 * i)).take 8)) = w)
    (hf : Fence.ofWords (w 0) (w 1) (w 2) = fe) : fill s f =
      if r.2.1 ≠ .ok then (putFailed r.1 f r.2.1, none)
      else if fld (w 1) 32 21 ≠ 0 ∨ fld (w 2) 0 32 ≠ 0 ∨ w 3 ≠ 0 then (r.1, some .decode)
      else if fe.state = .free then (r.1, some .state)
      else
        match sweepErr r.1 fe with
        | some e => (r.1.onQm (fun m => { m with
            fences := Tab.put m.fences f { fe with state := .poisoned, value := allOnes, err := e, dirty := true } }),
              none)
        | none => (r.1.onQm (fun m => { m with fences := Tab.put m.fences f fe }), none) := by
  subst hr hw hf
  unfold fill
  rw [makeRoom_roomy l, n, if_neg (by decide), if_neg (by simp [cacheFull, l])] <;> rfl

theorem fillDone_of_miss {f : Nat} {ops : List FenceOp} {t : State} {st : Status} (g : s.clk.stream.ready = true)
    (o : Tab.look s.qm.fills f = some ops) (l : s.qm.fences.length < Config.fenceCacheSize) (e : fill s f = (t, some st))
      :
    exec (.fenceCacheFillDone f) s =
      .next (ops.foldl (fun t o => failOp t o st) (t.onQm (fun m => { m with fills := Tab.del m.fills f }))) := by
  show taken _ s (inStream s (settleFill s f).1) = _
  have r : cacheRoom s f = true := by simp [cacheRoom, l]
  rw [o, r, inStream, if_pos g]
  unfold settleFill
  dsimp only
  rw [o, e]
  rfl

theorem fillDone_of_hit {f : Nat} {ops : List FenceOp} {t : State} {x : Fence} (g : s.clk.stream.ready = true)
    (o : Tab.look s.qm.fills f = some ops) (l : s.qm.fences.length < Config.fenceCacheSize) (e : fill s f = (t, none))
    (a : fenceAt t f = some x) : Answers (exec (.fenceCacheFillDone f) s) (fun v => ∃ u, v = drainOps u f ops ∧
      fenceAt u f = some x ∧ Tab.look u.qm.fills f = none ∧ u.pr = t.pr) := by
  refine Laws.answers_of_eq (drainOps (t.onQm (fun m => { m with fills := Tab.del m.fills f })) f ops) ?_
    ⟨_, rfl, a, Tab.look_del _ _, rfl⟩
  show taken _ s (inStream s (settleFill s f).1) = _
  have r : cacheRoom s f = true := by simp [cacheRoom, l]
  rw [o, r, inStream, if_pos g]
  unfold settleFill
  dsimp only
  rw [o, e]
  dsimp only
  rw [a]
  rfl

/-! ## Write-backs -/

theorem execFenceCacheWriteback_dirty {f : Nat} {e : Fence} (g : s.clk.stream.ready = true) (c : fenceAt s f = some e)
    (d : e.dirty = true) : exec (.fenceCacheWriteback f) s = .next
      (if (tableWrite s (fenceAddr s f) (bytesOf e.words)).2 = .ok then
        setFence (tableWrite s (fenceAddr s f) (bytesOf e.words)).1 f (fun x => { x with dirty := false })
      else poisonCached (tableWrite s (fenceAddr s f) (bytesOf e.words)).1 f
        (tableWrite s (fenceAddr s f) (bytesOf e.words)).2.code) := by
  show taken _ s (inStream s (writeBack s f)) = _
  rw [inStream, if_pos g]
  unfold writeBack
  rw [c]
  dsimp only
  rw [Option.map_some, Option.getD_some, d]
  rfl

/-! ## The sweep -/

/-- What the sweep does to one entry of a line that it has read. -/
def sweepEntry (line : Nat) (data : List Byte) (t : State) (i : Nat) : State :=
  if (fenceAt t (4 * line + i)).isSome then t
  else
    match sweepErr t (Fence.ofWords (leNat ((data.drop (32 * i + 8 * 0)).take 8))
      (leNat ((data.drop (32 * i + 8 * 1)).take 8))
      (leNat ((data.drop (32 * i + 8 * 2)).take 8))) with
    | some e => (tableWrite t (fenceAddr t (4 * line + i)) (bytesOf
        { Fence.ofWords (leNat ((data.drop (32 * i + 8 * 0)).take 8)) (leNat ((data.drop (32 * i + 8 * 1)).take 8))
            (leNat ((data.drop (32 * i + 8 * 2)).take 8)) with
          state := .poisoned, value := allOnes, err := e }.words)).1
    | none => t

theorem sweepLine_eq {line : Nat} (k : (tableLine s (fenceAddr s (4 * line))).2.1 = .ok) : sweepLine s line =
    (List.range 4).foldl (sweepEntry line (tableLine s (fenceAddr s (4 * line))).2.2)
      (tableLine s (fenceAddr s (4 * line))).1 := by
  unfold sweepLine
  dsimp only
  refine congrArg (fun f => List.foldl f _ _) (funext fun t => funext fun i => ?_)
  unfold sweepEntry
  rw [if_neg (not_not_intro k)] <;> rfl

theorem sweepEntry_cached {line i : Nat} {data : List Byte} {t : State} (c : (fenceAt t (4 * line + i)).isSome = true) :
    sweepEntry line data t i = t := if_pos c

/-- Of a line whose other entries are cached, the sweep visits one. -/
theorem sweep_one {line i : Nat} {data : List Byte} {t u : State} (lt : i < 4)
    (a : ∀ j < 4, j ≠ i → (fenceAt t (4 * line + j)).isSome = true) (e : sweepEntry line data t i = u)
    (b : ∀ j < 4, j ≠ i → (fenceAt u (4 * line + j)).isSome = true) : (List.range 4).foldl (sweepEntry line data) t = u :=
      by
  have pre (j : Nat) (lj : j < 4) (n : j ≠ i) : sweepEntry line data t j = t := sweepEntry_cached (a j lj n)
  have post (j : Nat) (lj : j < 4) (n : j ≠ i) : sweepEntry line data u j = u := sweepEntry_cached (b j lj n)
  show sweepEntry line data (sweepEntry line data (sweepEntry line data (sweepEntry line data t 0) 1) 2) 3 = u
  have c : i = 0 ∨ i = 1 ∨ i = 2 ∨ i = 3 := by omega
  rcases c with rfl | rfl | rfl | rfl
  · rw [e, post 1 (by decide) (by decide), post 2 (by decide) (by decide), post 3 (by decide) (by decide)]
  · rw [pre 0 (by decide) (by decide), e, post 2 (by decide) (by decide), post 3 (by decide) (by decide)]
  · rw [pre 0 (by decide) (by decide), pre 1 (by decide) (by decide), e, post 3 (by decide) (by decide)]
  · rw [pre 0 (by decide) (by decide), pre 1 (by decide) (by decide), pre 2 (by decide) (by decide), e]

theorem sweepDone_eq (w : s.qm.sweeping = true) : Answers (exec .fenceTableSweepDone s) (fun t => ∃ u, t = progress u ∧
    (∀ r ∈ u.he.resets, r.step ≠ 2) ∧ ((s.qm.kills = [] ∧ s.he.resets = []) →
      (List.range (Config.fences / 4)).foldl sweepLine s = s → u = s.onQm (fun m => { m with sweeping := false }))) := by
  obtain ⟨v, hv⟩ : ∃ v, (List.range (Config.fences / 4)).foldl sweepLine s = v := ⟨_, rfl⟩
  have e : sweepDone s = progress ((((v.onQm (fun m => { m with sweeping := false })).qm.kills.filter (fun k =>
    k.step == 4)).foldl
      recordKill (v.onQm (fun m => { m with sweeping := false }))).onHe (fun e =>
        { e with resets := e.resets.map (fun r => if r.step == 2 then { r with step := 3 } else r) })) := by
    unfold sweepDone
    dsimp only
    rw [hv]
  rw [hv]
  refine Laws.answers_of_eq (sweepDone s) (?_ : execFenceTableSweepDone s = _) ⟨_, e, ?_, ?_⟩
  · rw [execFenceTableSweepDone, w]
    rfl
  · intro r m
    obtain ⟨x, -, e⟩ := List.mem_map.1 m
    rw [← e]
    split
    · exact (by decide : (3 : Nat) ≠ 2)
    next n => simpa using n
  · rintro ⟨k, h⟩ rfl
    have z : (v.onQm (fun m => { m with sweeping := false })).qm.kills.filter (fun k => k.step == 4) = [] := by
      rw [State.onQm_qm]
      dsimp only
      rw [k, List.filter_nil]
    rw [z, List.foldl_nil]
    simp only [State.onHe, State.onQm_he, h, List.map_nil]
    simp only [← h]
    rfl

/-- Settles O45. -/
theorem walksWatchdogsAndEscalations : Obligations.WalksWatchdogsAndEscalations := by
  refine ⟨fun s w k f e => ?_, fun s w k f n => ?_, fun s w f => ?_, fun s c n a => ?_, fun s c n a => ?_,
    fun s c cap f gv m tmo w o t => ?_, fun s f ops g o n l => ?_, fun s f e u st g c d w =>
      ⟨fun k => ?_, fun x k a b => ?_,
    fun x k a b => ?_⟩, fun s line i lt => ?_, fun s w => sweepDone_eq w, fun s c a r => ?_, fun s q r m e => ?_,
      fun s x k m e => ?_,
    fun s h r m e => ?_, fun s j w d => ?_⟩
  · show execTableWalkDone w s = _
    unfold execTableWalkDone
    rw [f]
    dsimp only
    rw [if_pos e]
  · show execTableWalkDone w s = _
    unfold execTableWalkDone
    rw [f]
    dsimp only
    rw [if_neg n]
  · show execTableWalkDone w s = _
    unfold execTableWalkDone
    rw [f]
  · show execQueueWatchdogExpiry c s = _
    unfold execQueueWatchdogExpiry
    dsimp only
    rw [bne_iff_ne.2 n, if_neg (by rw [a]; decide)]
    exact Laws.taken_true _ _
  · show execQueueWatchdogExpiry c s = _
    unfold execQueueWatchdogExpiry
    dsimp only
    rw [bne_iff_ne.2 n, if_pos a]
    exact Laws.taken_true _ _
  · show taken _ s _ = _
    rw [w, o]
    exact congrArg (taken · s _) (bne_iff_ne.2 t)
  · dsimp only
    generalize hr : tableLine s (lineOf (fenceAddr s f)) = r
    obtain ⟨w, hw⟩ : ∃ w : Nat → Nat, (fun i => leNat ((r.2.2.drop (fenceAddr s f - lineOf (fenceAddr s f) + 8 * i)).take
      8)) = w :=
      ⟨_, rfl⟩
    have x := fill_missing n l hr hw rfl
    have rw' (i : Nat) : leNat ((r.2.2.drop (fenceAddr s f - lineOf (fenceAddr s f) + 8 * i)).take 8) = w i :=
      congrFun hw i
    simp only [rw']
    generalize Fence.ofWords (w 0) (w 1) (w 2) = fe at x ⊢
    have rz : (fld (w 1) 32 21 = 0 ∧ fld (w 2) 0 32 = 0 ∧ w 3 = 0) ↔ ¬
      (fld (w 1) 32 21 ≠ 0 ∨ fld (w 2) 0 32 ≠ 0 ∨ w 3 ≠ 0) := by
      simp only [not_or, not_not]
    refine ⟨fun k z st sw => ?_, fun e k z st sw => ?_, fun k z st => ?_, fun k z => ?_, fun k => ?_⟩
    · rw [if_neg (not_not_intro k), if_neg (rz.1 z), if_neg st, sw] at x
      obtain ⟨t, e, u, eu, h, i, j⟩ := fillDone_of_hit g o l x (Tab.look_put _ _ _)
      exact ⟨t, e, u, fe, eu, h, rfl, i, j⟩
    · rw [if_neg (not_not_intro k), if_neg (rz.1 z), if_neg st, sw] at x
      obtain ⟨t, e, u, eu, h, i, j⟩ := fillDone_of_hit g o l x (Tab.look_put _ _ _)
      exact ⟨t, e, u, _, eu, h, rfl, i, j⟩
    · rw [if_neg (not_not_intro k), if_neg (rz.1 z), if_pos st] at x
      exact fillDone_of_miss g o l x
    · rw [if_neg (not_not_intro k), if_pos (not_not.1 (fun h => z (rz.2 h)))] at x
      exact fillDone_of_miss g o l x
    · rw [if_pos k] at x
      obtain ⟨t, e, u, eu, h, i, j⟩ := fillDone_of_hit g o l x (Tab.look_put _ _ _)
      exact ⟨t, e, u, _, eu, h, ⟨rfl, rfl, rfl⟩, i, j⟩
  · refine Laws.answers_of_eq _ (execFenceCacheWriteback_dirty g c d) ?_
    rw [w, if_pos k]
    exact ⟨rfl, rfl⟩
  · have p : poisonCached u f st.code =
        wakeWaits (setFence u f (fun x => { x with state := .poisoned, value := allOnes, err := st.code, dirty := true }))
          f := by
      rw [poisonCached, a]
      exact if_pos b
    refine Laws.answers_of_eq _ (execFenceCacheWriteback_dirty g c d) ?_
    rw [w, if_neg k]
    refine ⟨_, p, rfl, ?_⟩
    show Tab.look (Tab.mod u.qm.fences f _) f = _
    rw [Tab.look_mod, show Tab.look u.qm.fences f = some x from a]
    rfl
  · rw [execFenceCacheWriteback_dirty g c d, w, if_neg k]
    refine congrArg _ ?_
    show poisonCached u f st.code = u
    rw [poisonCached, a]
    exact if_neg b
  · intro r f w fe a n k
    have un : ¬ ((fenceAt r.1 f).isSome = true) := by rw [n]; decide
    refine ⟨fun sw => ?_, fun e t st sw tw b => ?_⟩
    · refine (sweepLine_eq k).trans (sweep_one lt a ?_ a)
      unfold sweepEntry
      rw [if_neg un]
      have sw' : sweepErr r.1 (Fence.ofWords (leNat ((r.2.2.drop (32 * i + 8 * 0)).take 8))
        (leNat ((r.2.2.drop (32 * i + 8 * 1)).take 8))
        (leNat ((r.2.2.drop (32 * i + 8 * 2)).take 8))) = none := sw
      rw [sw']
    · refine (sweepLine_eq k).trans (sweep_one lt a ?_ b)
      unfold sweepEntry
      rw [if_neg un]
      have sw' : sweepErr r.1 (Fence.ofWords (leNat ((r.2.2.drop (32 * i + 8 * 0)).take 8))
        (leNat ((r.2.2.drop (32 * i + 8 * 1)).take 8))
        (leNat ((r.2.2.drop (32 * i + 8 * 2)).take 8))) = some e := sw
      rw [sw']
      exact congrArg Prod.fst tw
  · show taken _ s _ = _
    rw [a, r]
    rfl
  · show taken _ s _ = _
    rw [List.any_eq_true.2 ⟨r, m, by rw [e]; exact beq_self_eq_true q⟩]
    rfl
  · show taken _ s _ = _
    rw [List.any_eq_true.2 ⟨k, m, by rw [e]; exact beq_self_eq_true x⟩]
    rfl
  · show taken _ s _ = _
    rw [List.any_eq_true.2 ⟨r, m, by rw [e]; exact beq_self_eq_true h⟩]
    rfl
  · show taken _ s _ = _
    rw [w]
    dsimp only
    rw [d]
    rfl

end Sys2Proof.Watch
end

section
/-! What a cluster's port reports (R38 to R40, R60, R158, R335, R346, R451 to R454). -/
namespace Sys2Proof.ClusterRows
open Sys2Proof.Machine Sys2Proof.Safety
variable {s : State} {n k : Nat}

theorem heard_of (a : n < clustersAttached s) (i : (clusterAt s n).iso = false) (t : State) : heard s n t = .next t := by
  rw [heard, decide_eq_true a, i]
  rfl

theorem heard_isolated (i : (clusterAt s n).iso = true) (t : State) : heard s n t = .next s := by
  rw [heard, i, Bool.not_true, Bool.and_false]
  rfl

/-- R38: a failed cluster is power-gated; the others are as they were. -/
theorem failCluster_spec (s : State) (n : Nat) : (clusterAt (failCluster s n) n).state = .failed ∧
    (clusterAt (failCluster s n) n).pwrEn = false ∧ (clusterAt (failCluster s n) n).iso = true ∧
    (clusterAt (failCluster s n) n).rstN = false ∧ (∀ j, j ≠ n → clusterAt (failCluster s n) j = clusterAt s j) ∧
    (∀ r ∈ (failCluster s n).he.resizes, n ∉ r.removed) := by
  have e : clusterAt (failCluster s n) n = { (clusterAt (leftResize s n) n).gated with
      state := .failed
      hive := if (clusterAt (leftResize s n) n).state = .clearing ∧ (clusterAt (leftResize s n) n).clearTo = .free then 255
        else (clusterAt (leftResize s n) n).hive } := clusterAt_setCluster _ _ _
  rw [e]
  refine ⟨rfl, rfl, rfl, rfl, fun j h => clusterAt_setCluster_ne _ _ _ _ h, ?_⟩
  exact leftResize_removes s n
where
  leftResize_removes (s : State) (n : Nat) : ∀ r ∈ (leftResize s n).he.resizes, n ∉ r.removed := by
    intro r m h
    obtain ⟨x, -, e⟩ := List.mem_map.1 m
    rw [← e] at h
    simpa using (List.mem_filter.1 h).2

theorem cellRead_none {d : Byte} {m : List Host.Cell} {x : Nat} (h : ∀ e ∈ m, e.1 ≠ x) : cellRead d m x = d := by
  induction m with
  | nil => rfl
  | cons e m ih =>
    rw [cellRead, if_neg (fun i => h e List.mem_cons_self i.symm)]
    split
    · rfl
    · exact ih fun y hy => h y (List.mem_cons_of_mem _ hy)

theorem spadByte_spadClear (s : State) {off : Nat} (l : off < 2 ^ 24) : spadByte (spadClear s n) n off = 0 := by
  have r : cellRead 0 (spadClear s n).mv.spads (spadKey n off) = 0 := by
    refine cellRead_none fun e m h => ?_
    have k := (List.mem_filter.1 m).2
    rw [h, bne_iff_ne] at k
    exact k (by unfold spadKey; omega)
  have b : spadBase (spadClear s n) n off = 0 := by
    unfold spadBase
    rw [show Tab.look (spadClear s n).mv.spadUndef n = none from Tab.look_del _ _]
  rw [spadByte, r, b]
  rfl

theorem clearDone_kept (a : n < clustersAttached s) (i : (clusterAt s n).iso = false) (l : 10 ≤ k) (u : k ≤ 24)
    (c : (clusterAt s n).state = .joining ∨ (clusterAt s n).state = .clearing ∧ (clusterAt s n).clearTo = .assigned) :
    exec (.clusterClearDone n k) s = .next (clusterMoved (setCluster (spadClear s n) n (fun x =>
      { x with state := .assigned, kernel := none, spadLog2 := k })) (clusterAt s n).hive) := by
  refine (heard_of a i _).trans (congrArg _ ?_)
  rw [if_neg (fun ⟨x, y⟩ => c.elim x (fun z => y z.1)), if_neg (by omega), if_pos (c.imp_right And.right)]

theorem clearDone_freed (a : n < clustersAttached s) (i : (clusterAt s n).iso = false) (l : 10 ≤ k) (u : k ≤ 24)
    (c : (clusterAt s n).state = .clearing) (t : (clusterAt s n).clearTo ≠ .assigned) (d : (clusterAt s n).late = false) :
    exec (.clusterClearDone n k) s = .next (clusterMoved (setCluster (leftResize (spadClear s n) n) n (fun x =>
      { x.gated with state := .free, hive := 255, spadLog2 := k })) (clusterAt s n).hive) := by
  refine (heard_of a i _).trans (congrArg _ ?_)
  rw [if_neg (fun h => h.2 c), if_neg (by omega)]
  dsimp only
  rw [if_neg (by rw [c]; simp [t]), if_neg (by rw [d]; decide)]

theorem clearDone_failed (a : n < clustersAttached s) (i : (clusterAt s n).iso = false) (b : k < 10 ∨ 24 < k)
    (c : (clusterAt s n).state = .joining ∨ (clusterAt s n).state = .clearing) :
    exec (.clusterClearDone n k) s = .next (clearFailed s n) := by
  refine (heard_of a i _).trans (congrArg _ ?_)
  rw [if_neg (fun ⟨x, y⟩ => c.elim x y), if_pos b]

/-- Settles O46. -/
theorem clusterPortsAreHeard : Obligations.ClusterPortsAreHeard := by
  refine ⟨fun s n k e w _ i => ⟨heard_isolated i _, heard_isolated i _, heard_isolated i _, heard_isolated i _⟩,
    fun s n a i => ⟨fun c => ?_, fun c d => ?_⟩, failCluster_spec, failCluster_spec.leftResize_removes, fun s n p g => ?_,
    fun s n k a i l u => ⟨clearDone_kept a i l u, clearDone_freed a i l u⟩, fun s n off l => spadByte_spadClear s l,
    fun s n k a i b c => clearDone_failed a i b c, fun s n c => ?_, fun s n e w c a i k h m => ?_, fun s n a i c v => ?_,
    fun s h j f r => ?_, fun s h j f => ?_⟩
  · refine (heard_of a i _).trans (congrArg _ ?_)
    dsimp only
    rw [if_pos c]
  · refine (heard_of a i _).trans (congrArg _ ?_)
    dsimp only
    rw [if_neg (by simp [c, d])]
  · refine Laws.answers_of_eq (emit (setCluster s n (fun x => { x with pwrGood := true, iso := false, rstN := true }))
      (.clusterClear n))
      (?_ : execClusterPowerGood n s = _) ⟨?_, rfl, rfl, rfl, fun j h => ?_⟩
    · rw [execClusterPowerGood, p, g]
      rfl
    · rw [clusterAt_emit, clusterAt_setCluster]
    · rw [clusterAt_emit, clusterAt_setCluster_ne _ _ _ _ h]
  · show taken _ s _ = _
    rcases c with c | c <;> rw [c] <;> rfl
  · refine (heard_of a i _).trans (congrArg _ ?_)
    rw [k]
    dsimp only
    rw [if_pos ⟨h, m⟩]
  · refine (heard_of a i _).trans (congrArg _ ?_)
    rw [if_pos ⟨c, v⟩]
  · show execResizeTimeout h s = _
    unfold execResizeTimeout
    rw [f]
    dsimp only
    rw [r]
    rfl
  · show execResizeTimeout h s = _
    unfold execResizeTimeout
    rw [f]

end Sys2Proof.ClusterRows
end

section
/-! Error reports, wear counts and scrubs (R409, R412 to R415, R418, R419). -/
namespace Sys2Proof.Errors
open Sys2Proof.Machine Sys2Proof.Safety
variable {s : State}

theorem execSramScrub_left {a : SramArray} (r : scrubReads s a = false) (e : Nat) (x y : Bool) :
    exec (.sramScrub a e x y) s = .next s := by
  show taken _ s _ = _
  rw [r]
  rfl

theorem execSramScrub_read {a : SramArray} (r : scrubReads s a = true) (e : Nat) (x y : Bool) :
    exec (.sramScrub a e x y) s = .next
    (if y then progress (reportError s (scrubUnit a e) .uncorrectable)
      else if x then progress (reportError s (scrubUnit a e) .corrected) else s) := by
  show taken _ s _ = _
  rw [r]
  rfl

theorem not_corrected {k : ErrKind} (h : k ≠ .corrected) : (k == .corrected) = false := beq_false_of_ne h

/-- R414: an error of a storage of the whole block is recorded as class FATAL alone. -/
theorem rowError_blockWide {inst row : Nat} {k : ErrKind} (n : k ≠ .corrected) (b : blockWide inst = true) :
    rowError s k 255 inst row = wearError s 3 inst row false := by
  have ne : ¬ inst ≤ 0x3F ∧ ¬ (0x100 ≤ inst ∧ inst ≤ 0x13F) := by
    simp [blockWide] at b
    omega
  unfold rowError
  dsimp only
  rw [not_corrected n, b, if_neg ne.1, if_neg ne.2]
  rfl

theorem scrubReads_gatedUnit {p : Nat} (h : p ∈ s.pr.gated) : scrubReads s (.instance_ (0x100 + p)) = false := by
  have e : s.pr.gated.any (fun q => 0x100 + p == 0x100 + q) = true := List.any_eq_true.2 ⟨p, h, beq_self_eq_true _⟩
  rw [scrubReads, e, Bool.not_true, Bool.and_false]

theorem scrubReads_gatedMover {m : Nat} (l : m < 64) (g : (moverAt s m).gated = true) :
    scrubReads s (.instance_ m) = false := by
  rw [scrubReads, decide_eq_true (show m ≤ 0x3F by omega), g, Bool.and_self, Bool.not_true, Bool.and_false,
    Bool.false_and]

/-- Settles O48. -/
theorem errorsAreLoggedAndCounted : Obligations.ErrorsAreLoggedAndCounted := by
  refine ⟨fun s u k => rfl, fun s m l => ?_, fun s m k l n => ?_, fun s inst row k n b => ?_, fun s a e r => ⟨?_, ?_, ?_⟩,
    fun s p e x y _ h => execSramScrub_left (scrubReads_gatedUnit h) e x y, fun s m e x y l g =>
      execSramScrub_left (scrubReads_gatedMover l g) e x y, fun s => ?_, fun s => ?_, fun s h => ?_⟩
  · exact if_neg (Nat.not_le.2 l)
  · unfold reportError
    dsimp only
    rw [if_neg (Nat.not_le.2 l), not_corrected n]
    rfl
  · unfold reportError
    dsimp only
    rw [not_corrected n, rowError_blockWide n b]
    rfl
  · exact execSramScrub_read r e false false
  · exact execSramScrub_read r e true false
  · exact execSramScrub_read r e false true
  · exact Laws.answers_of_eq (s.onBr (fun b => { b with wear := b.wear.map (fun w =>
      { w with corrHours := (0 :: w.corrHours).take 24, uncHours := (0 :: w.uncHours).take 24 }) })) rfl ⟨rfl, rfl, rfl,
        rfl, rfl⟩
  · exact Laws.answers_of_eq (emit (s.onBr (fun b => { b with savedWear := b.wear })) (.flashWrite 0xC0000 0x10000)) rfl
      ⟨rfl, rfl, rfl, rfl⟩
  · obtain ⟨new, hn⟩ : ∃ new, s.br.log.filter (fun r => s.br.unsaved.contains r.index) = new := ⟨_, rfl⟩
    have e : execLogPersist s = .next (emit (s.onBr (fun b => { b with
        flashLog := (s.br.flashLog ++ new).drop ((s.br.flashLog ++ new).length - Config.flashLogRecords), unsaved := [] }))
        (.flashWrite 0xA0000 0x20000)) := by
      unfold execLogPersist
      dsimp only
      rw [hn]
    rw [hn] at h ⊢
    rw [List.length_append, Nat.sub_eq_zero_of_le h, List.drop_zero] at e
    exact Laws.answers_of_eq _ e ⟨rfl, rfl, rfl, rfl⟩

end Sys2Proof.Errors
end

section
/-! Frames from a link (R283 to R286, R289, R294). -/
namespace Sys2Proof.Frames
open Sys2Proof.Machine Sys2Proof.Safety
variable {s : State} {l : Nat} {f : Frame} {tagOk : Bool}

theorem receive_heard (h : (linkAt s l).state ≠ .down ∨ (linkAt s l).locked = true) :
    exec (.swarmFrameReceive l f tagOk) s = .next
    (if !frameOk s l f tagOk then discardFrame s l
     else if (linkAt s l).state = .down then s
     else
       if counterSpent (linkAt (acceptLink s l f) l) then linkDown (acceptLink s l f) l
       else if f.ftype = 0 ∨ f.ftype = 4 ∨ f.ftype = 5 then
         (acceptLink s l f).onSw (fun w => { w with rx := w.rx ++ [{ link := l, frame := f }] })
       else if f.dst ≠ chipId (acceptLink s l f) then
         if f.hops = 0 then dropForward (acceptLink s l f) l f
         else forward (acceptLink s l f) { link := l, frame := { f with hops := f.hops - 1 } }
       else if sequenced f.ftype then receiveSeq (keepOpen (acceptLink s l f) f) { link := l, frame := f }
       else (keepOpen (acceptLink s l f) f).onSw (fun w => { w with rx := w.rx ++ [{ link := l, frame := f }] })) := by
  have e : ((linkAt s l).state != .down || (linkAt s l).locked) = true := by
    rcases h with h | h
    · rw [bne_iff_ne.2 h, Bool.true_or]
    · rw [h, Bool.or_true]
  show taken _ s _ = _
  rw [e]
  exact Laws.taken_true _ _

theorem receive_discarded (h : (linkAt s l).state ≠ .down ∨ (linkAt s l).locked = true) (b : frameOk s l f tagOk = false)
    :
    exec (.swarmFrameReceive l f tagOk) s = .next (discardFrame s l) := by
  rw [receive_heard h, if_pos (by rw [b]; rfl)]

theorem receive_spent (h : (linkAt s l).state ≠ .down) (b : frameOk s l f tagOk = true)
    (c : counterSpent (linkAt (acceptLink s l f) l) = true) :
    exec (.swarmFrameReceive l f tagOk) s = .next (linkDown (acceptLink s l f) l) := by
  rw [receive_heard (.inl h), if_neg (by rw [b]; decide), if_neg h, if_pos c]

/-- A good frame within its counter is for the link, for another chip, or for this one. -/
theorem receive_good (h : (linkAt s l).state ≠ .down) (b : frameOk s l f tagOk = true)
    (c : counterSpent (linkAt (acceptLink s l f) l) = false) : exec (.swarmFrameReceive l f tagOk) s = .next
      (if f.ftype = 0 ∨ f.ftype = 4 ∨ f.ftype = 5 then
         (acceptLink s l f).onSw (fun w => { w with rx := w.rx ++ [{ link := l, frame := f }] })
       else if f.dst ≠ chipId (acceptLink s l f) then
         if f.hops = 0 then dropForward (acceptLink s l f) l f
         else forward (acceptLink s l f) { link := l, frame := { f with hops := f.hops - 1 } }
       else if sequenced f.ftype then receiveSeq (keepOpen (acceptLink s l f) f) { link := l, frame := f }
       else (keepOpen (acceptLink s l f) f).onSw (fun w => { w with rx := w.rx ++ [{ link := l, frame := f }] })) := by
  rw [receive_heard (.inl h), if_neg (by rw [b]; decide), if_neg h, if_neg (by rw [c]; decide)]

theorem frameOk_of_bad (h : rzOk f = false ∨ plenOk f = false ∨ (tagOk = false ∧ f.ftype ≠ 4) ∨ keyOk (linkAt s l) f =
    false ∨
    stateOk (linkAt s l) f = false) : frameOk s l f tagOk = false := by
  unfold frameOk
  rcases h with h | h | ⟨h, n⟩ | h | h
  · simp [h]
  · simp [h]
  · simp [h, n]
  · simp [h]
  · simp [h]

theorem discardFrame_counts (h : (discardsAt s l).length < 64) : (discardFrame s l).sw.discarded = s.sw.discarded + 1 ∧
    (discardFrame s l).pr = s.pr ∧ (discardFrame s l).sw.rx = s.sw.rx ∧ (discardFrame s l).sent = s.sent := by
  have e : discardFrame s l = setLink (s.onSw (fun w => { w with discarded := w.discarded + 1 })) l
      (fun x => { x with discards := discardsAt s l }) := if_neg (Nat.not_le.2 h)
  rw [e]
  exact ⟨rfl, rfl, rfl, rfl⟩

/-- Settles O49. -/
theorem framesAreCheckedAndRouted : Obligations.FramesAreCheckedAndRouted := by
  refine ⟨fun s l f tagOk d k => ?_, fun s l f tagOk h => ?_⟩
  · show taken _ s _ = _
    rw [d, k]
    rfl
  · intro t r
    refine ⟨fun b => ⟨receive_discarded h b, discardFrame_counts⟩, frameOk_of_bad, fun b d c => receive_spent d b c,
      fun b d c => ⟨fun y => ?_, fun a0 a4 a5 => ⟨fun e p => ?_, fun e p => ?_, fun e q => ?_, fun e q => ?_⟩⟩⟩
    · rw [receive_good d b c, if_pos y]
    all_goals rw [receive_good d b c, if_neg (by simp [a0, a4, a5])]
    · rw [if_pos e, if_pos p]
    · rw [if_pos e, if_neg p]
    · rw [if_neg (not_not_intro e), if_pos q]
    · rw [if_neg (not_not_intro e), if_neg (by rw [q]; decide)]

end Sys2Proof.Frames
end

section
/-! The effects of control frames (R285 to R288, R290, R291, R293, R295, R367). -/
namespace Sys2Proof.Control
open Sys2Proof.Machine Sys2Proof.Safety
variable {s t : State} {l src : Nat} {r : RxFrame}

theorem onRx_found {p : RxFrame → Bool} (f : s.sw.rx.find? p = some r) (eff : State → RxFrame → State) :
    onRx s p eff = .next (eff (popped s p) r) := by
  rw [onRx, popRx, f]
  rfl

/-! ## Flows -/

theorem freeEntry_free (e : entryFree s = true) : freeEntry s = s := if_pos e

theorem dropFlow_spec (s : State) (p : Nat) : flowAt (dropFlow s p) p = none ∧ (dropFlow s p).pr = s.pr ∧
    (dropFlow s p).sent = s.sent :=
  ⟨Tab.look_del _ _, rfl, rfl⟩

/-! ## Keys of a link -/

theorem carryKey_ok (w : s.vault.wrapBad = false) (k : List Byte) :
    carryKey s l k = (s, some (Config.keyWrap s.vault.wrapKey k)) := by
  rw [carryKey, w]
  rfl

/-- R367: a load that fails is logged, and its slot is not filled. -/
theorem carryKey_bad (w : s.vault.wrapBad = true) (k : List Byte) : ∃ u,
    carryKey s l k = (u, none) ∧ u.vault.wrapBad = false ∧
    u.sw = s.sw ∧ u.pr = s.pr := by
  obtain ⟨f, e, -⟩ := HostPort.logErr_eq (s.onVault (fun v => { v with wrapBad := false }))
    { cls := 2, status := Status.hwError.code, ugroup := 12, unit := l, cause := 0x10 }
  refine ⟨(s.onVault (fun v => { v with wrapBad := false })).onBr f, ?_, rfl, rfl, rfl⟩
  rw [carryKey, w, e]
  rfl

theorem loadPair_ok (w : s.vault.wrapBad = false) (n g : Nat) (put : (tx wtx rx wrx : List Byte) → Link → Link) :
    loadPair s l n g put = (setLink s l (put (linkKey s (linkLs s l) n g true)
      (Config.keyWrap s.vault.wrapKey (linkKey s (linkLs s l) n g true)) (linkKey s (linkLs s l) n g false)
      (Config.keyWrap s.vault.wrapKey (linkKey s (linkLs s l) n g false))), true) := by
  unfold loadPair
  dsimp only
  rw [carryKey_ok w]
  dsimp only
  rw [carryKey_ok w]

theorem loadPair_bad (w : s.vault.wrapBad = true) (n g : Nat) (put : (tx wtx rx wrx : List Byte) → Link → Link) :
    ∃ u, loadPair s l n g put = (u, false) ∧ u.vault.wrapBad = false ∧ u.sw = s.sw ∧ u.pr = s.pr := by
  obtain ⟨u, e, h⟩ := carryKey_bad (l := l) w (linkKey s (linkLs s l) n g true)
  refine ⟨u, ?_, h⟩
  unfold loadPair
  dsimp only
  rw [e]

/-! ## HELLO and KEYX -/

section
variable {v : Bool} (f : s.sw.rx.find? (fun r => r.link == l && r.frame.ftype == 4) = some r)
include f

theorem hello_done (k : (linkAt s l).state ≠ .training) :
    exec (.hello l v) s = .next (popped s (fun r => r.link == l && r.frame.ftype == 4)) :=
  (onRx_found f _ : execHello l v s = _).trans (congrArg _ (if_pos k))

theorem hello_first (k : (linkAt s l).state = .training) (p : r.frame.opf / 2 ^ 30 = 1) :
    exec (.hello l v) s = .next (sendHello (setLink (popped s (fun r => r.link == l && r.frame.ftype == 4)) l
      (fun x => { x with peerHello := r.frame.payload })) l 2
      (sized 96 (Config.ecdsaSign (identityScalar s) (digest ((linkAt s l).ownHello ++ r.frame.payload))))) :=
  (onRx_found f _ : execHello l v s = _).trans (congrArg _ ((if_neg (not_not_intro k)).trans (if_pos p)))

theorem hello_refused (k : (linkAt s l).state = .training) (p : r.frame.opf / 2 ^ 30 ≠ 1)
    (n : ¬ (v = true ∧ (linkAt s l).peerHello ≠ [] ∧ leNat ((linkAt s l).peerHello.take 2) ≠ chipId s ∧
      rootUsable s (leNat (((linkAt s l).peerHello.drop 3).take 1)) (((linkAt s l).peerHello.drop 0x70).take 96) = true))
        :
    exec (.hello l v) s = .next (linkDown (popped s (fun r => r.link == l && r.frame.ftype == 4)) l) :=
  (onRx_found f _ : execHello l v s = _).trans (congrArg _ ((if_neg (not_not_intro k)).trans
    ((if_neg p).trans (if_neg n))))

/-- R287, R288: a link whose neighbour has shown who it is, with its first keys. -/
def authenticated (own : List Byte) (chip : Nat) (tx wtx rx wrx : List Byte) (x : Link) : Link :=
  { x with state := .auth, neighbour := chip, txKey := tx, txWrapped := wtx, rxKey := rx, rxWrapped := wrx
           ownHello := own.take 0x130 ++ List.replicate 96 0 ++ own.drop 0x190 }

/-- The block once the secret of a link is in the vault. -/
def secretKept (s : State) (l : Nat) (ls : List Byte) : State :=
  s.onVault (fun v => { v with linkSecrets := Tab.put v.linkSecrets l ls })

theorem hello_verified (k : (linkAt s l).state = .training) (p : r.frame.opf / 2 ^ 30 ≠ 1)
    (n : v = true ∧ (linkAt s l).peerHello ≠ [] ∧ leNat ((linkAt s l).peerHello.take 2) ≠ chipId s ∧
      rootUsable s (leNat (((linkAt s l).peerHello.drop 3).take 1)) (((linkAt s l).peerHello.drop 0x70).take 96) = true)
    {w : State} {ok : Bool}
    (e : loadPair (secretKept (popped s (fun r => r.link == l && r.frame.ftype == 4)) l
      (linkSecret s (linkAt s l).ownHello (linkAt s l).peerHello)) l (leNat ((linkAt s l).peerHello.take 2)) 0
        (authenticated (linkAt s l).ownHello (leNat ((linkAt s l).peerHello.take 2))) = (w, ok)) :
    exec (.hello l v) s = .next (if ok then w else linkKeyFailed w l) := by
  refine (onRx_found f _ : execHello l v s = _).trans (congrArg _ ((if_neg (not_not_intro k)).trans ((if_neg p).trans
    ((if_pos n).trans ?_))))
  show (match loadPair (secretKept (popped s (fun r => r.link == l && r.frame.ftype == 4)) l
      (linkSecret s (linkAt s l).ownHello (linkAt s l).peerHello)) l (leNat ((linkAt s l).peerHello.take 2)) 0
      (authenticated (linkAt s l).ownHello (leNat ((linkAt s l).peerHello.take 2))) with
    | (v, true) => v
    | (v, false) => linkKeyFailed v l) = _
  rw [e]
  cases ok <;> rfl

end

section
variable (f : s.sw.rx.find? (fun r => r.link == l && r.frame.ftype == 5) = some r)
  (ht : headerAck (popped s (fun r => r.link == l && r.frame.ftype == 5)) r.frame = t)
include f ht

theorem keyx_first {w : State} {ok : Bool} (c : (linkAt t l).carries = true) (b : bit r.frame.opf 31 = false)
    (g : leNat (r.frame.payload.take 4) = (linkAt t l).genRx + 1)
    (e : loadPair t l (linkAt t l).neighbour (leNat (r.frame.payload.take 4)) (fun tx wtx rx wrx x =>
      { installNext tx wtx rx wrx x with replied := true, state := .rekey }) = (w, ok)) : exec (.keyx l) s = .next
      (if ok then sendKeyx w l (leNat (r.frame.payload.take 4)) true else linkKeyFailed w l) := by
  subst ht
  refine (onRx_found f _ : execKeyx l s = _).trans (congrArg _ ?_)
  dsimp only
  rw [if_neg (by rw [c]; decide), if_neg (by rw [b]; decide), if_pos g, e]
  cases ok <;> rfl

theorem keyx_reply {w : State} (b : bit r.frame.opf 31 = true) (k : (linkAt t l).state = .rekey) (i :
    (linkAt t l).initiated = true)
    (g : leNat (r.frame.payload.take 4) = (linkAt t l).genTx + 1) (n :
      leNat (r.frame.payload.take 4) = (linkAt t l).genRx + 1)
    (e : loadPair t l (linkAt t l).neighbour (leNat (r.frame.payload.take 4)) (fun tx wtx rx wrx x =>
      { useTx (installNext tx wtx rx wrx x) with initiated := false }) = (w, true)) : exec (.keyx l) s = .next w := by
  subst ht
  refine (onRx_found f _ : execKeyx l s = _).trans (congrArg _ ?_)
  dsimp only
  rw [if_neg (by rw [Link.carries, k]; decide), if_pos b, if_pos ⟨k, i, g⟩, if_pos (by omega), e]

theorem keyx_confirmed (b : bit r.frame.opf 31 = true) (k : (linkAt t l).state = .rekey) (i :
    (linkAt t l).initiated = true)
    (g : leNat (r.frame.payload.take 4) = (linkAt t l).genTx + 1) (n :
      leNat (r.frame.payload.take 4) = (linkAt t l).genRx) :
    exec (.keyx l) s = .next (setLink t l (fun x => { useTx x with initiated := false })) := by
  subst ht
  refine (onRx_found f _ : execKeyx l s = _).trans (congrArg _ ?_)
  dsimp only
  rw [if_neg (by rw [Link.carries, k]; decide), if_pos b, if_pos ⟨k, i, g⟩, if_neg (by omega)]

end

/-- Settles O50. -/
theorem controlFramesAct : Obligations.ControlFramesAct := by
  refine ⟨fun s l r f => ?_, fun s f n => ?_, fun s f fl e a b c d => ?_, fun s src r fl f e => ?_, fun s src r f => ?_,
    fun s src r f => ?_, fun s l v r f => ?_, fun s l r f => ?_⟩
  · intro u
    refine ⟨fun a b => Laws.answers_of_eq (setLink u l (fun x => { x with state := .up })) ?_
      ⟨linkAt_setLink u l _, fun j n => linkAt_setLink_ne u l j _ n, rfl, rfl⟩, fun n => ?_⟩
    · exact (onRx_found f _ : execProbe l s = _).trans (congrArg _ (if_pos ⟨a, b⟩))
    · exact (onRx_found f _ : execProbe l s = _).trans (congrArg _ (if_neg n))
  · rw [headerAck, n]
  · rw [headerAck, e]
    exact if_pos ⟨a, by rw [b]; rfl, c, d⟩
  · intro t
    have e' : flowAt t src = some fl := e
    refine ⟨fun a b c => ?_, fun h => ?_⟩
    · refine (onRx_found f _ : execAck src s = _).trans (congrArg _ ?_)
      show (match flowAt t src with | some fl => _ | none => _) = _
      rw [e']
      exact if_pos ⟨a, by rw [b]; rfl, c⟩
    · refine (onRx_found f _ : execAck src s = _).trans (congrArg _ ?_)
      show (match flowAt t src with | some fl => _ | none => _) = _
      rw [e']
      refine if_neg fun ⟨a, b, c⟩ => ?_
      rcases h with h | h | h
      · exact absurd (h.symm.trans a) (by decide)
      · rw [h] at b
        exact absurd b (by decide)
      · exact h c
  · intro t
    refine ⟨fun b n => ?_, fun fl b e en op ep => ?_, fun fl b e en op cl ep => ?_, fun b n ef => ?_⟩ <;>
      refine (onRx_found f _ : execOpn src s = _).trans (congrArg _ ?_)
    · show (match flowAt t src with | none => _ | some fl => _) = _
      rw [n]
      exact if_pos b
    · show (match flowAt t src with | none => _ | some fl => _) = _
      rw [e]
      exact (if_pos b).trans (if_pos ⟨en, by rw [op]; rfl, .inl ep⟩)
    · show (match flowAt t src with | none => _ | some fl => _) = _
      rw [e]
      exact (if_neg (by rw [b]; decide)).trans ((if_neg (by rw [cl]; decide)).trans ((if_neg (by rw [en]; decide)).trans
        ((if_neg (by rw [op]; decide)).trans (if_pos (.inl ep)))))
    · show (match flowAt t src with | none => _ | some fl => _) = _
      rw [n]
      refine (if_neg (by rw [b]; decide)).trans ?_
      dsimp only
      rw [freeEntry_free ef]
      exact if_pos ef
  · intro t
    refine ⟨fun h => ?_, fun b h => ?_⟩
    · refine (onRx_found f _ : execClose src s = _).trans (congrArg _ ?_)
      dsimp only
      rcases h with h | ⟨a, b⟩
      · exact if_pos h
      · by_cases k : bit r.frame.opf 31 = true
        · exact if_pos k
        · rw [if_neg k]
          exact if_neg (by rw [a, b]; decide)
    · obtain ⟨x, y, z⟩ := dropFlow_spec t src
      refine Laws.answers_of_eq (dropFlow t src) ((onRx_found f _ : execClose src s = _).trans (congrArg _ ?_)) ⟨x, y, z⟩
      dsimp only
      rw [if_neg (by rw [b]; decide)]
      refine if_pos ?_
      rcases h with h | h
      · exact Bool.or_eq_true_iff.2 (.inl h)
      · exact Bool.or_eq_true_iff.2 (.inr h)
  · intro t p
    refine ⟨hello_done f, hello_first f, fun k o h => hello_refused f k o ?_, fun k o vt ne ch ru =>
      ⟨fun w => ?_, fun w => ?_⟩⟩
    · rintro ⟨a, b, c, d⟩
      rcases h with h | h | h | h
      · exact absurd (h.symm.trans a) (by decide)
      · exact b h
      · exact c h
      · exact absurd (h.symm.trans d) (by decide)
    · have e := loadPair_ok (s := secretKept t l (linkSecret s (linkAt s l).ownHello p)) (l := l) w (leNat (p.take 2)) 0
        (authenticated (linkAt s l).ownHello (leNat (p.take 2)))
      have ls : linkLs (secretKept t l (linkSecret s (linkAt s l).ownHello p)) l = linkSecret s (linkAt s l).ownHello p :=
        by
        show (Tab.look (Tab.put _ l _) l).getD [] = _
        rw [Tab.look_put]
        rfl
      refine Laws.answers_of_eq _ (hello_verified f k o ⟨vt, ne, ch, ru⟩ e) ?_
      rw [if_pos rfl, linkAt_setLink, ls]
      exact ⟨rfl, rfl, ls, rfl, rfl, rfl, rfl⟩
    · obtain ⟨u, e, a, b, c⟩ := loadPair_bad (s := secretKept t l (linkSecret s (linkAt s l).ownHello p)) (l := l) w
        (leNat (p.take 2)) 0
        (authenticated (linkAt s l).ownHello (leNat (p.take 2)))
      exact Laws.answers_of_eq _ (hello_verified f k o ⟨vt, ne, ch, ru⟩ e) ⟨u, rfl, a, b, c⟩
  · intro t k g tx rx wrap
    refine ⟨fun c b n => ⟨fun w => ?_, fun w => ?_⟩, fun b st i g1 g2 w => ?_, fun b st i g1 g2 => ?_⟩
    · exact keyx_first f rfl c b n (loadPair_ok w _ _ _)
    · obtain ⟨u, e, x, y, z⟩ := loadPair_bad (s := t) (l := l) w k.neighbour g (fun tx wtx rx wrx x =>
        { installNext tx wtx rx wrx x with replied := true, state := .rekey })
      exact Laws.answers_of_eq _ (keyx_first f rfl c b n e) ⟨u, rfl, x, y, z⟩
    · refine Laws.answers_of_eq _ (keyx_reply f rfl b st i g1 g2 (loadPair_ok w _ _ _)) ?_
      rw [linkAt_setLink]
      exact ⟨g2.symm, g2.symm, rfl, rfl, rfl, rfl, rfl, rfl⟩
    · refine Laws.answers_of_eq _ (keyx_confirmed f rfl b st i g1 g2) ?_
      rw [linkAt_setLink]
      exact ⟨g2.symm, rfl, rfl, rfl, rfl⟩

end Sys2Proof.Control
end

section
/-! Accepted frames: the requests at their home (R296 to R300) and the responses at their source (R300, R301). -/

namespace Sys2Proof.Requests
open Sys2Proof.Machine Sys2Proof.Safety

variable {s : State} {src seq ty : Nat} {r : RxFrame} {f : Frame}

theorem ftype_of_accepted (a : Accepted s src seq ty r) : r.frame.ftype = ty :=
  (by simpa using List.find?_some a.1 : (_ ∧ _) ∧ r.frame.ftype = ty).2

/-- R296: a frame that is accepted, in order and whose lines nothing holds, is performed. -/
theorem perform_accepted (a : Accepted s src seq ty r) (eff : State → Frame → State) :
    perform s src seq ty eff = .next (frameLeaves (eff (received s r) r.frame) r.frame) := by
  obtain ⟨f, o, l⟩ := a
  rw [perform, f]
  show (if (!ready s r) = true then _ else _) = _
  rw [if_neg (by rw [o]; decide), if_neg (by rw [l]; decide)]
  rfl

/-- R316: a frame in order whose lines must wait takes its places. -/
theorem perform_held (f : s.sw.rx.find? (fun x => x.frame.src == src && x.frame.seq == seq && x.frame.ftype == ty) = some
    r)
    (o : ready s r = true) (l : linesFree s r.frame = false) (eff : State → Frame → State) :
    perform s src seq ty eff = .next (frameClaim s r.frame) := by
  rw [perform, f]
  show (if (!ready s r) = true then _ else _) = _
  rw [if_neg (by rw [o]; decide), if_pos (by rw [l]; decide)]

/-- A frame that names no line leaves no turn. -/
theorem frameLeaves_lineless (n : frameLines f = 0) (s : State) : frameLeaves s f = s := by
  unfold frameLeaves frameReqs
  dsimp only
  rw [if_pos (.inl n)]
  rfl

theorem perform_lineless (a : Accepted s src seq ty r) (n : frameLines r.frame = 0) (eff : State → Frame → State) :
    perform s src seq ty eff = .next (eff (received s r) r.frame) :=
  (perform_accepted a eff).trans (congrArg _ (frameLeaves_lineless n _))

/-- R49, R300: how a request at its home ends. -/
theorem onRequest_admitted {n al h : Nat} {k : Comb} {need : Need} (a : Admitted s f n al need h k) (eff :
    Nat → Comb → State) :
    onRequest s f need n al true eff = eff h k := by
  obtain ⟨l, d⟩ := a
  rw [onRequest, requestBad, d, l]
  rfl

theorem onRequest_unlet {n al : Nat} {need : Need} (d : destination s f need (paLocal f.w4) = none) (ok : Bool)
    (eff : Nat → Comb → State) : onRequest s f need n al ok eff = refuseFrame s f .rights := by
  rw [onRequest, requestBad, d]
  rfl

theorem onRequest_misplaced {n al : Nat} {need : Need} {ok : Bool} (d :
    (destination s f need (paLocal f.w4)).isSome = true)
    (b : ok = false ∨ linesOk s (paLocal f.w4) n al = false) (eff : Nat → Comb → State) :
    onRequest s f need n al ok eff = refuseFrame s f .range := by
  rw [onRequest, requestBad, if_neg (by rw [Option.isNone_iff_eq_none]; exact Option.isSome_iff_ne_none.1 d),
    if_pos (by rcases b with b | b <;> simp [b])]

theorem writeLines_misplaced {need : Need} {ok : Bool} {ks : List (Nat × WriteKind)}
    (d : (destination s f need (paLocal f.w4)).isSome = true)
    (b : ok = false ∨ linesOk s (paLocal f.w4) ks.length 128 = false) :
      writeLines s f need ok ks = refuseFrame s f .range := by
  unfold writeLines
  exact onRequest_misplaced d b _

/-- R297: one line of a frame that its home accepts. -/
theorem writeLines_one {need : Need} {h n : Nat} {k : Comb} {u : State} {d : WriteKind} (a : Admitted s f 1 128 need h k)
    (w : homeWrite s h k.keySel (paLocal f.w4) d f.level = (u, .ok, n)) :
    writeLines s f need true [(0, d)] = countPerformed u f.src f.seq := by
  unfold writeLines
  refine (onRequest_admitted a _).trans ?_
  simp only [List.foldl_cons, List.foldl_nil, Nat.mul_zero, Nat.add_zero, w, if_true]

theorem atomFrame (a : Accepted s src seq 9 r) (o : r.frame.opf / 2 ^ 29 = 0) {h old : Nat} {k : Comb} {u : State}
    (m : Admitted (received s r) r.frame 1 (if bit r.frame.opf 28 then 8 else 4) .atom h k)
    (w : homeWrite (received s r) h k.keySel (lineOf (paLocal r.frame.w4))
      (.atomic .add (bit r.frame.opf 28) (bit r.frame.opf 27) (paLocal r.frame.w4 % 128) (leNat (r.frame.payload.take 8))
        (leNat (r.frame.payload.drop 8))) r.frame.level = (u, .ok, old)) :
    exec (.atom src seq) s =
      .next (frameLeaves (countPerformed (sendResp u r.frame.src r.frame.seq r.frame.level .ok old) r.frame.src
        r.frame.seq)
        r.frame) := by
  show execAtom src seq s = _
  unfold execAtom
  refine (perform_accepted a _).trans (congrArg (fun t => Host.Outcome.next (frameLeaves t r.frame)) ?_)
  have fa : frameAtom r.frame = some .add := by rw [frameAtom, o]; rfl
  dsimp only
  rw [fa]
  refine (onRequest_admitted m _).trans ?_
  simp only [Option.getD_some, w, if_true]

theorem readFrame (a : Accepted s src seq 0xA r) (o : r.frame.opf / 2 ^ 29 = 0) {h : Nat} {k : Comb} {u : State}
    {d : List Byte}
    (m : Admitted (received s r) r.frame 1 128 .rd h k)
    (w : homeRead (received s r) h k.keySel (paLocal r.frame.w4) r.frame.level = (u, .ok, d)) (l : d.length = 128) :
    exec (.read src seq) s =
      .next (frameLeaves (countPerformed (sendRdata u r.frame.src r.frame.seq r.frame.level .ok d) r.frame.src
        r.frame.seq)
        r.frame) := by
  show execRead src seq s = _
  unfold execRead
  refine (perform_accepted a _).trans (congrArg (fun t => Host.Outcome.next (frameLeaves t r.frame)) ?_)
  dsimp only
  rw [o]
  refine (onRequest_admitted m _).trans ?_
  have pad : (d ++ List.replicate 128 0).take 128 = d := List.take_left' l
  simp only [Nat.zero_add, List.range_one, List.foldl_cons, List.foldl_nil, Nat.mul_zero, Nat.add_zero, w, if_true, pad,
    List.nil_append]

/-- R142: the requests of a REDUCE frame whose formats, operation and rounding are in range. -/
theorem reduceKinds_some {x acc y : Fmt} {n : Rnd} (hx : Fmt.ofNat? (fld f.opf 27 5) = some x)
    (ha : Fmt.ofNat? (fld f.opf 22 5) = some acc) (hy : Fmt.ofNat? (fld f.opf 17 5) = some y)
    (hn : Rnd.ofNat? (fld f.opf 13 2) = some n) (o : fld f.opf 15 2 = 0) (z : 128 % y.size = 0) :
    reduceKinds f = some ((List.range (reduceLines f)).map (fun i =>
        (i, .reduce .sum (fld f.opf 27 5) (fld f.opf 22 5) (fld f.opf 17 5) (fld f.opf 13 2)
          (((frameElements f x.size y.size).filter (fun e => e.1 / (128 / y.size) == i)).map (fun e =>
            { off := e.1 % (128 / y.size) * y.size, bits := e.2.1, draw := e.2.2 }))))) := by
  unfold reduceKinds
  dsimp only
  rw [hx, ha, hy, hn, o]
  exact if_neg (not_not_intro z)

theorem code_ne_ok {n : Nat} (h : n ≠ 0) : Status.ofCode n ≠ .ok := by
  unfold Status.ofCode
  split
  case h_1 => exact absurd rfl h
  all_goals decide

section
variable {data : State → Txn → State} {x : Txn} {t : State} (ht : countPerformed s f.src f.seq = t)
include ht

/-- R301: a response that answers a transaction ends it; its data is taken where its status is OK. -/
theorem answer_ok (l : t.sw.txns.find? (fun x => x.peer == f.src && x.seq == fld f.w4 32 32) = some x)
    (c : fld f.w4 24 8 = 0) : answer s f data = endTxn (data t x) x .ok := by
  subst ht
  rw [answer, l, c]
  rfl

theorem answer_bad (l : t.sw.txns.find? (fun x => x.peer == f.src && x.seq == fld f.w4 32 32) = some x)
    (c : fld f.w4 24 8 ≠ 0) : answer s f data = endTxn t x (Status.ofCode (fld f.w4 24 8)) := by
  subst ht
  unfold answer
  dsimp only
  rw [l]
  exact congrArg (fun v => endTxn v x (Status.ofCode (fld f.w4 24 8))) (if_neg (code_ne_ok c))

theorem answer_lost (l : t.sw.txns.find? (fun x => x.peer == f.src && x.seq == fld f.w4 32 32) = none) :
    answer s f data = t.onSw (fun w => { w with responsesLost := w.responsesLost + 1 }) := by
  subst ht
  rw [answer, l]

end

theorem respFrame (a : Accepted s src seq 0xD r) : exec (.resp src seq) s = .next
    (answer (received s r) r.frame (fun u x =>
    match x.kind with
    | .atomic => keepData u x.chan 0 (r.frame.payload.take 8)
    | _ => u)) := by
  show execResp src seq s = _
  unfold execResp
  exact perform_lineless a (by rw [frameLines, ftype_of_accepted a] <;> rfl) _

theorem rdataFrame (a : Accepted s src seq 0xC r) : exec (.rdata src seq) s = .next
    (answer (received s r) r.frame (fun u x =>
    match x.kind with
    | .read va len =>
      (List.range (len / 128)).foldl (fun v i => keepData v x.chan (va + 128 * i)
        ((r.frame.payload.drop (128 * i)).take 128)) u
    | _ => u)) := by
  show execRdata src seq s = _
  unfold execRdata
  exact perform_lineless a (by rw [frameLines, ftype_of_accepted a] <;> rfl) _

/-- Settles O51. -/
theorem framesArePerformed : Obligations.FramesArePerformed := by
  unfold Obligations.FramesArePerformed
  refine ⟨?_, ?_, ?_, ?_, ?_, ?_, ?_, ?_, ?_, ?_, ?_, ?_, ?_, ?_⟩
  · intro s src seq r a
    show execWrite src seq s = _
    unfold execWrite
    exact perform_accepted a _
  · exact fun s f h k u d n a w => writeLines_one a w
  · intro s src seq r h k u n a m w
    show execWritep src seq s = _
    unfold execWritep
    exact (perform_accepted a _).trans
      (congrArg (fun t => Host.Outcome.next (frameLeaves t r.frame)) (writeLines_one m w))
  · exact fun s f ks need ok d => by unfold writeLines; exact onRequest_unlet d _ _
  · exact fun s f ks need ok d b => writeLines_misplaced d b
  · exact fun s src seq r h k u old a o m w => atomFrame a o m w
  · exact fun s src seq r h k u d a o m w l => readFrame a o m w l
  · intro s src seq r a d b
    show execRead src seq s = _
    unfold execRead
    exact (perform_accepted a _).trans
      (congrArg (fun t => Host.Outcome.next (frameLeaves t r.frame)) (onRequest_misplaced d (.inr b) _))
  · intro s src seq r x ac y n a hx ha hy hn o z
    show execReduceFrame src seq s = _
    unfold execReduceFrame
    refine (perform_accepted a _).trans (congrArg (fun t => Host.Outcome.next (frameLeaves t r.frame)) ?_)
    rw [reduceKinds_some hx ha hy hn o z]
    rfl
  · intro s src seq r f o l
    show execWritep src seq s = _
    unfold execWritep
    exact perform_held f o l _
  · intro s src seq r a k d
    show execReduceFrame src seq s = _
    unfold execReduceFrame
    refine (perform_accepted a _).trans (congrArg (fun t => Host.Outcome.next (frameLeaves t r.frame)) ?_)
    rw [k]
    exact writeLines_misplaced d (.inl rfl)
  · intro s src seq r a
    have e := perform_lineless a (by rw [frameLines, ftype_of_accepted a] <;> rfl) (fun t f =>
      if bit f.opf 31 then countPerformed (cancelWait t f.w4 f.src f.srcHive (leNat (f.payload.take 8))) f.src f.seq
      else fenceOp t f.w4 (.rwait f.src f.seq f.srcHive f.colony (leNat (f.payload.take 8)) f.level))
    exact ⟨fun b => e.trans (congrArg _ (if_pos b)), fun b => e.trans (congrArg _ (if_neg (by rw [b]; decide)))⟩
  · intro s src seq r a t
    refine ⟨fun x va n l k c => ?_, fun x l k c => ?_, fun x l c => ?_, fun l => ?_⟩
    · refine (rdataFrame a).trans (congrArg _ ((answer_ok rfl l c).trans ?_))
      rw [k]
    · refine (rdataFrame a).trans (congrArg _ ((answer_ok rfl l c).trans (congrArg (fun v => endTxn v x .ok) ?_)))
      split
      case h_1 va n e => exact absurd e (k va n)
      case h_2 => rfl
    · exact (rdataFrame a).trans (congrArg _ (answer_bad rfl l c))
    · exact (rdataFrame a).trans (congrArg _ (answer_lost rfl l))
  · intro s src seq r a t
    refine ⟨fun x l k c => ?_, fun x l k c => ?_, fun x l c => ?_, fun l => ?_⟩
    · refine (respFrame a).trans (congrArg _ ((answer_ok rfl l c).trans ?_))
      rw [k]
    · refine (respFrame a).trans (congrArg _ ((answer_ok rfl l c).trans (congrArg (fun v => endTxn v x .ok) ?_)))
      split
      case h_1 e => exact absurd e k
      case h_2 => rfl
    · exact (respFrame a).trans (congrArg _ (answer_bad rfl l c))
    · exact (respFrame a).trans (congrArg _ (answer_lost rfl l))

end Sys2Proof.Requests
end

section
/-! Links in time: training, loss, silence and rekey (R19, R286 to R290), and `KEY_DERIVE` LINK (R196). -/

namespace Sys2Proof.LinkTimes
open Sys2Proof.Machine Sys2Proof.Safety

variable {s : State} {l c ls : Nat}

theorem counterSpent_of {j k : Link} (t : j.lctrTx = k.lctrTx) (r : j.lctrRx = k.lctrRx) (o : j.lctrOld = k.lctrOld) :
    counterSpent j = counterSpent k := by
  rw [counterSpent, t, r, o]
  rfl

/-- Credit spent leaves a link's counters as they were. -/
theorem counters_of_spend (k : Link) (p : Prop) [Decidable p] (level n : Nat) :
    (if p then k.spend level n else k).lctrRx = k.lctrRx ∧ (if p then k.spend level n else k).lctrOld = k.lctrOld := by
  split
  · exact ⟨rfl, rfl⟩
  · exact ⟨rfl, rfl⟩

/-- A HELLO leaves its link as it was: it is under no counter, and spends no credit. -/
theorem putFrame_hello {f : Frame} (h : f.ftype = 4) (c : counterSpent (linkAt s l) = false) :
    ∃ g, putFrame s l f = emit (setLink s l id) (.frame l g (pcsBeats (wireFrame (linkAt s l).txKey g))) := by
  have hf : (flowFields s f).ftype = 4 := by
    unfold flowFields
    split
    · rw [if_neg (fun d => d.2 h)]
      exact h
    · exact h
  unfold putFrame
  dsimp only
  rw [hf]
  simp only [if_true]
  refine ⟨_, if_neg ?_⟩
  show ¬ counterSpent (linkAt (setLink s l id) l) = true
  rw [linkAt_setLink, id, c]
  decide

/-- R287: a link that trains sends its HELLO. -/
theorem train_trains (m : mayTrain s l = true) (c : counterSpent (linkAt s l) = false) :
    (linkAt (train s l) l).state = .training ∧ (train s l).sent.length = s.sent.length + 1 ∧
      ∀ j, j ≠ l → linkAt (train s l) j = linkAt s j := by
  obtain ⟨own, n, e⟩ : ∃ own n, train s l =
      sendHello (setLink (drawDrbg (drawBytes s 96).2 32).2 l (fun x => { x with state := .training, ownHello := own })) l
        n own :=
    ⟨_, _, if_pos m⟩
  rw [e]
  generalize hu : setLink (drawDrbg (drawBytes s 96).2 32).2 l (fun x => { x with state := .training, ownHello := own }) =
    u
  have own_link : linkAt u l = { linkAt s l with state := .training, ownHello := own } := by
    subst hu; exact linkAt_setLink _ _ _
  have other (j : Nat) (d : j ≠ l) : linkAt u j = linkAt s j := by
    subst hu; exact linkAt_setLink_ne _ _ _ _ d
  have us : u.sent = s.sent := by subst hu; rfl
  obtain ⟨g, p⟩ := putFrame_hello (s := (drawNat u).2) (l := l) (f :=
    ctlFrame (drawNat u).2 ((drawNat u).1 % 2 ^ 16) 4 (n * 2 ^ 30) own)
    rfl (show counterSpent (linkAt u l) = false by rw [own_link]; exact (counterSpent_of rfl rfl rfl).trans c)
  rw [show sendHello u l n own = _ from p]
  refine ⟨?_, ?_, fun j d => ?_⟩
  · show (linkAt (setLink (drawNat u).2 l id) l).state = _
    rw [linkAt_setLink]
    show (linkAt u l).state = _
    rw [own_link]
  · show (u.sent ++ [_]).length = _
    rw [us, List.length_append]
    rfl
  · show linkAt (setLink (drawNat u).2 l id) j = _
    rw [linkAt_setLink_ne _ _ _ _ d]
    exact other j d

/-- A link that falls where no flow and no frame waits takes nothing else with it. -/
theorem dropLink_quiet (f : s.sw.flows = []) (w : s.sw.fwd = []) :
    (∀ i, linkAt (dropLink s l) i = linkAt (setLink s l (fun x =>
      { Link.down with holdDown := true, locked := x.locked, broken := x.broken })) i) ∧ (dropLink s l).sw.fwd = [] ∧
      (dropLink s l).qm = s.qm ∧ (dropLink s l).pr = s.pr ∧ (dropLink s l).mv = s.mv ∧ (dropLink s l).sent = s.sent := by
  unfold dropLink
  dsimp only
  rw [f, w]
  refine ⟨fun i => rfl, ?_, rfl, rfl, rfl, rfl⟩
  show s.sw.fwd.filter (fun x => x.out != l) = []
  rw [w]
  rfl

theorem endLinkJobs_keeps (j : s.qm.jobs = []) : (endLinkJobs s).sw = s.sw ∧ (endLinkJobs s).pr = s.pr ∧
    (endLinkJobs s).mv = s.mv ∧ (endLinkJobs s).sent = s.sent := by
  unfold endLinkJobs
  dsimp only
  rw [j]
  exact ⟨rfl, rfl, rfl, rfl⟩

theorem linkDown_quiet (d : (linkAt s l).state ≠ .down) (f : s.sw.flows = []) (w : s.sw.fwd = []) (j : s.qm.jobs = []) :
    (∀ i, linkAt (linkDown s l) i = linkAt (setLink s l (fun x =>
      { Link.down with holdDown := true, locked := x.locked, broken := x.broken })) i) ∧
      (linkDown s l).pr = s.pr ∧ (linkDown s l).mv = s.mv ∧ (linkDown s l).sent = s.sent := by
  obtain ⟨k, wt, q, p, m, o⟩ := dropLink_quiet (l := l) f w
  obtain ⟨hw, hp, hm, ho⟩ := endLinkJobs_keeps (s := dropLink s l) (by rw [q, j])
  rw [linkDown, if_neg d, settleLinks, drainForward, if_pos wt, hp, hm, ho]
  exact ⟨fun i => (show linkAt _ i = linkAt (dropLink s l) i by unfold linkAt; rw [hw]).trans (k i), p, m, o⟩

/-- R288: a link whose counter is spent with a frame falls once the frame has left. -/
theorem putFrame_spends {f : Frame} (n : f.ftype ≠ 4)
    (c : counterSpent { linkAt s l with lctrTx := (linkAt s l).lctrTx + 1 } = true) (e : s.sw.flows = []) (w :
      s.sw.fwd = []) :
    (linkAt (putFrame s l f) l).state = .down := by
  have hf : flowFields s f = f := by
    unfold flowFields flowAt
    rw [e]
    rfl
  have down (t : State) (e : t.sw.flows = []) (w : t.sw.fwd = []) : (linkAt (dropLink t l) l).state = .down := by
    rw [(dropLink_quiet e w).1, linkAt_setLink]
    rfl
  unfold putFrame
  dsimp only
  rw [hf, if_pos]
  · exact down _ e w
  · rw [show ∀ t o, linkAt (emit t o) l = linkAt t l from fun _ _ => rfl, linkAt_setLink, if_neg n]
    have spent (j : Link) (a : j.lctrTx = (linkAt s l).lctrTx + 1) (b : j.lctrRx = (linkAt s l).lctrRx)
        (o : j.lctrOld = (linkAt s l).lctrOld) : counterSpent j = true := by
      rw [← c]
      exact counterSpent_of a b o
    obtain ⟨b, o⟩ := counters_of_spend (linkAt s l) (sequenced f.ftype = true) f.level (frameKib f)
    exact spent _ rfl b o

theorem silence (d : (linkAt s l).state ≠ .down) : exec (.linkSilenceTimeout l) s = .next (linkDown s l) := by
  show execLinkSilenceTimeout l s = _
  rw [execLinkSilenceTimeout, bne_iff_ne.2 d]
  exact Laws.taken_true _ _

section
variable (r : RunsOp s c (.keyLink ls))
include r

theorem keyDeriveLink_runs : exec (.keyDeriveLink c) s = .next
    (if ls = 0 ∨ (bitsOf ls 16).any (fun l => !bit (linksConnected s) l) then retire s c .range
      else if (bitsOf ls 16).any (fun l => !(linkAt s l).carries) then retire s c .state
      else await s c (fun t => (bitsOf ls 16).foldl startRekey
        (t.onQm (fun m => { m with jobs := m.jobs ++ [{ chan := c, kind := .links (bitsOf ls 16) }] })))) :=
  (Laws.runInstr_of_runsOp r _ rfl _ : execKeyDeriveLink c s = _)

end

/-- Settles O52. -/
theorem linksTrainRekeyAndFall : Obligations.LinksTrainRekeyAndFall := by
  unfold Obligations.LinksTrainRekeyAndFall
  refine ⟨?_, ?_, ?_, ?_, ?_, ?_, ?_, ?_, ?_, ?_, ?_, ?_, ?_, ?_, ?_, ?_⟩
  · intro s l b k o
    show execPcsLock l s = _
    rw [execPcsLock, decide_eq_true b, k, o]
    exact Laws.taken_true _ _
  · intro s l h
    rw [mayTrain]
    rcases h with h | h <;> simp [h]
  · exact fun s l h => if_neg (by rw [h]; decide)
  · exact fun s l m k => train_trains m k
  · intro s l k
    show execPcsLockLoss l s = _
    rw [execPcsLockLoss, k]
    exact Laws.taken_true _ _
  · exact fun s l d => silence d
  · intro s l d f w j
    obtain ⟨k, q⟩ := linkDown_quiet (s := s) d f w j
    refine Laws.answers_of_eq _ (silence d) ⟨(k l).trans (linkAt_setLink s l _), fun i n => ?_, q⟩
    exact (k i).trans (linkAt_setLink_ne s l i _ n)
  · intro s l h
    show execHoldDownEnd l s = _
    rw [execHoldDownEnd, h]
    exact Laws.taken_true _ _
  · intro s l k p
    show execHelloRepeat l s = _
    rw [execHelloRepeat, k, p]
    exact Laws.taken_true _ _
  · intro s l k i
    show execKeyxRepeat l s = _
    rw [execKeyxRepeat, k, i]
    exact Laws.taken_true _ _
  · intro s l k
    show execProbeInterval l s = _
    unfold execProbeInterval
    dsimp only
    rw [show ((linkAt s l).carries || (linkAt s l).state == .auth) = true by rcases k with k | k <;> simp [k]]
    exact Laws.taken_true _ _
  · exact fun s l f n k e w => putFrame_spends n k e w
  · intro s l o b
    show execOldKeyRetire l s = _
    rw [execOldKeyRetire, o, decide_eq_true b]
    exact Laws.taken_true _ _
  · intro s c ls r n a b
    refine (keyDeriveLink_runs r).trans (congrArg _ ?_)
    rw [if_neg (by rw [a]; simp [n]), if_neg (by rw [b]; decide)]
  · exact fun s c ls r h => (keyDeriveLink_runs r).trans (congrArg _ (if_pos h))
  · intro s c ls r n a b
    refine (keyDeriveLink_runs r).trans (congrArg _ ?_)
    rw [if_neg (by rw [a]; simp [n]), if_pos b]

end Sys2Proof.LinkTimes
end

section
/-! The timers of a flow (R283, R291 to R296). -/

namespace Sys2Proof.FlowTimes
open Sys2Proof.Machine Sys2Proof.Safety Sys2Proof.Frame

variable {s t : State} {p k : Nat} {fl : Flow}

/-- What a frame on its way says of its flow: all but the links that the flow's frames are to leave on. -/
def flowBare (x : Flow) : Flow := { x with spray := false, retx := [] }

/-- The flows but for the links of their frames, the transactions and the propolis. -/
def flowsCarried (s : State) : (Nat → Option Flow) × List Txn × Propolis :=
  (fun p => (flowAt s p).map flowBare, s.sw.txns, s.pr)

theorem flows_setFlow {f : Flow → Flow} (h : ∀ x, flowBare (f x) = flowBare x) (m : Same flowsCarried s t) :
    Same flowsCarried s (setFlow t p f) := by
  refine Same.trans m ?_
  unfold Same flowsCarried
  refine Prod.ext (funext fun i => ?_) rfl
  show (flowAt (setFlow t p f) i).map flowBare = (flowAt t i).map flowBare
  by_cases e : i = p
  · subst e
    show (Tab.look (Tab.mod t.sw.flows i f) i).map flowBare = (Tab.look t.sw.flows i).map flowBare
    rw [Tab.look_mod, Option.map_map]
    exact congrArg (fun g => Option.map g _) (funext h)
  · show (Tab.look (Tab.mod t.sw.flows p f) i).map flowBare = (Tab.look t.sw.flows i).map flowBare
    rw [Tab.look_mod_ne _ _ _ _ e]

theorem flows_oweCredit {l f} (m : Same flowsCarried s t) : Same flowsCarried s (oweCredit t l f) :=
  same_ite m m

theorem flows_requeue {w} (m : Same flowsCarried s t) : Same flowsCarried s (requeue t w) := by
  unfold requeue
  split
  · exact m
  · exact flows_oweCredit m

theorem flows_routeOwn {f} (m : Same flowsCarried s t) : Same flowsCarried s (routeOwn t p f).1 := by
  unfold routeOwn
  split
  · exact m
  · exact flows_setFlow (fun _ => rfl) m

theorem flows_dropLink {l} (m : Same flowsCarried s t) : Same flowsCarried s (dropLink t l) := by
  unfold dropLink
  refine same_foldl (fun x e => same_foldl (fun y w => ?_) (same_refl _))
    (same_foldl (fun x w => flows_requeue (same_refl _)) m)
  have r := flows_routeOwn (p := e.1) (f := w.frame) (same_refl y)
  split
  case h_1 q => exact Same.trans (same_fst r q) rfl
  case h_2 q => exact same_fst r q

theorem flows_putFrame {l f} (m : Same flowsCarried s t) : Same flowsCarried s (putFrame t l f) :=
  same_ite (flows_dropLink m) m

theorem flows_sendCtl {f} (m : Same flowsCarried s t) : Same flowsCarried s (sendCtl t p f) := by
  unfold sendCtl
  split
  · exact flows_putFrame m
  · exact m

theorem flowAt_setFlow (f : Flow → Flow) : flowAt (setFlow s p f) p = (flowAt s p).map f := Tab.look_mod ..

/-- R293: an acknowledgement leaves nothing to acknowledge. -/
theorem sendAck_sinceAck (f : flowAt s p = some fl) : (flowAt (sendAck s p) p).map (·.sinceAck) = some 0 := by
  rw [sendAck, f]
  have m := flows_sendCtl (p := p) (f := ctlFrame s p 1 0 (ackPayload fl))
    (same_refl (setFlow s p (fun x => { x with sinceAck := 0 })))
  have b : (flowAt (sendCtl (setFlow s p (fun x => { x with sinceAck := 0 })) p (ctlFrame s p 1 0 (ackPayload fl))) p).map
    flowBare =
      some (flowBare { fl with sinceAck := 0 }) := by
    refine (congrFun (congrArg Prod.fst m) p).trans ?_
    show (flowAt (setFlow s p _) p).map flowBare = _
    rw [flowAt_setFlow, f]
    rfl
  obtain ⟨x, e, d⟩ := Option.map_eq_some_iff.1 b
  show (flowAt (sendCtl _ _ _) p).map _ = _
  rw [e]
  exact congrArg some (congrArg Flow.sinceAck d)

/-- R295: a flow that is idle gives up its entry with its CLOSE. -/
theorem closeFlow_closes (i : flowIdle s p = true) :
    (flowAt (closeFlow s p) p).map (fun x => (x.entry, x.closing)) = some (false, true) ∧ (closeFlow s p).pr = s.pr ∧
      (closeFlow s p).sw.txns = s.sw.txns := by
  have m := flows_sendCtl (p := p) (f := ctlFrame s p 3 0 []) (same_refl s)
  refine ⟨?_, congrArg (fun x => x.2.2) m, congrArg (fun x => x.2.1) m⟩
  obtain ⟨fl, f⟩ : ∃ fl, flowAt s p = some fl := by
    unfold flowIdle at i
    split at i
    case h_1 => exact absurd i (by decide)
    case h_2 fl f => exact ⟨fl, f⟩
  have b : (flowAt (sendCtl s p (ctlFrame s p 3 0 [])) p).map flowBare = some (flowBare fl) :=
    (congrFun (congrArg Prod.fst m) p).trans (congrArg (Option.map flowBare) f)
  obtain ⟨x, e, -⟩ := Option.map_eq_some_iff.1 b
  rw [closeFlow, flowAt_setFlow, e]
  rfl

theorem flowUnreachableTimeout_runs (f : flowAt s p = some fl) (r : reachable s p = false) :
    exec (.flowUnreachableTimeout p) s = .next (killFlow s p) := by
  show execFlowUnreachableTimeout p s = _
  rw [execFlowUnreachableTimeout, f, r]
  exact Laws.taken_true _ _

theorem killFlow_txnless (n : s.sw.txns = []) :
    flowAt (killFlow s p) p = none ∧ (killFlow s p).pr = s.pr ∧ (killFlow s p).sent = s.sent := by
  unfold killFlow resetPeer
  dsimp only
  rw [show (dropFlow s p).sw.txns = [] from n]
  exact ⟨Tab.look_del _ _, rfl, rfl⟩

/-- R283: what leaves with a frame that has waited too long to be forwarded. -/
theorem dropForward_drops {l : Nat} {f : Frame} : (dropForward s l f).sw.discarded = s.sw.discarded + 1 ∧
    (dropForward s l f).sw.fwd = s.sw.fwd ∧ (dropForward s l f).sent = s.sent ∧ (dropForward s l f).pr = s.pr := by
  unfold dropForward oweCredit
  split
  · exact ⟨rfl, rfl, rfl, rfl⟩
  · exact ⟨rfl, rfl, rfl, rfl⟩

/-- Settles O53. -/
theorem flowTimersAct : Obligations.FlowTimersAct := by
  unfold Obligations.FlowTimersAct
  refine ⟨?_, ?_, ?_, ?_, ?_, ?_, ?_, ?_, ?_⟩
  · intro s p fl f o
    have e : exec (.openRepeat p) s = .next (if fl.entry then sendOpen s p false else enterFlow s p) := by
      show execOpenRepeat p s = _
      unfold execOpenRepeat
      rw [f]
      show taken (!fl.opened) _ _ = _
      rw [o]
      exact Laws.taken_true _ _
    exact ⟨fun n => e.trans (congrArg _ (if_pos n)), fun n => e.trans (congrArg _ (if_neg (by rw [n]; decide)))⟩
  · intro s p fl f b
    refine Laws.answers_of_eq (sendAck s p) ?_ ⟨rfl, sendAck_sinceAck f⟩
    show execAckDelay p s = _
    unfold execAckDelay
    rw [f]
    show taken (decide (0 < fl.sinceAck)) _ _ = _
    rw [decide_eq_true b]
    exact Laws.taken_true _ _
  · intro s p seq fl e f q
    show execRetransmitTimeout p seq s = _
    unfold execRetransmitTimeout
    rw [f, Option.bind_some, q]
  · intro s p fl f h n m low
    show execSprayEnter p s = _
    unfold execSprayEnter
    rw [h]
    dsimp only
    have any : (toSend s p fl).any (fun f => (primarySet s p).all (fun k => decide ((linkAt s k).creditAt f.level < 16)))
      = true :=
      List.any_eq_true.2 ⟨f, m, List.all_eq_true.2 fun l i => decide_eq_true (low l i)⟩
    rw [any, n]
    exact Laws.taken_true _ _
  · intro s p fl l h n m c
    show execOrderedReturn p s = _
    unfold execOrderedReturn
    rw [h]
    dsimp only
    have any : (primarySet s p).any (fun k => decide (64 ≤ (linkAt s k).credit.foldl (· + ·) (linkAt s k).shared)) = true
      :=
      List.any_eq_true.2 ⟨l, m, decide_eq_true c⟩
    rw [any, n]
    exact Laws.taken_true _ _
  · intro s p i
    refine Laws.answers_of_eq (closeFlow s p) ?_ ⟨rfl, closeFlow_closes i⟩
    show execFlowIdleClose p s = _
    rw [execFlowIdleClose, i]
    exact Laws.taken_true _ _
  · exact fun s p fl f r => flowUnreachableTimeout_runs f r
  · exact fun s p fl f r n => Laws.answers_of_eq _ (flowUnreachableTimeout_runs f r) (killFlow_txnless n)
  · intro s k r h n
    refine Laws.answers_of_eq (dropForward (s.onSw (fun w => { w with fwd := w.fwd.eraseIdx k })) r.link r.frame) ?_
      dropForward_drops
    show execForwardQueueTimeout k s = _
    unfold execForwardQueueTimeout
    rw [h]
    dsimp only
    rw [bne_iff_ne.2 n]
    exact Laws.taken_true _ _

end Sys2Proof.FlowTimes
end

section
/-! The reference clock, the fast clocks and the gating of units (R17, R18, R352 to R354, R443, R444). -/

namespace Sys2Proof.ClockTimes
open Sys2Proof.Machine Sys2Proof.Safety Sys2Proof.Frame

variable {s t : State} {d : Dom} {p m l : Nat} {u : GUnit}

/-! ## Demands -/

theorem requestClock_requested (r : (clockOf s d).req = true) : requestClock s d = s := if_pos r

theorem requestClock_new (r : (clockOf s d).req = false) : requestClock s d =
    emit (setClock s d (fun _ => { req := true, second := false, ready := false })) (.clockRequest d true) :=
  if_neg (by rw [r]; decide)

theorem clockStartDemand_runs (c : s.clk.cold = false) (k : s.kp.mbox.clkFail = false) (r : (clockOf s d).req = false) :
    exec (.clockStartDemand d) s = .next (demand s d) := by
  show execClockStartDemand d s = _
  rw [execClockStartDemand, r, c, k]
  exact Laws.taken_true _ _

theorem demand_stream (k : s.kp.mbox.clkFail = false) : demand s .stream = requestClock (requestClock s .control) .stream
    :=
  if_neg (by rw [k]; decide)

theorem demand_control (k : s.kp.mbox.clkFail = false) : demand s .control = requestClock s .control :=
  if_neg (by rw [k]; decide)

/-! ## Locks -/

theorem lockDue_of (r : (clockOf s d).req = true) (n : (clockOf s d).ready = false) (k : s.kp.mbox.clkFail = false)
    (p : (d == .stream && s.clk.portsDue) = false) : lockDue s d = true := by
  rw [lockDue, r, n, k, p]
  rfl

theorem lockDue_failed (k : s.kp.mbox.clkFail = true) (d : Dom) : lockDue s d = false := by
  simp [lockDue, k]

theorem clockLock_runs (k : lockDue s d = true) : exec (.clockLock d) s = .next (clockLocked s d) := by
  show execClockLock d s = _
  rw [execClockLock, k]
  exact Laws.taken_true _ _

/-- R353: the control clock becomes ready, and `hx_down` goes low, before anything goes on. -/
theorem clockReady_control (r : s.clk.stream.ready = false) : clockReady s .control =
    onward ((setClock s .control (fun c => { c with ready := true, second := false })).onClk (fun c =>
      { c with hxDown := false })) :=
  congrArg onward (if_neg (fun h => Bool.noConfusion (r.symm.trans (Bool.and_eq_true_iff.1 h).2)))

/-- A block without links trains none. -/
theorem train_linkless (w : s.sw.links = []) (l : Nat) : train s l = s := by
  have down : linkAt s l = Link.down := by rw [linkAt, w]; rfl
  refine if_neg ?_
  rw [mayTrain, down]
  show ¬ (_ && _ && false && _ && _ && _ && _ && _ && _ && _ && _) = true
  simp

theorem trainAll_linkless (w : s.sw.links = []) (ls : List Nat) : ls.foldl train s = s := by
  induction ls with
  | nil => rfl
  | cons l ls ih => rw [List.foldl_cons, train_linkless w, ih]

theorem clockReady_stream (h : s.clk.control.ready = false ∨ s.sw.links = []) : clockReady s .stream =
    onward ((setClock s .stream (fun c => { c with ready := true, second := false })).onClk (fun c =>
      { c with portsDue := false })) := by
  refine congrArg onward ?_
  rcases h with h | h
  · exact if_neg (fun b => Bool.noConfusion (h.symm.trans (Bool.and_eq_true_iff.1 b).1))
  · dsimp only
    rw [trainAll_linkless (by exact h), ite_self]

theorem portsReady_reset (n : fld s.kp.settings.integ 16 8 ≠ 0) :
    portsReady ((resetPorts s).onClk (fun c => { c with portsDue := true })) = false := by
  refine List.all_eq_false.2 ⟨0, List.mem_range.2 (Nat.pos_of_ne_zero n), ?_⟩
  have e : portAt ((resetPorts s).onClk (fun c => { c with portsDue := true })) 0 = Port.reset := by
    show (Tab.look (Tab.mapv s.ports (fun _ _ => Port.reset)) 0).getD Port.reset = _
    rw [Tab.look_mapv]
    cases Tab.look s.ports 0 <;> rfl
  rw [e]
  decide

theorem portsUp_stays (h : s.clk.portsDue = false ∨ portsReady s = false) : portsUp s = s :=
  if_neg (by rcases h with h | h <;> simp [h])

/-! ## Timeouts and stops -/

theorem clockStartTimeout_runs (k : lockDue s d = true) : exec (.clockStartTimeout d) s = .next
    (if (clockOf s d).second then clockFailed (refuseInput s false 9 0) d
     else emit (emit (setClock (refuseInput s false 9 0) d (fun x => { x with second := true })) (.clockRequest d false))
       (.clockRequest d true)) := by
  show execClockStartTimeout d s = _
  unfold execClockStartTimeout
  dsimp only
  rw [k]
  exact Laws.taken_true _ _

/-- The clocks and the mailbox's registers. -/
def clocksAndMbox (s : State) : Clocks × Mailbox := (s.clk, s.kp.mbox)

theorem mbox_onWaggle {f : Waggle → Waggle} (k : Same clocksAndMbox s t) : Same clocksAndMbox s (onWaggle t f) := k

theorem mbox_flushForward (k : Same clocksAndMbox s t) : Same clocksAndMbox s (flushForward t) :=
  mbox_onWaggle (same_foldl (f := fun t f => emit t (.waggle (wireWaggle f))) (fun _ _ => rfl) k)

theorem mbox_sendWaggle {wtype dst bcast payload} (k : Same clocksAndMbox s t) :
    Same clocksAndMbox s (sendWaggle t wtype dst bcast payload) :=
  same_ite k (mbox_onWaggle (mbox_flushForward k))

theorem mbox_declareOut : Same clocksAndMbox (setMbox s (fun m => { m with isOut := true })) (declareOut s) :=
  same_ite (same_refl _) (mbox_onWaggle (mbox_sendWaggle (mbox_flushForward (same_refl _))))

/-- R353: a clock that has failed twice is off, and the chip is out. -/
theorem clockFailed_out (s : State) (d : Dom) : (clockOf (clockFailed s d) d).req = false ∧ (clockFailed s d).clk.hxDown =
    true ∧
    (clockFailed s d).kp.mbox.clkFail = true ∧ (clockFailed s d).kp.mbox.isOut = true := by
  obtain ⟨f, e, -⟩ := HostPort.logErr_eq (emit (setClock s d (fun _ => .reset)) (.clockRequest d false))
    { cls := 2, status := Status.hwError.code, cause := 0xC }
  unfold clockFailed
  rw [e]
  have k := mbox_declareOut (s := setMbox (((emit (setClock s d (fun _ => .reset)) (.clockRequest d false)).onBr f).onClk
    (fun c => { c with hxDown := true })) (fun m => { m with clkFail := true }))
  have kc := congrArg Prod.fst k
  have km := congrArg Prod.snd k
  refine ⟨?_, congrArg Clocks.hxDown kc |>.trans ?_, congrArg Mailbox.clkFail km, congrArg Mailbox.isOut km⟩
  · cases d
    · exact congrArg (fun c => c.control.req) kc
    · exact congrArg (fun c => c.stream.req) kc
  · rfl

theorem clockIdleStop_runs (k : s.kp.mbox.clkFail = false)
    (i : (match d with | .stream => streamIdle s | .control => controlIdle s) = true) :
    exec (.clockIdleStop d) s = .next (stopClock s d) := by
  show execClockIdleStop d s = _
  unfold execClockIdleStop
  rw [k]
  refine (congrArg (fun b => taken b s (stopClock s d)) ?_).trans (Laws.taken_true _ _)
  exact i

/-! ## Units -/

theorem unitGate_runs (g : gateable s u = true) : exec (.unitGate u) s = .next (gate s u) := by
  show execUnitGate u s = _
  rw [execUnitGate, g]
  exact Laws.taken_true _ _

theorem unitWake_runs (g : isGated s u = true) : exec (.unitWake u) s = .next (ungate s u) := by
  show execUnitWake u s = _
  rw [execUnitWake, g]
  exact Laws.taken_true _ _

theorem ungate_wakes (s : State) (u : GUnit) : isGated (ungate s u) u = false ∧ (ungate s u).pr.mem = s.pr.mem ∧
    (ungate s u).xl = s.xl := by
  cases u with
  | mover m => exact ⟨congrArg Mover.gated (moverAt_setMover _ m _), rfl, rfl⟩
  | propolis p =>
    refine ⟨?_, rfl, rfl⟩
    show (s.pr.gated.filter (· != p)).contains p = false
    simp
  | link l => exact ⟨congrArg Link.gated (linkAt_setLink s l _), rfl, rfl⟩

/-- Settles O54. -/
theorem clocksAndGatesMove : Obligations.ClocksAndGatesMove := by
  unfold Obligations.ClocksAndGatesMove
  refine ⟨?_, ?_, ?_, ?_, ?_, ?_, ?_, ?_, ?_, ?_, ?_, ?_, ?_, ?_, ?_, ?_, ?_, ?_⟩
  · intro s c o
    show execRefclkLoss s = _
    rw [execRefclkLoss, c, o]
    exact Laws.taken_true _ _
  · intro s c o
    show execRefclkRestore s = _
    rw [execRefclkRestore, c, o]
    exact Laws.taken_true _ _
  · intro s c k r
    refine Laws.answers_of_eq _ ((clockStartDemand_runs (d := .control) c k r).trans (congrArg _ ((demand_control k).trans
      (requestClock_new (d := .control) r)))) ⟨rfl, rfl, rfl, rfl⟩
  · intro s c k r q
    exact Laws.answers_of_eq _ ((clockStartDemand_runs (d := .stream) c k r).trans (congrArg _ ((demand_stream k).trans
      ((congrArg (requestClock · .stream) (requestClock_requested (d := .control) q)).trans
        (requestClock_new (d := .stream) r))))) ⟨rfl, rfl, rfl, rfl⟩
  · intro s c k r q
    refine Laws.answers_of_eq _ ((clockStartDemand_runs (d := .stream) c k r).trans (congrArg _ ((demand_stream k).trans
      ((congrArg (requestClock · .stream) (requestClock_new (d := .control) q)).trans
        (requestClock_new (d := .stream) r))))) ?_
    refine ⟨rfl, rfl, ?_⟩
    show (s.sent ++ [_]) ++ [_] = _
    rw [List.append_assoc]
    rfl
  · intro s k r n i
    refine Laws.answers_of_eq _ ((clockLock_runs (d := .control) (lockDue_of r n k rfl)).trans
      (congrArg _ (clockReady_control i))) ⟨_, rfl, rfl, rfl, rfl, rfl, rfl⟩
  · intro s k r n p i
    refine Laws.answers_of_eq _ ((clockLock_runs (d := .stream) (lockDue_of r n k (by rw [p]; rfl))).trans
      (congrArg _ (portsUp_stays (.inr (portsReady_reset i))))) ⟨rfl, rfl, rfl, rfl, rfl, rfl⟩
  · intro s p r h
    refine ⟨_, (if_pos (by rw [p, r]; rfl)).trans (clockReady_stream h), rfl, rfl, rfl, rfl, rfl⟩
  · exact fun s h => portsUp_stays h
  · intro s d k n
    refine Laws.answers_of_eq _ ((clockStartTimeout_runs k).trans (congrArg _ (if_neg (by rw [n]; decide)))) ?_
    have r : (clockOf s d).req = true := by
      unfold lockDue at k
      simp only [Bool.and_eq_true] at k
      exact k.1.1.1
    have es : s.sent ++ [Output.clockRequest d false] ++ [.clockRequest d true] =
        s.sent ++ [.clockRequest d false, .clockRequest d true] := by rw [List.append_assoc]; rfl
    cases d
    · exact ⟨rfl, r, rfl, es⟩
    · exact ⟨rfl, r, rfl, es⟩
  · intro s d k n
    exact Laws.answers_of_eq _ ((clockStartTimeout_runs k).trans (congrArg _ (if_pos n))) (clockFailed_out _ d)
  · exact fun s k i => (clockIdleStop_runs (d := .stream) k i).trans (congrArg _ rfl)
  · intro s k i
    exact Laws.answers_of_eq _ (clockIdleStop_runs (d := .control) k i) ⟨rfl, rfl, rfl, rfl⟩
  · intro s d k
    refine ⟨?_, ?_, ?_, ?_, ?_⟩
    · show execClockLock d s = _
      rw [execClockLock, lockDue_failed k]
      rfl
    · show execClockStartTimeout d s = _
      unfold execClockStartTimeout
      dsimp only
      rw [lockDue_failed k]
      rfl
    · show execClockIdleStop d s = _
      unfold execClockIdleStop
      rw [k]
      rfl
    · show execClockStartDemand d s = _
      rw [execClockStartDemand, k, Bool.not_true, Bool.and_false]
      rfl
    · show execBlockWarmReset s = _
      unfold execBlockWarmReset
      split
      · rfl
      · exact if_pos k
  · intro s m g
    exact Laws.answers_of_eq _ (unitGate_runs g) ⟨moverAt_setMover s m (fun x => { x with gated := true }),
      Tab.look_del _ _, rfl⟩
  · intro s p g
    exact Laws.answers_of_eq _ (unitGate_runs g) ⟨rfl, Tab.look_del _ _, rfl⟩
  · exact fun s l g => unitGate_runs g
  · exact fun s u g => Laws.answers_of_eq _ (unitWake_runs g) (ungate_wakes s u)

end Sys2Proof.ClockTimes
end

section
/-! What the lookups, records and events of a block whose stream clock runs leave as it was. -/
namespace Sys2Proof.Frame
open Sys2Proof.Machine Sys2Proof.Safety
variable {s t u : State}

/-- The keeper, the fuses and their blow, the power state of the function, and the clocks where the stream clock runs. -/
def awake (s : State) : Option Clocks × Keeper × Fuses × Option Blow × Bool :=
  (if s.clk.stream.ready then some s.clk else none, s.kp, s.vault.fuses, s.vault.blow, s.hp.d3hot)

theorem awake_parts (k : Same awake s t) : t.kp = s.kp ∧ t.vault.fuses = s.vault.fuses ∧ t.vault.blow = s.vault.blow ∧
    t.hp.d3hot = s.hp.d3hot := by
  have q : awake t = awake s := k
  unfold awake at q
  obtain ⟨-, q⟩ := Prod.mk.inj q
  obtain ⟨a, q⟩ := Prod.mk.inj q
  obtain ⟨b, q⟩ := Prod.mk.inj q
  exact ⟨a, b, Prod.mk.inj q⟩

theorem awake_clk (k : Same awake s t) (r : s.clk.stream.ready = true) : t.clk = s.clk := by
  have q : (if t.clk.stream.ready then some t.clk else none) = if s.clk.stream.ready then some s.clk else none :=
    congrArg Prod.fst k
  rw [r, if_pos rfl] at q
  split at q
  · exact Option.some.inj q
  · cases q

/-- A demand changes the clocks alone, and lets none run that stands still. -/
theorem awake_requestClock {d : Dom} (r : t.clk.stream.ready = false) (k : Same awake s t) :
    (requestClock t d).clk.stream.ready = false ∧ Same awake s (requestClock t d) := by
  have asleep (u : State) (q : u.clk.stream.ready = false) (kp : u.kp = t.kp) (v : u.vault = t.vault) (h : u.hp = t.hp) :
      u.clk.stream.ready = false ∧ Same awake s u := by
    refine ⟨q, Same.trans k ?_⟩
    unfold Same awake
    rw [r, q, kp, v, h]
    rfl
  unfold requestClock
  split
  · exact ⟨r, k⟩
  · cases d
    · exact asleep _ r rfl rfl rfl
    · exact asleep _ rfl rfl rfl rfl

theorem awake_wakeStream (k : Same awake s t) : Same awake s (wakeStream t) := by
  unfold wakeStream
  split
  · exact k
  · rename_i r
    unfold demand
    refine same_ite k ?_
    obtain ⟨q, m⟩ := awake_requestClock (d := .control) (Bool.eq_false_iff.2 r) k
    exact (awake_requestClock q m).2

theorem awake_onVault {f : Vault → Vault} (k : Same awake s t) (h : ∀ v, ((f v).fuses, (f v).blow) = (v.fuses, v.blow)) :
    Same awake s (t.onVault f) := by
  refine Same.trans k ?_
  obtain ⟨hf, hb⟩ := Prod.mk.inj (h t.vault)
  show ((if t.clk.stream.ready then some t.clk else none, t.kp, (f t.vault).fuses, (f t.vault).blow, t.hp.d3hot) :
    _ × _ × _ × _ × _) = _
  rw [hf, hb]
  rfl

theorem awake_onHp {f : HostPort → HostPort} (k : Same awake s t) (h : ∀ v, (f v).d3hot = v.d3hot) :
    Same awake s (t.onHp f) := by
  refine Same.trans k ?_
  show ((if t.clk.stream.ready then some t.clk else none, t.kp, t.vault.fuses, t.vault.blow, (f t.hp).d3hot) :
    _ × _ × _ × _ × _) = _
  rw [h t.hp]
  rfl

theorem awake_onHe {f} (k : Same awake s t) : Same awake s (t.onHe f) := k
theorem awake_onQm {f} (k : Same awake s t) : Same awake s (t.onQm f) := k
theorem awake_onMv {f} (k : Same awake s t) : Same awake s (t.onMv f) := k
theorem awake_onXl {f} (k : Same awake s t) : Same awake s (t.onXl f) := k
theorem awake_onPr {f} (k : Same awake s t) : Same awake s (t.onPr f) := k
theorem awake_onSw {f} (k : Same awake s t) : Same awake s (t.onSw f) := k
theorem awake_onRg {f} (k : Same awake s t) : Same awake s (t.onRg f) := k
theorem awake_onSq {f} (k : Same awake s t) : Same awake s (t.onSq f) := k
theorem awake_onBr {f} (k : Same awake s t) : Same awake s (t.onBr f) := k
theorem awake_emit {o} (k : Same awake s t) : Same awake s (emit t o) := k
theorem awake_withPorts {p : Tab Port} (k : Same awake s t) : Same awake s { t with ports := p } := k
theorem awake_withFree {n : Nat} (k : Same awake s t) : Same awake s { t with free := n } := k

theorem awake_drawNat (k : Same awake s t) : Same awake s (drawNat t).2 :=
  awake_withFree k

theorem awake_drawBytes {n} (k : Same awake s t) : Same awake s (drawBytes t n).2 :=
  awake_withFree k

theorem awake_drawDrbg {n} (k : Same awake s t) : Same awake s (drawDrbg t n).2 :=
  awake_onVault (awake_drawBytes k) (fun _ => rfl)

theorem awake_setHive {h f} (k : Same awake s t) : Same awake s (setHive t h f) :=
  awake_onHe k

theorem awake_logErr {l} (k : Same awake s t) : Same awake s (logErr t l) :=
  same_ite (awake_onBr k) (awake_onBr k)

theorem awake_refuseInput {logged ugroup unit} (k : Same awake s t) : Same awake s (refuseInput t logged ugroup unit) :=
  same_ite (awake_logErr (awake_onBr k)) (awake_onBr k)

theorem awake_setCtx {c f} (k : Same awake s t) : Same awake s (setCtx t c f) :=
  awake_onQm k

theorem awake_setQueue {q f} (k : Same awake s t) : Same awake s (setQueue t q f) :=
  awake_onQm k

theorem awake_setLabel {l f} (k : Same awake s t) : Same awake s (setLabel t l f) :=
  awake_onRg k

theorem awake_setMover {m f} (k : Same awake s t) : Same awake s (setMover t m f) :=
  awake_onMv k

theorem awake_setSlice {a f} (k : Same awake s t) : Same awake s (setSlice t a f) :=
  awake_onPr k

theorem awake_useTweak {keySel line} (k : Same awake s t) : Same awake s (useTweak t keySel line) :=
  awake_onPr k

theorem awake_setSlot {a2 f} (k : Same awake s t) : Same awake s (setSlot t a2 f) :=
  awake_onPr k

theorem awake_setCond {line c} (k : Same awake s t) : Same awake s (setCond t line c) :=
  awake_onPr k

theorem awake_logDirty {a} (k : Same awake s t) : Same awake s (logDirty t a) :=
  awake_onXl k

theorem awake_storeLine {line bytes} (k : Same awake s t) : Same awake s (storeLine t line bytes) :=
  awake_logDirty (awake_onPr (awake_setSlice k))

theorem awake_zeroSlot {a2} (k : Same awake s t) : Same awake s (zeroSlot t a2) :=
  awake_onPr (awake_setSlot k)

theorem awake_loadSlot {a2 gen material} (k : Same awake s t) : Same awake s (loadSlot t a2 gen material) :=
  same_ite (awake_logErr (awake_zeroSlot (awake_onVault k (fun _ => rfl)))) (awake_setSlot k)

theorem awake_setPort {p f} (k : Same awake s t) : Same awake s (setPort t p f) :=
  awake_withPorts k

theorem awake_answerReq {h st data} (k : Same awake s t) : Same awake s (answerReq t h st data) :=
  awake_emit k

theorem awake_wakeLines (k : Same awake s t) : Same awake s (wakeLines t) :=
  awake_onMv k

theorem awake_trySend {h} (k : Same awake s t) (e : trySend t h = some u) : Same awake s u := by
  unfold trySend at e
  dsimp only at e
  split at e
  · split at e
    · cases e
    · cases e
      exact awake_wakeLines (awake_onPr k)
  · split at e
    · cases e
    · split at e
      · split at e
        · cases e
        · obtain ⟨_, -, rfl⟩ := Option.map_eq_some_iff.1 e
          exact awake_emit (awake_emit (awake_setPort k))
      · obtain ⟨_, -, rfl⟩ := Option.map_eq_some_iff.1 e
        exact awake_emit (awake_setPort k)

theorem awake_passOver {served waiting} (k : Same awake s t) : Same awake s (passOver t served waiting) :=
  same_foldl (fun _ _ => awake_setLabel (awake_drawNat (same_refl _))) k

theorem awake_drainPort {n p} (k : Same awake s t) : Same awake s (drainPort t p n) := by
  induction n generalizing t with
  | zero => exact k
  | succ n ih =>
    rw [drainPort]
    split
    · exact k
    · split
      · rename_i e
        exact ih (awake_passOver (awake_setPort (awake_trySend k e)))
      · exact k

theorem awake_sendOut {h} (k : Same awake s t) : Same awake s (sendOut t h) :=
  awake_drainPort (awake_setPort (awake_useTweak k))

theorem awake_wakeHome {line a3} (k : Same awake s t) : Same awake s (wakeHome t line a3) :=
  same_ite (awake_setMover k) k

theorem awake_addLock {a rmw waiting} (k : Same awake s t) : Same awake s (addLock t a rmw waiting) :=
  awake_onPr k

theorem awake_lineRequest {h} (k : Same awake s t) : Same awake s (lineRequest t h) :=
  same_ite (awake_onPr k) (same_ite (awake_onPr k) (same_ite (awake_addLock k)
    (same_ite (same_ite (awake_onPr k) (awake_sendOut (awake_addLock k))) (awake_sendOut k))))

theorem awake_putSlice {a2 v} (k : Same awake s t) : Same awake s (putSlice t a2 v) :=
  awake_onPr k

theorem awake_beginFill {a2} (k : Same awake s t) : Same awake s (beginFill t a2) :=
  same_ite k (awake_emit (same_foldl (fun _ _ => awake_useTweak (same_refl _)) (awake_onPr (awake_putSlice k))))

theorem awake_openSlice {h} (k : Same awake s t) : Same awake s (openSlice t h) :=
  awake_beginFill (awake_onPr (awake_setSlice k))

theorem awake_awaitSlice {h} (k : Same awake s t) : Same awake s (awaitSlice t h) :=
  awake_onPr k

theorem awake_emptySlot {hive line} (k : Same awake s t) : Same awake s (emptySlot t hive line) :=
  awake_logErr k

theorem awake_wakeUnit {p} (k : Same awake s t) : Same awake s (wakeUnit t p) :=
  same_ite (awake_onPr k) k

theorem awake_arrive {h} (k : Same awake s t) : Same awake s (arrive t h) := by
  unfold arrive
  refine same_ite (awake_answerReq (awake_emptySlot (awake_wakeHome (awake_wakeUnit k)))) ?_
  split
  · exact same_ite (awake_answerReq (awake_wakeHome (awake_wakeUnit k)))
      (same_ite (awake_answerReq (awake_wakeHome (awake_wakeUnit k)))
      (same_ite (awake_answerReq (awake_wakeHome (awake_wakeUnit k)))
      (awake_openSlice (awake_awaitSlice (awake_wakeHome (awake_wakeUnit k))))))
  · exact awake_awaitSlice (awake_wakeHome (awake_wakeUnit k))
  · exact same_ite (awake_answerReq (awake_wakeHome (awake_wakeUnit k)))
      (awake_lineRequest (awake_wakeHome (awake_wakeUnit k)))

theorem awake_releaseLine {a} (k : Same awake s t) : Same awake s (releaseLine t a) :=
  same_ite k (awake_wakeLines (same_foldl (fun _ _ => awake_arrive (same_refl _))
    (awake_onPr (same_foldl (fun _ _ => awake_arrive (same_refl _)) (awake_onPr k)))))

theorem awake_dropWhere {p} (k : Same awake s t) : Same awake s (dropWhere t p) :=
  same_ite k (same_foldl (fun _ _ => awake_releaseLine (same_refl _)) (awake_onPr (awake_withPorts k)))

theorem awake_dropTickets {o} (k : Same awake s t) : Same awake s (dropTickets t o) :=
  awake_dropWhere k

theorem awake_showRead {line level} (k : Same awake s t) : Same awake s (showRead t line level) :=
  awake_emit k

theorem awake_showCipher {keySel line level poison cipher} (k : Same awake s t) :
    Same awake s (showCipher t keySel line level poison cipher) :=
  awake_emit (awake_emit k)

theorem awake_showWrite {keySel line level plain} (k : Same awake s t) :
    Same awake s (showWrite t keySel line level plain) :=
  awake_showCipher k

theorem awake_poisonLine {keySel line level} (k : Same awake s t) : Same awake s (poisonLine t keySel line level) :=
  awake_showCipher (awake_setCond (awake_drawBytes k))

theorem awake_meetLine {hive keySel line level} (k : Same awake s t) :
    Same awake s (meetLine t hive keySel line level).1 := by
  unfold meetLine
  split
  · dsimp only
    exact k
  · dsimp only
    exact k
  · split
    · dsimp only
      exact awake_logErr (awake_poisonLine k)
    · dsimp only
      exact awake_poisonLine k
  · dsimp only
    exact same_ite (awake_poisonLine (awake_drawNat (awake_logErr k))) (awake_drawNat (awake_logErr k))

theorem awake_coreWrite {hive keySel line a5 level} (k : Same awake s t) :
    Same awake s (coreWrite t hive keySel line a5 level).1 := by
  unfold coreWrite
  dsimp only
  split
  · dsimp only
    exact awake_emptySlot (awake_wakeHome (awake_wakeUnit k))
  · split
    · dsimp only
      exact awake_wakeHome (awake_wakeUnit k)
    · split
      · dsimp only
        exact awake_storeLine (awake_showWrite (awake_useTweak (awake_wakeHome (awake_wakeUnit k))))
      · split
        · dsimp only
          exact awake_storeLine (awake_showWrite (awake_meetLine
            (awake_useTweak (awake_showRead (awake_wakeHome (awake_wakeUnit k))))))
        · dsimp only
          exact awake_meetLine (awake_useTweak (awake_showRead (awake_wakeHome (awake_wakeUnit k))))

theorem awake_lineKey {name tail} (k : Same awake s t) : Same awake s (lineKey t name tail).2 :=
  awake_drawDrbg k

theorem awake_deriveManagerKey (k : Same awake s t) : Same awake s (deriveManagerKey t) :=
  awake_loadSlot (awake_onVault (same_ite_snd (awake_lineKey k) (awake_drawDrbg k)) (fun _ => rfl))

theorem awake_pendMessage {vector hive} (k : Same awake s t) : Same awake s (pendMessage t vector hive) :=
  same_ite k (awake_onSq k)

theorem awake_tablePut {line w go} (hgo : ∀ x, Same awake x (go x).1) (k : Same awake s t) :
    Same awake s (tablePut t line w go).1 := by
  unfold tablePut
  split
  · exact awake_arrive k
  · exact k.trans (hgo t)

theorem awake_eventBy {write code hive a0 a1} (hw : ∀ x a b, Same awake x (write x a b)) (k : Same awake s t) :
    Same awake s (eventBy write t code hive a0 a1) := by
  have kw := fun a b => k.trans (hw t a b)
  unfold eventBy
  dsimp only
  split
  · exact same_ite (awake_pendMessage (awake_onSq (kw _ _))) (awake_onSq (kw _ _))
  · exact awake_onSq k

theorem awake_alarmBy {event hive keySel line ctx off st} (he : ∀ x a b c d, Same awake x (event x a b c d)) (k :
    Same awake s t) :
    Same awake s (alarmBy event t hive keySel line ctx off st) := by
  unfold alarmBy
  exact same_ite (awake_setHive (awake_logErr k)) ((awake_setHive (awake_logErr k)).trans (he _ _ _ _ _))

theorem awake_recordBy {alarm a bytes} (ha : ∀ x b c d, Same awake x (alarm x b c d)) (k : Same awake s t) :
    Same awake s (recordBy alarm t a bytes).1 :=
  awake_tablePut (fun _ => same_ite ((awake_coreWrite (same_refl _)).trans (ha _ _ _ _)) (awake_coreWrite (same_refl _)))
    (awake_wakeStream k)

theorem awake_alarmEvent {code hive a0 a1} (k : Same awake s t) : Same awake s (alarmEvent t code hive a0 a1) :=
  awake_eventBy (fun _ _ _ => awake_recordBy (fun _ _ _ _ => awake_alarmBy (fun _ _ _ _ _ => same_refl _) (same_refl _))
    (same_refl _)) k

theorem awake_writeRecord {a bytes} (k : Same awake s t) : Same awake s (writeRecord t a bytes).1 :=
  awake_recordBy (fun _ _ _ _ => awake_alarmBy (fun _ _ _ _ _ => awake_alarmEvent (same_refl _)) (same_refl _)) k

theorem awake_hiveEvent {code hive a0 a1} (k : Same awake s t) : Same awake s (hiveEvent t code hive a0 a1) :=
  awake_eventBy (fun _ _ _ => awake_writeRecord (same_refl _)) k

theorem awake_count {f} (k : Same awake s t) : Same awake s (count t f) :=
  awake_onHp k (fun _ => rfl)

theorem awake_refuseHost (k : Same awake s t) : Same awake s (refuseHost t) :=
  awake_emit (awake_refuseInput k)

theorem awake_sinkWrite {logged} (k : Same awake s t) : Same awake s (sinkWrite t logged) :=
  same_ite (awake_refuseHost (awake_count k)) (awake_count k)

theorem awake_urRead {logged} (k : Same awake s t) : Same awake s (urRead t logged) :=
  same_ite (awake_refuseHost (awake_emit (awake_count k))) (awake_emit (awake_count k))

theorem awake_urAtomic {logged} (k : Same awake s t) : Same awake s (urAtomic t logged) :=
  same_ite (awake_refuseHost (awake_emit (awake_count k))) (awake_emit (awake_count k))

theorem awake_sinkDoorbell (k : Same awake s t) : Same awake s (sinkDoorbell t) :=
  awake_count k

theorem awake_doorbell {page q d} (k : Same awake s t) : Same awake s (doorbell t page q d) :=
  same_ite (awake_sinkDoorbell k) (same_ite (awake_setQueue k)
    (same_ite (awake_hiveEvent (awake_setQueue k)) (awake_setQueue k)))

theorem awake_doorbellGo {page off be data} (k : Same awake s t) : Same awake s (doorbellGo t page off be data) :=
  same_ite (awake_sinkWrite k) (same_foldl (fun _ _ => awake_doorbell (same_refl _)) k)

theorem awake_refuseQueue (k : Same awake s t) : Same awake s (refuseQueue t) := by
  unfold refuseQueue
  refine same_foldl ?_ (awake_dropTickets (awake_onHp k (fun _ => rfl)))
  intro _ _
  split
  · exact awake_urRead (same_refl _)
  · exact awake_urAtomic (same_refl _)
  · exact awake_sinkWrite (same_refl _)
  · exact awake_doorbellGo (same_refl _)

end Sys2Proof.Frame
end

section
/-! The block warm reset, the cold resets and the boot (R348 to R350, R357, R382, R388, R389, R402, R442). -/

namespace Sys2Proof.BootRows
open Sys2Proof.Machine Sys2Proof.Safety Sys2Proof.Frame

variable {s t u a : State} {j : WarmJob} {n : Nat} {keep : Bool}

/-! ## The steps of a block warm reset -/

/-- What ends of a vault command that a reset cuts off: its own registers alone. -/
theorem abortVaultCommand_keeps (s : State) : (abortVaultCommand s).clk = s.clk ∧ (abortVaultCommand s).hp = s.hp ∧
    (abortVaultCommand s).vault.fuses = s.vault.fuses ∧ (abortVaultCommand s).vault.blow = s.vault.blow ∧
    (abortVaultCommand s).kp.flash = s.kp.flash ∧ (abortVaultCommand s).kp.settings = s.kp.settings := by
  unfold abortVaultCommand
  dsimp only
  split
  · split
    · exact ⟨rfl, rfl, rfl, rfl, rfl, rfl⟩
    · exact ⟨rfl, rfl, rfl, rfl, rfl, rfl⟩
  · exact ⟨rfl, rfl, rfl, rfl, rfl, rfl⟩

/-- R404: the command that follows one that ends is a `REBOOT`, which blows no fuse. -/
theorem fuseCommand_mbEnd (st : Status) (r : List Byte) : fuseCommand (mbEnd s st r) = false := by
  unfold fuseCommand mbEnd setMbox
  dsimp only [State.onKp]
  cases s.kp.mbox.rebootTag with
  | none => rfl
  | some g => rfl

theorem fuseCommand_abort (h : fuseCommand s = false) : fuseCommand (abortVaultCommand s) = false := by
  unfold abortVaultCommand
  dsimp only
  split
  · exact fuseCommand_mbEnd _ _
  · exact h

theorem vaultHolds_iff : vaultHolds s = false ↔ s.vault.blow.isSome = false ∧ fuseCommand s = false := by
  rw [vaultHolds, Bool.or_eq_false_iff]

/-- What a block that is cleared keeps, and what is empty. -/
theorem clearBlock_keeps (a : State) (keep : Bool) : (clearBlock a keep).kp.flash = a.kp.flash ∧
    (clearBlock a keep).kp.settings = a.kp.settings ∧ (clearBlock a keep).kp.mbox = a.kp.mbox ∧
    (clearBlock a keep).vault.fuses = a.vault.fuses ∧ (clearBlock a keep).vault.blow = a.vault.blow ∧
    (clearBlock a keep).hp.d3hot = (keep && a.hp.d3hot) ∧ (clearBlock a keep).he = HiveEngine.reset ∧
    (clearBlock a keep).pr.mem = [] := by
  obtain ⟨kp, fz, bl, d3⟩ := awake_parts (awake_refuseQueue (same_refl a))
  refine ⟨?_, ?_, ?_, fz, bl, congrArg (keep && ·) d3, rfl, rfl⟩
  · exact (congrArg Keeper.flash kp : (refuseQueue a).kp.flash = _)
  · exact (congrArg Keeper.settings kp : (refuseQueue a).kp.settings = _)
  · exact (congrArg Keeper.mbox kp : (refuseQueue a).kp.mbox = _)

theorem clearBlock_clocks (r : a.clk.stream.ready = true) : (clearBlock a keep).clk.control = a.clk.control ∧
    (clearBlock a keep).clk.stream = a.clk.stream := by
  have k := awake_clk (awake_refuseQueue (same_refl a)) r
  exact ⟨(congrArg Clocks.control k : (refuseQueue a).clk.control = _),
    (congrArg Clocks.stream k : (refuseQueue a).clk.stream = _)⟩

/-- R402: hive 0 is made again, and the capability words are written; the clocks, the fuses and the settings stay. -/
theorem rebuild_keeps (r : t.clk.stream.ready = true) : (rebuild t).clk = t.clk ∧ (rebuild t).vault.fuses = t.vault.fuses
    ∧
    (rebuild t).vault.blow = t.vault.blow ∧ (rebuild t).hp.d3hot = t.hp.d3hot ∧ (rebuild t).kp.flash = t.kp.flash ∧
    (rebuild t).kp.settings = t.kp.settings ∧ fuseCommand (rebuild t) = fuseCommand t := by
  obtain ⟨d, c, hd, e⟩ : ∃ d c, Same awake t d ∧ rebuild t = createHive0 (d.onKp (fun k => { k with capability := c })) :=
    by
    unfold rebuild
    dsimp only
    refine ⟨_, _, ?_, rfl⟩
    exact awake_onSw (awake_drawDrbg (awake_onVault (awake_drawDrbg (awake_onVault (same_refl t) fun _ => rfl)) fun _ =>
      rfl))
  obtain ⟨v, w, hv, h⟩ : ∃ v w, Same awake (d.onKp (fun k => { k with capability := c })) v ∧
      rebuild t = setMbox v (fun m => { m with vecShort := w }) := by
    rw [e]
    unfold createHive0
    dsimp only
    refine ⟨_, _, ?_, rfl⟩
    exact awake_setQueue (awake_onQm (same_foldl (fun _ _ => awake_writeRecord (same_refl _)) (awake_onHp (awake_setCtx
      (same_foldl (fun _ _ => awake_setLabel (same_refl _)) (same_foldl (fun _ _ => awake_setLabel (same_refl _))
        (awake_deriveManagerKey (awake_setHive (same_refl _)))))) fun _ => rfl)))
  obtain ⟨dk, df, db, dh⟩ := awake_parts hd
  obtain ⟨vk, vf, vb, vh⟩ := awake_parts hv
  have dc := awake_clk hd r
  have vc : v.clk = d.clk := awake_clk (s := d.onKp (fun k => { k with capability := c })) (t := v) hv
    (by show d.clk.stream.ready = true; rw [dc, r])
  have clk : v.clk = t.clk := vc.trans dc
  rw [h]
  refine ⟨clk, vf.trans df, vb.trans db, vh.trans dh, ?_, ?_, ?_⟩
  · exact (congrArg Keeper.flash vk).trans (congrArg Keeper.flash dk : d.kp.flash = t.kp.flash)
  · exact (congrArg Keeper.settings vk).trans (congrArg Keeper.settings dk : d.kp.settings = t.kp.settings)
  · have m : v.kp.mbox = t.kp.mbox := (congrArg Keeper.mbox vk).trans (congrArg Keeper.mbox dk : d.kp.mbox = t.kp.mbox)
    show (v.kp.mbox.busy && [3, 4, 5, 6, 0xB, 0xC].contains v.kp.mbox.op) = _
    rw [m]
    rfl

theorem mbEnd_bootStage (st : Status) (r : List Byte) : (mbEnd s st r).kp.mbox.bootStage = s.kp.mbox.bootStage := by
  unfold mbEnd setMbox
  dsimp only [State.onKp]
  cases s.kp.mbox.rebootTag with
  | none => rfl
  | some g => rfl

/-- The mailbox command that asked for a reset ends, and nothing else. -/
theorem endAsked_keeps (s : State) : (endAsked s).kp.mbox.bootStage = s.kp.mbox.bootStage ∧ (endAsked s).kp.warm =
    s.kp.warm ∧
    (endAsked s).clk = s.clk ∧ (endAsked s).vault = s.vault ∧ (endAsked s).kp.flash = s.kp.flash ∧
    (endAsked s).kp.settings = s.kp.settings ∧ (endAsked s).hp = s.hp ∧ (endAsked s).he = s.he ∧ (endAsked s).pr = s.pr :=
      by
  unfold endAsked
  split
  · exact ⟨mbEnd_bootStage _ _, rfl, rfl, rfl, rfl, rfl, rfl, rfl, rfl⟩
  · exact ⟨rfl, rfl, rfl, rfl, rfl, rfl, rfl, rfl, rfl⟩

/-- R348: a block warm reset that ends. -/
theorem ready_of_finishWarm (s : State) : (finishWarm s).kp.mbox.bootStage = stageReady ∧ (finishWarm s).kp.warm = none ∧
    (finishWarm s).clk = s.clk ∧ (finishWarm s).vault.fuses = s.vault.fuses ∧ (finishWarm s).kp.flash = s.kp.flash ∧
    (finishWarm s).kp.settings = s.kp.settings ∧
    ((s.kp.warm.map (·.keepPcie)).getD true = true → (finishWarm s).hp.d3hot = s.hp.d3hot) := by
  unfold finishWarm
  obtain ⟨b, w, c, v, f, g, h, -⟩ := endAsked_keeps (((setMbox
    (if (s.kp.warm.map (·.keepPcie)).getD true then s else dropPcie s)
    (fun m => { m with bootStage := stageReady, drbgFail := false })).onKp (fun k => { k with warm := none })).onVault
      (fun v => { v with drbgFails := 0 }))
  dsimp only
  rw [b, w, c, v, f, g, h]
  refine ⟨rfl, rfl, ?_, ?_, ?_, ?_, fun k => by rw [if_pos k]; rfl⟩
  all_goals
    split
    · rfl
    · rfl

theorem blockWarmReset_job (w : s.kp.warm = some j) (k : s.kp.mbox.clkFail = false) : exec .blockWarmReset s =
    if j.stepsDone then taken (!vaultHolds s) s (finishWarm s)
    else if j.clearing then taken (clustersCleared s) s (warmRest s j.keepPcie)
    else .next (if warmReady s then warmSteps s j.keepPcie else demand s .stream) := by
  show execBlockWarmReset s = _
  unfold execBlockWarmReset
  rw [w]
  exact if_neg (by rw [k]; decide)

theorem blockWarmReset_steps (w : s.kp.warm = some j) (k : s.kp.mbox.clkFail = false) (d : j.stepsDone = false) (c :
    j.clearing = false)
    (r : warmReady s = true) : exec .blockWarmReset s = .next (warmSteps s j.keepPcie) := by
  rw [blockWarmReset_job w k, d, c]
  exact congrArg Host.Outcome.next (if_pos r)

theorem warmReady_running (c : s.clk.control.ready = true) (r : s.clk.stream.ready = true) : warmReady s = true := by
  rw [warmReady, c, r]
  simp

theorem vaultHolds_withWarm (s : State) (w : Option WarmJob) :
    vaultHolds (s.onKp (fun k => { k with warm := w })) = vaultHolds s :=
  rfl

theorem warmRest_done (b : (rebuild t).vault.blow.isSome = false) (f : fuseCommand (rebuild t) = false) :
    warmRest t keep = finishWarm ((rebuild t).onKp (fun k =>
      { k with warm := some { keepPcie := keep, clearing := false, stepsDone := true } })) := by
  unfold warmRest
  dsimp only
  rw [vaultHolds_withWarm, vaultHolds_iff.2 ⟨b, f⟩]
  exact if_neg (by decide)

/-- R349: with no cluster attached a block warm reset runs to its end. -/
theorem warmSteps_clusterless (v : vaultHolds s = false) (l : s.vault.lc ≠ .locked) (e : s.vault.lc ≠ .endOfLife)
    (r : s.clk.stream.ready = true) (n : clustersAttached s = 0) :
    (warmSteps s keep).kp.mbox.bootStage = stageReady ∧ (warmSteps s keep).kp.warm = none ∧
      (warmSteps s keep).clk.control = s.clk.control ∧ (warmSteps s keep).clk.stream = s.clk.stream ∧
      (warmSteps s keep).vault.fuses = s.vault.fuses ∧ (warmSteps s keep).kp.flash = s.kp.flash ∧
      (warmSteps s keep).kp.settings = s.kp.settings ∧ (keep = true → (warmSteps s keep).hp.d3hot = s.hp.d3hot) := by
  obtain ⟨ac, ah, af, ab, al, as⟩ := abortVaultCommand_keeps s
  obtain ⟨cl, cs, cm, cf, cb, cd, ch, -⟩ := clearBlock_keeps (abortVaultCommand s) keep
  obtain ⟨cc, ct⟩ := clearBlock_clocks (a := abortVaultCommand s) (keep := keep) (by rw [ac, r])
  obtain ⟨vb, vf⟩ := vaultHolds_iff.1 v
  generalize hc : clearBlock (abortVaultCommand s) keep = c at *
  have e1 : warmSteps s keep = warmRest (c.onKp (fun k =>
      { k with warm := some { keepPcie := keep, clearing := true, stepsDone := false } })) keep := by
    unfold warmSteps resetClusters
    rw [if_neg (not_or_intro l e), n, hc]
    dsimp only
    refine if_pos ?_
    show c.he.clusters.all _ = true
    rw [ch]
    rfl
  generalize hk : c.onKp (fun k => { k with warm := some { keepPcie := keep, clearing := true, stepsDone := false } }) = w
    at *
  obtain ⟨rc, rf, rb, rd, rl, rs, rm⟩ := rebuild_keeps (t := w) (by
      subst hk
      show c.clk.stream.ready = true
      rw [ct, ac, r])
  have fc : fuseCommand c = false := by
    have q := fuseCommand_abort vf
    unfold fuseCommand at q ⊢
    rw [cm]
    exact q
  subst hk
  have e2 := e1.trans (warmRest_done (keep := keep) (by rw [rb]; exact (congrArg Option.isSome (cb.trans ab)).trans vb)
    (rm.trans fc))
  generalize rebuild (c.onKp _) = d at *
  obtain ⟨fb, fw, fk, ff, fl, fs, fh⟩ := ready_of_finishWarm (d.onKp (fun k =>
    { k with warm := some { keepPcie := keep, clearing := false, stepsDone := true } }))
  rw [e2]
  refine ⟨fb, fw, ?_, ?_, ?_, ?_, ?_, fun q => ?_⟩
  · rw [fk]
    show d.clk.control = _
    rw [rc]
    exact cc.trans (congrArg Clocks.control ac)
  · rw [fk]
    show d.clk.stream = _
    rw [rc]
    exact ct.trans (congrArg Clocks.stream ac)
  · exact ff.trans (rf.trans (cf.trans af))
  · exact fl.trans (rl.trans (cl.trans al))
  · exact fs.trans (rs.trans (cs.trans as))
  · refine (fh q).trans (rd.trans (cd.trans ?_))
    rw [q, ah]
    rfl

/-! ## Clusters that clear -/

theorem clusterAt_clearPins (s : State) (n i : Nat) : clusterAt (clearPins s n) i = clusterAt s i := by
  unfold clearPins
  split
  · rfl
  · rfl

/-- A cluster that a reset clears, as its supply stands. -/
def cleared (old : State) (n : Nat) : Cluster :=
  { Cluster.empty with state := .clearing, pwrEn := true, pwrGood := (clusterAt old n).pwrGood,
                       iso := !(clusterAt old n).pwrGood, rstN := (clusterAt old n).pwrGood,
                       spadLog2 := (clusterAt old n).spadLog2 }

theorem resetClusters_eq (old t : State) : resetClusters old t =
    (List.range (clustersAttached old)).foldl (fun t n => clearPins (setCluster t n (fun _ => cleared old n)) n) t := rfl

/-- The resets of clusters change the clusters alone, and clear each. -/
theorem clearAll_spec (old t : State) (ns : List Nat) (u : State)
    (e : ns.foldl (fun t n => clearPins (setCluster t n (fun _ => cleared old n)) n) t = u) :
    (u.kp = t.kp ∧ u.he.hives = t.he.hives ∧ u.pr = t.pr) ∧
      ∀ i, clusterAt u i = if i ∈ ns then cleared old i else clusterAt t i := by
  induction ns generalizing t with
  | nil => subst e; exact ⟨⟨rfl, rfl, rfl⟩, fun i => rfl⟩
  | cons n ns ih =>
    obtain ⟨⟨a, b, c⟩, d⟩ := ih _ e
    have k (x : State) : (clearPins x n).kp = x.kp ∧ (clearPins x n).he = x.he ∧ (clearPins x n).pr = x.pr := by
      unfold clearPins
      split
      · exact ⟨rfl, rfl, rfl⟩
      · exact ⟨rfl, rfl, rfl⟩
    obtain ⟨a', b', c'⟩ := k (setCluster t n (fun _ => cleared old n))
    refine ⟨⟨a.trans a', b.trans (by rw [b']; rfl), c.trans c'⟩, fun i => ?_⟩
    rw [d, clusterAt_clearPins]
    by_cases m : i ∈ ns
    · rw [if_pos m, if_pos (List.mem_cons_of_mem n m)]
    · rw [if_neg m]
      by_cases q : i = n
      · rw [q, clusterAt_setCluster, if_pos List.mem_cons_self]
      · rw [clusterAt_setCluster_ne _ _ _ _ q, if_neg (fun h => (List.mem_cons.1 h).elim q m)]

theorem mem_of_look {α : Type} {t : Tab α} {k : Nat} {v : α} (h : Tab.look t k = some v) : (k, v) ∈ t := by
  induction t with
  | nil => cases h
  | cons e r ih =>
    unfold Tab.look at h
    split at h
    case isTrue q => rw [q, ← Option.some.inj h]; exact List.mem_cons_self
    case isFalse => exact List.mem_cons_of_mem _ (ih h)

theorem clustersCleared_clearing (h : (clusterAt t n).state = .clearing) : clustersCleared t = false := by
  unfold clusterAt at h
  cases l : Tab.look t.he.clusters n with
  | none => rw [l] at h; exact absurd h (by decide)
  | some k =>
    rw [l] at h
    exact List.all_eq_false.2 ⟨(n, k), mem_of_look l, by rw [show k.state = .clearing from h]; decide⟩

/-- R349: a block warm reset waits for the clusters that it clears. -/
theorem warmSteps_clearing (l : s.vault.lc ≠ .locked) (e : s.vault.lc ≠ .endOfLife) (b : n < clustersAttached s) :
    (warmSteps s keep).kp.warm = some { keepPcie := keep, clearing := true, stepsDone := false } ∧
      (clusterAt (warmSteps s keep) n).state = .clearing ∧ (clusterAt (warmSteps s keep) n).hive = 255 ∧
      (warmSteps s keep).he.hives = [] ∧ (warmSteps s keep).pr.mem = [] := by
  obtain ⟨-, -, -, -, -, -, ch, cp⟩ := clearBlock_keeps (abortVaultCommand s) keep
  obtain ⟨⟨-, rh, rp⟩, rc⟩ := clearAll_spec s (clearBlock (abortVaultCommand s) keep) (List.range (clustersAttached s)) _
    (resetClusters_eq s _).symm
  have ec := (rc n).trans (if_pos (List.mem_range.2 b))
  generalize hr : resetClusters s (clearBlock (abortVaultCommand s) keep) = r at *
  have w : warmSteps s keep = r.onKp (fun k =>
      { k with warm := some { keepPcie := keep, clearing := true, stepsDone := false } }) := by
    unfold warmSteps
    rw [if_neg (not_or_intro l e), hr]
    refine if_neg ?_
    have q : clustersCleared r = false := clustersCleared_clearing (n := n) (by rw [ec]; rfl)
    show ¬ clustersCleared r = true
    rw [q]
    decide
  rw [w]
  refine ⟨rfl, ?_, ?_, ?_, ?_⟩
  · exact congrArg Cluster.state ec
  · exact congrArg Cluster.hive ec
  · exact rh.trans (congrArg HiveEngine.hives ch)
  · exact (congrArg Propolis.mem rp).trans cp

/-! ## A held block -/

theorem dropClock_keeps (s : State) (d : Dom) : (clockOf (dropClock s d) d).req = false ∧ (dropClock s d).kp = s.kp ∧
    (dropClock s d).he = s.he ∧ (dropClock s d).pr = s.pr ∧ (dropClock s d).vault = s.vault := by
  unfold dropClock
  split
  · cases d
    · exact ⟨rfl, rfl, rfl, rfl, rfl⟩
    · exact ⟨rfl, rfl, rfl, rfl, rfl⟩
  · rename_i r
    exact ⟨Bool.eq_false_iff.2 r, rfl, rfl, rfl, rfl⟩

theorem holdBlock_held (s : State) : (holdBlock s).kp.mbox.bootStage = stageHeld ∧ (holdBlock s).kp.warm = none ∧
    (holdBlock s).clk.control.req = false ∧ (holdBlock s).he = s.he ∧ (holdBlock s).pr = s.pr ∧
    (holdBlock s).vault = s.vault := by
  unfold holdBlock
  dsimp only
  generalize ht : (setMbox s (fun m => { m with bootStage := stageHeld })).onKp (fun k =>
    { k with capability := capabilityWords (setMbox s (fun m => { m with bootStage := stageHeld })) true, warm := none })
      = t
  obtain ⟨-, k1, h1, p1, v1⟩ := dropClock_keeps t .stream
  obtain ⟨r2, k2, h2, p2, v2⟩ := dropClock_keeps (dropClock t .stream) .control
  have k := k2.trans k1
  refine ⟨?_, ?_, r2, ?_, ?_, ?_⟩
  · exact (congrArg (fun x => x.mbox.bootStage) k).trans (by subst ht; rfl)
  · exact (congrArg Keeper.warm k).trans (by subst ht; rfl)
  · exact (h2.trans h1).trans (by subst ht; rfl)
  · exact (p2.trans p1).trans (by subst ht; rfl)
  · exact (v2.trans v1).trans (by subst ht; rfl)

/-- R349, R364: in LOCKED and in END_OF_LIFE a block warm reset ends with the block held. -/
theorem warmSteps_held (l : s.vault.lc = .locked ∨ s.vault.lc = .endOfLife) :
    (warmSteps s keep).kp.mbox.bootStage = stageHeld ∧ (warmSteps s keep).kp.warm = none ∧
      (warmSteps s keep).clk.control.req = false ∧ (warmSteps s keep).he.hives = [] ∧ (warmSteps s keep).pr.mem = [] ∧
      (warmSteps s keep).vault.fuses = s.vault.fuses := by
  obtain ⟨-, -, af, -⟩ := abortVaultCommand_keeps s
  obtain ⟨-, -, -, cf, -, -, ch, cp⟩ := clearBlock_keeps (abortVaultCommand s) keep
  obtain ⟨hs, hw, hr, hh, hp, hv⟩ := holdBlock_held (clearBlock (abortVaultCommand s) keep)
  obtain ⟨es, ew, ek, ev, -, -, -, eh, ep⟩ := endAsked_keeps (holdBlock (clearBlock (abortVaultCommand s) keep))
  have w : warmSteps s keep = endAsked (holdBlock (clearBlock (abortVaultCommand s) keep)) := if_pos l
  rw [w, es, ew, ek, ev, eh, ep, hs, hw, hr, hh, hp, hv, ch, cp, cf, af]
  exact ⟨rfl, rfl, rfl, rfl, rfl, rfl⟩

/-! ## Cold resets -/

theorem cutBlow_none (b : s.vault.blow = none) (f : Fuses → FuseBit → Fuses) : cutBlow s f = s := by
  rw [cutBlow, b]

theorem cutBlow_onClk (g : Clocks → Clocks) (f : Fuses → FuseBit → Fuses) :
    cutBlow (s.onClk g) f = (cutBlow s f).onClk g := by
  unfold cutBlow
  dsimp only [State.onClk_vault]
  cases s.vault.blow with
  | none => rfl
  | some b =>
    obtain ⟨kind, todo, pulses, vpp⟩ := b
    cases todo with
    | nil => rfl
    | cons x xs =>
      show (if vpp = true ∧ (drawNat s).1 % 2 = 1 then (drawNat (s.onClk g)).2.onVault (fun v =>
        { v with fuses := f v.fuses x })
        else (drawNat (s.onClk g)).2) =
        (if vpp = true ∧ (drawNat s).1 % 2 = 1 then (drawNat s).2.onVault (fun v => { v with fuses := f v.fuses x })
          else (drawNat s).2).onClk g
      split
      · rfl
      · rfl

theorem coldReset_onClk (g : Clocks → Clocks) : coldReset (s.onClk g) = coldReset s := by
  unfold coldReset
  rw [cutBlow_onClk]
  rfl

/-- R357: what the log says of the watchdog. -/
def watchdogIn : LogIn := { cls := 6, ugroup := 9, cause := 0xD }

def watchdogRec (s : State) : LogRec :=
  { osc := s.clk.osc, index := s.br.logNext, cls := 6, status := watchdogIn.status, hive := watchdogIn.hive, ugroup := 9,
    unit := watchdogIn.unit, sub := watchdogIn.sub, cause := 0xD, ctx := watchdogIn.ctx, keySel := watchdogIn.keySel,
    keyGen := watchdogIn.keyGen, paddr := watchdogIn.paddr, count := 1, stamp := s.clk.coldTicks, boots := s.br.boots,
    warms := s.br.warms }

theorem logErr_watchdog (m : s.br.log.length < Config.logRecords) : ∃ f, logErr s watchdogIn = s.onBr f ∧
    (f s.br).log = s.br.log ++ [watchdogRec s] ∧ (f s.br).flashLog = s.br.flashLog := by
  unfold logErr
  dsimp only
  rw [if_neg (fun h => absurd (Bool.and_eq_true_iff.1 h).1 (by decide))]
  refine ⟨_, rfl, ?_, rfl⟩
  dsimp only
  rw [Nat.sub_eq_zero_of_le m, List.drop_zero]
  rfl

/-- R357: the watchdog's cause stands last in the log in flash. -/
theorem watchdogReset_logs (l : s.br.flashLog.length < Config.flashLogRecords) (m : s.br.log.length < Config.logRecords) :
    ∃ u, execKeeperWatchdogExpiry s = taken (!s.clk.cold || s.kp.sensed) s (coldReset u) ∧ u.kp = s.kp ∧
      u.br.flashLog = s.br.flashLog ++ [watchdogRec s] := by
  obtain ⟨f, e, a, b⟩ := logErr_watchdog m
  generalize watchdogRec s = r at *
  unfold execKeeperWatchdogExpiry
  rw [show ({ cls := 6, ugroup := 9, cause := 0xD } : LogIn) = watchdogIn from rfl, e]
  dsimp only
  refine ⟨_, rfl, rfl, ?_⟩
  dsimp only [State.onBr, emit]
  show ((f s.br).flashLog ++ (f s.br).log.drop ((f s.br).log.length - 1)).drop
    (((f s.br).flashLog ++ (f s.br).log.drop ((f s.br).log.length - 1)).length - Config.flashLogRecords) = _
  have last : (s.br.log ++ [r]).drop ((s.br.log ++ [r]).length - 1) = [r] := by
    rw [List.length_append, List.length_singleton, Nat.add_sub_cancel, List.drop_left]
  rw [a, b, last, List.length_append, List.length_singleton, Nat.sub_eq_zero_of_le l, List.drop_zero]

/-! ## Boot -/

theorem countInvalid_kp (kind : Nat) (okA okB : Bool) : (countInvalid s kind okA okB).kp = s.kp ∧
    (countInvalid s kind okA okB).clk = s.clk ∧ (countInvalid s kind okA okB).vault = s.vault := by
  unfold countInvalid
  dsimp only
  generalize List.filter _ _ = l
  induction l generalizing s with
  | nil => exact ⟨rfl, rfl, rfl⟩
  | cons x l ih => exact ih (s := refuseInput s false 9 0)

theorem preferred_of_kp (e : t.kp = s.kp) (kind : Nat) (okA okB : Bool) :
    preferred t kind okA okB = preferred s kind okA okB := by
  unfold preferred
  simp only [Mailbox.header_congr e]

/-- Whether the boot has sensed the fuses. -/
def hasSensed (s : State) : Bool := s.kp.sensed

theorem senseLc_sensed (k : Same hasSensed s t) : Same hasSensed s (senseLc t) := by
  have ident (u : State) (k : Same hasSensed s u) : Same hasSensed s (withIdentity u) := same_ite k k
  have down (u : State) (l : List Nat) (k : Same hasSensed s u) : Same hasSensed s (l.foldl linkDown u) :=
    same_foldl (fun x l => congrArg Keeper.sensed (Laws.KeepsKeys.linkDown x l).kp) k
  unfold senseLc
  dsimp only
  have t1 : Same hasSensed s (if (decodeLc t).1 = .locked then refuseInput t false 8 0 else t) := same_ite k k
  have t2 := ident ((if (decodeLc t).1 = .locked then refuseInput t false 8 0 else t).onVault (fun v =>
    { v with lc := (decodeLc t).1, lcWord := (decodeLc t).2 })) t1
  have t3 := same_ite (p := (t.vault.lc = .test ∨ t.vault.lc = .production) ∧ (decodeLc t).1 ≠ t.vault.lc)
    (same_foldl (P := hasSensed) (f := zeroSlot) (l := t.pr.slots.map (·.1)) (fun _ _ => rfl) t2) t2
  exact same_ite t3 (down _ _ t3)

theorem eraseKeeper_sensed (k : Same hasSensed s t) : Same hasSensed s (eraseKeeper t) := k

/-- The movers and the memory keys in service, as the ROM finds them. -/
theorem romUnits_sensed {f : Brood → Brood} {ms ks : List Nat} {g : State → Nat → Mover → Mover}
    {r : KeySlot → KeySlot} (k : Same hasSensed s t) :
    Same hasSensed s (ks.foldl (fun t k => setSlot t k r) (ms.foldl (fun t m => setMover t m (g t m)) (t.onBr f))) :=
  same_foldl (P := hasSensed) (f := fun t k => setSlot t k r) (fun _ _ => rfl)
    (same_foldl (P := hasSensed) (f := fun t m => setMover t m (g t m)) (fun _ _ => rfl) k)

theorem bootRom_sensed (s : State) : (bootRom s).kp.sensed = true := by
  have d : Same hasSensed (s.onKp (fun k => { k with sensed := true }))
      (discoverFlash (s.onKp (fun k => { k with sensed := true }))) := rfl
  have t1 : Same hasSensed (s.onKp (fun k => { k with sensed := true }))
      (repairLc (senseLc (discoverFlash (s.onKp (fun k => { k with sensed := true }))))) :=
    same_ite (senseLc_sensed d) (senseLc_sensed d)
  have k : Same hasSensed (s.onKp (fun k => { k with sensed := true })) (bootRom s) := by
    unfold bootRom
    dsimp only
    generalize repairLc (senseLc (discoverFlash (s.onKp (fun k => { k with sensed := true })))) = u at t1 ⊢
    exact same_ite (eraseKeeper_sensed (romUnits_sensed t1)) (romUnits_sensed t1)
  exact k

theorem coldBoot_firmware {fwA fwB setA setB : Bool} (c : s.clk.cold = true) (b : s.vault.blow = none) (r :
    s.kp.sensed = true)
    (n : s.kp.mbox.bootStage = 1) (a : engineSays s 1 0 fwA = true) (e : engineSays s 1 1 fwB = true) :
    exec (.coldBoot fwA fwB setA setB) s = .next (withEngine s 1 (bootFirmware s fwA fwB)) := by
  show execColdBoot fwA fwB setA setB s = _
  unfold execColdBoot
  dsimp only
  rw [c, b, r, n, a, e]
  exact Laws.taken_true _ _

theorem coldBoot_settings {fwA fwB setA setB : Bool} (c : s.clk.cold = true) (b : s.vault.blow = none) (r :
    s.kp.sensed = true)
    (n : s.kp.mbox.bootStage = 2) (a : engineSays s 2 0 setA = true) (e : engineSays s 2 1 setB = true) :
    exec (.coldBoot fwA fwB setA setB) s = .next (withEngine s 2 (bootSettings s setA setB)) := by
  show execColdBoot fwA fwB setA setB s = _
  unfold execColdBoot
  dsimp only
  rw [c, b, r, n, a, e]
  exact Laws.taken_true _ _

theorem withEngine_waits {k : Nat} (a : asksEngine s k 0 = true ∨ asksEngine s k 1 = true) (c :
    s.clk.control.ready = false) :
    withEngine s k t = demand s .control := by
  rw [withEngine, if_pos (by rcases a with a | a <;> simp [a]), inControl, c]
  rfl

theorem withEngine_runs {k : Nat}
    (a : asksEngine s k 0 = false ∧ asksEngine s k 1 = false ∨ s.clk.control.ready = true) : withEngine s k t = t := by
  rw [withEngine, inControl]
  rcases a with ⟨a, b⟩ | a
  · rw [a, b]
    rfl
  · rw [a]
    exact ite_self _

section
variable {kind c : Nat} {okA okB : Bool}

theorem preferred_countInvalid : preferred (countInvalid s kind okA okB) kind okA okB = preferred s kind okA okB :=
  preferred_of_kp (countInvalid_kp ..).1 ..

end

theorem bootFirmware_none {sigA sigB : Bool} (p : preferred s 1 (copyValid s 1 0 sigA) (copyValid s 1 1 sigB) = none) :
    bootFirmware s sigA sigB = (setMbox (countInvalid s 1 (copyValid s 1 0 sigA) (copyValid s 1 1 sigB)) (fun m =>
      { m with bootStage := stageRecovery })).onClk (fun k => { k with cold := false }) := by
  unfold bootFirmware
  dsimp only
  rw [preferred_countInvalid, p]

theorem bootFirmware_some {sigA sigB : Bool} {c : Nat}
    (p : preferred s 1 (copyValid s 1 0 sigA) (copyValid s 1 1 sigB) = some c) (u : State)
    (e : countInvalid s 1 (copyValid s 1 0 sigA) (copyValid s 1 1 sigB) = u) :
    (bootFirmware s sigA sigB).kp.mbox.bootStage = 2 ∧ (bootFirmware s sigA sigB).kp.mbox.fwCopy = (c == 1) ∧
      (bootFirmware s sigA sigB).clk.wgHold = true ∧ (bootFirmware s sigA sigB).clk.cold = s.clk.cold ∧
      (bootFirmware s sigA sigB).kp.flash = u.kp.flash ∧ (bootFirmware s sigA sigB).vault = u.vault := by
  have k := (countInvalid_kp (s := s) 1 (copyValid s 1 0 sigA) (copyValid s 1 1 sigB)).2.1
  unfold bootFirmware
  dsimp only
  rw [preferred_countInvalid, p, e]
  rw [e] at k
  exact ⟨rfl, rfl, rfl, (congrArg Clocks.cold k : u.clk.cold = _), rfl, rfl⟩

theorem bootSettings_none {sigA sigB : Bool} (p : preferred s 2 (copyValid s 2 0 sigA) (copyValid s 2 1 sigB) = none) :
    bootSettings s sigA sigB = holdBlock (setMbox (countInvalid s 2 (copyValid s 2 0 sigA) (copyValid s 2 1 sigB))
      (fun m =>
      { m with setFail := true })) := by
  unfold bootSettings
  dsimp only
  rw [preferred_countInvalid, p]

theorem bootSettings_some {sigA sigB : Bool} {c : Nat}
    (p : preferred s 2 (copyValid s 2 0 sigA) (copyValid s 2 1 sigB) = some c) (u : State)
    (e : countInvalid s 2 (copyValid s 2 0 sigA) (copyValid s 2 1 sigB) = u) :
    ∃ v, bootSettings s sigA sigB = beginWarm (askAgain v) ∧ v.clk.cold = false ∧
      v.kp.settings = (applySettings u c).kp.settings ∧ v.kp.haveSettings = true := by
  have h : (applySettings u c).kp.haveSettings = true := rfl
  unfold bootSettings
  dsimp only
  rw [preferred_countInvalid, p, e]
  exact ⟨_, rfl, rfl, rfl, h⟩

/-- Settles O55. -/
theorem resetsAndBootRun : Obligations.ResetsAndBootRun := by
  unfold Obligations.ResetsAndBootRun
  refine ⟨?_, ?_, ?_, ?_, ?_, ?_, ?_, ?_, ?_, ?_, ?_, ?_, ?_, ?_, ?_, ?_, ?_⟩
  · intro s j w k d c r
    rw [blockWarmReset_job w k, d, c, r]
    rfl
  · intro s j w k d c v l e cr sr n
    obtain ⟨a, b, c1, c2, f, g, h, i⟩ := warmSteps_clusterless (keep := j.keepPcie) v l e sr n
    exact Laws.answers_of_eq _ (blockWarmReset_steps w k d c (warmReady_running cr sr)) ⟨a, b, c1, c2, f, g, h, i⟩
  · intro s j n w k d c l e cr sr b
    exact Laws.answers_of_eq _ (blockWarmReset_steps w k d c (warmReady_running cr sr)) (warmSteps_clearing l e b)
  · intro s j w k d c
    have e : exec .blockWarmReset s = taken (clustersCleared s) s (warmRest s j.keepPcie) := by
      rw [blockWarmReset_job w k, d, c]
      rfl
    exact ⟨fun h => by rw [e, h]; exact Laws.taken_true _ _, fun h => by rw [e, h]; rfl⟩
  · intro s j w k d c l
    refine Laws.answers_of_eq _ (blockWarmReset_steps w k d c ?_) (warmSteps_held l)
    rw [warmReady]
    rcases l with l | l <;> simp [l]
  · intro s j w k d
    have e : exec .blockWarmReset s = taken (!vaultHolds s) s (finishWarm s) := by
      rw [blockWarmReset_job w k, d]
      rfl
    exact ⟨fun h => by rw [e, h]; exact Laws.taken_true _ _, fun h => by rw [e, h]; rfl⟩
  · intro s b
    show Host.Outcome.next (coldReset s) = _
    unfold coldReset
    dsimp only
    rw [cutBlow_none b]
  · exact fun s => congrArg Host.Outcome.next (coldReset_onClk _)
  · intro s c l m
    obtain ⟨u, e, k, f⟩ := watchdogReset_logs l m
    have e' : exec .keeperWatchdogExpiry s = .next (coldReset u) := by
      show execKeeperWatchdogExpiry s = _
      rw [e, c]
      exact Laws.taken_true _ _
    obtain ⟨t, et, h⟩ := Standing.answers_execKeeperWatchdogExpiry (s := s)
    have tu : t = coldReset u := Host.Outcome.next.inj (et.symm.trans e')
    exact Laws.answers_of_eq _ e' ⟨rfl, (congrArg Keeper.flash k : u.kp.flash = _), tu ▸ h.fuses, _, f, rfl, rfl, rfl⟩
  · intro s fwA fwB setA setB h
    show execColdBoot fwA fwB setA setB s = _
    unfold execColdBoot
    refine if_pos ?_
    rcases h with h | h <;> simp [h]
  · intro s fwA fwB setA setB c b r
    refine ⟨?_, bootRom_sensed s⟩
    show execColdBoot fwA fwB setA setB s = _
    unfold execColdBoot
    dsimp only
    rw [c, b, r]
    rfl
  · exact fun s h => if_pos h
  · intro s h
    have e : repairLc s = _ := if_neg h
    rw [e]
    exact ⟨rfl, rfl⟩
  · intro s fwA fwB setA setB c b r n
    show execColdBoot fwA fwB setA setB s = _
    unfold execColdBoot
    dsimp only
    rw [c, b, r, n]
    rfl
  · intro s fwA fwB setA setB c b r n a e okA okB u
    have x := coldBoot_firmware (setA := setA) (setB := setB) c b r n a e
    refine ⟨fun q k => x.trans (congrArg _ (withEngine_waits q k)), fun q => ?_⟩
    have y := x.trans (congrArg _ (withEngine_runs q))
    refine ⟨fun p => y.trans (congrArg Host.Outcome.next (bootFirmware_none p)), fun i p => ?_⟩
    obtain ⟨p1, p2, p3, p4, p5, p6⟩ := bootFirmware_some p u rfl
    exact Laws.answers_of_eq _ y ⟨p1, p2, p3, p4.trans c, p5, p6⟩
  · intro s fwA fwB setA setB c b r n a e okA okB u
    have x := coldBoot_settings (fwA := fwA) (fwB := fwB) c b r n a e
    refine ⟨fun q k => x.trans (congrArg _ (withEngine_waits q k)), fun q => ?_⟩
    have y := x.trans (congrArg _ (withEngine_runs q))
    refine ⟨fun p => y.trans (congrArg Host.Outcome.next (bootSettings_none p)), fun i p => ?_⟩
    obtain ⟨v, h, q⟩ := bootSettings_some p u rfl
    exact ⟨v, y.trans (congrArg Host.Outcome.next h), q⟩
  · exact fun s => ⟨rfl, rfl⟩

end Sys2Proof.BootRows
end

section
/-! The bytes of waggle frames (R399): a frame is read from its own bytes, and from no others. -/

namespace Sys2Proof.WaggleBytes
open Sys2Proof.Machine Sys2Proof.Safety

/-! ## Bytes of a number -/

theorem leNat_lt (l : List Byte) : leNat l < 2 ^ (8 * l.length) := by
  induction l with
  | nil => decide
  | cons b r ih =>
    rw [leNat, List.length_cons, show 8 * (r.length + 1) = 8 * r.length + 8 by omega, Nat.pow_add]
    have := b.isLt
    omega

theorem leBytes_leNat (l : List Byte) : leBytes l.length (leNat l) = l := by
  induction l with
  | nil => rfl
  | cons b r ih =>
    have hb := b.isLt
    have hi : (b.toNat + 256 * leNat r) >>> 8 = leNat r := by
      rw [Nat.shiftRight_eq_div_pow]
      omega
    have lo : BitVec.ofNat 8 (b.toNat + 256 * leNat r) = b := by
      apply BitVec.eq_of_toNat_eq
      rw [BitVec.toNat_ofNat]
      omega
    rw [List.length_cons, leNat, leBytes, hi, ih, lo]

/-! ## The check code -/

theorem crc32Bit_lt {c : Nat} (h : c < 2 ^ 32) : crc32Bit c < 2 ^ 32 := by
  unfold crc32Bit
  split
  · exact Nat.xor_lt_two_pow (by omega) (by decide)
  · omega

theorem crc32Byte_lt {c : Nat} (h : c < 2 ^ 32) (b : Byte) : crc32Byte c b < 2 ^ 32 := by
  have start : c ^^^ b.toNat < 2 ^ 32 := Nat.xor_lt_two_pow h (by have := b.isLt; omega)
  unfold crc32Byte
  generalize c ^^^ b.toNat = x at start
  generalize List.range 8 = l
  induction l generalizing x with
  | nil => exact start
  | cons _ l ih => exact ih _ (crc32Bit_lt start)

theorem crc32_lt (l : List Byte) : crc32 l < 2 ^ 32 := by
  have start : 0xFFFFFFFF < 2 ^ 32 := by decide
  refine Nat.xor_lt_two_pow ?_ start
  generalize 0xFFFFFFFF = x at start
  induction l generalizing x with
  | nil => exact start
  | cons b l ih => exact ih _ (crc32Byte_lt start b)

/-! ## The header -/

theorem waggleHeader_eq (f : WFrame) : waggleHeader f = f.dst * 2 ^ 48 + f.src * 2 ^ 32 + f.wtype * 2 ^ 28 + f.whops * 2 ^
    20 +
    f.wseq * 2 ^ 12 + f.payload.length * 2 ^ 5 + b2n f.wbcast * 2 ^ 4 + b2n f.wnoid * 2 ^ 3 := by
  simp only [waggleHeader, Nat.shiftLeft_eq]

theorem b2n_lt (b : Bool) : b2n b < 2 := by
  cases b <;> decide

theorem beq_b2n (b : Bool) : (b2n b == 1) = b := by
  cases b <;> rfl

/-- R399: the fields of a frame whose fields fit stand in its header. -/
theorem waggleHeader_fields {f : WFrame} (d : f.dst < 2 ^ 16) (s : f.src < 2 ^ 16) (t : f.wtype < 2 ^ 4) (h :
    f.whops < 2 ^ 8)
    (q : f.wseq < 2 ^ 8) (n : f.payload.length ≤ 64) : waggleHeader f < 2 ^ 64 ∧ fld (waggleHeader f) 48 16 = f.dst ∧
      fld (waggleHeader f) 32 16 = f.src ∧ fld (waggleHeader f) 28 4 = f.wtype ∧ fld (waggleHeader f) 20 8 = f.whops ∧
      fld (waggleHeader f) 12 8 = f.wseq ∧ fld (waggleHeader f) 5 7 = f.payload.length ∧
      fld (waggleHeader f) 4 1 = b2n f.wbcast ∧ fld (waggleHeader f) 3 1 = b2n f.wnoid ∧ fld (waggleHeader f) 0 3 = 0 :=
        by
  have b := b2n_lt f.wbcast
  have i := b2n_lt f.wnoid
  simp only [Placement.fld_eq, waggleHeader_eq]
  refine ⟨?_, ?_, ?_, ?_, ?_, ?_, ?_, ?_, ?_, ?_⟩
  all_goals omega

theorem field_split (h lo n : Nat) : h / 2 ^ lo = fld h lo n + 2 ^ n * (h / 2 ^ (lo + n)) := by
  rw [Placement.fld_eq, Nat.pow_add, ← Nat.div_div_eq_div_mul, Nat.add_comm, Nat.div_add_mod]

/-- R399: a word of eight bytes without RZ bits is the header that its fields make. -/
theorem header_of_fields {h : Nat} (l : h < 2 ^ 64) (z : fld h 0 3 = 0) :
    fld h 48 16 * 2 ^ 48 + fld h 32 16 * 2 ^ 32 + fld h 28 4 * 2 ^ 28 + fld h 20 8 * 2 ^ 20 + fld h 12 8 * 2 ^ 12 +
      fld h 5 7 * 2 ^ 5 + fld h 4 1 * 2 ^ 4 + fld h 3 1 * 2 ^ 3 = h := by
  have top : h / 2 ^ 64 = 0 := Nat.div_eq_of_lt l
  have low : h / 2 ^ 0 = h := Nat.div_one h
  have f0 := field_split h 0 3
  have f3 := field_split h 3 1
  have f4 := field_split h 4 1
  have f5 := field_split h 5 7
  have f12 := field_split h 12 8
  have f20 := field_split h 20 8
  have f28 := field_split h 28 4
  have f32 := field_split h 32 16
  have f48 := field_split h 48 16
  rw [low, z] at f0
  rw [top] at f48
  rw [f48] at f32
  rw [f32] at f28
  rw [f28] at f20
  rw [f20] at f12
  rw [f12] at f5
  rw [f5] at f4
  rw [f4] at f3
  rw [f3] at f0
  generalize fld h 48 16 = a at f0 ⊢
  generalize fld h 32 16 = b at f0 ⊢
  generalize fld h 28 4 = c at f0 ⊢
  generalize fld h 20 8 = d at f0 ⊢
  generalize fld h 12 8 = e at f0 ⊢
  generalize fld h 5 7 = g at f0 ⊢
  generalize fld h 4 1 = i at f0 ⊢
  generalize fld h 3 1 = j at f0 ⊢
  clear f3 f4 f5 f12 f20 f28 f32 f48 low top z l
  omega

theorem b2n_bit (h i : Nat) : b2n (bit h i) = fld h i 1 := by
  have l := Placement.fld_lt h i 1
  rw [bit]
  generalize fld h i 1 = x at l
  have : x = 0 ∨ x = 1 := by omega
  rcases this with rfl | rfl <;> rfl

/-! ## A frame and its bytes -/

/-- What a frame's check code covers. -/
def waggleBody (f : WFrame) : List Byte := leBytes 8 (waggleHeader f) ++ f.payload

theorem wireWaggle_eq (f : WFrame) : wireWaggle f = 0xA7 :: (waggleBody f ++ leBytes 4 (crc32 (waggleBody f))) := rfl

theorem length_waggleBody (f : WFrame) : (waggleBody f).length = f.payload.length + 8 := by
  rw [waggleBody, List.length_append, Bytes.length_leBytes, Nat.add_comm]

theorem readWaggle_wireWaggle {f : WFrame} (d : f.dst < 2 ^ 16) (s : f.src < 2 ^ 16) (t : f.wtype < 2 ^ 4)
    (h : f.whops < 2 ^ 8) (q : f.wseq < 2 ^ 8) (n : f.payload.length ≤ 64) : readWaggle (wireWaggle f) = some f := by
  obtain ⟨l, hd, hs, ht, hh, hq, hn, hb, hi, hz⟩ := waggleHeader_fields d s t h q n
  have len : (wireWaggle f).length = f.payload.length + 13 := by
    rw [wireWaggle_eq, List.length_cons, List.length_append, length_waggleBody, Bytes.length_leBytes]
  have body : ((wireWaggle f).drop 1).take ((wireWaggle f).length - 5) = waggleBody f := by
    rw [len, wireWaggle_eq, List.drop_one, List.tail_cons]
    exact List.take_left' (length_waggleBody f)
  have head : leNat ((waggleBody f).take 8) = waggleHeader f := by
    rw [waggleBody, List.take_left' (Bytes.length_leBytes ..), Bytes.leNat_leBytes, Nat.mod_eq_of_lt l]
  have code : leNat ((wireWaggle f).drop (f.payload.length + 9)) = crc32 (waggleBody f) := by
    rw [wireWaggle_eq, show f.payload.length + 9 = (waggleBody f).length + 1 by rw [length_waggleBody],
      List.drop_succ_cons,
      List.drop_left, Bytes.leNat_leBytes, Nat.mod_eq_of_lt (crc32_lt _)]
  have first : (wireWaggle f).take 1 = [0xA7] := rfl
  have payload : (waggleBody f).drop 8 = f.payload := List.drop_left' (Bytes.length_leBytes ..)
  unfold readWaggle
  dsimp only
  rw [body, head, hn, len, code, first, rz, hz, payload, bit, hb, bit, hi, hd, hs, ht, hh, hq, beq_b2n, beq_b2n,
    decide_eq_true n]
  simp

theorem wire_of_readWaggle {wire : List Byte} {f : WFrame} (e : readWaggle wire = some f) : wire = wireWaggle f := by
  unfold readWaggle at e
  dsimp only at e
  split at e
  case isFalse => cases e
  case isTrue c =>
    simp only [Bool.and_eq_true, beq_iff_eq, decide_eq_true_eq] at c
    obtain ⟨⟨⟨⟨first, len⟩, small⟩, code⟩, zero⟩ := c
    generalize hb : (wire.drop 1).take (wire.length - 5) = body at *
    have lb : body.length = fld (leNat (body.take 8)) 5 7 + 8 := by
      rw [← hb, List.length_take, List.length_drop, hb]
      omega
    have lh : (body.take 8).length = 8 := by
      rw [List.length_take, lb]
      omega
    have hh : leNat (body.take 8) < 2 ^ 64 := by
      have := leNat_lt (body.take 8)
      rwa [lh] at this
    have lp : (body.drop 8).length = fld (leNat (body.take 8)) 5 7 := by
      rw [List.length_drop, lb, Nat.add_sub_cancel]
    have z : fld (leNat (body.take 8)) 0 3 = 0 := beq_iff_eq.1 zero
    have bytes : leBytes 8 (leNat (body.take 8)) = body.take 8 := by
      have := leBytes_leNat (body.take 8)
      rwa [lh] at this
    have head : waggleHeader f = leNat (body.take 8) := by
      rw [← Option.some.inj e, waggleHeader_eq]
      dsimp only
      rw [b2n_bit, b2n_bit, lp]
      exact header_of_fields hh z
    have whole : waggleBody f = body := by
      rw [waggleBody, head, bytes, show f.payload = body.drop 8 by rw [← Option.some.inj e], List.take_append_drop]
    have last : leBytes 4 (crc32 body) = wire.drop (fld (leNat (body.take 8)) 5 7 + 9) := by
      have := leBytes_leNat (wire.drop (fld (leNat (body.take 8)) 5 7 + 9))
      rw [List.length_drop, len, ← code] at this
      rwa [show fld (leNat (body.take 8)) 5 7 + 13 - (fld (leNat (body.take 8)) 5 7 + 9) = 4 by omega] at this
    have tail : wire.drop 1 = body ++ wire.drop (fld (leNat (body.take 8)) 5 7 + 9) := by
      have := (List.take_append_drop (wire.length - 5) (wire.drop 1)).symm
      rw [hb, List.drop_drop] at this
      rwa [show 1 + (wire.length - 5) = fld (leNat (body.take 8)) 5 7 + 9 by omega] at this
    rw [wireWaggle_eq, whole, last, ← tail, ← List.singleton_append, ← first, List.take_append_drop]

end Sys2Proof.WaggleBytes
end

section
/-! Waggle frames and their timers (R399 to R403). -/

namespace Sys2Proof.WaggleRows
open Sys2Proof.Machine Sys2Proof.Safety

variable {s : State} {wire : List Byte} {f : WFrame} {r : List WFrame} {n : Nat}

/-! ## Frames received -/

theorem receive_runs (h : s.clk.wgHold = true) (c : s.clk.cold = false) :
    exec (.waggleFrameReceive wire) s = .next (receiveWaggle s wire) := by
  show execWaggleFrameReceive wire s = _
  rw [execWaggleFrameReceive, h, c]
  exact Laws.taken_true _ _

theorem receive_noFrame (e : readWaggle wire = none) : receiveWaggle s wire = discardWaggle s := by
  rw [receiveWaggle, e]

theorem receive_spent (e : readWaggle wire = some f) (b : f.whops = 0 ∨ 6 ≤ f.wtype) :
    receiveWaggle s wire = discardWaggle s := by
  rw [receiveWaggle, e]
  exact if_pos (by rcases b with b | b <;> simp [b])

/-- R401: a frame of a type and with hops left is the chip's own, or another's. -/
theorem receive_live (e : readWaggle wire = some f) (w : f.whops ≠ 0) (t : f.wtype < 6) : receiveWaggle s wire =
    if ownWaggle s f then (if s.kp.waggle.outWait && f.wtype == 3 then releaseHold s else s)
    else forwardWaggle (if actsHere s f then onWaggle s (fun w => { w with rx := w.rx ++ [f] }) else s) f := by
  rw [receiveWaggle, e]
  exact if_neg (by simp [w, t])

/-- What a frame that acts here leaves in the receive buffer, it leaves nowhere else. -/
theorem actsHere_spec {t : State} (h : (if actsHere s f then onWaggle s (fun w => { w with rx := w.rx ++ [f] }) else s) =
    t) :
    t.kp.waggle.rx = (if actsHere s f then s.kp.waggle.rx ++ [f] else s.kp.waggle.rx) ∧
      t.kp.waggle.outDeclared = s.kp.waggle.outDeclared ∧ t.kp.waggle.fwd = s.kp.waggle.fwd ∧
      t.kp.waggle.discarded = s.kp.waggle.discarded ∧ t.sent = s.sent := by
  subst h
  split
  · exact ⟨rfl, rfl, rfl, rfl, rfl⟩
  · exact ⟨rfl, rfl, rfl, rfl, rfl⟩

/-! ## Frames that act -/

theorem onWaggleFrame_acts (h : s.kp.waggle.rx = f :: r) (t : f.wtype = n) (eff : State → WFrame → State) :
    onWaggleFrame s n eff = .next (eff (onWaggle s (fun w => { w with rx := r })) f) := by
  rw [onWaggleFrame, h]
  show taken (f.wtype == n) s _ = _
  rw [beq_iff_eq.2 t]
  exact Laws.taken_true _ _

theorem flushForward_empty (e : s.kp.waggle.fwd = []) : (flushForward s).kp.waggle.wseq = s.kp.waggle.wseq ∧
    (flushForward s).sent = s.sent := by
  unfold flushForward
  rw [e]
  exact ⟨rfl, rfl⟩

/-- R399: a frame of the chip's own, where none is to be forwarded before it. -/
theorem sendWaggle_sends {wt dst src q : Nat} {bc v : Bool} {p : List Byte} {o : List Output}
    (hv : s.kp.settings.chipIdValid = v) (h : v = true ∨ wt = 0) (e : s.kp.waggle.fwd = []) (hc : chipId s = src)
    (hq : s.kp.waggle.wseq = q) (ho : s.sent = o) :
    (sendWaggle s wt dst bc p).sent = o ++ [.waggle (wireWaggle
      { dst := if bc then 0 else dst, src := src, wtype := wt, whops := 255, wseq := q, wbcast := bc, wnoid := !v,
        payload := p })] ∧ (sendWaggle s wt dst bc p).kp.waggle.wseq = (q + 1) % 256 := by
  obtain ⟨a, b⟩ := flushForward_empty e
  unfold sendWaggle
  dsimp only
  rw [hv, if_neg (by rcases h with h | h <;> simp [h]), a, hc, hq]
  exact ⟨congrArg (· ++ [_]) (b.trans ho), congrArg (fun n => (n + 1) % 256) (a.trans hq)⟩

theorem releaseHold_releases (s : State) : (releaseHold s).clk.wgHold = false ∧ (releaseHold s).kp.waggle.outWait = false
    ∧
    (releaseHold s).kp.waggle.rx = s.kp.waggle.rx := ⟨rfl, rfl, rfl⟩

/-- Whether the last WAKE that acted was less than 1 ms ago. -/
def wakeSoon (s : State) : Option Nat → Bool
  | some a => decide (s.clk.coldTicks < a + 25000)
  | none => false

theorem wake_acts (h : s.kp.waggle.rx = f :: r) (t : f.wtype = 1) : exec .wake s =
    .next (if wakeSoon s s.kp.waggle.wakeAt then onWaggle s (fun w => { w with rx := r })
      else demand (onWaggle s (fun w => { w with rx := r, wakeAt := some s.clk.coldTicks })) .control) := by
  refine (onWaggleFrame_acts h t _ : execWake s = _).trans (congrArg Host.Outcome.next ?_)
  show (if wakeSoon s s.kp.waggle.wakeAt = true then _ else _) = _
  rfl

/-- Settles O56. -/
theorem waggleFramesAct : Obligations.WaggleFramesAct := by
  unfold Obligations.WaggleFramesAct
  refine ⟨?_, ?_, ?_, ?_, ?_, ?_, ?_, ?_, ?_, ?_, ?_, ?_, ?_, ?_, ?_⟩
  · intro s wire h c e
    exact Laws.answers_of_eq _ ((receive_runs h c).trans (congrArg _ (receive_noFrame e))) ⟨rfl, rfl, rfl⟩
  · intro s wire f h c e
    refine ⟨fun b => ?_, fun w t => ⟨fun o b => ?_, fun o b q => ?_, fun o d l => ?_, fun o d l => ?_⟩⟩
    · exact Laws.answers_of_eq _ ((receive_runs h c).trans (congrArg _ (receive_spent e b))) ⟨rfl, rfl, rfl⟩
    · refine (receive_runs h c).trans (congrArg _ ((receive_live e w t).trans ?_))
      rw [if_pos o, if_neg (by rcases b with b | b <;> simp [b])]
    · refine Laws.answers_of_eq (releaseHold s) ((receive_runs h c).trans (congrArg _ ((receive_live e w t).trans ?_)))
        ⟨rfl, rfl⟩
      rw [if_pos o, if_pos (by simp [b, q])]
    · have x := (receive_runs h c).trans (congrArg Host.Outcome.next
        ((receive_live e w t).trans (if_neg (by rw [o]; decide))))
      generalize ht : (if actsHere s f then onWaggle s (fun w => { w with rx := w.rx ++ [f] }) else s) = u at x
      obtain ⟨rx, od, fw, -, sn⟩ := actsHere_spec ht
      refine Laws.answers_of_eq _ x ?_
      rw [forwardWaggle, if_neg (by rw [od, d]; decide), if_neg (by rw [fw]; omega)]
      exact ⟨congrArg (· ++ [_]) fw, rx, sn⟩
    · have x := (receive_runs h c).trans (congrArg Host.Outcome.next
        ((receive_live e w t).trans (if_neg (by rw [o]; decide))))
      generalize ht : (if actsHere s f then onWaggle s (fun w => { w with rx := w.rx ++ [f] }) else s) = u at x
      obtain ⟨-, od, fw, dc, -⟩ := actsHere_spec ht
      refine Laws.answers_of_eq _ x ?_
      rw [forwardWaggle, if_neg (by rw [od, d]; decide), if_pos (by rw [fw]; exact l)]
      exact ⟨fw, congrArg (· + 1) dc⟩
  · exact fun f d s t h q n => WaggleBytes.readWaggle_wireWaggle d s t h q n
  · exact fun wire f e => WaggleBytes.wire_of_readWaggle e
  · exact fun s f r h t => (onWaggleFrame_acts h t _ : execPresence s = _)
  · intro s f r h t
    refine ⟨fun w k q => ?_, fun a w b => ?_⟩
    · refine Laws.answers_of_eq _ ((wake_acts h t).trans (congrArg Host.Outcome.next
        (if_neg (by rw [w]; exact Bool.false_ne_true)))) ?_
      rw [ClockTimes.demand_control (by exact k), ClockTimes.requestClock_new (d := .control) (by exact q)]
      exact ⟨rfl, rfl, rfl, rfl⟩
    · refine (wake_acts h t).trans (congrArg Host.Outcome.next (if_pos ?_))
      rw [w]
      exact decide_eq_true b
  · intro s f r h t l z lo hi
    refine (onWaggleFrame_acts h t _ : execCapFrame s = _).trans (congrArg _ ?_)
    unfold capFrame
    exact if_neg (by simp [l, z]; omega)
  · exact fun s f r h t => Laws.answers_of_eq _ (onWaggleFrame_acts h t _ : execOut s = _) ⟨rfl, rfl, rfl, rfl⟩
  · intro s f r h t v i w
    refine Laws.answers_of_eq _ ((onWaggleFrame_acts h t _ : execEcho s = _).trans
      (congrArg Host.Outcome.next (if_neg (by rw [i]; decide)))) ?_
    have x := sendWaggle_sends (s := onWaggle s (fun w => { w with rx := r })) (wt := 5) (dst := f.src) (bc := false)
      (p := f.payload) (src := chipId s) (q := s.kp.waggle.wseq) (o := s.sent) v (.inl rfl) w rfl rfl rfl
    exact x
  · intro s f r h t b
    refine (onWaggleFrame_acts h t _ : execEcho s = _).trans (congrArg _ ?_)
    split
    · rfl
    · rename_i i
      rcases b with b | b
      · exact if_pos (by show (!s.kp.settings.chipIdValid && _) = true; rw [b]; rfl)
      · exact absurd b i
  · exact fun s f r h t => Laws.answers_of_eq _ (onWaggleFrame_acts h t _ : execEchoReply s = _) ⟨rfl, rfl, rfl⟩
  · intro s h c o w
    refine Laws.answers_of_eq (sendWaggle s 0 0 true (presencePayload s)) ?_
      (sendWaggle_sends rfl (.inr rfl) w rfl rfl rfl).1
    show execPresenceTimer s = _
    rw [execPresenceTimer, h, c, o]
    exact Laws.taken_true _ _
  · intro s k b
    show execCensusAgeOut k s = _
    rw [execCensusAgeOut, decide_eq_true b]
    exact Laws.taken_true _ _
  · intro s c e
    show execWaggleCapExpiry s = _
    rw [execWaggleCapExpiry, e]
    exact Laws.taken_true _ _
  · intro s o
    refine Laws.answers_of_eq (releaseHold s) ?_ (releaseHold_releases s)
    show execOutWaitTimeout s = _
    rw [execOutWaitTimeout, o]
    exact Laws.taken_true _ _

end Sys2Proof.WaggleRows
end

section
/-! The block's TAP segment (R375, R458, R459). -/

namespace Sys2Proof.TapRows
open Sys2Proof.Machine Sys2Proof.Safety

variable {s : State} {op space h a : Nat} {d : Word}

/-! ## The debug window -/

/-- R459: what the register holds of an access. -/
def shifted (s : State) (op space h a : Nat) (d : Word) : State :=
  { s with tap := { s.tap with ir := 0x10, dwData := d, dwOp := op, dwSpace := space, dwHive := h, dwAddr := a } }

theorem dbgWinAccess_runs (c : s.clk.cold = false) (b : a < 2 ^ 41) :
    exec (.dbgWinAccess op space h a d) s = .next (dbgAccess (shifted s op space h a d) op space h a d) := by
  show execDbgWinAccess op space h a d s = _
  rw [execDbgWinAccess, dbgUpdate, Nat.mod_eq_of_lt b, c]
  exact Laws.taken_true _ _

theorem dbgWinAccess_mod (s : State) : exec (.dbgWinAccess op space h a d) s = exec
    (.dbgWinAccess op space h (a % 2 ^ 41) d) s := by
  show execDbgWinAccess op space h a d s = execDbgWinAccess op space h (a % 2 ^ 41) d s
  rw [execDbgWinAccess, execDbgWinAccess, dbgUpdate, dbgUpdate, Nat.mod_mod]

theorem dbgAccess_closed (p : space < 2) (o : debugOpen s space h = false) :
    dbgAccess s op space h a d = dbgRefuse s .rights :=
  if_pos ⟨p, by rw [o]; rfl⟩

theorem dbgAccess_malformed (o : 2 ≤ space ∨ debugOpen s space h = true)
    (b : 2 ≤ op ∨ 2 ≤ space ∨ (space = 1 ∧ a % 8 ≠ 0)) : dbgAccess s op space h a d = dbgRefuse s .range := by
  rw [dbgAccess, if_neg, if_pos b]
  rintro ⟨p, q⟩
  rcases o with o | o
  · omega
  · rw [o] at q
    exact absurd q (by decide)

theorem dbgAccess_memory (p : op < 2) (m : a % 8 = 0) (o : debugOpen s 1 h = true) :
    dbgAccess s op 1 h a d = dbgMemory s (op == 1) h a d := by
  rw [dbgAccess, if_neg (fun q => by rw [o] at q; exact absurd q.2 (by decide)), if_neg (by omega), if_neg (by decide)]

theorem dbgAccess_object (p : op < 2) (o : debugOpen s 0 h = true) : dbgAccess s op 0 h a d = dbgObject s (op == 1) h a :=
    by
  rw [dbgAccess, if_neg (fun q => by rw [o] at q; exact absurd q.2 (by decide)), if_neg (by omega), if_pos rfl]

theorem dbgAccess_read (m : a % 8 = 0) (o : debugOpen s 1 h = true) : dbgAccess s 0 1 h a d = dbgMemory s false h a d :=
  dbgAccess_memory (by decide) m o

theorem dbgAccess_write (m : a % 8 = 0) (o : debugOpen s 1 h = true) : dbgAccess s 1 1 h a d = dbgMemory s true h a d :=
  dbgAccess_memory (by decide) m o

theorem dbgAccess_view (o : debugOpen s 0 h = true) : dbgAccess s 0 0 h a d = dbgObject s false h a :=
  dbgAccess_object (by decide) o

theorem dbgAccess_set (o : debugOpen s 0 h = true) : dbgAccess s 1 0 h a d = dbgRefuse s .rights :=
  dbgAccess_object (by decide) o

/-- The TAP segment has no part in whether a request waits. -/
theorem mustWait_tap (x : Tap) (k l : Nat) (w : Option WriteKind) :
    mustWait { s with tap := x } k l w = mustWait s k l w := rfl

section
variable {k : Comb} (e : combFor s h a = some k)
include e

theorem dbgMemory_read (p : k.permits .rd = true) : dbgMemory s false h a d =
    if !s.clk.stream.ready then demand s .stream
    else if mustWait s k.keySel (lineOf a) none then s
    else
      if (homeRead s h k.keySel (lineOf a) 3).2.1 = .ok then
        dbgEnd (homeRead s h k.keySel (lineOf a) 3).1
          (BitVec.ofNat 64 (leNat (((homeRead s h k.keySel (lineOf a) 3).2.2.drop (a % 128)).take 8))) .ok
      else dbgEnd (homeRead s h k.keySel (lineOf a) 3).1 0 (homeRead s h k.keySel (lineOf a) 3).2.1 := by
  rw [dbgMemory, e]
  exact if_neg (by show ¬ (!k.permits .rd) = true; rw [p]; decide)

theorem dbgMemory_write {v : State} {st : Status} {n : Nat} (p : k.permits .wr = true) (r : s.clk.stream.ready = true)
    (m : mustWait s k.keySel (lineOf a)
      (some (.partialWrite ((leBytes 8 d.toNat).zipIdx.map (fun e => (a % 128 + e.2, e.1))))) = false)
    (w : homeWrite s h k.keySel (lineOf a) (.partialWrite ((leBytes 8 d.toNat).zipIdx.map (fun e =>
      (a % 128 + e.2, e.1)))) 3 =
      (v, st, n)) : dbgMemory s true h a d = dbgEnd v d st := by
  rw [dbgMemory, e]
  refine (if_neg (by show ¬ (!k.permits .wr) = true; rw [p]; decide)).trans ((if_neg (by rw [r]; decide)).trans ?_)
  refine (if_neg (by rw [← Bool.not_eq_true] at m; exact m)).trans ?_
  show dbgEnd (homeWrite s h k.keySel (lineOf a) _ 3).1 d (homeWrite s h k.keySel (lineOf a) _ 3).2.1 = _
  rw [w]

end

theorem dbgRefuse_spec (s : State) (st : Status) : (dbgRefuse s st).tap.dwData = 0 ∧ (dbgRefuse s st).tap.dwStatus =
    st.code ∧
    (dbgRefuse s st).pr = s.pr := by
  obtain ⟨f, e, -⟩ := HostPort.logErr_eq (s.onBr (fun b => { b with refused := b.refused + 1 }))
    { cls := 4, ugroup := 0, unit := 0, cause := 6 }
  have r : refuseInput s true 0 0 = (s.onBr (fun b => { b with refused := b.refused + 1 })).onBr f := e
  rw [dbgRefuse, r]
  exact ⟨rfl, rfl, rfl⟩

/-! ## The mailbox and the scans -/

theorem tapMboxAccess_runs {off : Nat} {w : Bool} (c : s.clk.cold = false) :
    exec (.tapMboxAccess off w d) s = .next (demand (setIr (tapMbox s off w d) 0x12) .control) := by
  show execTapMboxAccess off w d s = _
  rw [execTapMboxAccess, c]
  exact Laws.taken_true _ _

theorem tapTraceRead_runs {x : TapScan} (c : s.clk.cold = false) : exec (.tapTraceRead x) s = .next (tapScan s x) := by
  show execTapTraceRead x s = _
  rw [execTapTraceRead, c]
  exact Laws.taken_true _ _

/-- Settles O57. -/
theorem debugAccessesAreChecked : Obligations.DebugAccessesAreChecked := by
  unfold Obligations.DebugAccessesAreChecked
  refine ⟨?_, ?_, ?_, ?_, ?_, ?_, ?_, ?_, ?_⟩
  · exact fun s op space h a d => dbgWinAccess_mod s
  · intro s op space h a d c b line w u
    have x := dbgWinAccess_runs (op := op) (space := space) (h := h) (d := d) c b
    have hu : shifted s op space h a d = u := rfl
    rw [hu] at x
    refine ⟨fun p o => ?_, fun o q => ?_, fun k v bs p q m o e g => ?_,
      fun k v st n p q m o e g r y z => ?_, fun p q o => ?_, fun p q o => ?_⟩
    · exact x.trans (congrArg _ (dbgAccess_closed p o))
    · exact x.trans (congrArg _ (dbgAccess_malformed o q))
    · have eu : combFor u h a = some k := e
      have wait : mustWait u k.keySel line none = mustWait s k.keySel line none := mustWait_tap _ _ _ _
      have ou : debugOpen u 1 h = true := o
      subst p q
      have z := x.trans (congrArg Host.Outcome.next ((dbgAccess_read m ou).trans (dbgMemory_read eu g)))
      refine ⟨fun r n y => ?_, fun r => ?_, fun r n => ?_⟩
      · refine Laws.answers_of_eq _ (z.trans (congrArg Host.Outcome.next
          ((if_neg ?_).trans ((if_neg ?_).trans (if_pos ?_))))) ?_
        · show ¬ (!s.clk.stream.ready) = true
          rw [r]
          decide
        · rw [wait, n]
          decide
        · rw [y]
        · rw [y]
          exact ⟨rfl, rfl, rfl, rfl⟩
      · refine z.trans (congrArg Host.Outcome.next (if_pos ?_))
        show (!s.clk.stream.ready) = true
        rw [r]
        rfl
      · refine z.trans (congrArg Host.Outcome.next ((if_neg ?_).trans (if_pos (wait.trans n))))
        show ¬ (!s.clk.stream.ready) = true
        rw [r]
        decide
    · have eu : combFor u h a = some k := e
      have wait : mustWait u k.keySel line (some w) = mustWait s k.keySel line (some w) := mustWait_tap _ _ _ _
      have ou : debugOpen u 1 h = true := o
      subst p q
      exact Laws.answers_of_eq _ (x.trans (congrArg Host.Outcome.next ((dbgAccess_write m ou).trans
        (dbgMemory_write eu g r (wait.trans y) z)))) ⟨rfl, rfl, rfl, rfl⟩
    · have ou : debugOpen u 0 h = true := o
      subst p q
      exact Laws.answers_of_eq _ (x.trans (congrArg Host.Outcome.next (dbgAccess_view ou))) ⟨rfl, rfl, List.length_append⟩
    · have ou : debugOpen u 0 h = true := o
      subst p q
      exact x.trans (congrArg Host.Outcome.next (dbgAccess_set ou))
  · exact fun s st => dbgRefuse_spec s st
  · intro s off w d c b
    exact (tapMboxAccess_runs c).trans (congrArg (fun t => Host.Outcome.next (demand (setIr t 0x12) .control)) (if_pos b))
  · intro s off d c m b
    have n : ¬ (off % 8 ≠ 0 ∨ 0x10000 ≤ off) := by omega
    exact ⟨(tapMboxAccess_runs c).trans (congrArg (fun t => Host.Outcome.next (demand (setIr t 0x12) .control))
      (if_neg n)),
      (tapMboxAccess_runs c).trans (congrArg (fun t => Host.Outcome.next (demand (setIr t 0x12) .control)) (if_neg n))⟩
  · intro s x c i o
    refine (tapTraceRead_runs c).trans (congrArg _ ?_)
    unfold tapScan
    dsimp only
    rw [i, if_neg (by decide), if_pos rfl]
    exact if_neg (by show ¬ debugOpen s 2 x.hive = true; rw [o]; decide)
  · intro s x c i o
    refine Laws.answers_of_eq { (emit (setIr s 0x11) (.tap (Config.traceWord s.free) .ok)) with free := s.free + 1 } ?_
      ⟨rfl, rfl, List.length_append⟩
    refine (tapTraceRead_runs c).trans (congrArg _ ?_)
    unfold tapScan
    dsimp only
    rw [i, if_neg (by decide), if_pos rfl]
    exact if_pos o
  · intro s x c i
    refine (tapTraceRead_runs c).trans (congrArg _ ?_)
    unfold tapScan
    dsimp only
    rw [i, if_pos rfl]
    rfl
  · intro s x c i j v
    refine (tapTraceRead_runs c).trans (congrArg _ ?_)
    unfold tapScan
    dsimp only
    rw [if_neg i, if_neg j]
    refine if_neg ?_
    rintro ⟨lo, hi, o⟩
    rcases v with v | v | v
    · omega
    · omega
    · exact absurd (v.symm.trans o) (by decide)

end Sys2Proof.TapRows
end
